-- ==== Sys2Proof/Word.lean ====
section
/-! DEFINITION. The words of the machine: bytes of memory and the 64-bit register slots. -/

namespace Sys2Proof

/-- One byte (00 R9). -/
abbrev Byte := BitVec 8

/-- One 8-byte register slot (21 R614). -/
abbrev Word := BitVec 64

end Sys2Proof
end

