-- ==== Sys2Proof/Syntax.lean ====
section
/-! DEFINITION. The commands of the block: one constructor per row of the command table, with the operands that name the
agents and data of the event (a packet opcode's command names the job whose entries carry its operands; a pipeline
instruction's command names the stone, the stage and the instruction's fields). -/

namespace Sys2Proof

/-- The fields of a pipeline instruction word besides its opcode (05 Table 5.11). -/
structure Insn where
  rd : Nat := 0
  dk : Nat := 0
  ra : Nat := 0
  ak : Nat := 0
  rb : Nat := 0
  bk : Nat := 0
  g : Bool := false
  gm : Nat := 0
  mod : Nat := 0
  typ : Nat := 0
  scale : Nat := 0
  imm : Nat := 0
  deriving DecidableEq, Repr

/-- The engines that take tasks from ready lists (04 R125, R130). -/
inductive Engine where
  | stone | quern | toll | sluice | storage | journal
  deriving DecidableEq, Repr

/-- What a zero-length flush read was issued for (02 R41, 16 R520): a job's release, or a channel's descriptor. -/
inductive FlushTarget where
  | job (j : Nat)
  | channel (c : Nat)
  deriving DecidableEq, Repr

/-- How a drive's command ends (10 R359, R385). -/
inductive DriveResult where
  | ok
  | mediaError
  | otherError
  deriving DecidableEq, Repr

/-- A line's burst as DRAM gives it (15 R502): the bits that arrive changed, each as one of the line's eight words and one of the word's 72
bits, 64 of data and then 8 of check; and the DPA of the line that answered, where it is another than the one asked for. -/
structure Burst where
  flips : List (Nat × Nat) := []
  origin : Option Nat := none
  deriving DecidableEq, Repr

/-- What the check of an array of a stone finds in a step (05 R191): nothing, or an uncorrectable error in the hopper, a register bank or
the program cache. -/
inductive StoneCheck where
  | clean
  | hopper
  | registerBank
  | programCache
  deriving DecidableEq, Repr

/-- A stage that steps (05 R156, R191): its number, what the check of the stone's arrays finds. -/
structure StageRun where
  no : Nat
  check : StoneCheck := .clean
  deriving DecidableEq, Repr

/-- A channel that takes a mover (16 R523): its number, the beats of the lower channel's burst that have gone. -/
structure Preemption where
  channel : Nat
  beats : Nat
  deriving DecidableEq, Repr

/-- What a completion of a host read answers (05 R191): a read made for a job; or the next read or AtomicOp of a 64-byte line of host
memory. -/
inductive HostRead where
  | job (id : Nat)
  | line (line : Nat)
  deriving DecidableEq, Repr

/-- A DRAM line read that returns (15 R502): the line's DPA, whether it is speculative, the bytes that a partial write merges
into it (R496), the job it serves, the burst that is checked. -/
structure DramAccess where
  dpa : Nat
  speculative : Bool := false
  merge : Option (List Byte) := none
  job : Option Nat := none
  burst : Burst := {}
  deriving DecidableEq, Repr

/-- What the ECC check of a Granary array finds (14 R485). -/
inductive ArrayCheck where
  | clean
  | corrected
  | uncorrectable
  deriving DecidableEq, Repr

/-- A line that a stone's access needs (14 R475): the DPA, the slice, the stone and the job it serves, whether its attribute
is WB-A, the bytes it writes from its DPA (none for a read), the check of the arrays where the line is held. -/
structure LineAccess where
  dpa : Nat
  slice : Nat
  stone : Nat := 0
  job : Option Nat := none
  writeBack : Bool := false
  write : Option (List Byte) := none
  check : ArrayCheck := .clean
  deriving DecidableEq, Repr

/-- A host access through BAR4 (21 R623): offset, size in bytes, bytes to write or none for a read. -/
structure BarAccess where
  off : Nat
  size : Nat
  write : Option (List Byte) := none
  deriving DecidableEq, Repr

/-- A register write through BAR0 or BAR2 (21 R615): BAR2 or not, offset, size in bytes, value. -/
structure RegWrite where
  bar2 : Bool
  off : Nat
  size : Nat
  value : Nat
  deriving DecidableEq, Repr

/-- A register read through BAR0 or BAR2. -/
structure RegRead where
  bar2 : Bool
  off : Nat
  size : Nat
  deriving DecidableEq, Repr

/-- An SMBus transaction with Packet Error Checking (18 R565): the address used, the data bytes of a write, whether
the check byte is right, the hottest junction sensor in 1/16 degrees. -/
structure SmbusReq where
  addr : Nat
  data : List Nat := []
  pecOk : Bool := true
  temp : Int := 0
  deriving DecidableEq, Repr

/-- The source of a warm reset (18 Table 18.1). -/
inductive WarmCause where
  | perst
  | hotReset
  deriving DecidableEq, Repr

/-- A DIMM as its SPD hub describes it (15 R487, Table 15.1): rated speed 0 DDR5-4800, 1 5600, 2 6400. -/
structure Dimm where
  present : Bool
  ec8Rdimm : Bool
  capacityGib : Nat
  density32 : Bool
  width4 : Bool
  ranks : Nat
  needsRfm : Bool
  ratedSpeed : Nat
  deriving DecidableEq, Repr

/-- What a drive offers (10 R383, R384): the highest link speed (as VOL_PORT_STATUS codes it; 0: the link does not train) and width,
the major number of its NVMe version, a format of 4,096 data bytes without metadata, Namespace Management and Attachment, a
volatile write cache, the I/O queue pairs it grants and their depth. -/
structure DriveCaps where
  speed : Nat := 0
  width : Nat := 0
  major : Nat := 0
  format : Bool := false
  management : Bool := false
  cache : Bool := false
  pairs : Nat := 0
  depth : Nat := 0
  deriving DecidableEq, Repr

/-- A drive at a storage port (10 R350, R383): whether one is fitted, whether it is another drive, blank, than the one the
port had, its 4,096-byte LBAs, what it offers, whether the CRC-32C of its copy of the volume table fails. -/
structure DriveDesc where
  fitted : Bool := false
  fresh : Bool := false
  lbas : Nat := 0
  caps : DriveCaps := {}
  damaged : Bool := false
  deriving DecidableEq, Repr

/-- A boot step's work fails in a way, in every boot on this board: the step, the way, the outcome, the detail (18 Table 18.3). -/
structure StepFault where
  step : Nat
  way : Nat
  outcome : Nat
  detail : Nat
  deriving DecidableEq, Repr

/-- What the board presents at power-on: test_en and perst_n (22 R634, R644), the SMBus address straps, the boot flash's mode
(R648) and image slots (19 R582), the link speed reached, the DIMMs, the temperatures in degrees, the Brake sensors whose
conditions hold (19 Table 19.5), the drives, the steps that fail. -/
structure Board where
  testEn : Bool := false
  perstN : Bool := true
  smbAddr : Nat := 0
  flashMode : Bool := true
  slotA : List Byte := []
  slotB : List Byte := []
  linkSpeed : Nat := 5
  dimms : List Dimm := []
  phyTemp : Int := 40
  dimmTemp : Int := 40
  sensors : Nat := 0
  drives : List DriveDesc := []
  faults : List StepFault := []
  deriving DecidableEq, Repr


/-- One command of the block per row of the command table. -/
inductive Instr where
  /-- NOP (R57). -/
  | nop (job : Nat)
  /-- FENCE (R58). -/
  | fence (job : Nat)
  /-- ABORT (R98). -/
  | abort (job : Nat)
  /-- QUERY (R61). -/
  | query (job : Nat)
  /-- PIPE_RUN (R161). -/
  | pipeRun (job : Nat)
  /-- PIPE_ARGS (R163). -/
  | pipeArgs (job : Nat)
  /-- INDEX_LOOKUP (R258). -/
  | indexLookup (job : Nat)
  /-- ROW_FETCH (R260). -/
  | rowFetch (job : Nat)
  /-- COPY (R516). -/
  | copy (job : Nat)
  /-- FILL (R516). -/
  | fill (job : Nat)
  /-- COPY_LIST (R516). -/
  | copyList (job : Nat)
  /-- COMPRESS (R399). -/
  | compress (job : Nat)
  /-- DECOMPRESS (R404). -/
  | decompress (job : Nat)
  /-- DIGEST (R423). -/
  | digest (job : Nat)
  /-- DIGEST_KEYED (R431). -/
  | digestKeyed (job : Nat)
  /-- CONTEXT_SAVE (R432). -/
  | contextSave (job : Nat)
  /-- CONTEXT_RESTORE (R434). -/
  | contextRestore (job : Nat)
  /-- READ (R359). -/
  | read (job : Nat)
  /-- WRITE (R358). -/
  | write (job : Nat)
  /-- FLUSH (R361). -/
  | flush (job : Nat)
  /-- TRIM (R360). -/
  | trim (job : Nat)
  /-- BEGIN (R306). -/
  | begin (job : Nat)
  /-- COMMIT (R309). -/
  | commit (job : Nat)
  /-- SNAPSHOT_OPEN (R324). -/
  | snapshotOpen (job : Nat)
  /-- SNAPSHOT_CLOSE (R325). -/
  | snapshotClose (job : Nat)
  /-- SLICE_CREATE (R540). -/
  | sliceCreate (job : Nat)
  /-- SLICE_RESET (R541). -/
  | sliceReset (job : Nat)
  /-- VOLUME_CREATE (R372). -/
  | volumeCreate (job : Nat)
  /-- VOLUME_DELETE (R374). -/
  | volumeDelete (job : Nat)
  /-- SANITISE (R375). -/
  | sanitise (job : Nat)
  /-- FORMAT (R376). -/
  | format (job : Nat)
  /-- DUMP_READ (R570). -/
  | dumpRead (job : Nat)
  /-- TLB_INVAL_ADDR (R461). -/
  | tlbInvalAddr (job : Nat)
  /-- TLB_INVAL_TAG (R461). -/
  | tlbInvalTag (job : Nat)
  /-- TLB_INVAL_ALL (R461). -/
  | tlbInvalAll (job : Nat)
  /-- END (R176). -/
  | endPart (stone stage : Nat) (f : Insn)
  /-- INSTR_NOP (R173). -/
  | instrNop (stone stage : Nat) (f : Insn)
  /-- BR (R657). -/
  | br (stone stage : Nat) (f : Insn)
  /-- LOOP (R176). -/
  | loop (stone stage : Nat) (f : Insn)
  /-- ENDLOOP (R176). -/
  | endloop (stone stage : Nat) (f : Insn)
  /-- MOVS (R657). -/
  | movs (stone stage : Nat) (f : Insn)
  /-- SALU (R657). -/
  | salu (stone stage : Nat) (f : Insn)
  /-- DCOL (R203). -/
  | dcol (stone stage : Nat) (f : Insn)
  /-- DREC (R293). -/
  | drec (stone stage : Nat) (f : Insn)
  /-- DROWID (R204). -/
  | drowid (stone stage : Nat) (f : Insn)
  /-- CMP (R214). -/
  | cmp (stone stage : Nat) (f : Insn)
  /-- TCMP (R216). -/
  | tcmp (stone stage : Nat) (f : Insn)
  /-- INSET (R217). -/
  | inset (stone stage : Nat) (f : Insn)
  /-- ISNULL (R218). -/
  | isnull (stone stage : Nat) (f : Insn)
  /-- MAND (R219). -/
  | mand (stone stage : Nat) (f : Insn)
  /-- MOR (R219). -/
  | mor (stone stage : Nat) (f : Insn)
  /-- MNOT (R219). -/
  | mnot (stone stage : Nat) (f : Insn)
  /-- SEL (R220). -/
  | sel (stone stage : Nat) (f : Insn)
  /-- ADD (R266). -/
  | add (stone stage : Nat) (f : Insn)
  /-- SUB (R266). -/
  | sub (stone stage : Nat) (f : Insn)
  /-- MUL (R266). -/
  | mul (stone stage : Nat) (f : Insn)
  /-- DIV (R267). -/
  | div (stone stage : Nat) (f : Insn)
  /-- REM (R268). -/
  | rem (stone stage : Nat) (f : Insn)
  /-- NEG (R266). -/
  | neg (stone stage : Nat) (f : Insn)
  /-- ABS (R266). -/
  | abs (stone stage : Nat) (f : Insn)
  /-- MIN (R266). -/
  | min (stone stage : Nat) (f : Insn)
  /-- MAX (R266). -/
  | max (stone stage : Nat) (f : Insn)
  /-- CVT (R272). -/
  | cvt (stone stage : Nat) (f : Insn)
  /-- MOV (R266). -/
  | mov (stone stage : Nat) (f : Insn)
  /-- CSEL (R266). -/
  | csel (stone stage : Nat) (f : Insn)
  /-- COALESCE (R266). -/
  | coalesce (stone stage : Nat) (f : Insn)
  /-- DPART (R173). -/
  | dpart (stone stage : Nat) (f : Insn)
  /-- DADD (R173). -/
  | dadd (stone stage : Nat) (f : Insn)
  /-- HASHK (R224). -/
  | hashk (stone stage : Nat) (f : Insn)
  /-- BUILD (R231). -/
  | build (stone stage : Nat) (f : Insn)
  /-- PROBE (R232). -/
  | probe (stone stage : Nat) (f : Insn)
  /-- PART (R226). -/
  | part (stone stage : Nat) (f : Insn)
  /-- AGG (R239). -/
  | agg (stone stage : Nat) (f : Insn)
  /-- GAGG (R240). -/
  | gagg (stone stage : Nat) (f : Insn)
  /-- AFIN (R239). -/
  | afin (stone stage : Nat) (f : Insn)
  /-- STCOL (R174). -/
  | stcol (stone stage : Nat) (f : Insn)
  /-- STREC (R297). -/
  | strec (stone stage : Nat) (f : Insn)
  /-- STSCL (R174). -/
  | stscl (stone stage : Nat) (f : Insn)
  /-- MERGE (R244). -/
  | merge (stone stage : Nat) (f : Insn)
  /-- TAPPEND (R318). -/
  | tappend (stone stage : Nat) (f : Insn)
  /-- DOORBELL (R81). -/
  | doorbell (slice queue value : Nat)
  /-- POLL (R87). -/
  | poll (gq : Nat)
  /-- WEIR_PASS (R117). -/
  | weirPass
  /-- ENTRY_FETCH (R69). -/
  | entryFetch
  /-- CHAIN_TIMEOUT (R95). -/
  | chainTimeout (gq : Nat)
  /-- TASK_CREATE (R125). -/
  | taskCreate
  /-- TASK_READY (R127). -/
  | taskReady (job part : Nat)
  /-- DELAY_OUT (R143). -/
  | delayOut (job : Nat)
  /-- DISPATCH_HOME (R133). -/
  | dispatchHome (engine : Engine) (unit : Nat)
  /-- DISPATCH_AFFINITY (R134). -/
  | dispatchAffinity (job part : Nat)
  /-- AFFINITY_WINDOW_END (R134). -/
  | affinityWindowEnd (job part : Nat)
  /-- STEAL (R135). -/
  | steal (stone : Nat)
  /-- BATCH_ADMIT (R156). -/
  | batchAdmit (stone : Nat)
  /-- STAGE_STEP (R156). -/
  | stageStep (stone : Nat) (stage : StageRun)
  /-- TASK_COMPLETE (R184). -/
  | taskComplete (job part : Nat)
  /-- FLOW_RELEASE (R138). -/
  | flowRelease (job part : Nat)
  /-- JOB_RELEASE (R25). -/
  | jobRelease (job : Nat)
  /-- BARRIER_FLUSH_DONE (R41). -/
  | barrierFlushDone (target : FlushTarget)
  /-- PREEMPT (R547). -/
  | preempt (mill : Nat)
  /-- PARK (R189). -/
  | park (stone : Nat)
  /-- TASK_STOP (R186). -/
  | taskStop (stone : Nat)
  /-- SORT_RUN (R247). -/
  | sortRun (job part : Nat)
  /-- COMBINE (R248). -/
  | combine (job part : Nat)
  /-- MERGE_UPDATE (R254). -/
  | mergeUpdate (job part : Nat)
  /-- RECORD_JOIN (R308). -/
  | recordJoin
  /-- COMMIT_CLAIMS (R321). -/
  | commitClaims
  /-- GROUP_CLOSE (R301). -/
  | groupClose
  /-- SEAL_DURABLE (R303). -/
  | sealDurable
  /-- EPOCH_PUBLISH (R304). -/
  | epochPublish
  /-- PROJECTION_APPLY (R381). -/
  | projectionApply (volume : Nat)
  /-- WRITEBACK (R367). -/
  | writeback (volume lba : Nat)
  /-- DRIVE_COMPLETE (R359). -/
  | driveComplete (port cmd : Nat) (result : DriveResult)
  /-- COMMAND_TIMEOUT (R385). -/
  | commandTimeout (port cmd : Nat) (retryOk : Bool)
  /-- REBUILD_DONE (R387). -/
  | rebuildDone (volume : Nat)
  /-- VOLUME_OP_DONE (R378). -/
  | volumeOpDone (volume : Nat)
  /-- REPLAY_DONE (R342). -/
  | replayDone
  /-- DESCRIPTOR_COMPLETE (R519). -/
  | descriptorComplete (channel : Nat)
  /-- MOVER_GRANT (R522). -/
  | moverGrant (mover : Nat)
  /-- MOVER_PREEMPT (R523). -/
  | moverPreempt (channel : Preemption)
  /-- REQUEST_LINE (R525). -/
  | requestLine (line : Nat) (level : Bool)
  /-- BLOCK_ABSORB (R416). -/
  | blockAbsorb (core : Nat)
  /-- LINE_FILL (R475). -/
  | lineFill (access : LineAccess)
  /-- DRAM_READ (R502). -/
  | dramRead (access : DramAccess)
  /-- WRITE_DRAIN (R496). -/
  | writeDrain (channel : Nat)
  /-- PAGE_IDLE_CLOSE (R495). -/
  | pageIdleClose (channel bank : Nat)
  /-- REFRESH (R498). -/
  | refresh (channel : Nat) (temp : Int)
  /-- ZQ_CALIBRATION (R499). -/
  | zqCalibration (channel : Nat)
  /-- TEMP_POLL (R492). -/
  | tempPoll (temp : Int)
  /-- PATROL_READ (R506). -/
  | patrolRead (burst : Burst)
  /-- SR_REENTRY (R500). -/
  | srReentry (channel : Nat)
  /-- QUEUE_ENABLE (R76). -/
  | queueEnable (gq value : Nat)
  /-- QUEUE_DISABLE (R77). -/
  | queueDisable (gq value : Nat)
  /-- EV_HEAD_WRITE (R104). -/
  | evHeadWrite (slice value : Nat)
  /-- TAILRACE_ENABLE (R656). -/
  | tailraceEnable (slice value : Nat)
  /-- EV_MODE_CHANGE (R110). -/
  | evModeChange (slice value : Nat)
  /-- PROFILE_WRITE (R28). -/
  | profileWrite (value : Nat)
  /-- PROFILE_LOCK (R32). -/
  | profileLock (value : Nat)
  /-- TRACE_ENABLE (R146). -/
  | traceEnable (value : Nat)
  /-- PREEMPT_COLS_APPLY (R193). -/
  | preemptColsApply
  /-- CHECK_CACHE_FLUSH (R183). -/
  | checkCacheFlush (value : Nat)
  /-- CHECKPOINT (R343). -/
  | checkpoint (value : Nat)
  /-- REPLAY_START (R342). -/
  | replayStart (value : Nat)
  /-- TABLE_REGISTER (R379). -/
  | tableRegister (table value : Nat)
  /-- PORT_ATTACH (R387). -/
  | portAttach (port value : Nat)
  /-- PORT_DETACH (R387). -/
  | portDetach (port value : Nat)
  /-- REGISTER_MARK (R429). -/
  | registerMark (context value : Nat)
  /-- INVAL_OP_ADDR (R464). -/
  | invalOpAddr (value : Nat)
  /-- INVAL_OP_TAG (R464). -/
  | invalOpTag (value : Nat)
  /-- INVAL_OP_ALL (R464). -/
  | invalOpAll (value : Nat)
  /-- INVAL_COMPLETE (R462). -/
  | invalComplete (job : Option Nat)
  /-- HOST_SYNC (R473). -/
  | hostSync (value : Nat)
  /-- GRANARY_DISABLE (R482). -/
  | granaryDisable (value : Nat)
  /-- GRANARY_ENABLE (R483). -/
  | granaryEnable (value : Nat)
  /-- DRAIN_COMPLETE (R482). -/
  | drainComplete
  /-- CLEAN (R477). -/
  | granClean (value : Nat)
  /-- INVALIDATE (R477). -/
  | granInvalidate (value : Nat)
  /-- CLEAN_INVALIDATE (R477). -/
  | granCleanInvalidate (value : Nat)
  /-- ZERO (R477). -/
  | granZero (value : Nat)
  /-- MAINT_COMPLETE (R479). -/
  | maintComplete
  /-- SR_REQ_SET (R500). -/
  | srReqSet (value : Nat)
  /-- SR_REQ_CLEAR (R500). -/
  | srReqClear (value : Nat)
  /-- ARM (R527). -/
  | arm (channel value : Nat)
  /-- DISARM (R527). -/
  | disarm (channel value : Nat)
  /-- STOP (R529). -/
  | stopChannel (channel value : Nat)
  /-- RESUME (R529). -/
  | resumeChannel (channel value : Nat)
  /-- RESET_DRAINED (R541). -/
  | resetDrained (slice : Nat)
  /-- MSIX_UNMASK (R538). -/
  | msixUnmask (vector : Nat)
  /-- BAR4_ACCESS (R623). -/
  | bar4Access (access : BarAccess)
  /-- BAR4_RESIZE (R623). -/
  | bar4Resize (log2 : Nat)
  /-- RC_READ (R15). -/
  | rcRead (access : RegRead)
  /-- REGISTER_WRITE (R14). -/
  | registerWrite (access : RegWrite)
  /-- BOOT_CLEAR (R562). -/
  | bootClear (value : Nat)
  /-- MANUAL_TRIGGER (R568). -/
  | manualTrigger (value : Nat)
  /-- OTP_PROGRAM (R576). -/
  | otpProgram (value : Nat)
  /-- OTP_PROGRAMMED (R576). -/
  | otpProgrammed (lost : Nat)
  /-- GENERATE (R580). -/
  | generateKey (value : Nat)
  /-- IMPORT (R580). -/
  | importKey (value : Nat)
  /-- CLEAR (R580). -/
  | clearKey (value : Nat)
  /-- GRANT (R580). -/
  | grantKey (value : Nat)
  /-- KEY_OP_DONE (R581). -/
  | keyOpDone
  /-- CHALLENGE (R591). -/
  | challenge (value : Nat)
  /-- RESTORE_DATA_WRITE (R592). -/
  | restoreDataWrite (value : Nat)
  /-- VERIFY (R592). -/
  | verify (value : Nat)
  /-- KEYS_RESTORED (R593). -/
  | keysRestored
  /-- COUNTER_FREEZE (R605). -/
  | counterFreeze (value : Nat)
  /-- COUNTER_UNFREEZE (R605). -/
  | counterUnfreeze (value : Nat)
  /-- COUNTER_CLEAR (R606). -/
  | counterClear (value : Nat)
  /-- COUNTER_WRITE (R603). -/
  | counterWrite (counter value : Nat)
  /-- SCK_OVERFLOW (R608). -/
  | sckOverflow (counter : Nat)
  /-- WINDOW_WRITE (R611). -/
  | windowWrite (value : Nat)
  /-- CLEAR_PEAK (R611). -/
  | clearPeak (value : Nat)
  /-- WINDOW_END (R610). -/
  | windowEnd
  /-- STATUS (R565). -/
  | statusCmd (req : SmbusReq)
  /-- TEMP (R565). -/
  | tempCmd (req : SmbusReq)
  /-- DUMP_TRIGGER (R565). -/
  | dumpTriggerCmd (req : SmbusReq)
  /-- CLEAR_BOOT (R562). -/
  | clearBootCmd (req : SmbusReq)
  /-- STEP (R565). -/
  | stepCmd (req : SmbusReq)
  /-- POWER_ON (R638). -/
  | powerOn (board : Board)
  /-- PWR_GOOD_FALL (R639). -/
  | pwrGoodFall
  /-- PWR_FAIL (R336). -/
  | pwrFail
  /-- WARM_RESET (R553). -/
  | warmReset (cause : WarmCause)
  /-- FUNCTION_LEVEL_RESET (R564). -/
  | functionLevelReset
  /-- BOOT_STEP_TIMEOUT (R555). -/
  | bootStepTimeout (step : Nat)
  /-- MILLER_WATCHDOG (R566). -/
  | millerWatchdog
  /-- FATAL_ERROR (R568). -/
  | fatalError (cls : Nat)
  /-- BRAKE_TRIP (R587). -/
  | brakeTrip (sensors live : Nat)
  /-- THERM_TRIP (R652). -/
  | thermTrip (temp : Int)
  /-- BUCKET_REFILL (R548). -/
  | bucketRefill
  /-- PERST_N_RISE (R644). -/
  | perstNRise
  /-- HOST_READ_COMPLETION (R191). -/
  | hostReadCompletion (read : HostRead) (error : Bool)
  /-- BLOCK_STAGED (R411). -/
  | blockStaged (quern : Nat)
  /-- ATOMICOP_REQUESTER_ENABLE (R451). -/
  | atomicopRequesterEnable (value : Bool)
  deriving DecidableEq, Repr

end Sys2Proof
end

