-- ==== Sys2Proof/Machine/Bits.lean ====
section
/-! DEFINITION. Bit fields, byte order and two's-complement reading (00 R8, R9). -/

namespace Sys2Proof.Machine

/-- Bits [lo + w - 1 : lo] of a number (R8). -/
def bitsAt (v lo w : Nat) : Nat := (v / 2 ^ lo) % 2 ^ w

/-- A single bit of a number (R8). -/
def bitAt (v n : Nat) : Bool := v.testBit n

/-- A number with the bits [lo + w - 1 : lo] replaced by the low w bits of x. -/
def putBits (v lo w x : Nat) : Nat :=
  v - bitsAt v lo w * 2 ^ lo + (x % 2 ^ w) * 2 ^ lo

/-- A Boolean as the bit it stands for. -/
def boolNat (b : Bool) : Nat := if b then 1 else 0

/-- A little-endian byte string as a number (R9). -/
def leNat : List Byte → Nat
  | [] => 0
  | b :: bs => b.toNat + 256 * leNat bs

/-- The low n bytes of a number, little-endian (R9). -/
def natLE : Nat → Nat → List Byte
  | 0, _ => []
  | n + 1, v => BitVec.ofNat 8 v :: natLE n (v / 256)

/-- A big-endian byte string as a number (R9: fields of legacy records). -/
def beNat (bs : List Byte) : Nat := leNat bs.reverse

/-- The low n bytes of a number, big-endian. -/
def natBE (n v : Nat) : List Byte := (natLE n v).reverse

/-- The n bytes from offset o of a byte string; bytes past its end are absent. -/
def sub (bs : List Byte) (o n : Nat) : List Byte := (bs.drop o).take n

/-- The little-endian number in the n bytes from offset o of a byte string. -/
def leAt (bs : List Byte) (o n : Nat) : Nat := leNat (sub bs o n)

/-- The byte string b written into bs from offset o, within the length of bs. -/
def patch (bs : List Byte) (o : Nat) (b : List Byte) : List Byte :=
  (bs.take o ++ b ++ bs.drop (o + b.length)).take bs.length

/-- n bytes of zero. -/
def zeros (n : Nat) : List Byte := List.replicate n 0

/-- A byte string padded with zeros to n bytes. -/
def padTo (bs : List Byte) (n : Nat) : List Byte := bs ++ zeros (n - bs.length)

/-- An n-bit two's-complement reading of a number. -/
def toSigned (n v : Nat) : Int :=
  let w := v % 2 ^ n
  if w < 2 ^ (n - 1) then (w : Int) else (w : Int) - (2 ^ n : Nat)

/-- The n-bit two's-complement pattern of an integer. -/
def ofSigned (n : Nat) (i : Int) : Nat := (i % ((2 ^ n : Nat) : Int)).toNat

/-- A number rounded up to a multiple of m (m above 0). -/
def alignUp (v m : Nat) : Nat := (v + m - 1) / m * m

/-- Whether [a, a + n) and [b, b + m) meet. -/
def rangesMeet (a n b m : Nat) : Bool := decide (0 < n ∧ 0 < m ∧ a < b + m ∧ b < a + n)

/-- The index of the highest 1 bit plus one; 0 for 0. -/
def bitLen (v : Nat) : Nat := if v = 0 then 0 else Nat.log2 v + 1

/-- The number of 1 bits among the low n bits. -/
def popCount : Nat → Nat → Nat
  | 0, _ => 0
  | n + 1, v => v % 2 + popCount n (v / 2)

/-- Bytes xored position by position. -/
def xorBytes (a b : List Byte) : List Byte := List.zipWith (· ^^^ ·) a b

end Sys2Proof.Machine
end

