-- ==== Sys2Proof/Machine/Aes.lean ====
section
/-! DEFINITION. AES-256 (FIPS 197), XTS of sectors (IEEE 1619, 10 R353), and AES key wrap with padding (RFC 5649, 12 R433,
19). -/

namespace Sys2Proof.Machine

/-- The S-box. -/
def aesSbox : List Nat :=
  [0x63, 0x7C, 0x77, 0x7B, 0xF2, 0x6B, 0x6F, 0xC5, 0x30, 0x01, 0x67, 0x2B, 0xFE, 0xD7, 0xAB, 0x76] ++
  [0xCA, 0x82, 0xC9, 0x7D, 0xFA, 0x59, 0x47, 0xF0, 0xAD, 0xD4, 0xA2, 0xAF, 0x9C, 0xA4, 0x72, 0xC0] ++
  [0xB7, 0xFD, 0x93, 0x26, 0x36, 0x3F, 0xF7, 0xCC, 0x34, 0xA5, 0xE5, 0xF1, 0x71, 0xD8, 0x31, 0x15] ++
  [0x04, 0xC7, 0x23, 0xC3, 0x18, 0x96, 0x05, 0x9A, 0x07, 0x12, 0x80, 0xE2, 0xEB, 0x27, 0xB2, 0x75] ++
  [0x09, 0x83, 0x2C, 0x1A, 0x1B, 0x6E, 0x5A, 0xA0, 0x52, 0x3B, 0xD6, 0xB3, 0x29, 0xE3, 0x2F, 0x84] ++
  [0x53, 0xD1, 0x00, 0xED, 0x20, 0xFC, 0xB1, 0x5B, 0x6A, 0xCB, 0xBE, 0x39, 0x4A, 0x4C, 0x58, 0xCF] ++
  [0xD0, 0xEF, 0xAA, 0xFB, 0x43, 0x4D, 0x33, 0x85, 0x45, 0xF9, 0x02, 0x7F, 0x50, 0x3C, 0x9F, 0xA8] ++
  [0x51, 0xA3, 0x40, 0x8F, 0x92, 0x9D, 0x38, 0xF5, 0xBC, 0xB6, 0xDA, 0x21, 0x10, 0xFF, 0xF3, 0xD2] ++
  [0xCD, 0x0C, 0x13, 0xEC, 0x5F, 0x97, 0x44, 0x17, 0xC4, 0xA7, 0x7E, 0x3D, 0x64, 0x5D, 0x19, 0x73] ++
  [0x60, 0x81, 0x4F, 0xDC, 0x22, 0x2A, 0x90, 0x88, 0x46, 0xEE, 0xB8, 0x14, 0xDE, 0x5E, 0x0B, 0xDB] ++
  [0xE0, 0x32, 0x3A, 0x0A, 0x49, 0x06, 0x24, 0x5C, 0xC2, 0xD3, 0xAC, 0x62, 0x91, 0x95, 0xE4, 0x79] ++
  [0xE7, 0xC8, 0x37, 0x6D, 0x8D, 0xD5, 0x4E, 0xA9, 0x6C, 0x56, 0xF4, 0xEA, 0x65, 0x7A, 0xAE, 0x08] ++
  [0xBA, 0x78, 0x25, 0x2E, 0x1C, 0xA6, 0xB4, 0xC6, 0xE8, 0xDD, 0x74, 0x1F, 0x4B, 0xBD, 0x8B, 0x8A] ++
  [0x70, 0x3E, 0xB5, 0x66, 0x48, 0x03, 0xF6, 0x0E, 0x61, 0x35, 0x57, 0xB9, 0x86, 0xC1, 0x1D, 0x9E] ++
  [0xE1, 0xF8, 0x98, 0x11, 0x69, 0xD9, 0x8E, 0x94, 0x9B, 0x1E, 0x87, 0xE9, 0xCE, 0x55, 0x28, 0xDF] ++
  [0x8C, 0xA1, 0x89, 0x0D, 0xBF, 0xE6, 0x42, 0x68, 0x41, 0x99, 0x2D, 0x0F, 0xB0, 0x54, 0xBB, 0x16]

/-- The inverse S-box. -/
def aesInvSbox : List Nat :=
  [0x52, 0x09, 0x6A, 0xD5, 0x30, 0x36, 0xA5, 0x38, 0xBF, 0x40, 0xA3, 0x9E, 0x81, 0xF3, 0xD7, 0xFB] ++
  [0x7C, 0xE3, 0x39, 0x82, 0x9B, 0x2F, 0xFF, 0x87, 0x34, 0x8E, 0x43, 0x44, 0xC4, 0xDE, 0xE9, 0xCB] ++
  [0x54, 0x7B, 0x94, 0x32, 0xA6, 0xC2, 0x23, 0x3D, 0xEE, 0x4C, 0x95, 0x0B, 0x42, 0xFA, 0xC3, 0x4E] ++
  [0x08, 0x2E, 0xA1, 0x66, 0x28, 0xD9, 0x24, 0xB2, 0x76, 0x5B, 0xA2, 0x49, 0x6D, 0x8B, 0xD1, 0x25] ++
  [0x72, 0xF8, 0xF6, 0x64, 0x86, 0x68, 0x98, 0x16, 0xD4, 0xA4, 0x5C, 0xCC, 0x5D, 0x65, 0xB6, 0x92] ++
  [0x6C, 0x70, 0x48, 0x50, 0xFD, 0xED, 0xB9, 0xDA, 0x5E, 0x15, 0x46, 0x57, 0xA7, 0x8D, 0x9D, 0x84] ++
  [0x90, 0xD8, 0xAB, 0x00, 0x8C, 0xBC, 0xD3, 0x0A, 0xF7, 0xE4, 0x58, 0x05, 0xB8, 0xB3, 0x45, 0x06] ++
  [0xD0, 0x2C, 0x1E, 0x8F, 0xCA, 0x3F, 0x0F, 0x02, 0xC1, 0xAF, 0xBD, 0x03, 0x01, 0x13, 0x8A, 0x6B] ++
  [0x3A, 0x91, 0x11, 0x41, 0x4F, 0x67, 0xDC, 0xEA, 0x97, 0xF2, 0xCF, 0xCE, 0xF0, 0xB4, 0xE6, 0x73] ++
  [0x96, 0xAC, 0x74, 0x22, 0xE7, 0xAD, 0x35, 0x85, 0xE2, 0xF9, 0x37, 0xE8, 0x1C, 0x75, 0xDF, 0x6E] ++
  [0x47, 0xF1, 0x1A, 0x71, 0x1D, 0x29, 0xC5, 0x89, 0x6F, 0xB7, 0x62, 0x0E, 0xAA, 0x18, 0xBE, 0x1B] ++
  [0xFC, 0x56, 0x3E, 0x4B, 0xC6, 0xD2, 0x79, 0x20, 0x9A, 0xDB, 0xC0, 0xFE, 0x78, 0xCD, 0x5A, 0xF4] ++
  [0x1F, 0xDD, 0xA8, 0x33, 0x88, 0x07, 0xC7, 0x31, 0xB1, 0x12, 0x10, 0x59, 0x27, 0x80, 0xEC, 0x5F] ++
  [0x60, 0x51, 0x7F, 0xA9, 0x19, 0xB5, 0x4A, 0x0D, 0x2D, 0xE5, 0x7A, 0x9F, 0x93, 0xC9, 0x9C, 0xEF] ++
  [0xA0, 0xE0, 0x3B, 0x4D, 0xAE, 0x2A, 0xF5, 0xB0, 0xC8, 0xEB, 0xBB, 0x3C, 0x83, 0x53, 0x99, 0x61] ++
  [0x17, 0x2B, 0x04, 0x7E, 0xBA, 0x77, 0xD6, 0x26, 0xE1, 0x69, 0x14, 0x63, 0x55, 0x21, 0x0C, 0x7D]

/-- Multiplication by x in the field of AES. -/
def xtime (a : Nat) : Nat := if 128 ≤ a then (2 * a) % 256 ^^^ 0x1B else 2 * a

/-- Multiplication in the field of AES, over the low n bits of b. -/
def gmulFuel : Nat → Nat → Nat → Nat
  | 0, _, _ => 0
  | n + 1, a, b => (if b % 2 = 1 then a else 0) ^^^ gmulFuel n (xtime a) (b / 2)

/-- Multiplication in the field of AES. -/
def gmul (a b : Nat) : Nat := gmulFuel 8 a b

/-- A byte through the S-box. -/
def subByte (a : Nat) : Nat := aesSbox.getD a 0

/-- The four bytes of word i of a key schedule held newest word first. -/
def keyStep (i : Nat) (rev : List (List Nat)) : List Nat :=
  let prev := rev.headD []
  let old := rev.getD 7 []
  let t := if i % 8 = 0 then
      match prev.map subByte with
      | a :: rest => List.zipWith (· ^^^ ·) (rest ++ [a]) [(List.range (i / 8 - 1)).foldl (fun r _ => xtime r) 1, 0, 0, 0]
      | [] => []
    else if i % 8 = 4 then prev.map subByte else prev
  List.zipWith (· ^^^ ·) old t

/-- The key schedule's words from word i on, newest first. -/
def keyWords : Nat → Nat → List (List Nat) → List (List Nat)
  | 0, _, rev => rev
  | n + 1, i, rev => keyWords n (i + 1) (keyStep i rev :: rev)

/-- The 15 round keys of a 32-byte key. -/
def roundKeys (key : List Byte) : List (List Nat) :=
  let k := key.map (·.toNat)
  let first := (List.range 8).map (fun i => (k.drop (4 * i)).take 4)
  let ws := (keyWords 52 8 first.reverse).reverse
  (List.range 15).map (fun r => ((ws.drop (4 * r)).take 4).flatten)

/-- ShiftRows by a sign: byte (r, c) from column c + r or c - r. -/
def shiftRows (inv : Bool) (st : List Nat) : List Nat :=
  (List.range 16).map (fun i =>
    let r := i % 4
    let c := i / 4
    st.getD (4 * ((if inv then c + 4 - r else c + r) % 4) + r) 0)

/-- MixColumns with a row of coefficients. -/
def mixColumns (co : List Nat) (st : List Nat) : List Nat :=
  (List.range 16).map (fun i =>
    let r := i % 4
    let c := i / 4
    (List.range 4).foldl (fun a k => a ^^^ gmul (st.getD (4 * c + k) 0) (co.getD ((k + 4 - r) % 4) 0)) 0)

/-- One 16-byte block encrypted. -/
def aesEnc (rks : List (List Nat)) (blk : List Byte) : List Byte :=
  let s0 := List.zipWith (· ^^^ ·) (blk.map (·.toNat)) (rks.headD [])
  let mid := ((rks.drop 1).take 13).foldl (fun s k =>
    List.zipWith (· ^^^ ·) (mixColumns [2, 3, 1, 1] (shiftRows false (s.map subByte))) k) s0
  (List.zipWith (· ^^^ ·) (shiftRows false (mid.map subByte)) (rks.getLastD [])).map (BitVec.ofNat 8)

/-- One 16-byte block decrypted. -/
def aesDec (rks : List (List Nat)) (blk : List Byte) : List Byte :=
  let inv (s : List Nat) : List Nat := (shiftRows true s).map (fun a => aesInvSbox.getD a 0)
  let s0 := List.zipWith (· ^^^ ·) (blk.map (·.toNat)) (rks.getLastD [])
  let mid := ((rks.drop 1).take 13).reverse.foldl (fun s k =>
    mixColumns [14, 11, 13, 9] (List.zipWith (· ^^^ ·) (inv s) k)) s0
  (List.zipWith (· ^^^ ·) (inv mid) (rks.headD [])).map (BitVec.ofNat 8)

/-- A tweak multiplied by alpha in GF(2^128), little-endian. -/
def tweakNext (t : Nat) : Nat := if 2 ^ 127 ≤ t then (2 * t) % 2 ^ 128 ^^^ 0x87 else 2 * t

/-- The 16-byte blocks of a sector under XTS, from tweak t on. -/
def xtsBlocks (f : List Byte → List Byte) : Nat → Nat → List Byte → List Byte
  | 0, _, _ => []
  | n + 1, t, bs =>
    let tb := natLE 16 t
    xorBytes (f (xorBytes (bs.take 16) tb)) tb ++ xtsBlocks f n (tweakNext t) (bs.drop 16)

/-- A sector through AES-256-XTS (10 R353): the 64-byte key is the data key and the tweak key; the tweak is the sector
number. -/
def xts (dec : Bool) (key : List Byte) (sector : Nat) (bs : List Byte) : List Byte :=
  let k1 := roundKeys (key.take 32)
  let t := leNat (aesEnc (roundKeys (key.drop 32)) (natLE 16 sector))
  xtsBlocks (if dec then aesDec k1 else aesEnc k1) (bs.length / 16) t bs

/-- The 8-byte semiblocks of a byte string. -/
def semiblocks (bs : List Byte) : List (List Byte) := (List.range (bs.length / 8)).map (fun i => sub bs (8 * i) 8)

/-- One pass of key wrap over the semiblocks: A, the count, the blocks wrapped so far. -/
def wrapPass (rks : List (List Nat)) (acc : List Byte × Nat × List (List Byte)) (r : List Byte) :
    List Byte × Nat × List (List Byte) :=
  let b := aesEnc rks (acc.1 ++ r)
  (xorBytes (b.take 8) (natBE 8 acc.2.1), acc.2.1 + 1, acc.2.2 ++ [b.drop 8])

/-- AES key wrap of semiblocks under RFC 3394 with initial value A. -/
def wrapCore (rks : List (List Nat)) (a : List Byte) (rs : List (List Byte)) : List Byte :=
  let r := (List.range 6).foldl (fun acc _ =>
    acc.2.2.foldl (wrapPass rks) (acc.1, acc.2.1, [])) (a, 1, rs)
  r.1 ++ r.2.2.flatten

/-- One pass of key unwrap, the last semiblock first. -/
def unwrapPass (rks : List (List Nat)) (acc : List Byte × Nat × List (List Byte)) (r : List Byte) :
    List Byte × Nat × List (List Byte) :=
  let b := aesDec rks (xorBytes acc.1 (natBE 8 acc.2.1) ++ r)
  (b.take 8, acc.2.1 - 1, b.drop 8 :: acc.2.2)

/-- AES key unwrap: A and the semiblocks. -/
def unwrapCore (rks : List (List Nat)) (c : List Byte) : List Byte × List Byte :=
  let rs := semiblocks (c.drop 8)
  let r := (List.range 6).foldl (fun acc _ =>
    acc.2.2.reverse.foldl (unwrapPass rks) (acc.1, acc.2.1, [])) (c.take 8, 6 * rs.length, rs)
  (r.1, r.2.2.flatten)

/-- The initial value of RFC 5649 for n bytes. -/
def kwpIv (n : Nat) : List Byte := [0xA6, 0x59, 0x59, 0xA6] ++ natBE 4 n

/-- AES key wrap with padding (RFC 5649) under a 32-byte key, for more than 8 bytes. -/
def kwpWrap (key m : List Byte) : List Byte :=
  wrapCore (roundKeys key) (kwpIv m.length) (semiblocks (padTo m (alignUp m.length 8)))

/-- AES key unwrap with padding: the n bytes wrapped; none where the check fails. -/
def kwpUnwrap (key c : List Byte) (n : Nat) : Option (List Byte) :=
  let (a, m) := unwrapCore (roundKeys key) c
  if a = kwpIv n ∧ m.length = alignUp n 8 ∧ (m.drop n).all (· == 0) then some (m.take n) else none

end Sys2Proof.Machine
end

