-- ==== Sys2Proof/Config.lean ====
section
/-! DEFINITION. What an implementation fixes and what the spec leaves open: constants with no body, so that no proof can
see their values. -/

namespace Sys2Proof.Config

/-- A fresh value the spec does not give (00 R5: "undefined"), drawn at the n-th draw of State.free. -/
opaque freeValue : Nat → Nat

/-- The device's random source (12 and 19: entropy, keys, challenges, nonces), at the n-th draw. -/
opaque entropy : Nat → Nat

/-- The root key of the part (19 R578), which no interface shows. -/
opaque rootKey : List Byte

/-- The 64-bit device identity (19 R578). -/
opaque deviceId : Nat

/-- The device wrapping key, an AES-256 key that the device derives from its root key (19 R578). -/
opaque wrappingKey : List Byte

/-- What the L128's compressor codes a block's bytes as (11 R402: for given input bytes the same blocks, the matches chosen
are the device's own). -/
opaque codePayload : List Byte → List Byte

/-- Whether a 96-byte ECDSA P-384 signature over a digest verifies under a 97-byte public key (19 R583, R592): the key, the
SHA-384 of the message, the signature. -/
opaque signatureValid : List Byte → List Byte → List Byte → Bool

/-- Whether the part is the EBF-L128-E (01 Table 1.7: grade 2), otherwise the EBF-L128-C (grade 1). -/
opaque gradeE : Bool

/-- The function that chooses the set of an L2 or shared TLB for a leaf of a slice, stage, level and page; the spec gives the number of
sets alone (13 Table 13.4, log 63). -/
opaque tlbSet : Nat → Bool → Nat → Nat → Nat

end Sys2Proof.Config
end

