-- ==== Sys2Proof/Machine/Regs.lean ====
section
/-! DEFINITION. The register file of BAR0 and BAR2: the names, offsets, widths, window selectors and field layouts of
the 178 registers and register arrays of chapter 21 (R613 to R622) and of the field tables of the chapters. The rows
follow the spec's tables column by column. -/

namespace Sys2Proof.Machine

/-- The registers, by the spec's names (21 Tables 21.4 to 21.10). -/
inductive Reg where
  | devId
  | devProfile
  | devCfg
  | wqSel
  | wqCfg
  | wqRingBase
  | wqStatusBase
  | wqHeadAddr
  | wqState
  | wqChainTimeout
  | slcEvBase
  | slcEvCfg
  | weirQcfg
  | weirQstat
  | weirRound
  | weirCtl
  | fanStatus
  | fanAffinity
  | fanFlowSel
  | fanFlowCfg
  | fanTick
  | fanDelayStat
  | fanTraceBase
  | fanTraceCfg
  | fanTraceTail
  | stnCfg
  | stnCheckCtl
  | stnSel
  | stnState
  | stnStage
  | stnFault
  | stnPcache
  | stnScanFault
  | millSel
  | millStatus
  | grnCtl
  | grnStatus
  | grnMaintBase
  | grnMaintLen
  | grnMaintCtl
  | grnMaintBusy
  | grnErr
  | grnErrCnt
  | dmcStatus
  | dmcChSel
  | dmcChStatus
  | dmcCeCnt
  | dmcDlySel
  | dmcDly
  | dmcPageCfg
  | dmcRowguard
  | dmcPwr
  | dmcScrub
  | dmcScrubPos
  | dmcErrCfg
  | dmcErr
  | dmcErrDpa
  | sluChSel
  | sluBusy
  | sluChCfg
  | sluChCtl
  | sluChStatus
  | sluChDone
  | sluActSrc
  | sluActDst
  | sluActLen
  | sluActCtrl
  | sluActTap
  | sluShdSrc
  | sluShdDst
  | sluShdLen
  | sluShdCtrl
  | sluShdTap
  | sluChErr
  | sluChErrAddr
  | qrnSel
  | qrnState
  | qrnErr
  | qrnErrCtx
  | tolCfg
  | tolStatus
  | tolCtxSel
  | tolCtxState
  | tolLastWord
  | tolValidBytes
  | tolTapSel
  | tolTapBase
  | tolTapCfg
  | tolVtap
  | xltCfg
  | xltSliceSel
  | xltS2Root
  | xltFault
  | xltFaultSva
  | xltFaultSpa
  | xltInval
  | xltInvalAddr
  | xltInvalPages
  | slcSel
  | slcCfg
  | slcPasid
  | slcGen
  | slcBwCfg
  | slcBwStat
  | volSel
  | volCfg
  | volCap
  | volState
  | volFlushed
  | volProgress
  | volProjBad
  | volDirty
  | volPortSel
  | volPortStatus
  | volPortCtl
  | mpdEpoch
  | mpdGroupStat
  | mpdSeq
  | mpdGroupCfg
  | mpdLowWater
  | mpdSnapStat
  | mpdStatus
  | mpdSpace
  | mpdTrunc
  | mpdCkpt
  | mpdReplay
  | mpdRecovery
  | mpdBreakSeq
  | mpdTableSel
  | mpdTableCfg
  | mpdTableStat
  | mpdWear
  | mpdWinBase
  | otpStatus
  | otpGroupSel
  | otpGroup
  | otpProgValue
  | otpProgCtl
  | brkStatus
  | brkResp
  | brkLog
  | brkKeySel
  | brkKeyCfg
  | brkKeyCtl
  | brkRestoreCtl
  | brkRestoreData
  | brkKeyData
  | sckCtl
  | sckStatus
  | sckOvf0
  | sckOvf1
  | sckSel
  | sckEvt
  | sckFilt
  | sckBwCfg
  | sckBwCtl
  | sckBwSel
  | sckBwLast
  | sckBwPeak
  | sckAddrBase
  | sckAddrLimit
  | sckCnt
  | bootStatus
  | bootStepSel
  | bootStep
  | bootClear
  | bootImage
  | bootDump
  | wqDoorbell
  | slcWqHead
  | slcFault
  | slcStatus
  | slcEvHead
  | slcEvTail
  | slcEvDrops
  | slcS1Root
  | slcPkeyRights
  | slcLateDiscards
  deriving DecidableEq, Repr

/-- The access codes of 00 Table 0.4. -/
inductive Acc where
  | ro | rw | wo | w1c | w1s | rc | rwl
  deriving DecidableEq, Repr

/-- The register that chooses a window's instance (column Selector of 21 Tables 21.4 to 21.9). -/
inductive Sel where
  | none
  | wqSel
  | wqSlice
  | flowSel
  | stnSel
  | millSel
  | dmcCh
  | dmcDly
  | sluCh
  | qrnSel
  | tolCtx
  | tolTap
  | volSel
  | xltSlice
  | slcSel
  | volPort
  | mpdTable
  | otpGroup
  | brkKey
  | sckSel
  | sckBw
  | bootStep
  deriving DecidableEq, Repr

/-- A field of a register: its lowest bit and its width in bits. -/
structure Fld where
  reg : Reg
  lo : Nat
  width : Nat
  deriving DecidableEq, Repr

/-- A row of a field table: the field and its access code. -/
structure FldRow where
  fld : Fld
  acc : Acc
  deriving DecidableEq, Repr

/-- A row of 21 Tables 21.4 to 21.10: the BAR and offset of the counted address, the stride of an array, the number of
instances the register has, its width, its window address and the window's selector. -/
structure RegRow where
  reg : Reg
  bar2 : Bool
  off : Nat
  stride : Nat
  insts : Nat
  wide : Bool
  win : Option Nat
  sel : Sel
  flds : List FldRow
  deriving DecidableEq, Repr

namespace F

/-- DEV_ID.part, bits [31:16] (01). -/
def devId_part : Fld := ⟨.devId, 16, 16⟩
/-- DEV_ID.stepping, bits [15:8] (01). -/
def devId_stepping : Fld := ⟨.devId, 8, 8⟩
/-- DEV_ID.grade, bits [7:4] (01). -/
def devId_grade : Fld := ⟨.devId, 4, 4⟩
/-- DEV_PROFILE.lock, bits [31:31] (01). -/
def devProfile_lock : Fld := ⟨.devProfile, 31, 1⟩
/-- DEV_PROFILE.custom, bits [2:2] (01). -/
def devProfile_custom : Fld := ⟨.devProfile, 2, 1⟩
/-- DEV_PROFILE.profile, bits [1:0] (01). -/
def devProfile_profile : Fld := ⟨.devProfile, 0, 2⟩
/-- DEV_CFG.steal_mode, bits [5:4] (01). -/
def devCfg_steal_mode : Fld := ⟨.devCfg, 4, 2⟩
/-- DEV_CFG.wba_scope, bits [3:2] (01). -/
def devCfg_wba_scope : Fld := ⟨.devCfg, 2, 2⟩
/-- DEV_CFG.ev_lossless, bits [1:1] (01). -/
def devCfg_ev_lossless : Fld := ⟨.devCfg, 1, 1⟩
/-- DEV_CFG.strict_failstop, bits [0:0] (01). -/
def devCfg_strict_failstop : Fld := ⟨.devCfg, 0, 1⟩
/-- WQ_SEL.queue, bits [8:0] (03). -/
def wqSel_queue : Fld := ⟨.wqSel, 0, 9⟩
/-- WQ_CFG.enable, bits [31:31] (03). -/
def wqCfg_enable : Fld := ⟨.wqCfg, 31, 1⟩
/-- WQ_CFG.poll, bits [30:30] (03). -/
def wqCfg_poll : Fld := ⟨.wqCfg, 30, 1⟩
/-- WQ_CFG.depth_log2, bits [20:16] (03). -/
def wqCfg_depth_log2 : Fld := ⟨.wqCfg, 16, 5⟩
/-- WQ_CFG.poll_interval, bits [15:0] (03). -/
def wqCfg_poll_interval : Fld := ⟨.wqCfg, 0, 16⟩
/-- WQ_RING_BASE.base, bits [47:12] (03). -/
def wqRingBase_base : Fld := ⟨.wqRingBase, 12, 36⟩
/-- WQ_STATUS_BASE.base, bits [47:12] (03). -/
def wqStatusBase_base : Fld := ⟨.wqStatusBase, 12, 36⟩
/-- WQ_HEAD_ADDR.addr, bits [47:3] (03). -/
def wqHeadAddr_addr : Fld := ⟨.wqHeadAddr, 3, 45⟩
/-- WQ_STATE.fetch, bits [63:32] (03). -/
def wqState_fetch : Fld := ⟨.wqState, 32, 32⟩
/-- WQ_STATE.cfg_error, bits [4:4] (03). -/
def wqState_cfg_error : Fld := ⟨.wqState, 4, 1⟩
/-- WQ_STATE.db_ignored, bits [3:3] (03). -/
def wqState_db_ignored : Fld := ⟨.wqState, 3, 1⟩
/-- WQ_STATE.txn_open, bits [2:2] (03). -/
def wqState_txn_open : Fld := ⟨.wqState, 2, 1⟩
/-- WQ_STATE.chain_open, bits [1:1] (03). -/
def wqState_chain_open : Fld := ⟨.wqState, 1, 1⟩
/-- WQ_STATE.idle, bits [0:0] (03). -/
def wqState_idle : Fld := ⟨.wqState, 0, 1⟩
/-- WQ_CHAIN_TIMEOUT.ticks, bits [19:0] (03). -/
def wqChainTimeout_ticks : Fld := ⟨.wqChainTimeout, 0, 20⟩
/-- SLC_EV_BASE.base, bits [47:12] (03). -/
def slcEvBase_base : Fld := ⟨.slcEvBase, 12, 36⟩
/-- SLC_EV_CFG.enable, bits [31:31] (03). -/
def slcEvCfg_enable : Fld := ⟨.slcEvCfg, 31, 1⟩
/-- SLC_EV_CFG.lossless, bits [30:30] (03). -/
def slcEvCfg_lossless : Fld := ⟨.slcEvCfg, 30, 1⟩
/-- SLC_EV_CFG.depth_log2, bits [4:0] (03). -/
def slcEvCfg_depth_log2 : Fld := ⟨.slcEvCfg, 0, 5⟩
/-- WEIR_QCFG.jobs_max, bits [28:16] (04). -/
def weirQcfg_jobs_max : Fld := ⟨.weirQcfg, 16, 13⟩
/-- WEIR_QCFG.weight, bits [15:8] (04). -/
def weirQcfg_weight : Fld := ⟨.weirQcfg, 8, 8⟩
/-- WEIR_QCFG.burst_m1, bits [5:0] (04). -/
def weirQcfg_burst_m1 : Fld := ⟨.weirQcfg, 0, 6⟩
/-- WEIR_QSTAT.jobs, bits [45:32] (04). -/
def weirQstat_jobs : Fld := ⟨.weirQstat, 32, 14⟩
/-- WEIR_QSTAT.weight_active, bits [23:16] (04). -/
def weirQstat_weight_active : Fld := ⟨.weirQstat, 16, 8⟩
/-- WEIR_QSTAT.credit, bits [15:8] (04). -/
def weirQstat_credit : Fld := ⟨.weirQstat, 8, 8⟩
/-- WEIR_QSTAT.burst_active_m1, bits [5:0] (04). -/
def weirQstat_burst_active_m1 : Fld := ⟨.weirQstat, 0, 6⟩
/-- WEIR_ROUND.round, bits [31:0] (04). -/
def weirRound_round : Fld := ⟨.weirRound, 0, 32⟩
/-- WEIR_CTL.hold, bits [0:0] (04). -/
def weirCtl_hold : Fld := ⟨.weirCtl, 0, 1⟩
/-- FAN_STATUS.dep_underflow, bits [63:63] (04). -/
def fanStatus_dep_underflow : Fld := ⟨.fanStatus, 63, 1⟩
/-- FAN_STATUS.trace_fault, bits [62:62] (04). -/
def fanStatus_trace_fault : Fld := ⟨.fanStatus, 62, 1⟩
/-- FAN_STATUS.jobs, bits [61:48] (04). -/
def fanStatus_jobs : Fld := ⟨.fanStatus, 48, 14⟩
/-- FAN_STATUS.tasks, bits [47:32] (04). -/
def fanStatus_tasks : Fld := ⟨.fanStatus, 32, 16⟩
/-- FAN_STATUS.counters, bits [16:0] (04). -/
def fanStatus_counters : Fld := ⟨.fanStatus, 0, 17⟩
/-- FAN_AFFINITY.window, bits [15:0] (04). -/
def fanAffinity_window : Fld := ⟨.fanAffinity, 0, 16⟩
/-- FAN_FLOW_SEL.flow, bits [11:0] (04). -/
def fanFlowSel_flow : Fld := ⟨.fanFlowSel, 0, 12⟩
/-- FAN_FLOW_CFG.valid, bits [31:31] (04). -/
def fanFlowCfg_valid : Fld := ⟨.fanFlowCfg, 31, 1⟩
/-- FAN_FLOW_CFG.busy, bits [30:30] (04). -/
def fanFlowCfg_busy : Fld := ⟨.fanFlowCfg, 30, 1⟩
/-- FAN_FLOW_CFG.owner, bits [13:8] (04). -/
def fanFlowCfg_owner : Fld := ⟨.fanFlowCfg, 8, 6⟩
/-- FAN_FLOW_CFG.last_valid, bits [7:7] (04). -/
def fanFlowCfg_last_valid : Fld := ⟨.fanFlowCfg, 7, 1⟩
/-- FAN_FLOW_CFG.last_stone, bits [6:0] (04). -/
def fanFlowCfg_last_stone : Fld := ⟨.fanFlowCfg, 0, 7⟩
/-- FAN_TICK.ticks, bits [63:0] (04). -/
def fanTick_ticks : Fld := ⟨.fanTick, 0, 64⟩
/-- FAN_DELAY_STAT.list3, bits [63:48] (04). -/
def fanDelayStat_list3 : Fld := ⟨.fanDelayStat, 48, 16⟩
/-- FAN_DELAY_STAT.list2, bits [47:32] (04). -/
def fanDelayStat_list2 : Fld := ⟨.fanDelayStat, 32, 16⟩
/-- FAN_DELAY_STAT.list1, bits [31:16] (04). -/
def fanDelayStat_list1 : Fld := ⟨.fanDelayStat, 16, 16⟩
/-- FAN_DELAY_STAT.list0, bits [15:0] (04). -/
def fanDelayStat_list0 : Fld := ⟨.fanDelayStat, 0, 16⟩
/-- FAN_TRACE_BASE.base, bits [47:12] (04). -/
def fanTraceBase_base : Fld := ⟨.fanTraceBase, 12, 36⟩
/-- FAN_TRACE_CFG.enable, bits [31:31] (04). -/
def fanTraceCfg_enable : Fld := ⟨.fanTraceCfg, 31, 1⟩
/-- FAN_TRACE_CFG.slice_filter_en, bits [30:30] (04). -/
def fanTraceCfg_slice_filter_en : Fld := ⟨.fanTraceCfg, 30, 1⟩
/-- FAN_TRACE_CFG.slice, bits [29:24] (04). -/
def fanTraceCfg_slice : Fld := ⟨.fanTraceCfg, 24, 6⟩
/-- FAN_TRACE_CFG.depth_log2, bits [20:16] (04). -/
def fanTraceCfg_depth_log2 : Fld := ⟨.fanTraceCfg, 16, 5⟩
/-- FAN_TRACE_CFG.kind_mask, bits [12:1] (04). -/
def fanTraceCfg_kind_mask : Fld := ⟨.fanTraceCfg, 1, 12⟩
/-- FAN_TRACE_TAIL.tail, bits [31:0] (04). -/
def fanTraceTail_tail : Fld := ⟨.fanTraceTail, 0, 32⟩
/-- STN_CFG.preempt_active, bits [17:16] (05). -/
def stnCfg_preempt_active : Fld := ⟨.stnCfg, 16, 2⟩
/-- STN_CFG.preempt_cols, bits [1:0] (05). -/
def stnCfg_preempt_cols : Fld := ⟨.stnCfg, 0, 2⟩
/-- STN_CHECK_CTL.flush, bits [31:31] (05). -/
def stnCheckCtl_flush : Fld := ⟨.stnCheckCtl, 31, 1⟩
/-- STN_CHECK_CTL.entries, bits [9:0] (05). -/
def stnCheckCtl_entries : Fld := ⟨.stnCheckCtl, 0, 10⟩
/-- STN_SEL.stone, bits [6:0] (05). -/
def stnSel_stone : Fld := ⟨.stnSel, 0, 7⟩
/-- STN_STATE.busy, bits [63:63] (05). -/
def stnState_busy : Fld := ⟨.stnState, 63, 1⟩
/-- STN_STATE.parked, bits [62:62] (05). -/
def stnState_parked : Fld := ⟨.stnState, 62, 1⟩
/-- STN_STATE.interactive, bits [61:61] (05). -/
def stnState_interactive : Fld := ⟨.stnState, 61, 1⟩
/-- STN_STATE.slice, bits [60:55] (05). -/
def stnState_slice : Fld := ⟨.stnState, 55, 6⟩
/-- STN_STATE.tag, bits [47:32] (05). -/
def stnState_tag : Fld := ⟨.stnState, 32, 16⟩
/-- STN_STATE.partition, bits [16:0] (05). -/
def stnState_partition : Fld := ⟨.stnState, 0, 17⟩
/-- STN_STAGE.frames, bits [31:28] (05). -/
def stnStage_frames : Fld := ⟨.stnStage, 28, 4⟩
/-- STN_STAGE.in_flight, bits [27:24] (05). -/
def stnStage_in_flight : Fld := ⟨.stnStage, 24, 4⟩
/-- STN_STAGE.state, bits [23:0] (05). -/
def stnStage_state : Fld := ⟨.stnStage, 0, 24⟩
/-- STN_FAULT.valid, bits [63:63] (05). -/
def stnFault_valid : Fld := ⟨.stnFault, 63, 1⟩
/-- STN_FAULT.stage, bits [62:60] (05). -/
def stnFault_stage : Fld := ⟨.stnFault, 60, 3⟩
/-- STN_FAULT.part, bits [59:58] (05). -/
def stnFault_part : Fld := ⟨.stnFault, 58, 2⟩
/-- STN_FAULT.instruction, bits [44:32] (05). -/
def stnFault_instruction : Fld := ⟨.stnFault, 32, 13⟩
/-- STN_FAULT.status, bits [31:16] (05). -/
def stnFault_status : Fld := ⟨.stnFault, 16, 16⟩
/-- STN_FAULT.tag, bits [15:0] (05). -/
def stnFault_tag : Fld := ⟨.stnFault, 0, 16⟩
/-- STN_PCACHE.programs, bits [31:24] (05). -/
def stnPcache_programs : Fld := ⟨.stnPcache, 24, 8⟩
/-- STN_PCACHE.bytes, bits [16:0] (05). -/
def stnPcache_bytes : Fld := ⟨.stnPcache, 0, 17⟩
/-- STN_SCAN_FAULT.valid, bits [63:63] (06). -/
def stnScanFault_valid : Fld := ⟨.stnScanFault, 63, 1⟩
/-- STN_SCAN_FAULT.source, bits [62:61] (06). -/
def stnScanFault_source : Fld := ⟨.stnScanFault, 61, 2⟩
/-- STN_SCAN_FAULT.column, bits [55:48] (06). -/
def stnScanFault_column : Fld := ⟨.stnScanFault, 48, 8⟩
/-- STN_SCAN_FAULT.status, bits [47:32] (06). -/
def stnScanFault_status : Fld := ⟨.stnScanFault, 32, 16⟩
/-- STN_SCAN_FAULT.offset, bits [31:0] (06). -/
def stnScanFault_offset : Fld := ⟨.stnScanFault, 0, 32⟩
/-- MILL_SEL.mill, bits [3:0] (05). -/
def millSel_mill : Fld := ⟨.millSel, 0, 4⟩
/-- MILL_STATUS.ready, bits [63:48] (05). -/
def millStatus_ready : Fld := ⟨.millStatus, 48, 16⟩
/-- MILL_STATUS.parked, bits [39:32] (05). -/
def millStatus_parked : Fld := ⟨.millStatus, 32, 8⟩
/-- MILL_STATUS.busy, bits [31:24] (05). -/
def millStatus_busy : Fld := ⟨.millStatus, 24, 8⟩
/-- MILL_STATUS.merge_busy, bits [0:0] (05). -/
def millStatus_merge_busy : Fld := ⟨.millStatus, 0, 1⟩
/-- GRN_CTL.enable, bits [31:31] (14). -/
def grnCtl_enable : Fld := ⟨.grnCtl, 31, 1⟩
/-- GRN_CTL.host_sync, bits [30:30] (14). -/
def grnCtl_host_sync : Fld := ⟨.grnCtl, 30, 1⟩
/-- GRN_STATUS.state, bits [31:30] (14). -/
def grnStatus_state : Fld := ⟨.grnStatus, 30, 2⟩
/-- GRN_STATUS.dirty_lines, bits [21:0] (14). -/
def grnStatus_dirty_lines : Fld := ⟨.grnStatus, 0, 22⟩
/-- GRN_MAINT_BASE.base, bits [51:0] (14). -/
def grnMaintBase_base : Fld := ⟨.grnMaintBase, 0, 52⟩
/-- GRN_MAINT_LEN.len, bits [51:0] (14). -/
def grnMaintLen_len : Fld := ⟨.grnMaintLen, 0, 52⟩
/-- GRN_MAINT_CTL.go, bits [31:31] (14). -/
def grnMaintCtl_go : Fld := ⟨.grnMaintCtl, 31, 1⟩
/-- GRN_MAINT_CTL.error, bits [30:30] (14). -/
def grnMaintCtl_error : Fld := ⟨.grnMaintCtl, 30, 1⟩
/-- GRN_MAINT_CTL.op, bits [1:0] (14). -/
def grnMaintCtl_op : Fld := ⟨.grnMaintCtl, 0, 2⟩
/-- GRN_MAINT_BUSY.busy, bits [31:31] (14). -/
def grnMaintBusy_busy : Fld := ⟨.grnMaintBusy, 31, 1⟩
/-- GRN_MAINT_BUSY.completed, bits [15:0] (14). -/
def grnMaintBusy_completed : Fld := ⟨.grnMaintBusy, 0, 16⟩
/-- GRN_ERR.valid, bits [63:63] (14). -/
def grnErr_valid : Fld := ⟨.grnErr, 63, 1⟩
/-- GRN_ERR.dirty, bits [62:62] (14). -/
def grnErr_dirty : Fld := ⟨.grnErr, 62, 1⟩
/-- GRN_ERR.bank, bits [55:52] (14). -/
def grnErr_bank : Fld := ⟨.grnErr, 52, 4⟩
/-- GRN_ERR.line, bits [51:6] (14). -/
def grnErr_line : Fld := ⟨.grnErr, 6, 46⟩
/-- GRN_ERR_CNT.corrected, bits [31:0] (14). -/
def grnErrCnt_corrected : Fld := ⟨.grnErrCnt, 0, 32⟩
/-- DMC_STATUS.init_done, bits [31:31] (15). -/
def dmcStatus_init_done : Fld := ⟨.dmcStatus, 31, 1⟩
/-- DMC_STATUS.self_refresh, bits [30:30] (15). -/
def dmcStatus_self_refresh : Fld := ⟨.dmcStatus, 30, 1⟩
/-- DMC_STATUS.switching, bits [29:29] (15). -/
def dmcStatus_switching : Fld := ⟨.dmcStatus, 29, 1⟩
/-- DMC_STATUS.band, bits [25:24] (15). -/
def dmcStatus_band : Fld := ⟨.dmcStatus, 24, 2⟩
/-- DMC_STATUS.speed, bits [23:22] (15). -/
def dmcStatus_speed : Fld := ⟨.dmcStatus, 22, 2⟩
/-- DMC_STATUS.capacity_gib, bits [10:0] (15). -/
def dmcStatus_capacity_gib : Fld := ⟨.dmcStatus, 0, 11⟩
/-- DMC_CH_SEL.channel, bits [3:0] (15). -/
def dmcChSel_channel : Fld := ⟨.dmcChSel, 0, 4⟩
/-- DMC_CH_STATUS.dimm_temp, bits [31:24] (15). -/
def dmcChStatus_dimm_temp : Fld := ⟨.dmcChStatus, 24, 8⟩
/-- DMC_CH_STATUS.fast_refresh, bits [23:23] (15). -/
def dmcChStatus_fast_refresh : Fld := ⟨.dmcChStatus, 23, 1⟩
/-- DMC_CH_STATUS.owed, bits [22:20] (15). -/
def dmcChStatus_owed : Fld := ⟨.dmcChStatus, 20, 3⟩
/-- DMC_CH_STATUS.ranks, bits [15:14] (15). -/
def dmcChStatus_ranks : Fld := ⟨.dmcChStatus, 14, 2⟩
/-- DMC_CH_STATUS.width, bits [13:13] (15). -/
def dmcChStatus_width : Fld := ⟨.dmcChStatus, 13, 1⟩
/-- DMC_CH_STATUS.density, bits [12:12] (15). -/
def dmcChStatus_density : Fld := ⟨.dmcChStatus, 12, 1⟩
/-- DMC_CE_CNT.corrected, bits [31:0] (15). -/
def dmcCeCnt_corrected : Fld := ⟨.dmcCeCnt, 0, 32⟩
/-- DMC_DLY_SEL.sub, bits [8:8] (15). -/
def dmcDlySel_sub : Fld := ⟨.dmcDlySel, 8, 1⟩
/-- DMC_DLY_SEL.entry, bits [7:0] (15). -/
def dmcDlySel_entry : Fld := ⟨.dmcDlySel, 0, 8⟩
/-- DMC_DLY.steps, bits [9:0] (15). -/
def dmcDly_steps : Fld := ⟨.dmcDly, 0, 10⟩
/-- DMC_PAGE_CFG.idle, bits [9:0] (15). -/
def dmcPageCfg_idle : Fld := ⟨.dmcPageCfg, 0, 10⟩
/-- DMC_ROWGUARD.radius2, bits [31:31] (15). -/
def dmcRowguard_radius2 : Fld := ⟨.dmcRowguard, 31, 1⟩
/-- DMC_ROWGUARD.n, bits [7:0] (15). -/
def dmcRowguard_n : Fld := ⟨.dmcRowguard, 0, 8⟩
/-- DMC_PWR.sr_req, bits [31:31] (15). -/
def dmcPwr_sr_req : Fld := ⟨.dmcPwr, 31, 1⟩
/-- DMC_PWR.error, bits [30:30] (15). -/
def dmcPwr_error : Fld := ⟨.dmcPwr, 30, 1⟩
/-- DMC_PWR.exits, bits [15:0] (15). -/
def dmcPwr_exits : Fld := ⟨.dmcPwr, 0, 16⟩
/-- DMC_SCRUB.enable, bits [31:31] (15). -/
def dmcScrub_enable : Fld := ⟨.dmcScrub, 31, 1⟩
/-- DMC_SCRUB.period_h, bits [7:0] (15). -/
def dmcScrub_period_h : Fld := ⟨.dmcScrub, 0, 8⟩
/-- DMC_SCRUB_POS.line, bits [51:6] (15). -/
def dmcScrubPos_line : Fld := ⟨.dmcScrubPos, 6, 46⟩
/-- DMC_ERR_CFG.ce_event, bits [15:0] (15). -/
def dmcErrCfg_ce_event : Fld := ⟨.dmcErrCfg, 0, 16⟩
/-- DMC_ERR.valid, bits [63:63] (15). -/
def dmcErr_valid : Fld := ⟨.dmcErr, 63, 1⟩
/-- DMC_ERR.kind, bits [62:61] (15). -/
def dmcErr_kind : Fld := ⟨.dmcErr, 61, 2⟩
/-- DMC_ERR.source, bits [60:59] (15). -/
def dmcErr_source : Fld := ⟨.dmcErr, 59, 2⟩
/-- DMC_ERR.channel, bits [58:55] (15). -/
def dmcErr_channel : Fld := ⟨.dmcErr, 55, 4⟩
/-- DMC_ERR.sub, bits [54:54] (15). -/
def dmcErr_sub : Fld := ⟨.dmcErr, 54, 1⟩
/-- DMC_ERR.rank, bits [53:53] (15). -/
def dmcErr_rank : Fld := ⟨.dmcErr, 53, 1⟩
/-- DMC_ERR.bank_group, bits [52:50] (15). -/
def dmcErr_bank_group : Fld := ⟨.dmcErr, 50, 3⟩
/-- DMC_ERR.bank, bits [49:48] (15). -/
def dmcErr_bank : Fld := ⟨.dmcErr, 48, 2⟩
/-- DMC_ERR.row, bits [47:31] (15). -/
def dmcErr_row : Fld := ⟨.dmcErr, 31, 17⟩
/-- DMC_ERR.word_mask, bits [30:23] (15). -/
def dmcErr_word_mask : Fld := ⟨.dmcErr, 23, 8⟩
/-- DMC_ERR_DPA.line, bits [51:6] (15). -/
def dmcErrDpa_line : Fld := ⟨.dmcErrDpa, 6, 46⟩
/-- SLU_CH_SEL.channel, bits [4:0] (16). -/
def sluChSel_channel : Fld := ⟨.sluChSel, 0, 5⟩
/-- SLU_BUSY.busy, bits [31:0] (16). -/
def sluBusy_busy : Fld := ⟨.sluBusy, 0, 32⟩
/-- SLU_CH_CFG.manager, bits [31:31] (16). -/
def sluChCfg_manager : Fld := ⟨.sluChCfg, 31, 1⟩
/-- SLU_CH_CFG.level, bits [1:0] (16). -/
def sluChCfg_level : Fld := ⟨.sluChCfg, 0, 2⟩
/-- SLU_CH_CTL.arm, bits [31:31] (16). -/
def sluChCtl_arm : Fld := ⟨.sluChCtl, 31, 1⟩
/-- SLU_CH_CTL.disarm, bits [30:30] (16). -/
def sluChCtl_disarm : Fld := ⟨.sluChCtl, 30, 1⟩
/-- SLU_CH_CTL.stop, bits [29:29] (16). -/
def sluChCtl_stop : Fld := ⟨.sluChCtl, 29, 1⟩
/-- SLU_CH_CTL.resume, bits [28:28] (16). -/
def sluChCtl_resume : Fld := ⟨.sluChCtl, 28, 1⟩
/-- SLU_CH_STATUS.state, bits [63:61] (16). -/
def sluChStatus_state : Fld := ⟨.sluChStatus, 61, 3⟩
/-- SLU_CH_STATUS.shadow_armed, bits [60:60] (16). -/
def sluChStatus_shadow_armed : Fld := ⟨.sluChStatus, 60, 1⟩
/-- SLU_CH_STATUS.error, bits [59:59] (16). -/
def sluChStatus_error : Fld := ⟨.sluChStatus, 59, 1⟩
/-- SLU_CH_STATUS.source, bits [58:56] (16). -/
def sluChStatus_source : Fld := ⟨.sluChStatus, 56, 3⟩
/-- SLU_CH_STATUS.level, bits [55:54] (16). -/
def sluChStatus_level : Fld := ⟨.sluChStatus, 54, 2⟩
/-- SLU_CH_STATUS.slice, bits [53:48] (16). -/
def sluChStatus_slice : Fld := ⟨.sluChStatus, 48, 6⟩
/-- SLU_CH_STATUS.buffered, bits [44:32] (16). -/
def sluChStatus_buffered : Fld := ⟨.sluChStatus, 32, 13⟩
/-- SLU_CH_STATUS.written, bits [24:0] (16). -/
def sluChStatus_written : Fld := ⟨.sluChStatus, 0, 25⟩
/-- SLU_CH_DONE.count, bits [31:0] (16). -/
def sluChDone_count : Fld := ⟨.sluChDone, 0, 32⟩
/-- SLU_ACT_SRC.value, bits [63:0] (16). -/
def sluActSrc_value : Fld := ⟨.sluActSrc, 0, 64⟩
/-- SLU_ACT_DST.value, bits [63:0] (16). -/
def sluActDst_value : Fld := ⟨.sluActDst, 0, 64⟩
/-- SLU_ACT_LEN.length, bits [24:0] (16). -/
def sluActLen_length : Fld := ⟨.sluActLen, 0, 25⟩
/-- SLU_ACT_CTRL.flags, bits [2:0] (16). -/
def sluActCtrl_flags : Fld := ⟨.sluActCtrl, 0, 3⟩
/-- SLU_ACT_TAP.tap, bits [31:0] (16). -/
def sluActTap_tap : Fld := ⟨.sluActTap, 0, 32⟩
/-- SLU_SHD_SRC.value, bits [63:0] (16). -/
def sluShdSrc_value : Fld := ⟨.sluShdSrc, 0, 64⟩
/-- SLU_SHD_DST.value, bits [63:0] (16). -/
def sluShdDst_value : Fld := ⟨.sluShdDst, 0, 64⟩
/-- SLU_SHD_LEN.length, bits [24:0] (16). -/
def sluShdLen_length : Fld := ⟨.sluShdLen, 0, 25⟩
/-- SLU_SHD_CTRL.flags, bits [2:0] (16). -/
def sluShdCtrl_flags : Fld := ⟨.sluShdCtrl, 0, 3⟩
/-- SLU_SHD_TAP.tap, bits [31:0] (16). -/
def sluShdTap_tap : Fld := ⟨.sluShdTap, 0, 32⟩
/-- SLU_CH_ERR.valid, bits [63:63] (16). -/
def sluChErr_valid : Fld := ⟨.sluChErr, 63, 1⟩
/-- SLU_CH_ERR.status, bits [47:32] (16). -/
def sluChErr_status : Fld := ⟨.sluChErr, 32, 16⟩
/-- SLU_CH_ERR.detail, bits [31:16] (16). -/
def sluChErr_detail : Fld := ⟨.sluChErr, 16, 16⟩
/-- SLU_CH_ERR_ADDR.sva, bits [47:0] (16). -/
def sluChErrAddr_sva : Fld := ⟨.sluChErrAddr, 0, 48⟩
/-- QRN_SEL.quern, bits [3:0] (11). -/
def qrnSel_quern : Fld := ⟨.qrnSel, 0, 4⟩
/-- QRN_STATE.busy, bits [63:63] (11). -/
def qrnState_busy : Fld := ⟨.qrnState, 63, 1⟩
/-- QRN_STATE.decompress, bits [62:62] (11). -/
def qrnState_decompress : Fld := ⟨.qrnState, 62, 1⟩
/-- QRN_STATE.slice, bits [61:56] (11). -/
def qrnState_slice : Fld := ⟨.qrnState, 56, 6⟩
/-- QRN_STATE.tag, bits [47:32] (11). -/
def qrnState_tag : Fld := ⟨.qrnState, 32, 16⟩
/-- QRN_STATE.block, bits [31:0] (11). -/
def qrnState_block : Fld := ⟨.qrnState, 0, 32⟩
/-- QRN_ERR.valid, bits [63:63] (11). -/
def qrnErr_valid : Fld := ⟨.qrnErr, 63, 1⟩
/-- QRN_ERR.status, bits [47:32] (11). -/
def qrnErr_status : Fld := ⟨.qrnErr, 32, 16⟩
/-- QRN_ERR.offset, bits [31:0] (11). -/
def qrnErr_offset : Fld := ⟨.qrnErr, 0, 32⟩
/-- QRN_ERR_CTX.slice, bits [63:58] (11). -/
def qrnErrCtx_slice : Fld := ⟨.qrnErrCtx, 58, 6⟩
/-- QRN_ERR_CTX.tag, bits [47:32] (11). -/
def qrnErrCtx_tag : Fld := ⟨.qrnErrCtx, 32, 16⟩
/-- QRN_ERR_CTX.block, bits [31:0] (11). -/
def qrnErrCtx_block : Fld := ⟨.qrnErrCtx, 0, 32⟩
/-- TOL_CFG.hold_total, bits [12:8] (12). -/
def tolCfg_hold_total : Fld := ⟨.tolCfg, 8, 5⟩
/-- TOL_CFG.hold_slice, bits [2:0] (12). -/
def tolCfg_hold_slice : Fld := ⟨.tolCfg, 0, 3⟩
/-- TOL_STATUS.waiting, bits [31:16] (12). -/
def tolStatus_waiting : Fld := ⟨.tolStatus, 16, 16⟩
/-- TOL_STATUS.held, bits [13:8] (12). -/
def tolStatus_held : Fld := ⟨.tolStatus, 8, 6⟩
/-- TOL_STATUS.busy, bits [5:0] (12). -/
def tolStatus_busy : Fld := ⟨.tolStatus, 0, 6⟩
/-- TOL_CTX_SEL.context, bits [4:0] (12). -/
def tolCtxSel_context : Fld := ⟨.tolCtxSel, 0, 5⟩
/-- TOL_CTX_STATE.busy, bits [63:63] (12). -/
def tolCtxState_busy : Fld := ⟨.tolCtxState, 63, 1⟩
/-- TOL_CTX_STATE.held, bits [62:62] (12). -/
def tolCtxState_held : Fld := ⟨.tolCtxState, 62, 1⟩
/-- TOL_CTX_STATE.keyed, bits [61:61] (12). -/
def tolCtxState_keyed : Fld := ⟨.tolCtxState, 61, 1⟩
/-- TOL_CTX_STATE.alg, bits [60:58] (12). -/
def tolCtxState_alg : Fld := ⟨.tolCtxState, 58, 3⟩
/-- TOL_CTX_STATE.mark_valid, bits [57:57] (12). -/
def tolCtxState_mark_valid : Fld := ⟨.tolCtxState, 57, 1⟩
/-- TOL_CTX_STATE.mark_late, bits [56:56] (12). -/
def tolCtxState_mark_late : Fld := ⟨.tolCtxState, 56, 1⟩
/-- TOL_CTX_STATE.mark_ignored, bits [55:55] (12). -/
def tolCtxState_mark_ignored : Fld := ⟨.tolCtxState, 55, 1⟩
/-- TOL_CTX_STATE.slice, bits [54:49] (12). -/
def tolCtxState_slice : Fld := ⟨.tolCtxState, 49, 6⟩
/-- TOL_CTX_STATE.tag, bits [47:32] (12). -/
def tolCtxState_tag : Fld := ⟨.tolCtxState, 32, 16⟩
/-- TOL_CTX_STATE.absorbed, bits [31:0] (12). -/
def tolCtxState_absorbed : Fld := ⟨.tolCtxState, 0, 32⟩
/-- TOL_LAST_WORD.last_word, bits [31:0] (12). -/
def tolLastWord_last_word : Fld := ⟨.tolLastWord, 0, 32⟩
/-- TOL_VALID_BYTES.valid, bits [3:0] (12). -/
def tolValidBytes_valid : Fld := ⟨.tolValidBytes, 0, 4⟩
/-- TOL_TAP_SEL.slice, bits [5:0] (12). -/
def tolTapSel_slice : Fld := ⟨.tolTapSel, 0, 6⟩
/-- TOL_TAP_BASE.base, bits [47:12] (12). -/
def tolTapBase_base : Fld := ⟨.tolTapBase, 12, 36⟩
/-- TOL_TAP_CFG.enable, bits [31:31] (12). -/
def tolTapCfg_enable : Fld := ⟨.tolTapCfg, 31, 1⟩
/-- TOL_TAP_CFG.depth_log2, bits [4:0] (12). -/
def tolTapCfg_depth_log2 : Fld := ⟨.tolTapCfg, 0, 5⟩
/-- TOL_VTAP.wr_en, bits [31:31] (12). -/
def tolVtap_wr_en : Fld := ⟨.tolVtap, 31, 1⟩
/-- TOL_VTAP.rd_en, bits [30:30] (12). -/
def tolVtap_rd_en : Fld := ⟨.tolVtap, 30, 1⟩
/-- TOL_VTAP.alg, bits [29:27] (12). -/
def tolVtap_alg : Fld := ⟨.tolVtap, 27, 3⟩
/-- TOL_VTAP.slots_log2, bits [19:16] (12). -/
def tolVtap_slots_log2 : Fld := ⟨.tolVtap, 16, 4⟩
/-- TOL_VTAP.slot_base, bits [15:0] (12). -/
def tolVtap_slot_base : Fld := ⟨.tolVtap, 0, 16⟩
/-- XLT_CFG.atomic_req, bits [2:2] (13). -/
def xltCfg_atomic_req : Fld := ⟨.xltCfg, 2, 1⟩
/-- XLT_CFG.host_ad_active, bits [1:1] (13). -/
def xltCfg_host_ad_active : Fld := ⟨.xltCfg, 1, 1⟩
/-- XLT_CFG.host_ad, bits [0:0] (13). -/
def xltCfg_host_ad : Fld := ⟨.xltCfg, 0, 1⟩
/-- XLT_SLICE_SEL.slice, bits [5:0] (13). -/
def xltSliceSel_slice : Fld := ⟨.xltSliceSel, 0, 6⟩
/-- XLT_S2_ROOT.root, bits [51:12] (13). -/
def xltS2Root_root : Fld := ⟨.xltS2Root, 12, 40⟩
/-- XLT_S2_ROOT.enable, bits [0:0] (13). -/
def xltS2Root_enable : Fld := ⟨.xltS2Root, 0, 1⟩
/-- XLT_FAULT.valid, bits [63:63] (13). -/
def xltFault_valid : Fld := ⟨.xltFault, 63, 1⟩
/-- XLT_FAULT.queue, bits [50:48] (13). -/
def xltFault_queue : Fld := ⟨.xltFault, 48, 3⟩
/-- XLT_FAULT.tag, bits [47:32] (13). -/
def xltFault_tag : Fld := ⟨.xltFault, 32, 16⟩
/-- XLT_FAULT.status, bits [31:16] (13). -/
def xltFault_status : Fld := ⟨.xltFault, 16, 16⟩
/-- XLT_FAULT.detail, bits [15:0] (13). -/
def xltFault_detail : Fld := ⟨.xltFault, 0, 16⟩
/-- XLT_FAULT_SVA.sva, bits [47:0] (13). -/
def xltFaultSva_sva : Fld := ⟨.xltFaultSva, 0, 48⟩
/-- XLT_FAULT_SPA.spa, bits [47:0] (13). -/
def xltFaultSpa_spa : Fld := ⟨.xltFaultSpa, 0, 48⟩
/-- XLT_INVAL.go, bits [31:31] (13). -/
def xltInval_go : Fld := ⟨.xltInval, 31, 1⟩
/-- XLT_INVAL.error, bits [30:30] (13). -/
def xltInval_error : Fld := ⟨.xltInval, 30, 1⟩
/-- XLT_INVAL.busy, bits [29:29] (13). -/
def xltInval_busy : Fld := ⟨.xltInval, 29, 1⟩
/-- XLT_INVAL.op, bits [28:27] (13). -/
def xltInval_op : Fld := ⟨.xltInval, 27, 2⟩
/-- XLT_INVAL.stage2, bits [26:26] (13). -/
def xltInval_stage2 : Fld := ⟨.xltInval, 26, 1⟩
/-- XLT_INVAL.stage1, bits [25:25] (13). -/
def xltInval_stage1 : Fld := ⟨.xltInval, 25, 1⟩
/-- XLT_INVAL.slice, bits [21:16] (13). -/
def xltInval_slice : Fld := ⟨.xltInval, 16, 6⟩
/-- XLT_INVAL_ADDR.addr, bits [47:12] (13). -/
def xltInvalAddr_addr : Fld := ⟨.xltInvalAddr, 12, 36⟩
/-- XLT_INVAL_PAGES.pages, bits [31:0] (13). -/
def xltInvalPages_pages : Fld := ⟨.xltInvalPages, 0, 32⟩
/-- SLC_SEL.slice, bits [5:0] (17). -/
def slcSel_slice : Fld := ⟨.slcSel, 0, 6⟩
/-- SLC_CFG.state, bits [31:30] (17). -/
def slcCfg_state : Fld := ⟨.slcCfg, 30, 2⟩
/-- SLC_CFG.class, bits [29:29] (17). -/
def slcCfg_class : Fld := ⟨.slcCfg, 29, 1⟩
/-- SLC_CFG.vectors_m1, bits [20:16] (17). -/
def slcCfg_vectors_m1 : Fld := ⟨.slcCfg, 16, 5⟩
/-- SLC_CFG.vector_base, bits [10:0] (17). -/
def slcCfg_vector_base : Fld := ⟨.slcCfg, 0, 11⟩
/-- SLC_PASID.enable, bits [31:31] (17). -/
def slcPasid_enable : Fld := ⟨.slcPasid, 31, 1⟩
/-- SLC_PASID.pasid, bits [19:0] (17). -/
def slcPasid_pasid : Fld := ⟨.slcPasid, 0, 20⟩
/-- SLC_GEN.resets, bits [31:16] (17). -/
def slcGen_resets : Fld := ⟨.slcGen, 16, 16⟩
/-- SLC_GEN.generation, bits [15:0] (17). -/
def slcGen_generation : Fld := ⟨.slcGen, 0, 16⟩
/-- SLC_BW_CFG.rate, bits [28:16] (17). -/
def slcBwCfg_rate : Fld := ⟨.slcBwCfg, 16, 13⟩
/-- SLC_BW_CFG.burst_kib, bits [15:0] (17). -/
def slcBwCfg_burst_kib : Fld := ⟨.slcBwCfg, 0, 16⟩
/-- SLC_BW_STAT.waits, bits [63:32] (17). -/
def slcBwStat_waits : Fld := ⟨.slcBwStat, 32, 32⟩
/-- SLC_BW_STAT.tokens, bits [26:0] (17). -/
def slcBwStat_tokens : Fld := ⟨.slcBwStat, 0, 27⟩
/-- VOL_SEL.volume, bits [7:0] (10). -/
def volSel_volume : Fld := ⟨.volSel, 0, 8⟩
/-- VOL_CFG.valid, bits [31:31] (10). -/
def volCfg_valid : Fld := ⟨.volCfg, 31, 1⟩
/-- VOL_CFG.kind, bits [30:30] (10). -/
def volCfg_kind : Fld := ⟨.volCfg, 30, 1⟩
/-- VOL_CFG.layout, bits [29:29] (10). -/
def volCfg_layout : Fld := ⟨.volCfg, 29, 1⟩
/-- VOL_CFG.sector, bits [28:28] (10). -/
def volCfg_sector : Fld := ⟨.volCfg, 28, 1⟩
/-- VOL_CFG.unit_log2, bits [27:24] (10). -/
def volCfg_unit_log2 : Fld := ⟨.volCfg, 24, 4⟩
/-- VOL_CFG.owner, bits [23:18] (10). -/
def volCfg_owner : Fld := ⟨.volCfg, 18, 6⟩
/-- VOL_CFG.key_slot, bits [17:12] (10). -/
def volCfg_key_slot : Fld := ⟨.volCfg, 12, 6⟩
/-- VOL_CFG.ports, bits [7:0] (10). -/
def volCfg_ports : Fld := ⟨.volCfg, 0, 8⟩
/-- VOL_CAP.capacity, bits [47:0] (10). -/
def volCap_capacity : Fld := ⟨.volCap, 0, 48⟩
/-- VOL_STATE.state, bits [31:28] (10). -/
def volState_state : Fld := ⟨.volState, 28, 4⟩
/-- VOL_STATE.proj_error, bits [27:27] (10). -/
def volState_proj_error : Fld := ⟨.volState, 27, 1⟩
/-- VOL_STATE.proj_full, bits [26:26] (10). -/
def volState_proj_full : Fld := ⟨.volState, 26, 1⟩
/-- VOL_STATE.unavailable, bits [7:0] (10). -/
def volState_unavailable : Fld := ⟨.volState, 0, 8⟩
/-- VOL_FLUSHED.epoch, bits [63:0] (10). -/
def volFlushed_epoch : Fld := ⟨.volFlushed, 0, 64⟩
/-- VOL_PROGRESS.next, bits [63:32] (10). -/
def volProgress_next : Fld := ⟨.volProgress, 32, 32⟩
/-- VOL_PROGRESS.units, bits [31:0] (10). -/
def volProgress_units : Fld := ⟨.volProgress, 0, 32⟩
/-- VOL_PROJ_BAD.count, bits [63:0] (10). -/
def volProjBad_count : Fld := ⟨.volProjBad, 0, 64⟩
/-- VOL_DIRTY.wait, bits [31:31] (10). -/
def volDirty_wait : Fld := ⟨.volDirty, 31, 1⟩
/-- VOL_DIRTY.entries, bits [22:0] (10). -/
def volDirty_entries : Fld := ⟨.volDirty, 0, 23⟩
/-- VOL_PORT_SEL.port, bits [2:0] (10). -/
def volPortSel_port : Fld := ⟨.volPortSel, 0, 3⟩
/-- VOL_PORT_STATUS.state, bits [31:28] (10). -/
def volPortStatus_state : Fld := ⟨.volPortStatus, 28, 4⟩
/-- VOL_PORT_STATUS.reason, bits [27:24] (10). -/
def volPortStatus_reason : Fld := ⟨.volPortStatus, 24, 4⟩
/-- VOL_PORT_STATUS.speed, bits [23:20] (10). -/
def volPortStatus_speed : Fld := ⟨.volPortStatus, 20, 4⟩
/-- VOL_PORT_STATUS.width, bits [19:16] (10). -/
def volPortStatus_width : Fld := ⟨.volPortStatus, 16, 4⟩
/-- VOL_PORT_CTL.attach, bits [31:31] (10). -/
def volPortCtl_attach : Fld := ⟨.volPortCtl, 31, 1⟩
/-- VOL_PORT_CTL.detach, bits [30:30] (10). -/
def volPortCtl_detach : Fld := ⟨.volPortCtl, 30, 1⟩
/-- VOL_PORT_CTL.timeout_ms, bits [15:0] (10). -/
def volPortCtl_timeout_ms : Fld := ⟨.volPortCtl, 0, 16⟩
/-- MPD_EPOCH.published, bits [63:0] (09). -/
def mpdEpoch_published : Fld := ⟨.mpdEpoch, 0, 64⟩
/-- MPD_GROUP_STAT.open_epoch, bits [63:0] (09). -/
def mpdGroupStat_open_epoch : Fld := ⟨.mpdGroupStat, 0, 64⟩
/-- MPD_SEQ.next, bits [63:0] (09). -/
def mpdSeq_next : Fld := ⟨.mpdSeq, 0, 64⟩
/-- MPD_GROUP_CFG.close_us, bits [20:16] (09). -/
def mpdGroupCfg_close_us : Fld := ⟨.mpdGroupCfg, 16, 5⟩
/-- MPD_GROUP_CFG.max_kib, bits [8:0] (09). -/
def mpdGroupCfg_max_kib : Fld := ⟨.mpdGroupCfg, 0, 9⟩
/-- MPD_LOW_WATER.low, bits [63:0] (09). -/
def mpdLowWater_low : Fld := ⟨.mpdLowWater, 0, 64⟩
/-- MPD_SNAP_STAT.txns, bits [25:16] (09). -/
def mpdSnapStat_txns : Fld := ⟨.mpdSnapStat, 16, 10⟩
/-- MPD_SNAP_STAT.snaps, bits [12:0] (09). -/
def mpdSnapStat_snaps : Fld := ⟨.mpdSnapStat, 0, 13⟩
/-- MPD_STATUS.pwr_fail, bits [31:31] (09). -/
def mpdStatus_pwr_fail : Fld := ⟨.mpdStatus, 31, 1⟩
/-- MPD_STATUS.read_only, bits [30:30] (09). -/
def mpdStatus_read_only : Fld := ⟨.mpdStatus, 30, 1⟩
/-- MPD_STATUS.replay_busy, bits [29:29] (09). -/
def mpdStatus_replay_busy : Fld := ⟨.mpdStatus, 29, 1⟩
/-- MPD_STATUS.replay_done, bits [28:28] (09). -/
def mpdStatus_replay_done : Fld := ⟨.mpdStatus, 28, 1⟩
/-- MPD_STATUS.journal_wait, bits [27:27] (09). -/
def mpdStatus_journal_wait : Fld := ⟨.mpdStatus, 27, 1⟩
/-- MPD_STATUS.chain_break, bits [26:26] (09). -/
def mpdStatus_chain_break : Fld := ⟨.mpdStatus, 26, 1⟩
/-- MPD_STATUS.space_warn, bits [25:25] (09). -/
def mpdStatus_space_warn : Fld := ⟨.mpdStatus, 25, 1⟩
/-- MPD_SPACE.warn_pct, bits [31:24] (09). -/
def mpdSpace_warn_pct : Fld := ⟨.mpdSpace, 24, 8⟩
/-- MPD_SPACE.used_blocks, bits [14:0] (09). -/
def mpdSpace_used_blocks : Fld := ⟨.mpdSpace, 0, 15⟩
/-- MPD_TRUNC.epoch, bits [63:0] (09). -/
def mpdTrunc_epoch : Fld := ⟨.mpdTrunc, 0, 64⟩
/-- MPD_CKPT.epoch, bits [63:0] (09). -/
def mpdCkpt_epoch : Fld := ⟨.mpdCkpt, 0, 64⟩
/-- MPD_REPLAY.start, bits [31:31] (09). -/
def mpdReplay_start : Fld := ⟨.mpdReplay, 31, 1⟩
/-- MPD_RECOVERY.epoch, bits [63:0] (09). -/
def mpdRecovery_epoch : Fld := ⟨.mpdRecovery, 0, 64⟩
/-- MPD_BREAK_SEQ.sequence, bits [63:0] (09). -/
def mpdBreakSeq_sequence : Fld := ⟨.mpdBreakSeq, 0, 64⟩
/-- MPD_TABLE_SEL.table, bits [7:0] (09). -/
def mpdTableSel_table : Fld := ⟨.mpdTableSel, 0, 8⟩
/-- MPD_TABLE_CFG.valid, bits [63:63] (09). -/
def mpdTableCfg_valid : Fld := ⟨.mpdTableCfg, 63, 1⟩
/-- MPD_TABLE_CFG.projection, bits [62:62] (09). -/
def mpdTableCfg_projection : Fld := ⟨.mpdTableCfg, 62, 1⟩
/-- MPD_TABLE_CFG.slice, bits [61:56] (09). -/
def mpdTableCfg_slice : Fld := ⟨.mpdTableCfg, 56, 6⟩
/-- MPD_TABLE_CFG.volume, bits [55:48] (09). -/
def mpdTableCfg_volume : Fld := ⟨.mpdTableCfg, 48, 8⟩
/-- MPD_TABLE_CFG.addr, bits [47:6] (09). -/
def mpdTableCfg_addr : Fld := ⟨.mpdTableCfg, 6, 42⟩
/-- MPD_TABLE_STAT.applied, bits [63:0] (09). -/
def mpdTableStat_applied : Fld := ⟨.mpdTableStat, 0, 64⟩
/-- MPD_WEAR.max, bits [63:32] (09). -/
def mpdWear_max : Fld := ⟨.mpdWear, 32, 32⟩
/-- MPD_WEAR.mean, bits [31:0] (09). -/
def mpdWear_mean : Fld := ⟨.mpdWear, 0, 32⟩
/-- MPD_WIN_BASE.base, bits [10:0] (09). -/
def mpdWinBase_base : Fld := ⟨.mpdWinBase, 0, 11⟩
/-- OTP_STATUS.busy, bits [31:31] (19). -/
def otpStatus_busy : Fld := ⟨.otpStatus, 31, 1⟩
/-- OTP_STATUS.unsecured, bits [30:30] (19). -/
def otpStatus_unsecured : Fld := ⟨.otpStatus, 30, 1⟩
/-- OTP_STATUS.debug_locked, bits [29:29] (19). -/
def otpStatus_debug_locked : Fld := ⟨.otpStatus, 29, 1⟩
/-- OTP_STATUS.result, bits [27:24] (19). -/
def otpStatus_result : Fld := ⟨.otpStatus, 24, 4⟩
/-- OTP_STATUS.bad_generations, bits [15:0] (19). -/
def otpStatus_bad_generations : Fld := ⟨.otpStatus, 0, 16⟩
/-- OTP_GROUP_SEL.group, bits [5:0] (19). -/
def otpGroupSel_group : Fld := ⟨.otpGroupSel, 0, 6⟩
/-- OTP_GROUP.valid, bits [63:63] (19). -/
def otpGroup_valid : Fld := ⟨.otpGroup, 63, 1⟩
/-- OTP_GROUP.lock, bits [62:62] (19). -/
def otpGroup_lock : Fld := ⟨.otpGroup, 62, 1⟩
/-- OTP_GROUP.generation, bits [61:60] (19). -/
def otpGroup_generation : Fld := ⟨.otpGroup, 60, 2⟩
/-- OTP_GROUP.spares, bits [59:56] (19). -/
def otpGroup_spares : Fld := ⟨.otpGroup, 56, 4⟩
/-- OTP_GROUP.value, bits [47:0] (19). -/
def otpGroup_value : Fld := ⟨.otpGroup, 0, 48⟩
/-- OTP_PROG_VALUE.lock, bits [63:63] (19). -/
def otpProgValue_lock : Fld := ⟨.otpProgValue, 63, 1⟩
/-- OTP_PROG_VALUE.value, bits [47:0] (19). -/
def otpProgValue_value : Fld := ⟨.otpProgValue, 0, 48⟩
/-- OTP_PROG_CTL.go, bits [31:31] (19). -/
def otpProgCtl_go : Fld := ⟨.otpProgCtl, 31, 1⟩
/-- OTP_PROG_CTL.group, bits [13:8] (19). -/
def otpProgCtl_group : Fld := ⟨.otpProgCtl, 8, 6⟩
/-- OTP_PROG_CTL.confirm, bits [7:0] (19). -/
def otpProgCtl_confirm : Fld := ⟨.otpProgCtl, 0, 8⟩
/-- BRK_STATUS.keys_erased, bits [31:31] (19). -/
def brkStatus_keys_erased : Fld := ⟨.brkStatus, 31, 1⟩
/-- BRK_STATUS.restore_locked, bits [30:30] (19). -/
def brkStatus_restore_locked : Fld := ⟨.brkStatus, 30, 1⟩
/-- BRK_STATUS.restore_failures, bits [23:16] (19). -/
def brkStatus_restore_failures : Fld := ⟨.brkStatus, 16, 8⟩
/-- BRK_STATUS.live, bits [12:8] (19). -/
def brkStatus_live : Fld := ⟨.brkStatus, 8, 5⟩
/-- BRK_STATUS.tripped, bits [4:0] (19). -/
def brkStatus_tripped : Fld := ⟨.brkStatus, 0, 5⟩
/-- BRK_RESP.lid_en, bits [11:11] (19). -/
def brkResp_lid_en : Fld := ⟨.brkResp, 11, 1⟩
/-- BRK_RESP.mesh_en, bits [10:10] (19). -/
def brkResp_mesh_en : Fld := ⟨.brkResp, 10, 1⟩
/-- BRK_RESP.responses, bits [9:0] (19). -/
def brkResp_responses : Fld := ⟨.brkResp, 0, 10⟩
/-- BRK_LOG.valid, bits [63:63] (19). -/
def brkLog_valid : Fld := ⟨.brkLog, 63, 1⟩
/-- BRK_LOG.sensors, bits [62:58] (19). -/
def brkLog_sensors : Fld := ⟨.brkLog, 58, 5⟩
/-- BRK_LOG.response, bits [57:56] (19). -/
def brkLog_response : Fld := ⟨.brkLog, 56, 2⟩
/-- BRK_LOG.tick, bits [47:0] (19). -/
def brkLog_tick : Fld := ⟨.brkLog, 0, 48⟩
/-- BRK_KEY_SEL.slot, bits [5:0] (19). -/
def brkKeySel_slot : Fld := ⟨.brkKeySel, 0, 6⟩
/-- BRK_KEY_CFG.loaded, bits [31:31] (19). -/
def brkKeyCfg_loaded : Fld := ⟨.brkKeyCfg, 31, 1⟩
/-- BRK_KEY_CFG.volume, bits [30:30] (19). -/
def brkKeyCfg_volume : Fld := ⟨.brkKeyCfg, 30, 1⟩
/-- BRK_KEY_CFG.usage, bits [29:28] (19). -/
def brkKeyCfg_usage : Fld := ⟨.brkKeyCfg, 28, 2⟩
/-- BRK_KEY_CFG.owner, bits [27:22] (19). -/
def brkKeyCfg_owner : Fld := ⟨.brkKeyCfg, 22, 6⟩
/-- BRK_KEY_CFG.grant_en, bits [21:21] (19). -/
def brkKeyCfg_grant_en : Fld := ⟨.brkKeyCfg, 21, 1⟩
/-- BRK_KEY_CFG.length, bits [6:0] (19). -/
def brkKeyCfg_length : Fld := ⟨.brkKeyCfg, 0, 7⟩
/-- BRK_KEY_CTL.go, bits [31:31] (19). -/
def brkKeyCtl_go : Fld := ⟨.brkKeyCtl, 31, 1⟩
/-- BRK_KEY_CTL.error, bits [30:30] (19). -/
def brkKeyCtl_error : Fld := ⟨.brkKeyCtl, 30, 1⟩
/-- BRK_KEY_CTL.busy, bits [29:29] (19). -/
def brkKeyCtl_busy : Fld := ⟨.brkKeyCtl, 29, 1⟩
/-- BRK_KEY_CTL.op, bits [26:24] (19). -/
def brkKeyCtl_op : Fld := ⟨.brkKeyCtl, 24, 3⟩
/-- BRK_RESTORE_CTL.challenge, bits [31:31] (19). -/
def brkRestoreCtl_challenge : Fld := ⟨.brkRestoreCtl, 31, 1⟩
/-- BRK_RESTORE_CTL.verify, bits [30:30] (19). -/
def brkRestoreCtl_verify : Fld := ⟨.brkRestoreCtl, 30, 1⟩
/-- BRK_RESTORE_CTL.busy, bits [29:29] (19). -/
def brkRestoreCtl_busy : Fld := ⟨.brkRestoreCtl, 29, 1⟩
/-- BRK_RESTORE_CTL.error, bits [28:28] (19). -/
def brkRestoreCtl_error : Fld := ⟨.brkRestoreCtl, 28, 1⟩
/-- BRK_RESTORE_CTL.words, bits [4:0] (19). -/
def brkRestoreCtl_words : Fld := ⟨.brkRestoreCtl, 0, 5⟩
/-- BRK_RESTORE_DATA.data, bits [63:0] (19). -/
def brkRestoreData_data : Fld := ⟨.brkRestoreData, 0, 64⟩
/-- BRK_KEY_DATA.bytes, bits [63:0] (19). -/
def brkKeyData_bytes : Fld := ⟨.brkKeyData, 0, 64⟩
/-- SCK_CTL.freeze, bits [31:31] (20). -/
def sckCtl_freeze : Fld := ⟨.sckCtl, 31, 1⟩
/-- SCK_CTL.clear, bits [30:30] (20). -/
def sckCtl_clear : Fld := ⟨.sckCtl, 30, 1⟩
/-- SCK_CTL.ovf_event, bits [29:29] (20). -/
def sckCtl_ovf_event : Fld := ⟨.sckCtl, 29, 1⟩
/-- SCK_CTL.class_en, bits [15:0] (20). -/
def sckCtl_class_en : Fld := ⟨.sckCtl, 0, 16⟩
/-- SCK_STATUS.frozen, bits [31:31] (20). -/
def sckStatus_frozen : Fld := ⟨.sckStatus, 31, 1⟩
/-- SCK_STATUS.settled, bits [30:30] (20). -/
def sckStatus_settled : Fld := ⟨.sckStatus, 30, 1⟩
/-- SCK_STATUS.bad_write, bits [29:29] (20). -/
def sckStatus_bad_write : Fld := ⟨.sckStatus, 29, 1⟩
/-- SCK_OVF0.ovf, bits [63:0] (20). -/
def sckOvf0_ovf : Fld := ⟨.sckOvf0, 0, 64⟩
/-- SCK_OVF1.ovf, bits [63:0] (20). -/
def sckOvf1_ovf : Fld := ⟨.sckOvf1, 0, 64⟩
/-- SCK_SEL.counter, bits [6:0] (20). -/
def sckSel_counter : Fld := ⟨.sckSel, 0, 7⟩
/-- SCK_EVT.enable, bits [31:31] (20). -/
def sckEvt_enable : Fld := ⟨.sckEvt, 31, 1⟩
/-- SCK_EVT.priv, bits [27:26] (20). -/
def sckEvt_priv : Fld := ⟨.sckEvt, 26, 2⟩
/-- SCK_EVT.slice, bits [25:20] (20). -/
def sckEvt_slice : Fld := ⟨.sckEvt, 20, 6⟩
/-- SCK_EVT.event, bits [11:0] (20). -/
def sckEvt_event : Fld := ⟨.sckEvt, 0, 12⟩
/-- SCK_FILT.master_val, bits [31:24] (20). -/
def sckFilt_master_val : Fld := ⟨.sckFilt, 24, 8⟩
/-- SCK_FILT.master_mask, bits [23:16] (20). -/
def sckFilt_master_mask : Fld := ⟨.sckFilt, 16, 8⟩
/-- SCK_FILT.addr_mode, bits [10:8] (20). -/
def sckFilt_addr_mode : Fld := ⟨.sckFilt, 8, 3⟩
/-- SCK_BW_CFG.window_us, bits [19:0] (20). -/
def sckBwCfg_window_us : Fld := ⟨.sckBwCfg, 0, 20⟩
/-- SCK_BW_CTL.clear_peak, bits [31:31] (20). -/
def sckBwCtl_clear_peak : Fld := ⟨.sckBwCtl, 31, 1⟩
/-- SCK_BW_SEL.port, bits [4:0] (20). -/
def sckBwSel_port : Fld := ⟨.sckBwSel, 0, 5⟩
/-- SCK_BW_LAST.window, bits [63:40] (20). -/
def sckBwLast_window : Fld := ⟨.sckBwLast, 40, 24⟩
/-- SCK_BW_LAST.bytes, bits [39:0] (20). -/
def sckBwLast_bytes : Fld := ⟨.sckBwLast, 0, 40⟩
/-- SCK_BW_PEAK.window, bits [63:40] (20). -/
def sckBwPeak_window : Fld := ⟨.sckBwPeak, 40, 24⟩
/-- SCK_BW_PEAK.bytes, bits [39:0] (20). -/
def sckBwPeak_bytes : Fld := ⟨.sckBwPeak, 0, 40⟩
/-- SCK_ADDR_BASE.addr, bits [51:6] (20). -/
def sckAddrBase_addr : Fld := ⟨.sckAddrBase, 6, 46⟩
/-- SCK_ADDR_LIMIT.addr, bits [51:6] (20). -/
def sckAddrLimit_addr : Fld := ⟨.sckAddrLimit, 6, 46⟩
/-- SCK_CNT.count, bits [47:0] (20). -/
def sckCnt_count : Fld := ⟨.sckCnt, 0, 48⟩
/-- BOOT_STATUS.ready, bits [63:63] (18). -/
def bootStatus_ready : Fld := ⟨.bootStatus, 63, 1⟩
/-- BOOT_STATUS.halted, bits [62:62] (18). -/
def bootStatus_halted : Fld := ⟨.bootStatus, 62, 1⟩
/-- BOOT_STATUS.restart_limit, bits [61:61] (18). -/
def bootStatus_restart_limit : Fld := ⟨.bootStatus, 61, 1⟩
/-- BOOT_STATUS.degraded, bits [60:60] (18). -/
def bootStatus_degraded : Fld := ⟨.bootStatus, 60, 1⟩
/-- BOOT_STATUS.dump_held, bits [59:59] (18). -/
def bootStatus_dump_held : Fld := ⟨.bootStatus, 59, 1⟩
/-- BOOT_STATUS.last_reset, bits [58:56] (18). -/
def bootStatus_last_reset : Fld := ⟨.bootStatus, 56, 3⟩
/-- BOOT_STATUS.step, bits [47:40] (18). -/
def bootStatus_step : Fld := ⟨.bootStatus, 40, 8⟩
/-- BOOT_STATUS.outcome, bits [39:32] (18). -/
def bootStatus_outcome : Fld := ⟨.bootStatus, 32, 8⟩
/-- BOOT_STATUS.restarts, bits [31:27] (18). -/
def bootStatus_restarts : Fld := ⟨.bootStatus, 27, 5⟩
/-- BOOT_STEP_SEL.step, bits [4:0] (18). -/
def bootStepSel_step : Fld := ⟨.bootStepSel, 0, 5⟩
/-- BOOT_STEP.attempts, bits [63:32] (18). -/
def bootStep_attempts : Fld := ⟨.bootStep, 32, 32⟩
/-- BOOT_STEP.outcome, bits [31:24] (18). -/
def bootStep_outcome : Fld := ⟨.bootStep, 24, 8⟩
/-- BOOT_STEP.fails, bits [23:16] (18). -/
def bootStep_fails : Fld := ⟨.bootStep, 16, 8⟩
/-- BOOT_STEP.way, bits [15:8] (18). -/
def bootStep_way : Fld := ⟨.bootStep, 8, 8⟩
/-- BOOT_STEP.state, bits [7:0] (18). -/
def bootStep_state : Fld := ⟨.bootStep, 0, 8⟩
/-- BOOT_CLEAR.steps, bits [31:1] (18). -/
def bootClear_steps : Fld := ⟨.bootClear, 1, 31⟩
/-- BOOT_IMAGE.preferred, bits [31:31] (18). -/
def bootImage_preferred : Fld := ⟨.bootImage, 31, 1⟩
/-- BOOT_IMAGE.running, bits [30:30] (18). -/
def bootImage_running : Fld := ⟨.bootImage, 30, 1⟩
/-- BOOT_IMAGE.version, bits [15:0] (18). -/
def bootImage_version : Fld := ⟨.bootImage, 0, 16⟩
/-- BOOT_DUMP.trigger, bits [63:63] (18). -/
def bootDump_trigger : Fld := ⟨.bootDump, 63, 1⟩
/-- BOOT_DUMP.held, bits [62:62] (18). -/
def bootDump_held : Fld := ⟨.bootDump, 62, 1⟩
/-- BOOT_DUMP.dram_valid, bits [61:61] (18). -/
def bootDump_dram_valid : Fld := ⟨.bootDump, 61, 1⟩
/-- BOOT_DUMP.lost, bits [47:32] (18). -/
def bootDump_lost : Fld := ⟨.bootDump, 32, 16⟩
/-- BOOT_DUMP.sequence, bits [31:0] (18). -/
def bootDump_sequence : Fld := ⟨.bootDump, 0, 32⟩
/-- WQ_DOORBELL.tail, bits [31:0] (03). -/
def wqDoorbell_tail : Fld := ⟨.wqDoorbell, 0, 32⟩
/-- SLC_WQ_HEAD.head, bits [31:0] (03). -/
def slcWqHead_head : Fld := ⟨.slcWqHead, 0, 32⟩
/-- SLC_FAULT.index, bits [63:32] (03). -/
def slcFault_index : Fld := ⟨.slcFault, 32, 32⟩
/-- SLC_FAULT.valid, bits [31:31] (03). -/
def slcFault_valid : Fld := ⟨.slcFault, 31, 1⟩
/-- SLC_FAULT.device, bits [30:30] (03). -/
def slcFault_device : Fld := ⟨.slcFault, 30, 1⟩
/-- SLC_FAULT.target, bits [29:28] (03). -/
def slcFault_target : Fld := ⟨.slcFault, 28, 2⟩
/-- SLC_FAULT.kind, bits [26:24] (03). -/
def slcFault_kind : Fld := ⟨.slcFault, 24, 3⟩
/-- SLC_FAULT.reason, bits [23:16] (03). -/
def slcFault_reason : Fld := ⟨.slcFault, 16, 8⟩
/-- SLC_FAULT.queue, bits [2:0] (03). -/
def slcFault_queue : Fld := ⟨.slcFault, 0, 3⟩
/-- SLC_STATUS.halted, bits [31:31] (03). -/
def slcStatus_halted : Fld := ⟨.slcStatus, 31, 1⟩
/-- SLC_STATUS.ev_head_bad, bits [3:3] (03). -/
def slcStatus_ev_head_bad : Fld := ⟨.slcStatus, 3, 1⟩
/-- SLC_STATUS.ev_held, bits [2:2] (03). -/
def slcStatus_ev_held : Fld := ⟨.slcStatus, 2, 1⟩
/-- SLC_STATUS.ev_dropped, bits [1:1] (03). -/
def slcStatus_ev_dropped : Fld := ⟨.slcStatus, 1, 1⟩
/-- SLC_STATUS.ev_lossless, bits [0:0] (03). -/
def slcStatus_ev_lossless : Fld := ⟨.slcStatus, 0, 1⟩
/-- SLC_EV_HEAD.head, bits [31:0] (03). -/
def slcEvHead_head : Fld := ⟨.slcEvHead, 0, 32⟩
/-- SLC_EV_TAIL.tail, bits [31:0] (03). -/
def slcEvTail_tail : Fld := ⟨.slcEvTail, 0, 32⟩
/-- SLC_EV_DROPS.count, bits [31:0] (03). -/
def slcEvDrops_count : Fld := ⟨.slcEvDrops, 0, 32⟩
/-- SLC_S1_ROOT.root, bits [47:12] (13). -/
def slcS1Root_root : Fld := ⟨.slcS1Root, 12, 36⟩
/-- SLC_S1_ROOT.enable, bits [0:0] (13). -/
def slcS1Root_enable : Fld := ⟨.slcS1Root, 0, 1⟩
/-- SLC_PKEY_RIGHTS.rights, bits [31:0] (13). -/
def slcPkeyRights_rights : Fld := ⟨.slcPkeyRights, 0, 32⟩
/-- SLC_LATE_DISCARDS.count, bits [31:0] (17). -/
def slcLateDiscards_count : Fld := ⟨.slcLateDiscards, 0, 32⟩

end F

/-- The registers of block DEV. -/
def regRowsDev : List RegRow := [
  ⟨.devId, false, 0x0, 0, 1, false, none, .none,
   [⟨F.devId_part, .ro⟩, ⟨F.devId_stepping, .ro⟩, ⟨F.devId_grade, .ro⟩]⟩,
  ⟨.devProfile, false, 0x8, 0, 1, false, none, .none,
   [⟨F.devProfile_lock, .w1s⟩, ⟨F.devProfile_custom, .ro⟩, ⟨F.devProfile_profile, .rwl⟩]⟩,
  ⟨.devCfg, false, 0x10, 0, 1, false, none, .none,
   [⟨F.devCfg_steal_mode, .rwl⟩, ⟨F.devCfg_wba_scope, .rwl⟩, ⟨F.devCfg_ev_lossless, .rwl⟩, ⟨F.devCfg_strict_failstop, .rwl⟩]⟩]

/-- The registers of block WQ. -/
def regRowsWq : List RegRow := [
  ⟨.wqSel, false, 0x10000, 0, 1, false, none, .none,
   [⟨F.wqSel_queue, .rw⟩]⟩,
  ⟨.wqCfg, false, 0x10008, 0, 512, false, (some 0x10008), .wqSel,
   [⟨F.wqCfg_enable, .rw⟩, ⟨F.wqCfg_poll, .rw⟩, ⟨F.wqCfg_depth_log2, .rw⟩, ⟨F.wqCfg_poll_interval, .rw⟩]⟩,
  ⟨.wqRingBase, false, 0x10010, 0, 512, true, (some 0x10010), .wqSel,
   [⟨F.wqRingBase_base, .rw⟩]⟩,
  ⟨.wqStatusBase, false, 0x10018, 0, 512, true, (some 0x10018), .wqSel,
   [⟨F.wqStatusBase_base, .rw⟩]⟩,
  ⟨.wqHeadAddr, false, 0x10020, 0, 512, true, (some 0x10020), .wqSel,
   [⟨F.wqHeadAddr_addr, .rw⟩]⟩,
  ⟨.wqState, false, 0x10028, 0, 512, true, (some 0x10028), .wqSel,
   [⟨F.wqState_fetch, .ro⟩, ⟨F.wqState_cfg_error, .w1c⟩, ⟨F.wqState_db_ignored, .w1c⟩, ⟨F.wqState_txn_open, .ro⟩, ⟨F.wqState_chain_open, .ro⟩, ⟨F.wqState_idle, .ro⟩]⟩,
  ⟨.wqChainTimeout, false, 0x10030, 0, 1, false, none, .none,
   [⟨F.wqChainTimeout_ticks, .rw⟩]⟩]

/-- The registers of block SLC. -/
def regRowsSlc : List RegRow := [
  ⟨.slcEvBase, false, 0xC1000, 64, 64, true, (some 0x10038), .wqSlice,
   [⟨F.slcEvBase_base, .rw⟩]⟩,
  ⟨.slcEvCfg, false, 0xC1008, 64, 64, false, (some 0x10040), .wqSlice,
   [⟨F.slcEvCfg_enable, .rw⟩, ⟨F.slcEvCfg_lossless, .rw⟩, ⟨F.slcEvCfg_depth_log2, .rw⟩]⟩,
  ⟨.slcSel, false, 0xC0000, 0, 1, false, none, .none,
   [⟨F.slcSel_slice, .rw⟩]⟩,
  ⟨.slcCfg, false, 0xC1010, 64, 64, false, (some 0xC0008), .slcSel,
   [⟨F.slcCfg_state, .ro⟩, ⟨F.slcCfg_class, .rw⟩, ⟨F.slcCfg_vectors_m1, .ro⟩, ⟨F.slcCfg_vector_base, .ro⟩]⟩,
  ⟨.slcPasid, false, 0xC1018, 64, 64, false, (some 0xC0010), .slcSel,
   [⟨F.slcPasid_enable, .ro⟩, ⟨F.slcPasid_pasid, .ro⟩]⟩,
  ⟨.slcGen, false, 0xC1020, 64, 64, false, (some 0xC0018), .slcSel,
   [⟨F.slcGen_resets, .ro⟩, ⟨F.slcGen_generation, .ro⟩]⟩,
  ⟨.slcBwCfg, false, 0xC1028, 64, 64, false, (some 0xC0020), .slcSel,
   [⟨F.slcBwCfg_rate, .rw⟩, ⟨F.slcBwCfg_burst_kib, .rw⟩]⟩,
  ⟨.slcBwStat, false, 0xC1030, 64, 64, true, (some 0xC0028), .slcSel,
   [⟨F.slcBwStat_waits, .rc⟩, ⟨F.slcBwStat_tokens, .ro⟩]⟩]

/-- The registers of block WEIR. -/
def regRowsWeir : List RegRow := [
  ⟨.weirQcfg, false, 0x20000, 0, 512, false, (some 0x20000), .wqSel,
   [⟨F.weirQcfg_jobs_max, .rw⟩, ⟨F.weirQcfg_weight, .rw⟩, ⟨F.weirQcfg_burst_m1, .rw⟩]⟩,
  ⟨.weirQstat, false, 0x20008, 0, 512, true, (some 0x20008), .wqSel,
   [⟨F.weirQstat_jobs, .ro⟩, ⟨F.weirQstat_weight_active, .ro⟩, ⟨F.weirQstat_credit, .ro⟩, ⟨F.weirQstat_burst_active_m1, .ro⟩]⟩,
  ⟨.weirRound, false, 0x20010, 0, 1, false, none, .none,
   [⟨F.weirRound_round, .ro⟩]⟩,
  ⟨.weirCtl, false, 0x20018, 0, 1, false, none, .none,
   [⟨F.weirCtl_hold, .rw⟩]⟩]

/-- The registers of block FAN. -/
def regRowsFan : List RegRow := [
  ⟨.fanStatus, false, 0x30000, 0, 1, true, none, .none,
   [⟨F.fanStatus_dep_underflow, .w1c⟩, ⟨F.fanStatus_trace_fault, .w1c⟩, ⟨F.fanStatus_jobs, .ro⟩, ⟨F.fanStatus_tasks, .ro⟩, ⟨F.fanStatus_counters, .ro⟩]⟩,
  ⟨.fanAffinity, false, 0x30008, 0, 1, false, none, .none,
   [⟨F.fanAffinity_window, .rw⟩]⟩,
  ⟨.fanFlowSel, false, 0x30010, 0, 1, false, none, .none,
   [⟨F.fanFlowSel_flow, .rw⟩]⟩,
  ⟨.fanFlowCfg, false, 0x30018, 0, 4096, false, (some 0x30018), .flowSel,
   [⟨F.fanFlowCfg_valid, .rw⟩, ⟨F.fanFlowCfg_busy, .ro⟩, ⟨F.fanFlowCfg_owner, .rw⟩, ⟨F.fanFlowCfg_last_valid, .ro⟩, ⟨F.fanFlowCfg_last_stone, .ro⟩]⟩,
  ⟨.fanTick, false, 0x30020, 0, 1, true, none, .none,
   [⟨F.fanTick_ticks, .ro⟩]⟩,
  ⟨.fanDelayStat, false, 0x30028, 0, 1, true, none, .none,
   [⟨F.fanDelayStat_list3, .ro⟩, ⟨F.fanDelayStat_list2, .ro⟩, ⟨F.fanDelayStat_list1, .ro⟩, ⟨F.fanDelayStat_list0, .ro⟩]⟩,
  ⟨.fanTraceBase, false, 0x30030, 0, 1, true, none, .none,
   [⟨F.fanTraceBase_base, .rw⟩]⟩,
  ⟨.fanTraceCfg, false, 0x30038, 0, 1, false, none, .none,
   [⟨F.fanTraceCfg_enable, .rw⟩, ⟨F.fanTraceCfg_slice_filter_en, .rw⟩, ⟨F.fanTraceCfg_slice, .rw⟩, ⟨F.fanTraceCfg_depth_log2, .rw⟩, ⟨F.fanTraceCfg_kind_mask, .rw⟩]⟩,
  ⟨.fanTraceTail, false, 0x30040, 0, 1, false, none, .none,
   [⟨F.fanTraceTail_tail, .ro⟩]⟩]

/-- The registers of block STN. -/
def regRowsStn : List RegRow := [
  ⟨.stnCfg, false, 0x40000, 0, 1, false, none, .none,
   [⟨F.stnCfg_preempt_active, .ro⟩, ⟨F.stnCfg_preempt_cols, .rw⟩]⟩,
  ⟨.stnCheckCtl, false, 0x40008, 0, 1, false, none, .none,
   [⟨F.stnCheckCtl_flush, .wo⟩, ⟨F.stnCheckCtl_entries, .ro⟩]⟩,
  ⟨.stnSel, false, 0x40010, 0, 1, false, none, .none,
   [⟨F.stnSel_stone, .rw⟩]⟩,
  ⟨.stnState, false, 0x41000, 64, 128, true, (some 0x40018), .stnSel,
   [⟨F.stnState_busy, .ro⟩, ⟨F.stnState_parked, .ro⟩, ⟨F.stnState_interactive, .ro⟩, ⟨F.stnState_slice, .ro⟩, ⟨F.stnState_tag, .ro⟩, ⟨F.stnState_partition, .ro⟩]⟩,
  ⟨.stnStage, false, 0x41008, 64, 128, false, (some 0x40020), .stnSel,
   [⟨F.stnStage_frames, .ro⟩, ⟨F.stnStage_in_flight, .ro⟩, ⟨F.stnStage_state, .ro⟩]⟩,
  ⟨.stnFault, false, 0x41010, 64, 128, true, (some 0x40028), .stnSel,
   [⟨F.stnFault_valid, .w1c⟩, ⟨F.stnFault_stage, .ro⟩, ⟨F.stnFault_part, .ro⟩, ⟨F.stnFault_instruction, .ro⟩, ⟨F.stnFault_status, .ro⟩, ⟨F.stnFault_tag, .ro⟩]⟩,
  ⟨.stnPcache, false, 0x41018, 64, 128, false, (some 0x40030), .stnSel,
   [⟨F.stnPcache_programs, .ro⟩, ⟨F.stnPcache_bytes, .ro⟩]⟩,
  ⟨.stnScanFault, false, 0x41020, 64, 128, true, (some 0x40038), .stnSel,
   [⟨F.stnScanFault_valid, .w1c⟩, ⟨F.stnScanFault_source, .ro⟩, ⟨F.stnScanFault_column, .ro⟩, ⟨F.stnScanFault_status, .ro⟩, ⟨F.stnScanFault_offset, .ro⟩]⟩]

/-- The registers of block MILL. -/
def regRowsMill : List RegRow := [
  ⟨.millSel, false, 0x50000, 0, 1, false, none, .none,
   [⟨F.millSel_mill, .rw⟩]⟩,
  ⟨.millStatus, false, 0x50008, 0, 16, true, (some 0x50008), .millSel,
   [⟨F.millStatus_ready, .ro⟩, ⟨F.millStatus_parked, .ro⟩, ⟨F.millStatus_busy, .ro⟩, ⟨F.millStatus_merge_busy, .ro⟩]⟩]

/-- The registers of block GRN. -/
def regRowsGrn : List RegRow := [
  ⟨.grnCtl, false, 0x60000, 0, 1, false, none, .none,
   [⟨F.grnCtl_enable, .rw⟩, ⟨F.grnCtl_host_sync, .wo⟩]⟩,
  ⟨.grnStatus, false, 0x60008, 0, 1, false, none, .none,
   [⟨F.grnStatus_state, .ro⟩, ⟨F.grnStatus_dirty_lines, .ro⟩]⟩,
  ⟨.grnMaintBase, false, 0x60010, 0, 1, true, none, .none,
   [⟨F.grnMaintBase_base, .rw⟩]⟩,
  ⟨.grnMaintLen, false, 0x60018, 0, 1, true, none, .none,
   [⟨F.grnMaintLen_len, .rw⟩]⟩,
  ⟨.grnMaintCtl, false, 0x60020, 0, 1, false, none, .none,
   [⟨F.grnMaintCtl_go, .wo⟩, ⟨F.grnMaintCtl_error, .w1c⟩, ⟨F.grnMaintCtl_op, .rw⟩]⟩,
  ⟨.grnMaintBusy, false, 0x60028, 0, 1, false, none, .none,
   [⟨F.grnMaintBusy_busy, .ro⟩, ⟨F.grnMaintBusy_completed, .ro⟩]⟩,
  ⟨.grnErr, false, 0x60030, 0, 1, true, none, .none,
   [⟨F.grnErr_valid, .w1c⟩, ⟨F.grnErr_dirty, .ro⟩, ⟨F.grnErr_bank, .ro⟩, ⟨F.grnErr_line, .ro⟩]⟩,
  ⟨.grnErrCnt, false, 0x60038, 0, 1, false, none, .none,
   [⟨F.grnErrCnt_corrected, .rc⟩]⟩]

/-- The registers of block DMC. -/
def regRowsDmc : List RegRow := [
  ⟨.dmcStatus, false, 0x70000, 0, 1, false, none, .none,
   [⟨F.dmcStatus_init_done, .ro⟩, ⟨F.dmcStatus_self_refresh, .ro⟩, ⟨F.dmcStatus_switching, .ro⟩, ⟨F.dmcStatus_band, .ro⟩, ⟨F.dmcStatus_speed, .ro⟩, ⟨F.dmcStatus_capacity_gib, .ro⟩]⟩,
  ⟨.dmcChSel, false, 0x70008, 0, 1, false, none, .none,
   [⟨F.dmcChSel_channel, .rw⟩]⟩,
  ⟨.dmcChStatus, false, 0x70010, 0, 12, false, (some 0x70010), .dmcCh,
   [⟨F.dmcChStatus_dimm_temp, .ro⟩, ⟨F.dmcChStatus_fast_refresh, .ro⟩, ⟨F.dmcChStatus_owed, .ro⟩, ⟨F.dmcChStatus_ranks, .ro⟩, ⟨F.dmcChStatus_width, .ro⟩, ⟨F.dmcChStatus_density, .ro⟩]⟩,
  ⟨.dmcCeCnt, false, 0x70018, 0, 12, false, (some 0x70018), .dmcCh,
   [⟨F.dmcCeCnt_corrected, .rc⟩]⟩,
  ⟨.dmcDlySel, false, 0x70020, 0, 1, false, none, .none,
   [⟨F.dmcDlySel_sub, .rw⟩, ⟨F.dmcDlySel_entry, .rw⟩]⟩,
  ⟨.dmcDly, false, 0x70028, 0, 2496, false, (some 0x70028), .dmcDly,
   [⟨F.dmcDly_steps, .ro⟩]⟩,
  ⟨.dmcPageCfg, false, 0x70030, 0, 1, false, none, .none,
   [⟨F.dmcPageCfg_idle, .rw⟩]⟩,
  ⟨.dmcRowguard, false, 0x70038, 0, 1, false, none, .none,
   [⟨F.dmcRowguard_radius2, .rw⟩, ⟨F.dmcRowguard_n, .rw⟩]⟩,
  ⟨.dmcPwr, false, 0x70040, 0, 1, false, none, .none,
   [⟨F.dmcPwr_sr_req, .rw⟩, ⟨F.dmcPwr_error, .w1c⟩, ⟨F.dmcPwr_exits, .ro⟩]⟩,
  ⟨.dmcScrub, false, 0x70048, 0, 1, false, none, .none,
   [⟨F.dmcScrub_enable, .rw⟩, ⟨F.dmcScrub_period_h, .rw⟩]⟩,
  ⟨.dmcScrubPos, false, 0x70050, 0, 1, true, none, .none,
   [⟨F.dmcScrubPos_line, .ro⟩]⟩,
  ⟨.dmcErrCfg, false, 0x70058, 0, 1, false, none, .none,
   [⟨F.dmcErrCfg_ce_event, .rw⟩]⟩,
  ⟨.dmcErr, false, 0x70060, 0, 1, true, none, .none,
   [⟨F.dmcErr_valid, .w1c⟩, ⟨F.dmcErr_kind, .ro⟩, ⟨F.dmcErr_source, .ro⟩, ⟨F.dmcErr_channel, .ro⟩, ⟨F.dmcErr_sub, .ro⟩, ⟨F.dmcErr_rank, .ro⟩, ⟨F.dmcErr_bank_group, .ro⟩, ⟨F.dmcErr_bank, .ro⟩, ⟨F.dmcErr_row, .ro⟩, ⟨F.dmcErr_word_mask, .ro⟩]⟩,
  ⟨.dmcErrDpa, false, 0x70068, 0, 1, true, none, .none,
   [⟨F.dmcErrDpa_line, .ro⟩]⟩]

/-- The registers of block SLU. -/
def regRowsSlu : List RegRow := [
  ⟨.sluChSel, false, 0x80000, 0, 1, false, none, .none,
   [⟨F.sluChSel_channel, .rw⟩]⟩,
  ⟨.sluBusy, false, 0x80008, 0, 1, false, none, .none,
   [⟨F.sluBusy_busy, .ro⟩]⟩,
  ⟨.sluChCfg, false, 0x80010, 0, 32, false, (some 0x80010), .sluCh,
   [⟨F.sluChCfg_manager, .rw⟩, ⟨F.sluChCfg_level, .rw⟩]⟩,
  ⟨.sluChCtl, false, 0x80018, 0, 32, false, (some 0x80018), .sluCh,
   [⟨F.sluChCtl_arm, .wo⟩, ⟨F.sluChCtl_disarm, .wo⟩, ⟨F.sluChCtl_stop, .wo⟩, ⟨F.sluChCtl_resume, .wo⟩]⟩,
  ⟨.sluChStatus, false, 0x80020, 0, 32, true, (some 0x80020), .sluCh,
   [⟨F.sluChStatus_state, .ro⟩, ⟨F.sluChStatus_shadow_armed, .ro⟩, ⟨F.sluChStatus_error, .w1c⟩, ⟨F.sluChStatus_source, .ro⟩, ⟨F.sluChStatus_level, .ro⟩, ⟨F.sluChStatus_slice, .ro⟩, ⟨F.sluChStatus_buffered, .ro⟩, ⟨F.sluChStatus_written, .ro⟩]⟩,
  ⟨.sluChDone, false, 0x80028, 0, 32, false, (some 0x80028), .sluCh,
   [⟨F.sluChDone_count, .ro⟩]⟩,
  ⟨.sluActSrc, false, 0x80030, 0, 32, true, (some 0x80030), .sluCh,
   [⟨F.sluActSrc_value, .ro⟩]⟩,
  ⟨.sluActDst, false, 0x80038, 0, 32, true, (some 0x80038), .sluCh,
   [⟨F.sluActDst_value, .ro⟩]⟩,
  ⟨.sluActLen, false, 0x80040, 0, 32, false, (some 0x80040), .sluCh,
   [⟨F.sluActLen_length, .ro⟩]⟩,
  ⟨.sluActCtrl, false, 0x80048, 0, 32, false, (some 0x80048), .sluCh,
   [⟨F.sluActCtrl_flags, .ro⟩]⟩,
  ⟨.sluActTap, false, 0x80050, 0, 32, false, (some 0x80050), .sluCh,
   [⟨F.sluActTap_tap, .ro⟩]⟩,
  ⟨.sluShdSrc, false, 0x80058, 0, 32, true, (some 0x80058), .sluCh,
   [⟨F.sluShdSrc_value, .rw⟩]⟩,
  ⟨.sluShdDst, false, 0x80060, 0, 32, true, (some 0x80060), .sluCh,
   [⟨F.sluShdDst_value, .rw⟩]⟩,
  ⟨.sluShdLen, false, 0x80068, 0, 32, false, (some 0x80068), .sluCh,
   [⟨F.sluShdLen_length, .rw⟩]⟩,
  ⟨.sluShdCtrl, false, 0x80070, 0, 32, false, (some 0x80070), .sluCh,
   [⟨F.sluShdCtrl_flags, .rw⟩]⟩,
  ⟨.sluShdTap, false, 0x80078, 0, 32, false, (some 0x80078), .sluCh,
   [⟨F.sluShdTap_tap, .rw⟩]⟩,
  ⟨.sluChErr, false, 0x80080, 0, 32, true, (some 0x80080), .sluCh,
   [⟨F.sluChErr_valid, .w1c⟩, ⟨F.sluChErr_status, .ro⟩, ⟨F.sluChErr_detail, .ro⟩]⟩,
  ⟨.sluChErrAddr, false, 0x80088, 0, 32, true, (some 0x80088), .sluCh,
   [⟨F.sluChErrAddr_sva, .ro⟩]⟩]

/-- The registers of block QRN. -/
def regRowsQrn : List RegRow := [
  ⟨.qrnSel, false, 0x90000, 0, 1, false, none, .none,
   [⟨F.qrnSel_quern, .rw⟩]⟩,
  ⟨.qrnState, false, 0x90008, 0, 16, true, (some 0x90008), .qrnSel,
   [⟨F.qrnState_busy, .ro⟩, ⟨F.qrnState_decompress, .ro⟩, ⟨F.qrnState_slice, .ro⟩, ⟨F.qrnState_tag, .ro⟩, ⟨F.qrnState_block, .ro⟩]⟩,
  ⟨.qrnErr, false, 0x90010, 0, 16, true, (some 0x90010), .qrnSel,
   [⟨F.qrnErr_valid, .w1c⟩, ⟨F.qrnErr_status, .ro⟩, ⟨F.qrnErr_offset, .ro⟩]⟩,
  ⟨.qrnErrCtx, false, 0x90018, 0, 16, true, (some 0x90018), .qrnSel,
   [⟨F.qrnErrCtx_slice, .ro⟩, ⟨F.qrnErrCtx_tag, .ro⟩, ⟨F.qrnErrCtx_block, .ro⟩]⟩]

/-- The registers of block TOL. -/
def regRowsTol : List RegRow := [
  ⟨.tolCfg, false, 0xA0000, 0, 1, false, none, .none,
   [⟨F.tolCfg_hold_total, .rw⟩, ⟨F.tolCfg_hold_slice, .rw⟩]⟩,
  ⟨.tolStatus, false, 0xA0008, 0, 1, false, none, .none,
   [⟨F.tolStatus_waiting, .ro⟩, ⟨F.tolStatus_held, .ro⟩, ⟨F.tolStatus_busy, .ro⟩]⟩,
  ⟨.tolCtxSel, false, 0xA0010, 0, 1, false, none, .none,
   [⟨F.tolCtxSel_context, .rw⟩]⟩,
  ⟨.tolCtxState, false, 0xA0018, 0, 32, true, (some 0xA0018), .tolCtx,
   [⟨F.tolCtxState_busy, .ro⟩, ⟨F.tolCtxState_held, .ro⟩, ⟨F.tolCtxState_keyed, .ro⟩, ⟨F.tolCtxState_alg, .ro⟩, ⟨F.tolCtxState_mark_valid, .ro⟩, ⟨F.tolCtxState_mark_late, .w1c⟩, ⟨F.tolCtxState_mark_ignored, .w1c⟩, ⟨F.tolCtxState_slice, .ro⟩, ⟨F.tolCtxState_tag, .ro⟩, ⟨F.tolCtxState_absorbed, .ro⟩]⟩,
  ⟨.tolLastWord, false, 0xA0020, 0, 32, false, (some 0xA0020), .tolCtx,
   [⟨F.tolLastWord_last_word, .rw⟩]⟩,
  ⟨.tolValidBytes, false, 0xA0028, 0, 32, false, (some 0xA0028), .tolCtx,
   [⟨F.tolValidBytes_valid, .wo⟩]⟩,
  ⟨.tolTapSel, false, 0xA0030, 0, 1, false, none, .none,
   [⟨F.tolTapSel_slice, .rw⟩]⟩,
  ⟨.tolTapBase, false, 0xA0038, 0, 64, true, (some 0xA0038), .tolTap,
   [⟨F.tolTapBase_base, .rw⟩]⟩,
  ⟨.tolTapCfg, false, 0xA0040, 0, 64, false, (some 0xA0040), .tolTap,
   [⟨F.tolTapCfg_enable, .rw⟩, ⟨F.tolTapCfg_depth_log2, .rw⟩]⟩,
  ⟨.tolVtap, false, 0xA0048, 0, 256, false, (some 0xA0048), .volSel,
   [⟨F.tolVtap_wr_en, .rw⟩, ⟨F.tolVtap_rd_en, .rw⟩, ⟨F.tolVtap_alg, .rw⟩, ⟨F.tolVtap_slots_log2, .rw⟩, ⟨F.tolVtap_slot_base, .rw⟩]⟩]

/-- The registers of block XLT. -/
def regRowsXlt : List RegRow := [
  ⟨.xltCfg, false, 0xB0000, 0, 1, false, none, .none,
   [⟨F.xltCfg_atomic_req, .ro⟩, ⟨F.xltCfg_host_ad_active, .ro⟩, ⟨F.xltCfg_host_ad, .rw⟩]⟩,
  ⟨.xltSliceSel, false, 0xB0008, 0, 1, false, none, .none,
   [⟨F.xltSliceSel_slice, .rw⟩]⟩,
  ⟨.xltS2Root, false, 0xB0010, 0, 64, true, (some 0xB0010), .xltSlice,
   [⟨F.xltS2Root_root, .rw⟩, ⟨F.xltS2Root_enable, .rw⟩]⟩,
  ⟨.xltFault, false, 0xB0018, 0, 64, true, (some 0xB0018), .xltSlice,
   [⟨F.xltFault_valid, .w1c⟩, ⟨F.xltFault_queue, .ro⟩, ⟨F.xltFault_tag, .ro⟩, ⟨F.xltFault_status, .ro⟩, ⟨F.xltFault_detail, .ro⟩]⟩,
  ⟨.xltFaultSva, false, 0xB0020, 0, 64, true, (some 0xB0020), .xltSlice,
   [⟨F.xltFaultSva_sva, .ro⟩]⟩,
  ⟨.xltFaultSpa, false, 0xB0028, 0, 64, true, (some 0xB0028), .xltSlice,
   [⟨F.xltFaultSpa_spa, .ro⟩]⟩,
  ⟨.xltInval, false, 0xB0030, 0, 1, false, none, .none,
   [⟨F.xltInval_go, .wo⟩, ⟨F.xltInval_error, .w1c⟩, ⟨F.xltInval_busy, .ro⟩, ⟨F.xltInval_op, .rw⟩, ⟨F.xltInval_stage2, .rw⟩, ⟨F.xltInval_stage1, .rw⟩, ⟨F.xltInval_slice, .rw⟩]⟩,
  ⟨.xltInvalAddr, false, 0xB0038, 0, 1, true, none, .none,
   [⟨F.xltInvalAddr_addr, .rw⟩]⟩,
  ⟨.xltInvalPages, false, 0xB0040, 0, 1, false, none, .none,
   [⟨F.xltInvalPages_pages, .rw⟩]⟩]

/-- The registers of block VOL. -/
def regRowsVol : List RegRow := [
  ⟨.volSel, false, 0xD0000, 0, 1, false, none, .none,
   [⟨F.volSel_volume, .rw⟩]⟩,
  ⟨.volCfg, false, 0xD0008, 0, 256, false, (some 0xD0008), .volSel,
   [⟨F.volCfg_valid, .ro⟩, ⟨F.volCfg_kind, .ro⟩, ⟨F.volCfg_layout, .ro⟩, ⟨F.volCfg_sector, .ro⟩, ⟨F.volCfg_unit_log2, .ro⟩, ⟨F.volCfg_owner, .ro⟩, ⟨F.volCfg_key_slot, .ro⟩, ⟨F.volCfg_ports, .ro⟩]⟩,
  ⟨.volCap, false, 0xD0010, 0, 256, true, (some 0xD0010), .volSel,
   [⟨F.volCap_capacity, .ro⟩]⟩,
  ⟨.volState, false, 0xD0018, 0, 256, false, (some 0xD0018), .volSel,
   [⟨F.volState_state, .ro⟩, ⟨F.volState_proj_error, .w1c⟩, ⟨F.volState_proj_full, .ro⟩, ⟨F.volState_unavailable, .ro⟩]⟩,
  ⟨.volFlushed, false, 0xD0020, 0, 256, true, (some 0xD0020), .volSel,
   [⟨F.volFlushed_epoch, .ro⟩]⟩,
  ⟨.volProgress, false, 0xD0028, 0, 256, true, (some 0xD0028), .volSel,
   [⟨F.volProgress_next, .ro⟩, ⟨F.volProgress_units, .ro⟩]⟩,
  ⟨.volProjBad, false, 0xD0030, 0, 256, true, (some 0xD0030), .volSel,
   [⟨F.volProjBad_count, .ro⟩]⟩,
  ⟨.volDirty, false, 0xD0038, 0, 1, false, none, .none,
   [⟨F.volDirty_wait, .ro⟩, ⟨F.volDirty_entries, .ro⟩]⟩,
  ⟨.volPortSel, false, 0xD0040, 0, 1, false, none, .none,
   [⟨F.volPortSel_port, .rw⟩]⟩,
  ⟨.volPortStatus, false, 0xD0048, 0, 8, false, (some 0xD0048), .volPort,
   [⟨F.volPortStatus_state, .ro⟩, ⟨F.volPortStatus_reason, .ro⟩, ⟨F.volPortStatus_speed, .ro⟩, ⟨F.volPortStatus_width, .ro⟩]⟩,
  ⟨.volPortCtl, false, 0xD0050, 0, 8, false, (some 0xD0050), .volPort,
   [⟨F.volPortCtl_attach, .wo⟩, ⟨F.volPortCtl_detach, .wo⟩, ⟨F.volPortCtl_timeout_ms, .rw⟩]⟩]

/-- The registers of block MPD. -/
def regRowsMpd : List RegRow := [
  ⟨.mpdEpoch, false, 0xE0000, 0, 1, true, none, .none,
   [⟨F.mpdEpoch_published, .ro⟩]⟩,
  ⟨.mpdGroupStat, false, 0xE0008, 0, 1, true, none, .none,
   [⟨F.mpdGroupStat_open_epoch, .ro⟩]⟩,
  ⟨.mpdSeq, false, 0xE0010, 0, 1, true, none, .none,
   [⟨F.mpdSeq_next, .ro⟩]⟩,
  ⟨.mpdGroupCfg, false, 0xE0018, 0, 1, false, none, .none,
   [⟨F.mpdGroupCfg_close_us, .rw⟩, ⟨F.mpdGroupCfg_max_kib, .rw⟩]⟩,
  ⟨.mpdLowWater, false, 0xE0020, 0, 1, true, none, .none,
   [⟨F.mpdLowWater_low, .ro⟩]⟩,
  ⟨.mpdSnapStat, false, 0xE0028, 0, 1, false, none, .none,
   [⟨F.mpdSnapStat_txns, .ro⟩, ⟨F.mpdSnapStat_snaps, .ro⟩]⟩,
  ⟨.mpdStatus, false, 0xE0030, 0, 1, false, none, .none,
   [⟨F.mpdStatus_pwr_fail, .ro⟩, ⟨F.mpdStatus_read_only, .ro⟩, ⟨F.mpdStatus_replay_busy, .ro⟩, ⟨F.mpdStatus_replay_done, .ro⟩, ⟨F.mpdStatus_journal_wait, .ro⟩, ⟨F.mpdStatus_chain_break, .w1c⟩, ⟨F.mpdStatus_space_warn, .w1c⟩]⟩,
  ⟨.mpdSpace, false, 0xE0038, 0, 1, false, none, .none,
   [⟨F.mpdSpace_warn_pct, .rw⟩, ⟨F.mpdSpace_used_blocks, .ro⟩]⟩,
  ⟨.mpdTrunc, false, 0xE0040, 0, 1, true, none, .none,
   [⟨F.mpdTrunc_epoch, .ro⟩]⟩,
  ⟨.mpdCkpt, false, 0xE0048, 0, 1, true, none, .none,
   [⟨F.mpdCkpt_epoch, .rw⟩]⟩,
  ⟨.mpdReplay, false, 0xE0050, 0, 1, false, none, .none,
   [⟨F.mpdReplay_start, .wo⟩]⟩,
  ⟨.mpdRecovery, false, 0xE0058, 0, 1, true, none, .none,
   [⟨F.mpdRecovery_epoch, .ro⟩]⟩,
  ⟨.mpdBreakSeq, false, 0xE0060, 0, 1, true, none, .none,
   [⟨F.mpdBreakSeq_sequence, .ro⟩]⟩,
  ⟨.mpdTableSel, false, 0xE0068, 0, 1, false, none, .none,
   [⟨F.mpdTableSel_table, .rw⟩]⟩,
  ⟨.mpdTableCfg, false, 0xE0070, 0, 256, true, (some 0xE0070), .mpdTable,
   [⟨F.mpdTableCfg_valid, .rw⟩, ⟨F.mpdTableCfg_projection, .rw⟩, ⟨F.mpdTableCfg_slice, .rw⟩, ⟨F.mpdTableCfg_volume, .rw⟩, ⟨F.mpdTableCfg_addr, .rw⟩]⟩,
  ⟨.mpdTableStat, false, 0xE0078, 0, 256, true, (some 0xE0078), .mpdTable,
   [⟨F.mpdTableStat_applied, .ro⟩]⟩,
  ⟨.mpdWear, false, 0xE0080, 0, 1, true, none, .none,
   [⟨F.mpdWear_max, .ro⟩, ⟨F.mpdWear_mean, .ro⟩]⟩,
  ⟨.mpdWinBase, false, 0xE0088, 0, 1, false, none, .none,
   [⟨F.mpdWinBase_base, .rw⟩]⟩]

/-- The registers of block OTP. -/
def regRowsOtp : List RegRow := [
  ⟨.otpStatus, false, 0xF0000, 0, 1, false, none, .none,
   [⟨F.otpStatus_busy, .ro⟩, ⟨F.otpStatus_unsecured, .ro⟩, ⟨F.otpStatus_debug_locked, .ro⟩, ⟨F.otpStatus_result, .ro⟩, ⟨F.otpStatus_bad_generations, .ro⟩]⟩,
  ⟨.otpGroupSel, false, 0xF0008, 0, 1, false, none, .none,
   [⟨F.otpGroupSel_group, .rw⟩]⟩,
  ⟨.otpGroup, false, 0xF0010, 0, 64, true, (some 0xF0010), .otpGroup,
   [⟨F.otpGroup_valid, .ro⟩, ⟨F.otpGroup_lock, .ro⟩, ⟨F.otpGroup_generation, .ro⟩, ⟨F.otpGroup_spares, .ro⟩, ⟨F.otpGroup_value, .ro⟩]⟩,
  ⟨.otpProgValue, false, 0xF0018, 0, 1, true, none, .none,
   [⟨F.otpProgValue_lock, .rw⟩, ⟨F.otpProgValue_value, .rw⟩]⟩,
  ⟨.otpProgCtl, false, 0xF0020, 0, 1, false, none, .none,
   [⟨F.otpProgCtl_go, .wo⟩, ⟨F.otpProgCtl_group, .rw⟩, ⟨F.otpProgCtl_confirm, .wo⟩]⟩]

/-- The registers of block BRK. -/
def regRowsBrk : List RegRow := [
  ⟨.brkStatus, false, 0x100000, 0, 1, false, none, .none,
   [⟨F.brkStatus_keys_erased, .ro⟩, ⟨F.brkStatus_restore_locked, .ro⟩, ⟨F.brkStatus_restore_failures, .ro⟩, ⟨F.brkStatus_live, .ro⟩, ⟨F.brkStatus_tripped, .w1c⟩]⟩,
  ⟨.brkResp, false, 0x100008, 0, 1, false, none, .none,
   [⟨F.brkResp_lid_en, .rwl⟩, ⟨F.brkResp_mesh_en, .rwl⟩, ⟨F.brkResp_responses, .rwl⟩]⟩,
  ⟨.brkLog, false, 0x100010, 0, 1, true, none, .none,
   [⟨F.brkLog_valid, .w1c⟩, ⟨F.brkLog_sensors, .ro⟩, ⟨F.brkLog_response, .ro⟩, ⟨F.brkLog_tick, .ro⟩]⟩,
  ⟨.brkKeySel, false, 0x100018, 0, 1, false, none, .none,
   [⟨F.brkKeySel_slot, .rw⟩]⟩,
  ⟨.brkKeyCfg, false, 0x100020, 0, 64, false, (some 0x100020), .brkKey,
   [⟨F.brkKeyCfg_loaded, .ro⟩, ⟨F.brkKeyCfg_volume, .ro⟩, ⟨F.brkKeyCfg_usage, .rw⟩, ⟨F.brkKeyCfg_owner, .rw⟩, ⟨F.brkKeyCfg_grant_en, .rw⟩, ⟨F.brkKeyCfg_length, .rw⟩]⟩,
  ⟨.brkKeyCtl, false, 0x100028, 0, 1, false, none, .none,
   [⟨F.brkKeyCtl_go, .wo⟩, ⟨F.brkKeyCtl_error, .w1c⟩, ⟨F.brkKeyCtl_busy, .ro⟩, ⟨F.brkKeyCtl_op, .rw⟩]⟩,
  ⟨.brkRestoreCtl, false, 0x100030, 0, 1, false, none, .none,
   [⟨F.brkRestoreCtl_challenge, .wo⟩, ⟨F.brkRestoreCtl_verify, .wo⟩, ⟨F.brkRestoreCtl_busy, .ro⟩, ⟨F.brkRestoreCtl_error, .w1c⟩, ⟨F.brkRestoreCtl_words, .ro⟩]⟩,
  ⟨.brkRestoreData, false, 0x100038, 0, 1, true, none, .none,
   [⟨F.brkRestoreData_data, .wo⟩]⟩,
  ⟨.brkKeyData, false, 0x100040, 8, 8, true, none, .none,
   [⟨F.brkKeyData_bytes, .wo⟩]⟩]

/-- The registers of block SCK. -/
def regRowsSck : List RegRow := [
  ⟨.sckCtl, false, 0x110000, 0, 1, false, none, .none,
   [⟨F.sckCtl_freeze, .rw⟩, ⟨F.sckCtl_clear, .wo⟩, ⟨F.sckCtl_ovf_event, .rw⟩, ⟨F.sckCtl_class_en, .rw⟩]⟩,
  ⟨.sckStatus, false, 0x110008, 0, 1, false, none, .none,
   [⟨F.sckStatus_frozen, .ro⟩, ⟨F.sckStatus_settled, .ro⟩, ⟨F.sckStatus_bad_write, .w1c⟩]⟩,
  ⟨.sckOvf0, false, 0x110010, 0, 1, true, none, .none,
   [⟨F.sckOvf0_ovf, .w1c⟩]⟩,
  ⟨.sckOvf1, false, 0x110018, 0, 1, true, none, .none,
   [⟨F.sckOvf1_ovf, .w1c⟩]⟩,
  ⟨.sckSel, false, 0x110020, 0, 1, false, none, .none,
   [⟨F.sckSel_counter, .rw⟩]⟩,
  ⟨.sckEvt, false, 0x110028, 0, 128, false, (some 0x110028), .sckSel,
   [⟨F.sckEvt_enable, .rw⟩, ⟨F.sckEvt_priv, .rw⟩, ⟨F.sckEvt_slice, .rw⟩, ⟨F.sckEvt_event, .rw⟩]⟩,
  ⟨.sckFilt, false, 0x110030, 0, 128, false, (some 0x110030), .sckSel,
   [⟨F.sckFilt_master_val, .rw⟩, ⟨F.sckFilt_master_mask, .rw⟩, ⟨F.sckFilt_addr_mode, .rw⟩]⟩,
  ⟨.sckBwCfg, false, 0x110038, 0, 1, false, none, .none,
   [⟨F.sckBwCfg_window_us, .rw⟩]⟩,
  ⟨.sckBwCtl, false, 0x110040, 0, 1, false, none, .none,
   [⟨F.sckBwCtl_clear_peak, .wo⟩]⟩,
  ⟨.sckBwSel, false, 0x110048, 0, 1, false, none, .none,
   [⟨F.sckBwSel_port, .rw⟩]⟩,
  ⟨.sckBwLast, false, 0x110050, 0, 22, true, (some 0x110050), .sckBw,
   [⟨F.sckBwLast_window, .ro⟩, ⟨F.sckBwLast_bytes, .ro⟩]⟩,
  ⟨.sckBwPeak, false, 0x110058, 0, 22, true, (some 0x110058), .sckBw,
   [⟨F.sckBwPeak_window, .ro⟩, ⟨F.sckBwPeak_bytes, .ro⟩]⟩,
  ⟨.sckAddrBase, false, 0x110060, 16, 2, true, none, .none,
   [⟨F.sckAddrBase_addr, .rw⟩]⟩,
  ⟨.sckAddrLimit, false, 0x110068, 16, 2, true, none, .none,
   [⟨F.sckAddrLimit_addr, .rw⟩]⟩,
  ⟨.sckCnt, false, 0x110400, 8, 128, true, none, .none,
   [⟨F.sckCnt_count, .rw⟩]⟩]

/-- The registers of block BOOT. -/
def regRowsBoot : List RegRow := [
  ⟨.bootStatus, false, 0x120000, 0, 1, true, none, .none,
   [⟨F.bootStatus_ready, .ro⟩, ⟨F.bootStatus_halted, .ro⟩, ⟨F.bootStatus_restart_limit, .ro⟩, ⟨F.bootStatus_degraded, .ro⟩, ⟨F.bootStatus_dump_held, .ro⟩, ⟨F.bootStatus_last_reset, .ro⟩, ⟨F.bootStatus_step, .ro⟩, ⟨F.bootStatus_outcome, .ro⟩, ⟨F.bootStatus_restarts, .ro⟩]⟩,
  ⟨.bootStepSel, false, 0x120008, 0, 1, false, none, .none,
   [⟨F.bootStepSel_step, .rw⟩]⟩,
  ⟨.bootStep, false, 0x120010, 0, 32, true, (some 0x120010), .bootStep,
   [⟨F.bootStep_attempts, .ro⟩, ⟨F.bootStep_outcome, .ro⟩, ⟨F.bootStep_fails, .ro⟩, ⟨F.bootStep_way, .ro⟩, ⟨F.bootStep_state, .ro⟩]⟩,
  ⟨.bootClear, false, 0x120018, 0, 1, false, none, .none,
   [⟨F.bootClear_steps, .wo⟩]⟩,
  ⟨.bootImage, false, 0x120020, 0, 1, false, none, .none,
   [⟨F.bootImage_preferred, .rw⟩, ⟨F.bootImage_running, .ro⟩, ⟨F.bootImage_version, .ro⟩]⟩,
  ⟨.bootDump, false, 0x120028, 0, 1, true, none, .none,
   [⟨F.bootDump_trigger, .wo⟩, ⟨F.bootDump_held, .ro⟩, ⟨F.bootDump_dram_valid, .ro⟩, ⟨F.bootDump_lost, .ro⟩, ⟨F.bootDump_sequence, .ro⟩]⟩]

/-- The registers of block PAGE. -/
def regRowsPage : List RegRow := [
  ⟨.wqDoorbell, true, 0x0, 8, 512, false, none, .none,
   [⟨F.wqDoorbell_tail, .rw⟩]⟩,
  ⟨.slcWqHead, true, 0x40, 8, 512, false, none, .none,
   [⟨F.slcWqHead_head, .ro⟩]⟩,
  ⟨.slcFault, true, 0x80, 0, 64, true, none, .none,
   [⟨F.slcFault_index, .ro⟩, ⟨F.slcFault_valid, .ro⟩, ⟨F.slcFault_device, .ro⟩, ⟨F.slcFault_target, .ro⟩, ⟨F.slcFault_kind, .ro⟩, ⟨F.slcFault_reason, .ro⟩, ⟨F.slcFault_queue, .ro⟩]⟩,
  ⟨.slcStatus, true, 0x88, 0, 64, false, none, .none,
   [⟨F.slcStatus_halted, .ro⟩, ⟨F.slcStatus_ev_head_bad, .w1c⟩, ⟨F.slcStatus_ev_held, .ro⟩, ⟨F.slcStatus_ev_dropped, .w1c⟩, ⟨F.slcStatus_ev_lossless, .ro⟩]⟩,
  ⟨.slcEvHead, true, 0x90, 0, 64, false, none, .none,
   [⟨F.slcEvHead_head, .rw⟩]⟩,
  ⟨.slcEvTail, true, 0x98, 0, 64, false, none, .none,
   [⟨F.slcEvTail_tail, .ro⟩]⟩,
  ⟨.slcEvDrops, true, 0xA0, 0, 64, false, none, .none,
   [⟨F.slcEvDrops_count, .ro⟩]⟩,
  ⟨.slcS1Root, true, 0xA8, 0, 64, true, none, .none,
   [⟨F.slcS1Root_root, .rw⟩, ⟨F.slcS1Root_enable, .rw⟩]⟩,
  ⟨.slcPkeyRights, true, 0xB0, 0, 64, false, none, .none,
   [⟨F.slcPkeyRights_rights, .rw⟩]⟩,
  ⟨.slcLateDiscards, true, 0xB8, 0, 64, false, none, .none,
   [⟨F.slcLateDiscards_count, .ro⟩]⟩]

/-- Every register, in the order of chapter 21. -/
def regRows : List RegRow :=
  regRowsDev ++ regRowsWq ++ regRowsSlc ++ regRowsWeir ++ regRowsFan ++ regRowsStn ++ regRowsMill ++ regRowsGrn ++ regRowsDmc ++ regRowsSlu ++ regRowsQrn ++ regRowsTol ++ regRowsXlt ++ regRowsVol ++ regRowsMpd ++ regRowsOtp ++ regRowsBrk ++ regRowsSck ++ regRowsBoot ++ regRowsPage

/-- The place of a register's instance i in the register file. -/
def regKey (r : Reg) (i : Nat) : Nat := r.ctorIdx * 65536 + i

/-- The value of a register after power-on reset (column Reset of its field table), by its place in the list Reg. -/
def regResetIdx : Nat → Nat
  | 0 => 0x128B010  -- DEV_ID
  | 1 => 0x1  -- DEV_PROFILE
  | 2 => 0x14  -- DEV_CFG
  | 8 => 0x1  -- WQ_STATE
  | 9 => 0x3E8  -- WQ_CHAIN_TIMEOUT
  | 12 => 0x100  -- WEIR_QCFG
  | 13 => 0x10000  -- WEIR_QSTAT
  | 17 => 0x400  -- FAN_AFFINITY
  | 25 => 0x10001  -- STN_CFG
  | 35 => 0x80000000  -- GRN_CTL
  | 49 => 0x80  -- DMC_PAGE_CFG
  | 50 => 0x20  -- DMC_ROWGUARD
  | 52 => 0x80000018  -- DMC_SCRUB
  | 54 => 0x400  -- DMC_ERR_CFG
  | 59 => 0x1  -- SLU_CH_CFG
  | 79 => 0x1004  -- TOL_CFG
  | 114 => 0x7D0  -- VOL_PORT_CTL
  | 118 => 0x140100  -- MPD_GROUP_CFG
  | 122 => 0x4B000000  -- MPD_SPACE
  | 133 => 0x40000000  -- OTP_STATUS
  | 147 => 0xFFFF  -- SCK_CTL
  | 148 => 0x40000000  -- SCK_STATUS
  | 154 => 0x3E8  -- SCK_BW_CFG
  | _ => 0

/-- The value a register's instance has after power-on reset. Slice 0 is ACTIVE with vectors 0 to 31 (17 Table 17.7). -/
def regReset (key : Nat) : Word :=
  if key = regKey .slcCfg 0 then 0x401F0000#64 else BitVec.ofNat 64 (regResetIdx (key / 65536))

end Sys2Proof.Machine
end

