-- ==== Sys2Proof/Machine/Tab.lean ====
section
/-! DEFINITION. Sparse tables: a list of (key, value) pairs in one canonical form (keys strictly rising, no entry equal
to what an unlisted key reads as). Memory, the register file and every array of units are held so. -/

namespace Sys2Proof.Machine

/-- What key k reads as; d is what an unlisted key reads as. -/
def tget {α : Type} (d : Nat → α) : List (Nat × α) → Nat → α
  | [], k => d k
  | (k', v) :: t, k => if k' = k then v else if k < k' then d k else tget d t k

/-- The table with key k reading v, in canonical form. -/
def tset {α : Type} [DecidableEq α] (d : Nat → α) : List (Nat × α) → Nat → α → List (Nat × α)
  | [], k, v => if v = d k then [] else [(k, v)]
  | (k', v') :: t, k, v =>
    if k' = k then (if v = d k then t else (k, v) :: t)
    else if k < k' then (if v = d k then (k', v') :: t else (k, v) :: (k', v') :: t)
    else (k', v') :: tset d t k v

/-- The canonical form: keys strictly rising from above lo, no entry at its default. -/
def twfFrom {α : Type} [DecidableEq α] (d : Nat → α) : Nat → List (Nat × α) → Bool
  | _, [] => true
  | lo, (k, v) :: t => decide (lo ≤ k) && decide (v ≠ d k) && twfFrom d (k + 1) t

/-- The canonical form. -/
def twf {α : Type} [DecidableEq α] (d : Nat → α) (t : List (Nat × α)) : Bool := twfFrom d 0 t

/-- Every listed key with its value. -/
def tlist {α : Type} (t : List (Nat × α)) : List (Nat × α) := t

/-- The table with every key of ks set back to its default. -/
def tclear {α : Type} [DecidableEq α] (d : Nat → α) (t : List (Nat × α)) (ks : List Nat) : List (Nat × α) :=
  ks.foldl (fun t k => tset d t k (d k)) t

/-- Change the value of key k. -/
def tupd {α : Type} [DecidableEq α] (d : Nat → α) (t : List (Nat × α)) (k : Nat) (f : α → α) : List (Nat × α) :=
  tset d t k (f (tget d t k))

end Sys2Proof.Machine
end

