-- ==== Sys2Proof/Machine/TypesBoot.lean ====
section
/-! DEFINITION. The state of boot, the OTP array and the outside interfaces (18, 19, 21, 22). -/

namespace Sys2Proof.Machine

/-- A board that presents nothing, with test_en high: the device before power. -/
def Board.none_ : Board := { testEn := true, perstN := false, flashMode := false, linkSpeed := 0 }

/-- Start-up (18): whether the device is powered and out of power-on reset, the board, the steps running (all of 0x10 to
0x17 together, none while no boot runs), the OTP settings loaded at the last power-on (19 R574: group and generation word), whether the
host link is up, whether perst_n is high, whether the Brake is armed (19 R586), the board section of the running image,
whether therm_trip_n is asserted (22 R652), the mask of the storage ports whose
sto_perst_n is low (22 R645). -/
structure Boot where
  on : Bool
  board : Board
  running : List Nat
  settings : Option (List (Nat × Nat))
  link : Bool
  perst : Bool
  armed : Bool
  section_ : List Byte
  therm : Bool
  portReset : Nat
  deriving DecidableEq, Repr

/-- Before power. -/
def Boot.off : Boot := ⟨false, Board.none_, [], none, false, false, false, [], false, 255⟩

/-- The answers of the outside interfaces: the data of the last host read, the bytes of the last SMBus reply. -/
structure Answers where
  host : List Byte
  smbus : List Byte
  deriving DecidableEq, Repr

/-- The bandwidth monitor's window (20 R609 to R611): bytes of each port in it, the tick edge at which it starts, whether
clear_peak waits for its end, its sequence number. -/
structure BwWindow where
  bytes : List (Nat × Nat)
  start : Nat
  clearPeak : Bool
  seq : Nat
  deriving DecidableEq, Repr

/-- A programming of the OTP array in progress (19 R576): group, generation, the word. -/
structure OtpOp where
  group : Nat
  gen : Nat
  word : Nat
  deriving DecidableEq, Repr

end Sys2Proof.Machine
end

