-- ==== Sys2Proof/Machine/TypesPipe.lean ====
section
/-! DEFINITION. The state of pipeline programs, stones and merge units (05 to 08). -/

namespace Sys2Proof.Machine

/-- A register's tag: type code and scale (05 R151, Table 5.3). -/
structure Tag where
  typ : Nat
  scale : Nat
  deriving DecidableEq, Repr

/-- A section of a container: type, index, offset, length (05 R167). -/
structure Sec where
  typ : Nat
  idx : Nat
  off : Nat
  len : Nat
  deriving DecidableEq, Repr

/-- A pool constant (05 Table 5.10): its value, or the offset, length and table of its text. -/
structure Const where
  tag : Tag
  null : Bool
  value : Int
  off : Nat
  len : Nat
  table : Nat
  deriving DecidableEq, Repr

/-- A phase entry (05 Table 5.9): the entry numbers of stage s and part p at 3 * (s - 1) + p, and the dependence. -/
structure PhaseEnt where
  entries : List Nat
  dep : Nat
  deriving DecidableEq, Repr

/-- A BINDINGS entry (05 Table 5.8). -/
structure BindEnt where
  num : Nat
  r : Bool
  w : Bool
  scratch : Bool
  deriving DecidableEq, Repr

/-- A field entry of a record layout (08 Table 8.6). -/
structure LField where
  offset : Nat
  length : Nat
  kind : Nat
  digits : Nat
  scale : Nat
  blankNull : Bool
  placement : Nat
  positiveF : Bool
  lenient : Bool
  unsigned : Bool
  zone : Nat
  pad : Nat
  inX : Nat
  outX : Nat
  deriving DecidableEq, Repr

/-- A record layout descriptor (08 Table 8.5). -/
structure Layout where
  len : Nat
  src : Nat
  blockLen : Nat
  rpb : Nat
  fill : Nat
  blank : Nat
  plus : Nat
  minus : Nat
  discEn : Bool
  discVal : Nat
  discOff : Nat
  fields : List LField
  deriving DecidableEq, Repr

/-- A program container as the loader reads it (05 R166, R167): header fields, section table, code words, pool, phases,
bindings, layouts, translation tables, tags of the static scalars. -/
structure Prog where
  batchLog : Nat
  cols : Nat
  statics : Nat
  totalLen : Nat
  crc : Nat
  secs : List Sec
  code : List Nat
  codeBlock : Nat
  codeOff : Nat
  pool : List Const
  poolOff : Nat
  poolBytes : List Byte
  phases : List PhaseEnt
  binds : List BindEnt
  layouts : List (Nat × Layout)
  tables : List (Nat × List Byte)
  argTags : List Tag
  deriving DecidableEq, Repr

/-- The key of the check cache and of program caches: slice, addr0, len0, crc (05 R180, R182). -/
structure ProgKey where
  slice : Nat
  addr : Nat
  len : Nat
  crc : Nat
  deriving DecidableEq, Repr

/-- A partition table entry (05 Table 5.5). -/
structure Part where
  phase : Nat
  input : Nat
  rows : Nat
  outIndex : Nat
  deriving DecidableEq, Repr

/-- A checked pipeline job: its program, bindings (number, SVA, length), argument block, partition table, the entries
read as tasks were created, and the row images its TAPPENDs gave the journal. -/
structure PipeJob where
  key : ProgKey
  prog : Prog
  binds : List (Nat × Nat × Nat)
  args : Nat
  argLen : Nat
  table : Nat
  parts : List Part
  deriving DecidableEq, Repr

/-- A column register (05 R151): its tag and its lanes; a lane that is none is NULL; the free values that its lanes hold which the task has
not written, where a task has begun with it. -/
structure Col where
  tag : Tag
  lanes : List (Nat × Option Nat)
  fill : Option Nat := none
  deriving DecidableEq, Repr

/-- A scalar register (05 R151): its tag and its 64 bits; none is NULL; the free value that it holds where the task has begun with it and not
written it. -/
structure Scalar where
  tag : Tag
  val : Option Nat
  fill : Option Nat := none
  deriving DecidableEq, Repr

/-- A batch in flight (05 R154, R155): its ordinal, its frame, its rows, the batch selection, the stamp store. -/
structure Batch where
  ord : Nat
  frame : Nat
  rows : Nat
  sel : List Bool
  begins : List Nat
  ends : List Nat
  deriving DecidableEq, Repr

/-- A stage (05 R156, R176): the batch it holds and whether its step on it has ended, the batch in the link behind it,
the instruction in turn, the open LOOPs (first instruction of the body, trips left), whether a step is running. -/
structure Stage where
  batch : Option Batch
  stepped : Bool
  link : Option Batch
  pc : Nat
  loops : List (Nat × Nat)
  running : Bool
  deriving DecidableEq, Repr

/-- An idle stage. -/
def Stage.empty : Stage := ⟨none, false, none, 0, [], false⟩

/-- The input directory of a task (06 Table 6.2): columns' SVA and length, stamps. -/
structure Dir where
  sva : Nat
  ledger : Bool
  rows : Nat
  firstRow : Nat
  beginSva : Nat
  endSva : Nat
  cols : List (Nat × Nat)
  deriving DecidableEq, Repr

/-- A segment header (06 Table 6.3) with the segment's place. -/
structure SegHdr where
  sva : Nat
  len : Nat
  enc : Nat
  typ : Nat
  scale : Nat
  width : Nat
  count : Nat
  vldOff : Nat
  dataOff : Nat
  ref : Nat
  elem : Nat
  xlate : Nat
  deriving DecidableEq, Repr

/-- A hash table's header (07 Table 7.1), as a task checked it. -/
structure HtHdr where
  kind : Nat
  k : Nat
  b : Nat
  slots : Nat
  cap : Nat
  keyTag : Tag
  mark : Bool
  vtags : List Tag
  funcs : List Nat
  deriving DecidableEq, Repr

/-- A merge descriptor (07 Table 7.3). -/
structure MergeDesc where
  mode : Nat
  desc : Bool
  report : Bool
  rounding : Nat
  layout : Nat
  keyField : Nat
  postField : Nat
  out : Nat
  aux : Nat
  exc : Nat
  outStride : Nat
  auxStride : Nat
  cap : Nat
  deriving DecidableEq, Repr

/-- An element of a run (07 R243): key, payload (both lanes, each with its validity; a PAIR128 payload's validity stands
in v0), origin. -/
structure Elem where
  key : Nat
  p0 : Nat
  p1 : Nat
  v0 : Bool
  v1 : Bool
  origin : Nat
  deriving DecidableEq, Repr

/-- A merge unit's context for a task (07 R244 to R250): the runs formed, rows not passed, the key and payload tags, the
form (1 PAIR128, 2 TWO64), whether the task's merge work has ended. -/
structure MergeCtx where
  desc : MergeDesc
  runs : List (List Elem)
  nulls : Nat
  keyTag : Tag
  tags : List Tag
  form : Nat
  ended : Bool
  deriving DecidableEq, Repr

/-- A ledger table as a task checked it (09 Table 9.1, R317): registration number, descriptor SVA, partition table,
partitions, the open partition, the columns' tags. -/
structure Ledger where
  table : Nat
  sva : Nat
  ptable : Nat
  partitions : Nat
  opn : Nat
  tags : List Tag
  deriving DecidableEq, Repr

/-- A task on a stone (05 R184 to R189): base and number of its column registers, its bank of masks and scalars, frames
in use, the next batch, its stages, what DECODE and HASH have checked in the task, its merge context. -/
structure Run where
  job : Nat
  part : Nat
  interactive : Bool
  base : Nat
  avail : Nat
  bank : Nat
  frames : Nat
  next : Nat
  total : Nat
  stages : List (Nat × Stage)
  dir : Option Dir
  segs : List (Nat × SegHdr)
  areas : List Nat
  tables : List (Nat × HtHdr)
  ledgers : List (Nat × Ledger)
  merge : Option MergeCtx
  deriving DecidableEq, Repr

/-- A program resident in a program cache: its key, its resident bytes, when it was last started. -/
structure Resident where
  key : ProgKey
  bytes : Nat
  started : Nat
  deriving DecidableEq, Repr

/-- A stone (05): column registers by number, masks and scalars by bank * 8 + n and bank * 32 + n, the running task, the
parked task, the pre-empting task assigned to it (17 R547), its program cache. -/
structure Stone where
  cols : List (Nat × Col)
  masks : List (Nat × List Bool)
  scalars : List (Nat × Scalar)
  run : Option Run
  parked : Option Run
  wanted : Option (Nat × Nat)
  programs : List Resident
  starts : Nat
  deriving DecidableEq, Repr

/-- A stone after reset. -/
def Stone.empty : Stone := ⟨[], [], [], none, none, none, [], 0⟩

/-- The pipeline part of the state: stones, the check cache. -/
structure Pipe where
  stones : List (Nat × Stone)
  checked : List (ProgKey × Prog)
  deriving DecidableEq, Repr

/-- The stones after reset. -/
def Pipe.empty : Pipe := ⟨[], []⟩

end Sys2Proof.Machine
end

