-- ==== Sys2Proof/Machine/TypesUnits.lean ====
section
/-! DEFINITION. The state of the Millpond and its transactions (09), record volumes and drives (10), Querns (11), the
Toll (12) and the Sluice (16). -/

namespace Sys2Proof.Machine

/-- A journal record produced and not yet joined to a group (09 R308, R310): the fields its producer gives, the job it
comes from, and the partition of the task (09 R308). -/
structure JNew where
  kind : Nat
  commit : Bool
  txn : Nat
  slice : Nat
  queue : Nat
  tag : Nat
  obj : Nat
  addr : Nat
  aux : Nat
  payload : List Byte
  job : Option Nat
  part : Nat
  deriving DecidableEq, Repr

/-- A record joined to a group (09 R334): its fields, its place in the Millpond, the epoch its transaction commits in,
whether it is void, whether a projection has applied it (10 R381) or replay has (09 R342), the sectors of it whose image, or a newer one,
is on the drives (10 R368). -/
structure JRec where
  kind : Nat
  commit : Bool
  txn : Nat
  seq : Nat
  epoch : Nat
  slice : Nat
  queue : Nat
  tag : Nat
  obj : Nat
  addr : Nat
  aux : Nat
  payload : List Byte
  prev : List Byte
  off : Nat
  fate : Option Nat
  dead : Bool
  applied : Bool
  landed : List Nat := []
  deriving DecidableEq, Repr

/-- A commit group (09 R300 to R304): its epoch, the cycle it opened, the bytes and number of its records, the
transactions that commit in it, its SEAL once closed, whether the SEAL is durable. -/
structure Group where
  epoch : Nat
  opened : Nat
  closeUs : Nat
  size : Nat
  count : Nat
  commits : List Nat
  sealRec : Option JRec
  durable : Bool
  deriving DecidableEq, Repr

/-- A row claim or a pending stamp: the slice's SVA of the 8-byte stamp (09 R318, R321). -/
structure Stamp where
  slice : Nat
  sva : Nat
  deriving DecidableEq, Repr

/-- How a transaction stands: open, waiting for the commit unit, committed, to end with an ABORT record. -/
inductive TxnState where
  | open_
  | ready
  | committed (epoch : Nat)
  | aborted
  deriving DecidableEq, Repr

/-- A transaction (09 R306 to R312): number, slice, queue, S_T, whether BEGIN or a member failed, whether its COMMIT has
been fetched, members not yet released, the job whose status it decides, begin stamps written, end stamps claimed. -/
structure Txn where
  num : Nat
  slice : Nat
  gq : Nat
  st : Nat
  failed : Bool
  fetched : Bool
  members : List Nat
  count : Nat
  job : Option Nat
  begins : List Stamp
  ends : List Stamp
  state : TxnState
  deriving DecidableEq, Repr

/-- A table in use for appends, by the transaction that the appending job belongs to (09 R315). -/
structure TableUse where
  table : Nat
  txn : Nat
  deriving DecidableEq, Repr

/-- The Millpond (09): its bytes by logical offset, block write counts, block mapping; the records retained; the open
group and the closed ones, oldest first; where the next record goes, the hash of the last record, the first retained
record's sequence and place and the hash before it; transactions; snapshot registrations; records waiting to join;
transactions in the order they became ready; outcomes that wait for an epoch (job, status, detail, result, epoch); tables
in use for appends; whether a wait of 09 R345 has been reported; whether the space warning stands. -/
structure Mpd where
  cells : List (Nat × Byte)
  writes : List (Nat × Nat)
  moved : List (Nat × Nat)
  recs : List JRec
  grp : Option Group
  closed : List Group
  tail : Nat
  lastHash : List Byte
  headSeq : Nat
  headOff : Nat
  headHash : List Byte
  txns : List Txn
  nextTxn : Nat
  snaps : List (Nat × Nat)
  joinQ : List JNew
  ready : List Nat
  outcomes : List (Nat × Nat × Nat × Nat × Nat)
  uses : List TableUse
  waited : Bool
  warned : Bool
  deriving DecidableEq, Repr

/-- The Millpond as it leaves a format, before recovery. -/
def Mpd.empty : Mpd :=
  ⟨[], [], [], [], none, [], 0, List.replicate 32 0, 0, 0, List.replicate 32 0, [], 1, [], [], [], [], [], false, false⟩

/-- A volume table entry (10 R350). -/
structure VolEnt where
  table : Bool
  mirror : Bool
  big : Bool
  unit : Nat
  cap : Nat
  ports : Nat
  keySlot : Nat
  owner : Nat
  createSeq : Nat
  deriving DecidableEq, Repr

/-- What an NVMe command is for: a READ's sectors (which of the drive LBA's, and the port of the pair that failed
before), a TABLE volume's WRITE, the journal records a write-back lands, a
rewrite after a mirror read, a unit of SANITISE, FORMAT or REBUILD, a READ of a slice's old
generation (17 R543, R544). -/
inductive CmdUse where
  | read (job : Nat) (mask : Nat) (failed : Option Nat)
  | write (job : Nat)
  | writeback (seqs : List Nat)
  | rewrite
  | op
  | late (slice gen : Nat)
  deriving DecidableEq, Repr

/-- An NVMe command in flight (10 R384, R385): its number, port, volume, namespace LBA, the volume's drive-LBA index,
operation (0 read, 1 write, 2 deallocate, 3 write zeroes), LBAs, data, failures so far. -/
structure DCmd where
  id : Nat
  port : Nat
  vol : Nat
  lba : Nat
  g : Nat
  op : Nat
  n : Nat
  data : List Byte
  use : CmdUse
  tries : Nat
  deriving DecidableEq, Repr

/-- A drive (10 R350, R383, R384): whether one is fitted, what it offers, its LBAs in all, whether it has namespace 1, the volumes'
namespaces with their LBAs, the I/O queue pairs the device has created, the copy of the volume table in namespace 1 with its change
count and whether its CRC-32C passes, the 4,096-byte LBAs written, keyed volume * 2^40 + namespace LBA. -/
structure Drive where
  fitted : Bool := false
  caps : DriveCaps := {}
  cap : Nat := 0
  meta_ : Bool := false
  nss : List (Nat × Nat) := []
  pairs : Nat := 0
  change : Nat := 0
  table : List (Nat × VolEnt) := []
  sound : Bool := false
  lbas : List (Nat × List Byte) := []
  deriving DecidableEq, Repr

/-- No drive. -/
def Drive.none_ : Drive := {}

/-- An operation in progress on a volume (10 R373, R387): 1 SANITISE, 2 FORMAT, 3 REBUILD, 4 VOLUME_DELETE; the job, or
none for a REBUILD and after a reset; the jobs it waits for; phase; port; next unit and units; whether it resumed after
a reset; a FORMAT's new sector code; the ports that are rebuilt after it. -/
structure VolOp where
  op : Nat
  job : Option Nat
  waits : List Nat
  phase : Nat
  port : Nat
  next : Nat
  units : Nat
  resumed : Bool
  code : Nat := 0
  more : List Nat := []
  deriving DecidableEq, Repr

/-- A projection's descriptor as the device checked it (10 Table 10.5). -/
structure Proj where
  table : Nat
  slice : Nat
  sva : Nat
  ptable : Nat
  keyField : Nat
  layout : Layout
  index : Nat
  rmap : Nat
  lo : Nat
  hi : Nat
  cols : List (Nat × Tag)
  deriving DecidableEq, Repr

/-- Volumes and ports (10): the table with its change count, the drives, commands in flight, operations, projections by
volume, the index of sectors not yet on the drives. -/
structure Vols where
  table : List (Nat × VolEnt)
  change : Nat
  drives : List (Nat × Drive)
  cmds : List DCmd
  nextCmd : Nat
  ops : List (Nat × VolOp)
  projs : List (Nat × Proj)
  dirty : List (Nat × Nat)
  deriving DecidableEq, Repr

/-- Volumes before boot. -/
def Vols.empty : Vols := ⟨[], 0, [], [], 0, [], [], []⟩

/-- A key slot (19 R579): usage 0 NONE, 1 XTS, 2 HMAC; the slice granted; whether it is granted; the key. -/
structure KeySlot where
  usage : Nat
  owner : Nat
  grant : Bool
  key : List Byte
  deriving DecidableEq, Repr

/-- An empty slot. -/
def KeySlot.empty : KeySlot := ⟨0, 0, false, []⟩

/-- A running digest (12): algorithm, state words, bytes staged and not absorbed, bytes of the message staged in all. -/
structure Hash where
  alg : Nat
  h : List Nat
  tail : List Byte
  len : Nat
  deriving DecidableEq, Repr

/-- Where a tap stands (12 R418 to R420): its table slot, point, block index. -/
structure Tap where
  slot : Nat
  point : Nat
  block : Nat
  deriving DecidableEq, Repr

/-- A block in a staging buffer of a Quern (11 R411): the output that stands there, the bytes of it that the job's tap takes, the input bytes it
came from, or why it fails. -/
structure Staged where
  out : List Byte
  tapped : List Byte
  used : Nat
  fault : Option (Nat × Nat × Nat)
  deriving DecidableEq, Repr

/-- A Quern's task (11 R411): job and partition, the next block to write and to stage, where the input of the one and the output of the
other stand, its staging buffers, the Toll context of its tap, whether its last block is written. -/
structure Quern where
  job : Nat
  part : Nat
  block : Nat
  next : Nat
  src : Nat
  dst : Nat
  bufs : List Staged
  ctx : Option Nat
  ended : Bool
  deriving DecidableEq, Repr

/-- A Toll context (12): its digest, slice, the job and partition in it, the handle's sequence while held, the key slot of a keyed context, the
key block of its outer pass until that begins, the message bytes that the job has had staged, the length that a register mark gives,
whether the message's padding is staged, whether the key was erased or replaced, the tap it serves, a volume tap's sectors ahead of
their turn by their offsets. -/
structure TollCtx where
  hash : Hash
  slice : Nat
  job : Option (Nat × Nat) := none
  held : Option Nat := none
  keyed : Option Nat := none
  outer : List Byte := []
  pos : Nat := 0
  mark : Option Nat := none
  closed : Bool := false
  gone : Bool := false
  tap : Option Tap := none
  parts : List (Nat × List Byte) := []
  deriving DecidableEq, Repr

/-- A Sluice descriptor (16 Table 16.1). -/
structure Desc where
  src : Nat
  dst : Nat
  len : Nat
  tap : Nat
  barrier : Bool
  fill : Bool
  notify : Bool
  deriving DecidableEq, Repr

/-- A Sluice channel's work beside its registers (16): the task or none for the manager's set, descriptors left (the first
is in progress), whether the first has been moved, host writes not flushed, whether a flush read is out, its tap's context, its
mover, the request line of the engine that it serves, the drive command whose transfer serves no job (R510), its buffer's bytes, the
bytes of its descriptor written, and the bytes left of the burst in progress (R509, R522). -/
structure Chan where
  job : Option (Nat × Nat)
  descs : List Desc
  moved : Bool
  unflushed : Bool
  flushing : Bool
  ctx : Option Nat
  mover : Option Nat
  line : Option Nat
  cmd : Option Nat := none
  buf : List Byte := []
  wrote : Nat := 0
  burst : Nat := 0
  deriving DecidableEq, Repr

/-- An idle channel. -/
def Chan.idle : Chan := ⟨none, [], false, false, false, none, none, none, none, [], 0, 0⟩

/-- The units' state: Querns, contexts, the next handle sequence, channels, the channels granted a
mover, the latest first, request lines (true while asserted). -/
structure Units where
  querns : List (Nat × Option Quern)
  ctxs : List (Nat × Option TollCtx)
  nextHold : Nat
  lastCtx : Nat
  chans : List (Nat × Chan)
  grants : List Nat
  lines : List (Nat × Bool)
  deriving DecidableEq, Repr

/-- The units after reset. -/
def Units.empty : Units := ⟨[], [], 0, 0, [], [], []⟩

end Sys2Proof.Machine
end

