-- ==== Sys2Proof/Machine/TypesFan.lean ====
section
/-! DEFINITION. The state of the work queues, the Weir, the Fantail, the tailraces and slice resets (02, 03, 04, 17). -/

namespace Sys2Proof.Machine

/-- A status slot's status, detail and result (02 Tables 2.7 and 2.8). -/
structure Outc where
  status : Nat
  detail : Nat
  result : Nat
  deriving DecidableEq, Repr

/-- The header and fixed fields of a FIRST entry that govern its job (02 Tables 2.1 and 2.2, R52). -/
structure Hdr where
  op : Nat
  tag : Nat
  prio : Nat
  irq : Bool
  vector : Nat
  notify : Bool
  fence : Bool
  barrier : Bool
  ordered : Bool
  snapshot : Bool
  epoch : Nat
  flow : Option Nat
  v1 : Bool
  deriving DecidableEq, Repr

/-- A job of the Fantail's job table, from handover to release (04 R123). id is its handover number; gen the slice's
generation at the fetch of FIRST (17 R533); epoch the epoch it reads under; entries the entries fetched, in version 2
form; awaits the earlier jobs whose release it waits for (R126) and counter the dependence counter that the wait holds; delay the delay list and due tick it is on (R143);
txns the queue's transactions
not ended as it was fetched (09 R313); vtap the algorithm and slot of its volume's tap at handover (12 R421); pipe its checked program and rows the records its TAPPENDs formed; sumHi and sumLo what its tasks add up to; ntasks the number of tasks once its opcode has fixed it; outc its outcome once fixed; pnr whether its point of no return
is passed (03 R100). -/
structure Job where
  id : Nat
  slice : Nat
  queue : Nat
  gen : Nat
  index : Nat
  hdr : Hdr
  epoch : Nat
  entries : List (List Byte)
  lastFetched : Bool
  started : Bool
  awaits : List Nat
  counter : Option Nat
  delay : Option (Nat × Nat)
  ntasks : Option Nat
  created : Nat
  outc : Option Outc
  pnr : Bool
  hostWrote : Bool
  flushing : Bool
  flushed : Bool
  evReserved : Bool
  evHeld : Bool
  txn : Option Nat
  txns : List Nat
  pipe : Option PipeJob
  rows : List JNew
  sumHi : Nat
  sumLo : Nat
  progress : Nat
  vtap : Option (Nat × Nat) := none
  deriving DecidableEq, Repr

/-- Where a task stands: waiting on its counter; on a ready list; waiting in its affinity window until a cycle; placed
on a unit of its engine; complete; released. -/
inductive TaskState where
  | waiting
  | ready
  | affinity (until_ : Nat)
  | placed (unit : Nat)
  | complete
  | released
  deriving DecidableEq, Repr

/-- A task (04 R124 to R131): the job, the partition, its engine, the producers it still waits for, the dependence counter that the
wait holds, the cycle in which it became ready, its home mill, its class when it became ready, whether it is to stop at its next batch
boundary, whether it waits in the Toll's ready list for its tap's context (12 R415). -/
structure Task where
  job : Nat
  part : Nat
  engine : Engine
  state : TaskState
  producers : List Nat
  counter : Option Nat
  seq : Nat
  home : Nat
  interactive : Bool
  prio : Nat
  stop : Bool
  tapWait : Bool := false
  deriving DecidableEq, Repr

/-- The Fantail (04): the job table in handover order, the task slots, the next handover number, the rotation
of home mills (R132), the queue at which a pass stopped and whether it had granted a turn (R120), the queues whose chain timers stand on
delay list 2 in the order in which they joined (R142). -/
structure Fan where
  jobs : List Job
  tasks : List Task
  nextJob : Nat
  rotation : Nat
  passAt : Option (Nat × Bool)
  timers : List Nat
  deriving DecidableEq, Repr

/-- The Fantail after reset. -/
def Fan.empty : Fan := ⟨[], [], 0, 0, none, []⟩

/-- An entry fetched and not yet passed by HEAD: its ring index, its job and its place in the chain. -/
structure QEnt where
  index : Nat
  job : Nat
  released : Bool
  deriving DecidableEq, Repr

/-- What waits for the head word that passes a released job's last entry (03 R92): the message and the record. -/
structure QPost where
  last : Nat
  irq : Option Nat
  record : Option (Nat × Outc)
  reserved : Bool
  deriving DecidableEq, Repr

/-- A chain fetched without LAST (02 R50, 03 R93). -/
structure Chain where
  job : Nat
  first : Nat
  count : Nat
  deriving DecidableEq, Repr

/-- A work queue's state beside its registers (03): entries not passed by HEAD, posts, the open chain, the tick at which
its chain timer started (R94), whether the last poll found the slot at TAIL stale (R87), the open transaction (02 R56). -/
structure Queue where
  ents : List QEnt
  posts : List QPost
  chain : Option Chain
  timer : Option Nat
  stale : Bool
  polled : List (Nat × List Byte)
  txn : Option Nat
  deriving DecidableEq, Repr

/-- A queue at reset. -/
def Queue.empty : Queue := ⟨[], [], none, none, false, [], none⟩

/-- A ring read issued and not yet returned: global queue, ring index, generation of the slice (04 R117, 17 R533), the
64 bytes it will return, or the reason code of its fault (03 R114). -/
structure RingRead where
  gq : Nat
  index : Nat
  gen : Nat
  data : List Byte
  fault : Option Nat
  deriving DecidableEq, Repr

/-- A SLICE_HALTED or DEVICE_EVENT record that waits in a ring's pending store (03 R108): its kind (3 or 4), detail,
queue, result, how many further occurrences are merged, whether it stands in a reserved entry. -/
structure PRec where
  kind : Nat
  detail : Nat
  queue : Nat
  result : Nat
  count : Nat
  reserved : Bool
  deriving DecidableEq, Repr

/-- A tailrace's state beside its registers (03 R104 to R108): pending store, slots reserved for lossless releases, held
jobs in the order they became ready to release, JOB records dropped since the last OVERFLOW record. -/
structure Tail where
  pend : List PRec
  reserved : Nat
  held : List Nat
  dropped : Nat
  deriving DecidableEq, Repr

/-- A tailrace at reset. -/
def Tail.empty : Tail := ⟨[], 0, [], 0⟩

/-- A slice reset under way (17 R541): the slice, the job, whether its first steps ran, the old generation, the jobs
fetched and unreleased at step 1, destroy and report. -/
structure SliceReset where
  slice : Nat
  job : Nat
  begun : Bool
  oldGen : Nat
  count : Nat
  destroy : Bool
  report : Bool
  deriving DecidableEq, Repr

end Sys2Proof.Machine
end

