-- ==== Sys2Proof/Machine/TypesMem.lean ====
section
/-! DEFINITION. The state of the memory system: translation caches (13), Granary (14), DRAM controller (15). -/

namespace Sys2Proof.Machine

/-- A table entry that a TLB or a walker cache holds (13 R453): slice and stage tags, level, the input address above
the entry's span, the entry, and the address the entry was read from (an SPA for stage 1, a DPA for stage 2). -/
structure XEnt where
  slice : Nat
  stage2 : Bool
  level : Nat
  page : Nat
  entry : Nat
  loc : Nat
  deriving DecidableEq, Repr

/-- A combined translation of a stone's TLB (13 R454): the level of the smaller page, the SVA page, the DPA page, the
intersection of the rights, the key, the stage 2 type and cache, whether D is known set in both leaves. -/
structure CEnt where
  slice : Nat
  level : Nat
  page : Nat
  frame : Nat
  r : Bool
  w : Bool
  x : Bool
  key : Nat
  typ : Nat
  cache : Nat
  dKnown : Bool
  deriving DecidableEq, Repr

/-- The translation caches of 13 Table 13.4: per stone, per mill (key 16 is the shared TLB and walker). -/
structure Xlt where
  itlb : List (Nat × List CEnt)
  dtlb : List (Nat × List CEnt)
  l2 : List (Nat × List XEnt)
  walker : List (Nat × List XEnt)
  deriving DecidableEq, Repr

/-- Empty caches. -/
def Xlt.empty : Xlt := ⟨[], [], [], []⟩

/-- A held Granary line: its address above the line offset, whether it is dirty, its 64 bytes. -/
structure GLine where
  line : Nat
  dirty : Bool
  data : List Byte
  deriving DecidableEq, Repr

/-- A running maintenance operation (14 R478). -/
structure Maint where
  op : Nat
  base : Nat
  len : Nat
  deriving DecidableEq, Repr

/-- The Granary (14): ways keyed (bank * 8192 + set) * 16 + way, the tree pseudo-LRU bits per set keyed bank * 8192 + set,
the running maintenance operation, accesses whose line transfer is held for an empty bucket (17 R548), oldest first, the HOST lines dropped
at a host sync point and not filled again (R473), the HOST lines whose next read or AtomicOp receives an error completion (log 62), each
slice's bucket limit in force, rate and size in KiB (17 R549), the PASID prefix of the latest host request, if it carried one (17 R534). -/
structure Granary where
  ways : List (Nat × Option GLine)
  plru : List (Nat × Nat)
  maint : Option Maint
  holds : List LineAccess
  synced : List Nat
  hostErr : List Nat
  limits : List (Nat × (Nat × Nat))
  prefix_ : Option Nat
  deriving DecidableEq, Repr

/-- The empty Granary (14 R484). -/
def Granary.empty : Granary := ⟨[], [], none, [], [], [], [], none⟩

/-- A whole-line write that waits in a channel's write queue (15 R496), with the slice and the master it serves. -/
structure DWrite where
  line : Nat
  data : List Byte
  poison : Bool
  slice : Option Nat
  master : Option Nat
  deriving DecidableEq, Repr

/-- A DRAM channel (15): in self-refresh; open rows keyed by the bank's number ((sub * 2 + rank) * 8 + group) * 4 + bank,
each holding the row plus 1; the write queue, oldest first; whether CE_THRESHOLD has been written since the counter was
read; the rows refreshed by the last neighbour refresh; the ZQ calibrations run. -/
structure DChan where
  selfRefresh : Bool
  rows : List (Nat × Nat)
  writes : List DWrite
  ceSent : Bool
  guarded : List Nat
  zqDone : Nat
  deriving DecidableEq, Repr

/-- A channel at power-on. -/
def DChan.empty : DChan := ⟨false, [], [], false, [], 0⟩

/-- One delay set (15 R490): speed code, band, band limits in degrees (signed bytes), the 416 delays of each channel in
Table 15.3 order, keyed (channel * 2 + subchannel) * 104 + entry. -/
structure DelaySet where
  speed : Nat
  band : Nat
  low : Int
  high : Int
  delays : List (Nat × Nat)
  deriving DecidableEq, Repr

/-- The DRAM controller (15): channels, poisoned lines, the delay store, the line that the patrol holds for write-back with
the data it will write (R507). -/
structure Dram where
  chans : List (Nat × DChan)
  poison : List (Nat × Bool)
  store : List DelaySet
  scrubHeld : Option (Nat × List Byte)
  deriving DecidableEq, Repr

/-- The controller at power-on. -/
def Dram.empty : Dram := ⟨[], [], [], none⟩

/-- A programmed function vector of the MSI-X table (17 R537): address, data, mask and pending bit. -/
structure MsixEntry where
  addr : Nat
  data : Nat
  masked : Bool
  pending : Bool
  deriving DecidableEq, Repr

/-- An entry's reset values (17 R664). -/
def MsixEntry.reset : MsixEntry := ⟨0, 0, true, false⟩

/-- The MSI-X state and the messages sent: vector, address and data, oldest first. enabled and funcMask are the capability's
MSI-X Enable and Function Mask bits (17 R538, 18 R563), pasid the PASID Extended Capability's PASID Enable (17 R534). -/
structure Msix where
  table : List (Nat × MsixEntry)
  enabled : Bool
  funcMask : Bool
  sent : List (Nat × Nat × Nat)
  pasid : Bool := true
  deriving DecidableEq, Repr

/-- The MSI-X state after reset. -/
def Msix.empty : Msix := ⟨[], true, false, [], true⟩

end Sys2Proof.Machine
end

