-- ==== Sys2Proof/Machine/State.lean ====
section
/-! DEFINITION. The machine's state as plain data, and the state after power-on reset. -/

namespace Sys2Proof.Machine

/-- The reasons a step stops with a fault. No command of this block stops: every outcome the spec describes is a next state,
and an event whose condition does not hold leaves the state as it is. -/
inductive Fault where
  /-- Raised by no command; safe. -/
  | unreachable
  deriving DecidableEq, Repr

/-- The reasons a step refuses a command. -/
inductive Refusal where
  /-- Dispatch, for a command whose meaning is not written; safe. -/
  | notModelled (mnemonic : String)
  deriving DecidableEq, Repr

/-- The machine: the commands that wait; the registers; memory behind the Granary and the write queues; the translation
caches; the Granary; the DRAM controller; MSI-X; the work queues, the Weir's reads and the tailraces; the Fantail; the stones;
the Millpond; volumes and drives; Querns, Toll and Sluice; the key slots, the key operation in progress and the words of
BRK_RESTORE_DATA; slice resets; whether the device has halted, the halts whose messages are owed, the trace records last written, the
fatal error whose dump is owed; whether replay is read-only (09 R346); the OTP array and its programming; boot; answers to
the outside; the bandwidth monitor's window; counter overflows and device events owed; the cycle; the free values drawn. -/
structure State where
  pending : List Instr
  regs : List (Nat × Word)
  mem : List Host.Cell
  xlt : Xlt
  gran : Granary
  dram : Dram
  msix : Msix
  queues : List (Nat × Queue)
  issued : List RingRead
  tails : List (Nat × Tail)
  fan : Fan
  pipe : Pipe
  mpd : Mpd
  vols : Vols
  units : Units
  keys : List (Nat × KeySlot)
  keyOp : Option (Nat × KeySlot × Bool)
  restoreBuf : List Byte
  resets : List SliceReset
  halted : Bool
  haltMsgs : List Nat
  traceLog : List (List Byte)
  fatal : Option Nat
  readOnly : Bool
  otp : List (Nat × Nat)
  otpOp : Option OtpOp
  boot : Boot
  bar4 : Nat
  answers : Answers
  bw : BwWindow
  sckOwed : List Nat
  events : List (Nat × Nat)
  cycle : Nat
  free : Nat
  deriving DecidableEq, Repr

/-- The machine right after reset: unpowered, held in power-on reset (22 R638, R639). Boot runs from the rise of pwr_good
(the command POWER_ON). -/
def State.reset : State where
  pending := []
  regs := []
  mem := []
  xlt := Xlt.empty
  gran := Granary.empty
  dram := Dram.empty
  msix := Msix.empty
  queues := []
  issued := []
  tails := []
  fan := Fan.empty
  pipe := Pipe.empty
  mpd := Mpd.empty
  vols := Vols.empty
  units := Units.empty
  keys := []
  keyOp := none
  restoreBuf := []
  resets := []
  halted := false
  haltMsgs := []
  traceLog := []
  fatal := none
  readOnly := false
  otp := []
  otpOp := none
  boot := Boot.off
  bar4 := 36
  answers := ⟨[], []⟩
  bw := ⟨[], 0, false, 0⟩
  sckOwed := []
  events := []
  cycle := 0
  free := 0

end Sys2Proof.Machine
end

