-- ==== Sys2Proof/Machine/RegOps.lean ====
section
/-! DEFINITION. The register file's accessors: every register is read and written by them. -/

namespace Sys2Proof.Machine

/-- The value of instance i of a register. -/
def State.reg (s : State) (r : Reg) (i : Nat) : Nat := (tget regReset s.regs (regKey r i)).toNat

/-- Instance i of a register set to a value. -/
def State.setReg (s : State) (r : Reg) (i v : Nat) : State :=
  { s with regs := tset regReset s.regs (regKey r i) (BitVec.ofNat 64 v) }

/-- The value of a field of instance i of its register. -/
def State.fld (s : State) (f : Fld) (i : Nat) : Nat := bitsAt (s.reg f.reg i) f.lo f.width

/-- A one-bit field as a Boolean. -/
def State.flag (s : State) (f : Fld) (i : Nat) : Bool := bitAt (s.reg f.reg i) f.lo

/-- A field of instance i of its register set to a value. -/
def State.setFld (s : State) (f : Fld) (i v : Nat) : State :=
  s.setReg f.reg i (putBits (s.reg f.reg i) f.lo f.width v)

/-- A one-bit field set. -/
def State.setFlag (s : State) (f : Fld) (i : Nat) (b : Bool) : State := s.setFld f i (boolNat b)

/-- A field raised by n, saturating at its largest value. -/
def State.addSat (s : State) (f : Fld) (i n : Nat) : State :=
  s.setFld f i (min (s.fld f i + n) (2 ^ f.width - 1))

/-- A field raised by n, wrapping. -/
def State.addWrap (s : State) (f : Fld) (i n : Nat) : State := s.setFld f i (s.fld f i + n)

/-- A field lowered by n, not below 0. -/
def State.subFld (s : State) (f : Fld) (i n : Nat) : State := s.setFld f i (s.fld f i - n)

/-- Instance i of a register back at its reset value. -/
def State.resetReg (s : State) (r : Reg) (i : Nat) : State :=
  { s with regs := tset regReset s.regs (regKey r i) (regReset (regKey r i)) }

/-- Every listed instance of a register, with its value. -/
def State.regInsts (s : State) (r : Reg) : List (Nat × Nat) :=
  (s.regs.filter (fun c => c.1 / 65536 == r.ctorIdx)).map (fun c => (c.1 % 65536, c.2.toNat))

/-- Every instance of the registers that satisfy p back at its reset value. -/
def State.resetRegs (s : State) (p : Reg → Bool) : State :=
  { s with regs := s.regs.filter (fun c => !(regRows.any (fun r => r.reg.ctorIdx == c.1 / 65536 && p r.reg))) }

/-- A value the spec leaves undefined: the next free value, and the state with the draw counted. -/
def State.drawFree (s : State) : Nat × State := (Config.freeValue s.free, { s with free := s.free + 1 })

/-- n bytes that the spec gives no contents for. -/
def openBytes (s : State) (n : Nat) : List Byte × State :=
  ((List.range n).map (fun i => BitVec.ofNat 8 (Config.freeValue (s.free + i))), { s with free := s.free + n })

/-- The next output of the device's random source. -/
def State.drawEntropy (s : State) : Nat × State := (Config.entropy s.free, { s with free := s.free + 1 })

end Sys2Proof.Machine
end

