-- ==== Sys2Proof/Machine/Monad.lean ====
section
/-! DEFINITION. Accesses and their errors: what an access is made for, how it can fail, and the state-and-error form in
which the shared operations are written. -/

namespace Sys2Proof.Machine

/-- How an access or a job's work ends early: a walk fault (13 R443), a refused key (R446), an internal error of a class
of 18 Table 18.5, or another outcome of the job. -/
inductive Err where
  | walk (stage2 : Bool) (level cause access sva spa : Nat)
  | key (k sva : Nat)
  | device (cls : Nat)
  | outc (o : Outc)
  deriving DecidableEq, Repr

/-- The outcome an error gives its job (02 Table 2.8 and the detail encoding of R67). -/
def Err.toOutc : Err → Outc
  | .walk s2 lv ca ac sva _ => ⟨0x50, boolNat s2 * 256 + lv * 64 + ca * 8 + ac, sva⟩
  | .key k sva => ⟨0x51, k, sva⟩
  | .device c => ⟨0xF0, c, 0⟩
  | .outc o => o

/-- The causes of a walk fault (02 R67). -/
abbrev causeNotPresent : Nat := 0
abbrev causePermission : Nat := 1
abbrev causeTarget : Nat := 2
abbrev causeBus : Nat := 3
abbrev causeAd : Nat := 4

/-- The masters of 20 R597. -/
inductive Agent where
  | stone (s : Nat)
  | quern (q : Nat)
  | toll | sluice | host | weir | fantail | walker | journal
  | port (p : Nat)
  deriving DecidableEq, Repr

/-- The master identifier (20 R597). -/
def Agent.master : Agent → Nat
  | .stone s => s
  | .quern q => 0x80 + q
  | .toll => 0x90
  | .sluice => 0x91
  | .host => 0x92
  | .weir => 0x93
  | .fantail => 0x94
  | .walker => 0x95
  | .journal => 0x96
  | .port p => 0x98 + p

/-- The index of the second-level TLB and walker that serve an agent: its mill's, or 16, the shared one (13 R453). -/
def Agent.unit : Agent → Nat
  | .stone s => s / 8
  | .quern q => q
  | _ => 16

/-- An access's kind (02 R67: access 0 read, 1 write, 2 program fetch). -/
inductive Kind where
  | read | write | fetch
  deriving DecidableEq, Repr

/-- The access code of 02 R67. -/
def Kind.code : Kind → Nat
  | .read => 0
  | .write => 1
  | .fetch => 2

/-- What an access is made for: the slice and agent; atomic read-modify-writes (13 R445); speculative accesses (R456);
the device's own ring, status, head, tailrace, trace and tap accesses (14 R471); scratch accesses by HASH, AGGREGATE and
the merge unit (01 R29); EMIT writes (R29); the queue and tag of the job; the job whose writes they are (02 R38). -/
structure Req where
  slice : Nat
  agent : Agent
  atomic : Bool := false
  spec : Bool := false
  own : Bool := false
  scratch : Bool := false
  emit : Bool := false
  queue : Nat := 0
  tag : Nat := 0
  job : Option Nat := none
  deriving DecidableEq, Repr

/-- An operation that reads and changes the state and may end early; the state is kept where it does. -/
abbrev Op (α : Type) := EStateM Err State α

/-- Run an operation whose error is of no further effect. -/
def Op.quiet (o : Op Unit) (s : State) : State :=
  match o s with
  | .ok _ s' => s'
  | .error _ s' => s'

/-- Run an operation: its value or error, and the state. -/
def Op.exec {α : Type} (o : Op α) (s : State) : Except Err α × State :=
  match o s with
  | .ok a s' => (.ok a, s')
  | .error e s' => (.error e, s')

/-- Change the state. -/
def upd (f : State → State) : Op Unit := modify f

/-- Read the state. -/
def ask {α : Type} (f : State → α) : Op α := do return f (← get)

/-- Try an operation; where it ends early, go on with its error. -/
def attempt {α : Type} (o : Op α) : Op (Except Err α) := fun s =>
  match o s with
  | .ok a s' => .ok (.ok a) s'
  | .error e s' => .ok (.error e) s'

end Sys2Proof.Machine
end

