-- ==== Sys2Proof/Machine/Sack.lean ====
section
/-! DEFINITION. The sack counters' counting and the bandwidth monitor's byte counts (20 R595 to R611). -/

namespace Sys2Proof.Machine

/-- An occurrence of an event with its attributes (20 R596). -/
structure Occ where
  code : Nat
  n : Nat := 1
  slice : Option Nat := none
  master : Option Nat := none
  dpa : Option Nat := none
  deriving DecidableEq, Repr

/-- Whether counter c's slice filter accepts the occurrence (20 R598). -/
def sckPriv (evt : Nat) (o : Occ) : Bool :=
  match bitsAt evt 26 2, o.slice with
  | 0, _ => true
  | 1, none => true
  | 1, some sl => sl == 0
  | 2, some sl => decide (1 ≤ sl)
  | 3, some sl => sl == bitsAt evt 20 6
  | _, none => false
  | _, _ => false

/-- Whether the master filter accepts the occurrence (20 R599). -/
def sckMaster (filt : Nat) (o : Occ) : Bool :=
  let mask := bitsAt filt 16 8
  if mask = 0 then true
  else match o.master with
    | none => false
    | some m => (m &&& mask) == (bitsAt filt 24 8 &&& mask)

/-- Whether the line of a DPA lies in address range i (20 R600). -/
def sckInRange (s : State) (i dpa : Nat) : Bool :=
  let line := dpa / 64
  decide (s.fld F.sckAddrBase_addr i ≤ line ∧ line < s.fld F.sckAddrLimit_addr i)

/-- Whether the address filter accepts the occurrence (20 R600). -/
def sckAddr (s : State) (filt : Nat) (o : Occ) : Bool :=
  match bitsAt filt 8 3, o.dpa with
  | 0, _ => true
  | _, none => false
  | 1, some d => sckInRange s 0 d
  | 2, some d => sckInRange s 1 d
  | 3, some d => sckInRange s 0 d || sckInRange s 1 d
  | 4, some d => !(sckInRange s 0 d || sckInRange s 1 d)
  | _, some _ => false

/-- Whether counter c counts the occurrence (20 R595, R598 to R601). -/
def sckAccepts (s : State) (c : Nat) (o : Occ) : Bool :=
  let evt := s.reg .sckEvt c
  let filt := s.reg .sckFilt c
  bitAt evt 31 && (bitsAt evt 0 12 == o.code) && bitAt (s.fld F.sckCtl_class_en 0) (o.code / 256) &&
    sckPriv evt o && sckMaster filt o && sckAddr s filt o

/-- The overflow bit of counter c. -/
def sckOvf (c : Nat) : Fld := ⟨if c < 64 then .sckOvf0 else .sckOvf1, c % 64, 1⟩

/-- Counter c raised by n modulo 2^48; a wrap sets its overflow bit, and the first wrap owes an SCK_OVERFLOW event where
ovf_event is 1 (20 R595, R608). -/
def sckAdd (s : State) (c n : Nat) : State :=
  let v := s.fld F.sckCnt_count c + n
  let s1 := s.setFld F.sckCnt_count c (v % 2 ^ 48)
  if 2 ^ 48 ≤ v then
    let was := s.flag (sckOvf c) 0
    let s2 := s1.setFlag (sckOvf c) 0 true
    if !was && s.flag F.sckCtl_ovf_event 0 then { s2 with sckOwed := s2.sckOwed ++ [c] } else s2
  else s1

/-- Count an occurrence in every counter that accepts it, unless the counters are frozen (20 R595, R605). -/
def State.count (s : State) (o : Occ) : State :=
  if s.flag F.sckCtl_freeze 0 then s
  else
    ((s.regInsts .sckEvt).map Prod.fst).foldl (fun t c => if sckAccepts t c o then sckAdd t c o.n else t) s

/-- Payload bytes at a monitored port (20 R609), once the window in progress has started (R611). -/
def State.bwAdd (s : State) (port n : Nat) : State :=
  if s.cycle < 1600 * s.bw.start then s
  else { s with bw := { s.bw with bytes := tupd (fun _ => 0) s.bw.bytes port (· + n) } }

/-- Count an occurrence of an access made for a request. -/
def State.countReq (s : State) (r : Req) (code n : Nat) (dpa : Option Nat := none) : State :=
  s.count ⟨code, n, some r.slice, some r.agent.master, dpa⟩

/-- A discard of old-generation work (17 R543). -/
def lateDiscard (s : State) (slice : Nat) : State :=
  (s.addSat F.slcLateDiscards_count slice 1).count ⟨0xF00, 1, some slice, none, none⟩

/-- A device event of a class with its result is owed to the manager's tailrace (03 R109). -/
def State.devEvent (s : State) (cls result : Nat) : State := { s with events := s.events ++ [(cls, result)] }

end Sys2Proof.Machine
end

