-- ==== Sys2Proof/Machine/Clock.lean ====
section
/-! DEFINITION. The clock: what is counted while it runs, and the slices' buckets, which refill at its ticks (04 Table 4.13, 17 R548,
R549, 20 R596). -/

namespace Sys2Proof.Machine

/-- A job of the job table. -/
def State.job (s : State) (id : Nat) : Option Job := s.fan.jobs.find? (fun j => j.id == id)

/-- A stone. -/
def State.stone (s : State) (n : Nat) : Stone := tget (fun _ => Stone.empty) s.pipe.stones n

/-- A stage of a task on a stone. -/
def Run.stage (r : Run) (k : Nat) : Stage := tget (fun _ => Stage.empty) r.stages k

/-- The opcode of an instruction word (05 Table 5.11). -/
def insnOp (w : Nat) : Nat := bitsAt w 56 8

/-- Whether an instruction waits for memory (05 R185, Table 5.12). -/
def opMemory (op : Nat) : Bool := [0x10, 0x11, 0x21, 0x40, 0x41, 0x42, 0x51, 0x60, 0x61, 0x62, 0x64].contains op

/-- What a stage waits for whose step has come to an instruction (05 R185, Table 5.20): nothing, memory (3) or the merge unit (4). -/
def opWaits (op : Nat) : Option Nat := if opMemory op then some 3 else if op = 0x63 then some 4 else none

/-- What a stage waits for, where it is running a step. -/
def stageWaits (s : State) (r : Run) (st : Stage) : Option Nat :=
  if !st.running then none
  else match ((s.job r.job).bind (·.pipe)).bind (fun pj => pj.prog.code[st.pc]?) with
  | some w => opWaits (insnOp w)
  | none => none

/-- What a stage of a stone does, in STN_STAGE's codes (05 Table 5.20). -/
def stageCode (s : State) (st : Stone) (r : Run) (k : Nat) : Nat :=
  let g := r.stage k
  if g.batch.isSome then (if g.stepped then 2 else (stageWaits s r g).getD 1)
  else match st.parked with
  | some p => if (p.stage k).batch.isSome then 5 else 0
  | none => 0

/-- The cycle counts of a stone (20 Table 20.1, class 3): what each of its stages does, for n cycles. -/
def stoneCycles (n : Nat) (s : State) (x : Nat × Stone) : State :=
  match x.2.run with
  | none => s
  | some r =>
    let slice := (s.job r.job).map (·.slice)
    [1, 2, 3, 4, 5, 6].foldl (fun t k =>
      let occ (code : Nat) : State := t.count ⟨code, n, slice, some x.1, none⟩
      match stageCode s x.2 r k with
      | 1 => occ (0x300 + 4 * (k - 1))
      | 2 => occ (0x300 + 4 * (k - 1) + 1)
      | 3 => occ (0x300 + 4 * (k - 1) + 2)
      | 4 => occ 0x31E
      | _ => t) s

/-- A count of cycles where a condition holds through them. -/
def countWhile (s : State) (p : Bool) (o : Occ) : State := if p then s.count o else s

/-- What n cycles count while the device stands as it does (20 Table 20.1): full tables, the stones' stages, a journal wait, a task
waiting for a context, channels in WAIT_REQUEST, held releases. -/
def cycleCounts (s : State) (n : Nat) : State :=
  let s1 := countWhile s (decide (32768 ≤ s.fld F.fanStatus_tasks 0)) ⟨0x20A, n, none, none, none⟩
  let s2 := countWhile s1 (decide (8192 ≤ s.fld F.fanStatus_jobs 0)) ⟨0x20B, n, none, none, none⟩
  let s3 := countWhile (s2.pipe.stones.foldl (stoneCycles n) s2) (s.flag F.mpdStatus_journal_wait 0) ⟨0xB09, n, none, none, none⟩
  let s4 := countWhile s3 (s.fan.tasks.any (fun t => t.tapWait || (t.engine == .toll && t.state == .ready))) ⟨0xD02, n, none, none, none⟩
  let s5 := s4.units.chans.foldl (fun t x =>
    countWhile t (s.fld F.sluChStatus_state x.1 == 2) ⟨0xE03, n, some (s.fld F.sluChStatus_slice x.1), some Agent.sluice.master, none⟩) s4
  s5.tails.foldl (fun t x => countWhile t (!x.2.held.isEmpty) ⟨0xF05, n, some x.1, none, none⟩) s5

/-- The limit of a slice's bucket in force: the rate, and the size in KiB (17 R549). -/
def State.limit (s : State) (slice : Nat) : Nat × Nat := tget (fun _ => (0, 0)) s.gran.limits slice

/-- The limit in force set. -/
def State.setLimit (s : State) (slice : Nat) (l : Nat × Nat) : State :=
  { s with gran := { s.gran with limits := tset (fun _ => (0, 0)) s.gran.limits slice l } }

/-- A slice's bucket size in bytes (17 R548). -/
def bucketSize (s : State) (slice : Nat) : Nat := 1024 * (s.limit slice).2

/-- A tick at a slice's bucket: what SLC_BW_CFG holds applies, and the bucket is refilled for n ticks, up to its size (17 R548, R549). -/
def refillBucket (n : Nat) (s : State) (slice : Nat) : State :=
  let rate := s.fld F.slcBwCfg_rate slice
  let s1 := s.setLimit slice (rate, s.fld F.slcBwCfg_burst_kib slice)
  s1.setFld F.slcBwStat_tokens slice (min (bucketSize s1 slice) (s1.fld F.slcBwStat_tokens slice + n * (100 * rate)))

/-- Ticks pass at the buckets. -/
def refillBuckets (s : State) (n : Nat) : State :=
  if n = 0 then s
  else (((s.regInsts .slcBwCfg).map Prod.fst ++ s.gran.limits.map Prod.fst).eraseDups).foldl (refillBucket n) s

/-- The clock at a moment not before a cycle: ticks pass, and the buckets refill at each (04 Table 4.13, 17 R548). -/
def clockTo (s : State) (cycle : Nat) : State :=
  if cycle ≤ s.cycle then s
  else
    let ticks := cycle / 1600 - s.cycle / 1600
    let s1 := cycleCounts s (cycle - s.cycle)
    let s2 := ({ s1 with cycle := cycle }.count ⟨0x000, cycle - s.cycle, none, none, none⟩).count ⟨0x001, ticks, none, none, none⟩
    refillBuckets (s2.setReg .fanTick 0 (s2.reg .fanTick 0 + ticks)) ticks

/-- The next tick. -/
def nextTick (s : State) : State := clockTo s ((s.cycle / 1600 + 1) * 1600)

end Sys2Proof.Machine
end

