-- ==== Sys2Proof/Machine/Dram.lean ====
section
/-! DEFINITION. The DRAM controller: where a line lands, its write queue, poison, open rows, self-refresh, neighbour
refresh, ECC outcomes and the patrol (15). -/

namespace Sys2Proof.Machine

/-- The first DPA of the HOST region (13 Table 13.1). -/
abbrev hostBase : Nat := 0x8000000000000

/-- The first DPA of the REGISTER region (13 Table 13.1). -/
abbrev regBase : Nat := 0x20000000000

/-- Whether a DPA lies in the HOST region. -/
def isHost (dpa : Nat) : Bool := decide (hostBase ≤ dpa ∧ dpa < 2 ^ 52)

/-- Whether a DPA lies in the REGISTER region. -/
def isRegister (dpa : Nat) : Bool := decide (regBase ≤ dpa ∧ dpa < regBase + 0x2000000)

/-- Installed DRAM in bytes (15 R487). -/
def State.capacity (s : State) : Nat := s.fld F.dmcStatus_capacity_gib 0 * 2 ^ 30

/-- Whether a DPA lies in backed LOCAL memory. -/
def isLocal (s : State) (dpa : Nat) : Bool := decide (dpa < s.capacity)

/-- What an unlisted byte of memory reads as. DESIGN CHOICE (log 4): 0. -/
def memDefault (_ : Nat) : Byte := 0

/-- One byte of memory behind the Granary and the write queues. -/
def State.byte (s : State) (dpa : Nat) : Byte := tget memDefault s.mem dpa

/-- n bytes of memory. -/
def State.bytes (s : State) (dpa : Nat) : Nat → List Byte
  | 0 => []
  | n + 1 => s.byte dpa :: s.bytes (dpa + 1) n

/-- Bytes stored in memory from an address. -/
def State.store (s : State) (dpa : Nat) : List Byte → State
  | [] => s
  | b :: bs => State.store { s with mem := tset memDefault s.mem dpa b } (dpa + 1) bs

/-- Where a LOCAL line lands (15 R489, Table 15.2). -/
structure DramLoc where
  channel : Nat
  sub : Nat
  rank : Nat
  group : Nat
  bank : Nat
  row : Nat
  deriving DecidableEq, Repr

/-- The channel of a LOCAL DPA (15 R489). -/
def dramChannel (dpa : Nat) : Nat := dpa / 4096 % 12

/-- The channel address CA of a LOCAL DPA (15 R489). -/
def dramCA (dpa : Nat) : Nat := dpa / 4096 / 12 * 4096 + dpa % 4096

/-- The place of a LOCAL DPA (15 R489, Table 15.2). -/
def dramLoc (s : State) (dpa : Nat) : DramLoc :=
  let c := dramChannel dpa
  let ca := dramCA dpa
  let w := s.fld F.dmcChStatus_width c
  let two := decide (s.fld F.dmcChStatus_ranks c = 2)
  let g := 13 + w
  { channel := c, sub := bitsAt ca 6 1, group := bitsAt ca g 3, bank := bitsAt ca (g + 3) 2,
    rank := if two then bitsAt ca (g + 5) 1 else 0,
    row := ca / 2 ^ (if two then g + 6 else g + 5) }

/-- The number of a bank within its channel. -/
def DramLoc.bankNo (l : DramLoc) : Nat := ((l.sub * 2 + l.rank) * 8 + l.group) * 4 + l.bank

/-- Rows per bank of a channel's dies (15 Table 15.1). -/
def rowsPerBank (s : State) (c : Nat) : Nat := if s.flag F.dmcChStatus_density c then 131072 else 65536

/-- A channel's state. -/
def State.chan (s : State) (c : Nat) : DChan := tget (fun _ => DChan.empty) s.dram.chans c

/-- A channel's state changed. -/
def State.setChan (s : State) (c : Nat) (f : DChan → DChan) : State :=
  { s with dram := { s.dram with chans := tupd (fun _ => DChan.empty) s.dram.chans c f } }

/-- Whether a line carries the poison mark (15 R502), in its write queue entry or in DRAM. -/
def poisoned (s : State) (line : Nat) : Bool :=
  match (s.chan (dramChannel (line * 64))).writes.find? (fun w => w.line == line) with
  | some w => w.poison
  | none => tget (fun _ => false) s.dram.poison line

/-- The poison mark of a line in DRAM. -/
def setPoison (s : State) (line : Nat) (b : Bool) : State :=
  { s with dram := { s.dram with poison := tset (fun _ => false) s.dram.poison line b } }

/-- The rows a neighbour refresh takes: r - 1 and r + 1, also r - 2 and r + 2 under radius2, within the bank (15 R497). -/
def neighbours (radius2 : Bool) (rows r : Nat) : List Nat :=
  let near := (if 1 ≤ r then [r - 1] else []) ++ (if r + 1 < rows then [r + 1] else [])
  let far := if radius2 then (if 2 ≤ r then [r - 2] else []) ++ (if r + 2 < rows then [r + 2] else []) else []
  near ++ far

/-- An event of an access at its DPA, with the slice and the master of `who` (20 Table 20.1, class 0x7). -/
def dramOcc (who : Occ) (dpa code n : Nat) : Occ := { who with code := code, n := n, dpa := some dpa }

/-- The attributes of a request's demand access. -/
def Req.occ (r : Req) : Occ := ⟨0, 0, some r.slice, some r.agent.master, none⟩

/-- The attributes of a transfer that serves no slice (20 R596). -/
def noSlice : Occ := ⟨0, 0, none, none, none⟩

/-- A row activation: the draw of R497 decides whether the neighbours are refreshed. -/
def dramActivate (s : State) (who : Occ) (l : DramLoc) (dpa : Nat) : State :=
  let s := s.count (dramOcc who dpa 0x718 1)
  let (v, s) := s.drawEntropy
  if s.fld F.dmcRowguard_n 0 = 0 then s
  else if v % 65536 < s.fld F.dmcRowguard_n 0 then
    let ns := neighbours (s.flag F.dmcRowguard_radius2 0) (rowsPerBank s l.channel) l.row
    (s.setChan l.channel (fun c => { c with guarded := ns })).count (dramOcc who dpa 0x719 ns.length)
  else s

/-- An access that reaches a channel brings it out of self-refresh (15 R500). -/
def chanExit (s : State) (who : Occ) (dpa : Nat) : State :=
  let c := dramChannel dpa
  if (s.chan c).selfRefresh then
    (((s.setChan c (fun c => { c with selfRefresh := false })).addWrap F.dmcPwr_exits 0 1).setFlag
      F.dmcStatus_self_refresh 0 false).count (dramOcc who dpa 0x720 1)
  else s

/-- An access is performed at its channel: its row is opened (15 R494, R495). -/
def dramTouch (s : State) (who : Occ) (dpa : Nat) : State :=
  let s := chanExit s who dpa
  let l := dramLoc s dpa
  if tget (fun _ => 0) (s.chan l.channel).rows l.bankNo = l.row + 1 then
    s.count (dramOcc who dpa 0x71B 1)
  else
    let s := dramActivate (s.count (dramOcc who dpa 0x71C 1)) who l dpa
    s.setChan l.channel (fun c => { c with rows := tset (fun _ => 0) c.rows l.bankNo (l.row + 1) })

/-- Whether a line waits in its channel's write queue. -/
def lineQueued (s : State) (line : Nat) : Bool :=
  (s.chan (dramChannel (line * 64))).writes.any (fun w => w.line == line)

/-- A line read at its channel; one that waits in the write queue is served from there and reaches no row (15 R496). -/
def dramFetch (s : State) (who : Occ) (dpa : Nat) : State :=
  if lineQueued s (dpa / 64) then s
  else ((dramTouch s who dpa).count (dramOcc who dpa (0x700 + 2 * dramChannel dpa) 1)).bwAdd (dramChannel dpa) 64

/-- The 64 bytes of a line as a read returns them: from the write queue where it is queued (15 R496), else from DRAM. -/
def dramLine (s : State) (line : Nat) : List Byte :=
  match (s.chan (dramChannel (line * 64))).writes.find? (fun w => w.line == line) with
  | some w => w.data
  | none => s.bytes (line * 64) 64

/-- Record an error in DMC_ERR and DMC_ERR_DPA where DMC_ERR.valid is 0 (15 R504). -/
def dmcRecord (s : State) (dpa kind source mask : Nat) : State :=
  if s.flag F.dmcErr_valid 0 then s
  else
    let l := dramLoc s dpa
    let v := 2 ^ 63 + kind * 2 ^ 61 + source * 2 ^ 59 + l.channel * 2 ^ 55 + l.sub * 2 ^ 54 + l.rank * 2 ^ 53 +
      l.group * 2 ^ 50 + l.bank * 2 ^ 48 + l.row % 2 ^ 17 * 2 ^ 31 + mask % 256 * 2 ^ 23
    ((s.setReg .dmcErr 0 v).setReg .dmcErrDpa 0 (dpa / 64 * 64))

/-- The region that the device keeps for its storage-port queues and the index of dirty sectors (10 R370). -/
def devPrivate (s : State) (dpa : Nat) : Bool := decide (s.capacity ≤ dpa + 0x30000000 ∧ dpa + 0x10000000 < s.capacity)

/-- n bytes that the spec gives no contents for. -/
def freeBytes (n : Nat) : Op (List Byte) := modifyGet (openBytes · n)

/-- A demand read of a line: its bytes, or DEVICE_FAULT class DRAM where the line is poisoned (15 R504). What the device keeps in its own
region has no layout in the spec: a read there returns free bytes (10 R370; DESIGN CHOICE, log 68). -/
def dramRead (r : Req) (dpa : Nat) : Op (List Byte) := do
  upd (dramFetch · r.occ dpa)
  let s ← get
  if poisoned s (dpa / 64) then do
    upd (fun s => (dmcRecord s dpa 2 (boolNat r.spec) 0).devEvent 0x0F02 0)
    throw (.device 5)
  else if devPrivate s dpa then freeBytes 64
  else return dramLine s (dpa / 64)

/-- A held write performed at its row (15 R494, R496). -/
def dramPut (s : State) (c : Nat) (w : DWrite) : State :=
  let who : Occ := ⟨0, 0, w.slice, w.master, none⟩
  let a := w.line * 64
  let s1 := ((dramTouch s who a).count (dramOcc who a (0x701 + 2 * c) 1)).bwAdd c 64
  setPoison (s1.store a w.data) w.line w.poison

/-- Drain a channel's write queue into DRAM, oldest first (15 R496). -/
def dramDrain (s : State) (c : Nat) : State :=
  ((s.chan c).writes.foldl (fun t w => dramPut t c w) s).setChan c (fun d => { d with writes := [] })

/-- A held patrol write-back of a line is cancelled by a write to the line (15 R507). -/
def scrubCancel (s : State) (line : Nat) : State :=
  if (s.dram.scrubHeld.map Prod.fst) = some line then { s with dram := { s.dram with scrubHeld := none } } else s

/-- A whole line, with its poison mark, joins its channel's write queue; a full queue is drained first (15 R496, R505). -/
def dramWrite (s : State) (who : Occ) (line : Nat) (data : List Byte) (poison : Bool) : State :=
  let c := dramChannel (line * 64)
  let s1 := scrubCancel (chanExit s who (line * 64)) line
  let s2 := if 64 ≤ (s1.chan c).writes.length then dramDrain s1 c else s1
  s2.setChan c (fun d => { d with writes := d.writes.filter (fun w => w.line != line) ++ [⟨line, data, poison, who.slice, who.master⟩] })

/-- A write of part of a line: a read, a merge and a write of the whole line; a poison mark stays (15 R496, R505). -/
def dramMerge (s : State) (who : Occ) (dpa : Nat) (b : List Byte) : State :=
  let line := dpa / 64
  if b.length = 64 then dramWrite s who line b false
  else
    let s := (dramFetch s who dpa).count (dramOcc who dpa 0x71D 1)
    dramWrite s who line (patch (dramLine s line) (dpa % 64) b) (poisoned s line)

end Sys2Proof.Machine
end

