-- ==== Sys2Proof/Machine/Granary.lean ====
section
/-! DEFINITION. The Granary: which bank owns an address, the policies of 14 Table 14.1, replacement, the buckets' charges. -/

namespace Sys2Proof.Machine

/-- The bank that owns a DPA (14 R469). -/
def granBank (dpa : Nat) : Nat :=
  bitsAt dpa 12 4 ^^^ bitsAt dpa 16 4 ^^^ bitsAt dpa 20 4 ^^^ bitsAt dpa 24 4

/-- The set of a DPA in its bank (14 R469). -/
def granSet (dpa : Nat) : Nat := bitsAt dpa 16 7 * 64 + bitsAt dpa 6 6

/-- The number of the set among all banks. -/
def granSetNo (dpa : Nat) : Nat := granBank dpa * 8192 + granSet dpa

/-- The attributes of 14 Table 14.1, as the cache field of 13 Table 13.3 codes them. -/
abbrev attrWT : Nat := 0
abbrev attrWB : Nat := 1
abbrev attrUC : Nat := 2

/-- The Granary's states (14 Table 14.5). -/
abbrev granEnabled : Nat := 0
abbrev granDraining : Nat := 1
abbrev granDisabled : Nat := 2

/-- A way's content. -/
def State.way (s : State) (k : Nat) : Option GLine := tget (fun _ => none) s.gran.ways k

/-- A way's content set, the count of dirty lines following. -/
def State.setWay (s : State) (k : Nat) (v : Option GLine) : State :=
  let d (o : Option GLine) : Nat := match o with | some l => boolNat l.dirty | none => 0
  let n := s.fld F.grnStatus_dirty_lines 0 + d v - d (s.way k)
  ({ s with gran := { s.gran with ways := tset (fun _ => none) s.gran.ways k v } }).setFld F.grnStatus_dirty_lines 0 n

/-- The way that holds the line of a DPA. -/
def granFind (s : State) (dpa : Nat) : Option (Nat × GLine) :=
  (List.range 16).findSome? (fun w =>
    match s.way (granSetNo dpa * 16 + w) with
    | some l => if l.line = dpa / 64 then some (granSetNo dpa * 16 + w, l) else none
    | none => none)

/-- The tree bits of a set after an access to way w: at each node on its path the bit points away from it. -/
def plruTouch (bits w : Nat) : Nat :=
  let step (acc : Nat × Nat) (lv : Nat) : Nat × Nat :=
    let dir := bitsAt w (3 - lv) 1
    (putBits acc.1 acc.2 1 (1 - dir), acc.2 * 2 + dir)
  ((List.range 4).foldl step (bits, 1)).1

/-- The way the tree bits choose (14 R475). -/
def plruVictim (bits : Nat) : Nat :=
  ((List.range 4).foldl (fun n _ => n * 2 + bitsAt bits n 1) 1) - 16

/-- An access to a way. -/
def granTouch (s : State) (k : Nat) : State :=
  { s with gran := { s.gran with plru := tupd (fun _ => 0) s.gran.plru (k / 16) (fun b => plruTouch b (k % 16)) } }

/-- A transfer that a slice's bucket cannot pay waits (17 R548): inside a larger step, until the next tick, whose 100 bytes or more
pay it (DESIGN CHOICE, log 49). -/
def bucketWait (s : State) (slice : Nat) : State :=
  if 64 ≤ s.fld F.slcBwStat_tokens slice then s
  else nextTick ((s.addSat F.slcBwStat_waits slice 1).count ⟨0xF02, 1, some slice, none, none⟩)

/-- A slice's bucket charged 64 bytes for a DRAM line transfer (17 R548); a write to SLC_BW_CFG that a tick of the wait applies may free
the slice of its limit. -/
def bucketCharge (s : State) (slice : Nat) : State :=
  if (s.limit slice).1 = 0 then s
  else
    let s1 := bucketWait s slice
    if (s1.limit slice).1 = 0 then s1 else s1.subFld F.slcBwStat_tokens slice 64

/-- The charge of an access: none for the device's own accesses (17 R548). -/
def granCharge (s : State) (r : Req) (dpa : Nat) : State :=
  if r.own || isHost dpa then s else bucketCharge s r.slice

/-- A request to the HOST region made for a slice, or for none: its PASID prefix (17 R534). -/
def hostRequest (s : State) (slice : Option Nat) : State :=
  let p := slice.bind (fun n => if s.flag F.slcPasid_enable n && s.msix.pasid then some (s.fld F.slcPasid_pasid n) else none)
  { s with gran := { s.gran with prefix_ := p } }

/-- The host's memory as the host link reads it: payload bytes received (20 Table 20.2); a line dropped at a host sync
point is filled again (0x608). -/
def hostData (s : State) (r : Req) (dpa n : Nat) : List Byte × State :=
  let s1 := ((hostRequest s (some r.slice)).bwAdd 12 n).countReq r 0x900 n
  (s.bytes dpa n, if s.gran.synced.contains (dpa / 64) then
      { s1 with gran := { s1.gran with synced := s1.gran.synced.filter (· != dpa / 64) } }.countReq r 0x608 1 (some dpa)
    else s1)

/-- The error completion that stands for a line's next read is received (18 Table 18.5: HOST_COMPLETION). -/
def hostAsk (r : Req) (dpa : Nat) : Op Unit := do
  let s ← get
  if s.gran.hostErr.contains (dpa / 64) then do
    upd (fun s => { s with gran := { s.gran with hostErr := s.gran.hostErr.erase (dpa / 64) } }.countReq r 0x906 1 (some dpa))
    throw (.device 6)
  else pure ()

/-- A read of host memory: its bytes, or an error completion. -/
def hostRead (r : Req) (dpa n : Nat) : Op (List Byte) := do
  hostAsk r dpa
  modifyGet (fun s => hostData s r dpa n)

/-- A write of host memory: payload bytes transmitted. -/
def hostWrite (s : State) (who : Occ) (dpa : Nat) (b : List Byte) : State :=
  (((hostRequest s who.slice).store dpa b).bwAdd 13 b.length).count { who with code := 0x901, n := b.length }

/-- A job has written host memory (02 R38: BARRIER's flush read). -/
def hostMark (s : State) (job : Option Nat) : State :=
  match job with
  | none => s
  | some id => { s with fan := { s.fan with jobs := s.fan.jobs.map (fun j => if j.id = id then { j with hostWrote := true } else j) } }

/-- A line read from memory behind the Granary. -/
def lineFromMemory (r : Req) (dpa : Nat) : Op (List Byte) :=
  let base := dpa / 64 * 64
  if isHost dpa then hostRead r base 64
  else do
    upd (granCharge · r dpa)
    dramRead r base

/-- Bytes within a line written to memory behind the Granary. -/
def bytesToMemory (s : State) (r : Req) (dpa : Nat) (b : List Byte) : State :=
  if isHost dpa then hostMark (hostWrite s r.occ dpa b) r.job else dramMerge (granCharge s r dpa) r.occ dpa b

/-- The victim way of an allocating miss: a way that holds no line, else the tree's choice (14 R475). -/
def granVictim (s : State) (dpa : Nat) : Nat :=
  let set := granSetNo dpa
  match (List.range 16).find? (fun w => (s.way (set * 16 + w)).isNone) with
  | some w => set * 16 + w
  | none => set * 16 + plruVictim (tget (fun _ => 0) s.gran.plru set)

/-- A victim leaves its way: a dirty one is written to DRAM first (14 R476). -/
def granEvict (s : State) (r : Req) (k : Nat) : State :=
  match s.way k with
  | none => s
  | some l =>
    let s := if l.dirty then
        (dramWrite (granCharge s r (l.line * 64)) r.occ l.line l.data false).countReq r 0x605 1 (some (l.line * 64))
      else s.countReq r 0x606 1 (some (l.line * 64))
    s.setWay k none

/-- The victim of an allocating miss leaves its way, before the fill reads memory (14 R476). -/
def granRoom (s : State) (r : Req) (dpa : Nat) : State := granEvict s r (granVictim s dpa)

/-- A line takes the way of its set that its victim has left (14 R475). -/
def granPlace (s : State) (dpa : Nat) (data : List Byte) (dirty : Bool) : State :=
  let k := granVictim s dpa
  granTouch (s.setWay k (some ⟨dpa / 64, dirty, data⟩)) k

/-- Whether accesses allocate lines: the Granary is ENABLED (14 R482). -/
def granAllocates (s : State) : Bool := decide (s.fld F.grnStatus_state 0 = granEnabled)

/-- Whether an access comes from another mill than the owning bank's (20 Table 20.1, 0x609). -/
def otherMill (r : Req) (dpa : Nat) : Bool := r.agent.unit != 16 && r.agent.unit != granBank dpa

/-- A line filled from memory into a way of its set, once its victim has left (14 R476). -/
def granFill (r : Req) (dpa : Nat) : Op (List Byte) := do
  upd (fun s => granRoom s r dpa)
  let b ← lineFromMemory r dpa
  upd (fun s => granPlace (s.countReq r 0x604 1 (some dpa)) dpa b false)
  return b

/-- The held copy of a HOST line is given up: a confirming walk treats the line as a miss (14 R473). -/
def granForget (s : State) (dpa : Nat) : State :=
  match isHost dpa, granFind s dpa with
  | true, some (k, _) => s.setWay k none
  | _, _ => s

/-- The 64 bytes of the line of a DPA, read under an attribute (14 Table 14.1). noAlloc: an atomic of WT-NA or UNCACHED
allocates nothing. fresh: a HOST line is a miss (R473). -/
def granRead (r : Req) (attr dpa : Nat) (noAlloc : Bool := false) (fresh : Bool := false) : Op (List Byte) := do
  upd (fun s => if fresh then granForget s dpa else s)
  upd (fun s => if otherMill r dpa then s.countReq r 0x609 1 (some dpa) else s)
  let s ← get
  match granFind s dpa with
  | some (k, l) => do
    upd (fun s => granTouch (s.countReq r 0x600 1 (some dpa)) k)
    return l.data
  | none => do
    upd (fun s => s.countReq r 0x601 1 (some dpa))
    if attr == attrUC || noAlloc || !granAllocates s then lineFromMemory r dpa
    else granFill r dpa

/-- Bytes within one line written under an attribute (14 Table 14.1; R482 while DRAINING). -/
def granWrite (r : Req) (attr dpa : Nat) (b : List Byte) : Op Unit := do
  upd (fun s => if otherMill r dpa then s.countReq r 0x609 1 (some dpa) else s)
  let s ← get
  let wb := attr == attrWB && granAllocates s && !isHost dpa
  match granFind s dpa with
  | some (k, l) => upd (fun s =>
      let s := granTouch (s.countReq r 0x602 1 (some dpa)) k
      let l' : GLine := { l with data := patch l.data (dpa % 64) b }
      if l.dirty then s.setWay k (some l')
      else if wb then s.setWay k (some { l' with dirty := true })
      else bytesToMemory (s.setWay k (some l')) r dpa b)
  | none => do
    upd (fun s => s.countReq r 0x603 1 (some dpa))
    if wb then
      upd (fun s => granRoom s r dpa)
      if b.length = 64 then upd (fun s => granPlace s dpa b true)
      else do
        let old ← lineFromMemory r dpa
        upd (fun s => granPlace (s.countReq r 0x604 1 (some dpa)) dpa (patch old (dpa % 64) b) true)
    else upd (fun s => bytesToMemory s r dpa b)

/-- The line of a way, where it is a HOST line. -/
def hostLine (c : Nat × Option GLine) : Option Nat :=
  match c.2 with
  | some l => if isHost (l.line * 64) then some l.line else none
  | none => none

/-- Every HOST line is dropped: those filled before a host sync point never serve a later access (14 R473). -/
def hostSync (s : State) : State :=
  { s with gran := { s.gran with ways := s.gran.ways.filter (fun c => (hostLine c).isNone),
                                 synced := s.gran.synced ++ s.gran.ways.filterMap hostLine } }

/-- The latest value of a byte, as every path observes it (01 R21): the Granary's line, else the write queue, else memory. -/
def State.peek (s : State) (dpa : Nat) : Byte :=
  match granFind s dpa with
  | some (_, l) => l.data.getD (dpa % 64) 0
  | none => if isHost dpa then s.byte dpa else (dramLine s (dpa / 64)).getD (dpa % 64) 0

end Sys2Proof.Machine
end

