-- ==== Sys2Proof/Machine/Xlate.lean ====
section
/-! DEFINITION. Address translation: entries, the walk of both stages, rights and keys, accessed and dirty bits, the
translation caches, confirmation of faults, invalidation (13). -/

namespace Sys2Proof.Machine

/-- Bits of a table entry (13 Table 13.3). -/
def entValid (e : Nat) : Bool := bitAt e 0
def entPage (e : Nat) : Bool := bitAt e 2
def entR (e : Nat) : Bool := bitAt e 3
def entW (e : Nat) : Bool := bitAt e 4
def entX (e : Nat) : Bool := bitAt e 5
def entA (e : Nat) : Bool := bitAt e 6
def entD (e : Nat) : Bool := bitAt e 7
def entType (e : Nat) : Nat := bitsAt e 8 2
def entCache (e : Nat) : Nat := bitsAt e 10 2
def entFrame (e : Nat) : Nat := bitsAt e 12 40 * 4096
def entKey (e : Nat) : Nat := bitsAt e 52 4

/-- The bytes that one entry of a level spans, as a power of two (13 Table 13.2). -/
def levelShift (level : Nat) : Nat := 39 - 9 * level

/-- The index of an address at a level (13 Table 13.2). -/
def levelIndex (a level : Nat) : Nat := bitsAt a (levelShift level) 9

/-- Whether every byte of a stage 2 leaf's page lies in its type's region (13 R441, Table 13.1). -/
def leafInRegion (s : State) (frame level typ : Nat) : Bool :=
  let size := 2 ^ levelShift level
  match typ with
  | 0 => decide (frame + size ≤ s.capacity)
  | 1 => decide (hostBase ≤ frame ∧ frame + size ≤ 2 ^ 52)
  | 2 => decide (regBase ≤ frame ∧ frame + size ≤ regBase + 0x2000000)
  | _ => false

/-- The check of an entry under R441. -/
def entOk (s : State) (stage2 : Bool) (level e : Nat) : Bool :=
  let leaf := entPage e
  entValid e && !bitAt e 1 && !(leaf && level == 0) && !(!leaf && level == 3) &&
    (stage2 || bitsAt e 48 4 == 0) &&
    (!leaf || entFrame e % 2 ^ levelShift level == 0) &&
    (!(stage2 && leaf) ||
      (entType e != 3 && entCache e != 3 && leafInRegion s (entFrame e) level (entType e) &&
        !(entType e == 2 && entCache e != 2)))

/-- Whether an entry's rights allow a kind of access (13 R445); an atomic needs R and W. -/
def entAllows (e : Nat) (k : Kind) (atomic : Bool) : Bool :=
  match k with
  | .read => entR e && (!atomic || entW e)
  | .write => entW e && (!atomic || entR e)
  | .fetch => entX e

/-- The page number of an address at a level. -/
def pageAt (a level : Nat) : Nat := a / 2 ^ levelShift level

/-- The cached leaf of an address in a second-level TLB. -/
def tlbLeaf (s : State) (unit slice : Nat) (stage2 : Bool) (a : Nat) : Option XEnt :=
  (tget (fun _ => []) s.xlt.l2 unit).find? (fun x =>
    x.slice == slice && x.stage2 == stage2 && entPage x.entry && x.page == pageAt a x.level)

/-- The deepest cached pointer of an address in a walker cache. -/
def walkPtr (s : State) (unit slice : Nat) (stage2 : Bool) (a : Nat) : Option XEnt :=
  let hits := (tget (fun _ => []) s.xlt.walker unit).filter (fun x =>
    x.slice == slice && x.stage2 == stage2 && x.page == pageAt a x.level)
  hits.foldl (fun best x => match best with
    | some b => if b.level < x.level then some x else best
    | none => some x) none

/-- The set of a TLB in which a leaf is held (13 Table 13.4). The spec gives the number of sets and not the function (DESIGN CHOICE,
log 63: an open function). -/
def tlbSet (x : XEnt) (sets : Nat) : Nat := Config.tlbSet x.slice x.stage2 x.level x.page % sets

/-- A leaf joins an 8-way TLB; a full set gives up the entry that a free choice names. -/
def setFill (s : State) (xs : List XEnt) (x : XEnt) (sets : Nat) : List XEnt × State :=
  let rest := xs.filter (fun y => !(y.slice == x.slice && y.stage2 == x.stage2 && y.level == x.level && y.page == x.page))
  let peers := if rest.length < 8 then [] else rest.filter (fun y => tlbSet y sets == tlbSet x sets)
  if peers.length < 8 then (x :: rest, s)
  else
    let (v, s1) := s.drawFree
    (x :: rest.filter (fun y => peers[v % peers.length]? != some y), s1)

/-- An entry joins a cache of n entries; a full cache gives up the entry that a free choice names. -/
def cacheFill (s : State) (xs : List XEnt) (x : XEnt) (n : Nat) : List XEnt × State :=
  let rest := xs.filter (fun y => !(y.slice == x.slice && y.stage2 == x.stage2 && y.level == x.level && y.page == x.page))
  if rest.length < n then (x :: rest, s)
  else
    let (v, s1) := s.drawFree
    (x :: rest.eraseIdx (v % rest.length), s1)

/-- A leaf joins the second-level TLB, a pointer the walker cache, of a unit (13 Table 13.4). -/
def xltFill (s : State) (unit : Nat) (x : XEnt) : State :=
  if entPage x.entry then
    let (l, s1) := setFill s (tget (fun _ => []) s.xlt.l2 unit) x (if unit = 16 then 128 else 256)
    { s1 with xlt := { s1.xlt with l2 := tset (fun _ => []) s1.xlt.l2 unit l } }
  else
    let (l, s1) := cacheFill s (tget (fun _ => []) s.xlt.walker unit) x 256
    { s1 with xlt := { s1.xlt with walker := tset (fun _ => []) s1.xlt.walker unit l } }

/-- The attribute under which a translated access acts (14 R471, 01 R29). -/
def effAttr (s : State) (r : Req) (k : Kind) (cache typ : Nat) : Nat :=
  if r.own then attrUC
  else
    let scope := s.fld F.devCfg_wba_scope 0
    if cache == attrWB && typ != 0 then attrWT
    else if cache == attrWB && scope == 0 && !r.scratch then attrWT
    else if scope == 2 && r.emit && k == .write && typ == 0 && cache == attrWT then attrWB
    else cache

/-- The walker's request for an access. -/
def Req.walker (r : Req) : Req := { r with agent := .walker, job := none }

/-- The attribute of the walker's access to a stage 1 table, from the stage 2 leaf of its page (13 R438, 14 R471): the table is no
ring. -/
def tableAttr (s : State) (r : Req) (t : XEnt) (k : Kind) : Nat :=
  effAttr s { r with own := false, scratch := false, emit := false } k (entCache t.entry) (entType t.entry)

/-- A table entry read from memory at a DPA by the walker, under an attribute; BUS_ERROR where nothing is there and for an error
completion (13 R444). fresh: HOST lines are misses (14 R473). -/
def readEntry (r : Req) (fault : Nat → Err) (attr : Nat) (fresh : Bool) (dpa : Nat) : Op Nat := do
  let s ← get
  if !(isHost dpa || isLocal s dpa) then throw (fault causeBus)
  else do
    upd (fun s => s.countReq r 0x809 1)
    match ← attempt (granRead r.walker attr dpa (fresh := fresh)) with
    | .ok line => return leAt line (dpa % 64) 8
    | .error _ => throw (fault causeBus)

/-- The stage 2 walk of an SPA from a level and table (13 R443, R444): the leaf found. -/
def walk2 (r : Req) (unit : Nat) (bypass : Bool) (spa acc sva : Nat) : Nat → Nat → Nat → Op XEnt
  | 0, level, _ => throw (.walk true level causeNotPresent acc sva spa)
  | fuel + 1, level, table => do
    let fault (c : Nat) : Err := .walk true level c acc sva spa
    let at_ := table + 8 * levelIndex spa level
    if isRegister at_ then throw (fault causeTarget)
    else do
      let e ← readEntry r fault attrWT bypass at_
      let s ← get
      if !entOk s true level e then throw (fault causeNotPresent)
      else do
        let x : XEnt := ⟨r.slice, true, level, pageAt spa level, e, at_⟩
        if entPage e then do
          upd (fun s => if r.spec && !entA e then s else xltFill s unit x)
          return x
        else do
          upd (fun s => xltFill s unit x)
          walk2 r unit bypass spa acc sva fuel (level + 1) (entFrame e)

/-- Stage 2 of an SPA: the leaf, from the caches or by a walk from the root (13 R442, R443). -/
def stage2 (r : Req) (unit : Nat) (bypass : Bool) (spa acc sva : Nat) : Op XEnt := do
  let s ← get
  let root := s.reg .xltS2Root r.slice
  if !bitAt root 0 then throw (.walk true 0 causeNotPresent acc sva spa)
  else match (if bypass then none else tlbLeaf s unit r.slice true spa) with
    | some x => do
      upd (fun s => s.countReq r (if unit = 16 then 0x806 else 0x804) 1)
      return x
    | none => do
      upd (fun s => (s.countReq r (if unit = 16 then 0x807 else 0x805) 1).countReq r 0x808 1)
      match (if bypass then none else walkPtr s unit r.slice true spa) with
      | some p => do
        upd (fun s => s.countReq r 0x80A 1)
        walk2 r unit bypass spa acc sva 4 (p.level + 1) (entFrame p.entry)
      | none => walk2 r unit bypass spa acc sva 4 0 (bitsAt root 12 40 * 4096)

/-- The address an entry's page gives for an input address. -/
def pageAddr (x : XEnt) (a : Nat) : Nat := entFrame x.entry + a % 2 ^ levelShift x.level

/-- What a stage 1 walk gives: the leaf, with the stage 2 leaves that translated its table reads, each with the table's SPA. -/
structure Walk1 where
  leaf : XEnt
  tables : List (XEnt × Nat)
  deriving DecidableEq, Repr

/-- The stage 1 walk of an SVA (13 R443): each table read is translated by stage 2 as a read, which its faults report. -/
def walk1 (r : Req) (unit : Nat) (bypass : Bool) (sva acc : Nat) : Nat → Nat → Nat → List (XEnt × Nat) → Op Walk1
  | 0, level, _, _ => throw (.walk false level causeNotPresent acc sva 0)
  | fuel + 1, level, table, used => do
    let fault (c : Nat) : Err := .walk false level c acc sva 0
    let t ← stage2 r unit bypass table Kind.read.code sva
    if !entAllows t.entry .read false then throw (.walk true t.level causePermission Kind.read.code sva table)
    else do
      let d := pageAddr t table + 8 * levelIndex sva level
      if isRegister d then throw (fault causeTarget)
      else do
        let e ← readEntry r fault (tableAttr (← get) r t .read) bypass d
        let s ← get
        if !entOk s false level e then throw (fault causeNotPresent)
        else do
          let x : XEnt := ⟨r.slice, false, level, pageAt sva level, e, table + 8 * levelIndex sva level⟩
          if entPage e then do
            upd (fun s => if r.spec && !entA e then s else xltFill s unit x)
            return ⟨x, used ++ [(t, table)]⟩
          else do
            upd (fun s => xltFill s unit x)
            walk1 r unit bypass sva acc fuel (level + 1) (entFrame e) (used ++ [(t, table)])

/-- Stage 1 of an SVA, from the caches or by a walk from the root. -/
def stage1 (r : Req) (unit : Nat) (bypass : Bool) (sva acc : Nat) : Op Walk1 := do
  let s ← get
  match (if bypass then none else tlbLeaf s unit r.slice false sva) with
  | some x => return ⟨x, []⟩
  | none => match (if bypass then none else walkPtr s unit r.slice false sva) with
    | some p => walk1 r unit bypass sva acc 4 (p.level + 1) (entFrame p.entry) []
    | none => walk1 r unit bypass sva acc 4 0 (bitsAt (s.reg .slcS1Root r.slice) 12 36 * 4096) []

/-- One compare-and-swap of a whole entry (13 R448, R451): the value found, with v in its place where it was the one expected. In LOCAL it
is made at the owning bank (14 Table 14.1); in HOST it is an AtomicOp on host memory itself, which carries both values (20 R609, log 62),
and a held copy of the line follows. -/
def entrySwap (r : Req) (fault : Nat → Err) (attr dpa expect v : Nat) : Op Nat := do
  if isHost dpa then do
    upd (fun s => (((hostRequest s (some r.slice)).count ⟨0x904, 1, some r.slice, some r.agent.master, none⟩).bwAdd 13 16).countReq r 0x901 16)
    match ← attempt (hostAsk r dpa) with
    | .error _ => throw (fault causeAd)
    | .ok _ => do
      let found ← ask (fun s => leNat (s.bytes dpa 8))
      upd (fun s => (s.bwAdd 12 8).countReq r 0x900 8)
      if found = expect then do
        upd (fun s => s.store dpa (natLE 8 v))
        upd (fun s => match granFind s dpa with
          | some (k, l) => s.setWay k (some { l with data := patch l.data (dpa % 64) (natLE 8 v) })
          | none => s)
      return found
  else match ← attempt (granRead r.walker attr dpa (noAlloc := attr != attrWB)) with
  | .error _ => throw (fault causeBus)
  | .ok line => do
    let found := leAt line (dpa % 64) 8
    if found = expect then granWrite r.walker attr dpa (natLE 8 v)
    return found

/-- The swaps of one entry, at most 16 (13 R450): a value other than the one expected is checked again, for the kind of access that it
serves, and tried again where it still permits that. -/
def entryUpdate (r : Req) (x : XEnt) (fault : Nat → Err) (attr dpa : Nat) (dirty : Bool) (k : Kind) (atomic : Bool) : Nat → Nat → Op Unit
  | 0, _ => throw (fault causeAd)
  | fuel + 1, seen => do
    let v := (seen ||| 0x40) ||| (if dirty then 0x80 else 0)
    let found ← entrySwap r fault attr dpa seen v
    let s ← get
    if found = seen then do
      upd (fun s => s.countReq r 0x80B 1)
      upd (fun s => xltFill s r.agent.unit { x with entry := v })
    else if !entOk s x.stage2 x.level found || !entPage found || entFrame found != entFrame x.entry then throw (fault causeNotPresent)
    else if !entAllows found k atomic then throw (fault causePermission)
    else if entA found && (!dirty || entD found) then upd (fun s => xltFill s r.agent.unit { x with entry := found })
    else do
      upd (fun s => s.countReq r 0x80C 1)
      entryUpdate r x fault attr dpa dirty k atomic fuel found

/-- Set A, and D for a write, in a leaf at a DPA where they are 0 (13 R448, R450 to R452); a fault reports access acc. -/
def adUpdate (r : Req) (x : XEnt) (attr dpa : Nat) (dirty : Bool) (k : Kind) (atomic : Bool) (acc sva spa : Nat) : Op Unit := do
  let fault (c : Nat) : Err := .walk x.stage2 x.level c acc sva (if x.stage2 then spa else 0)
  let s ← get
  if entA x.entry && (!dirty || entD x.entry) then return ()
  else if isHost dpa && !s.flag F.xltCfg_host_ad_active 0 then throw (fault causeAd)
  else entryUpdate r x fault attr dpa dirty k atomic 16 x.entry

/-- What a translation gives: the DPA, the attribute the access acts under, the region type. -/
structure Target where
  dpa : Nat
  attr : Nat
  typ : Nat
  deriving DecidableEq, Repr

/-- The check of an access's protection key (13 R446): the key that refuses it, if any. -/
def keyRefuses (s : State) (r : Req) (k : Kind) (key : Nat) : Bool :=
  if r.own then false
  else
    let rights := s.fld F.slcPkeyRights_rights r.slice
    match k with
    | .fetch => false
    | .read => bitAt rights (2 * key) || (r.atomic && bitAt rights (2 * key + 1))
    | .write => bitAt rights (2 * key) || bitAt rights (2 * key + 1)

/-- The access code a fault reports: an atomic is reported as a write (13 R445). -/
def accCode (r : Req) (k : Kind) : Nat := if r.atomic then 1 else k.code

/-- The A and D updates of a translation (13 R448, R449): the stage 2 leaves of the stage 1 tables, then the stage 1
leaf, itself a write to its table's page, then the stage 2 leaf of the final SPA. -/
def adUpdates (r : Req) (k : Kind) (unit : Nat) (bypass : Bool) (sva spa : Nat) (w : Option Walk1) (x : XEnt) : Op Unit := do
  let dirty := k == .write || r.atomic
  let acc := accCode r k
  match w with
  | some w => do
    w.tables.forM (fun t => adUpdate r t.1 attrWT t.1.loc false .read false Kind.read.code sva t.2)
    if !entA w.leaf.entry || (dirty && !entD w.leaf.entry) then do
      let tl ← stage2 r unit bypass w.leaf.loc 1 sva
      if !entAllows tl.entry .write false then throw (.walk true tl.level causePermission 1 sva w.leaf.loc)
      else do
        adUpdate r tl attrWT tl.loc true .write false 1 sva w.leaf.loc
        adUpdate r w.leaf (tableAttr (← get) r tl .write) (pageAddr tl w.leaf.loc) dirty k r.atomic acc sva 0
    else pure ()
  | none => pure ()
  adUpdate r x attrWT x.loc dirty k r.atomic acc sva spa

/-- One translation under R443, with or without the caches. -/
def translateOnce (r : Req) (k : Kind) (bypass : Bool) (sva : Nat) : Op Target := do
  let unit := r.agent.unit
  let acc := accCode r k
  let s ← get
  let s1on := s.flag F.slcS1Root_enable r.slice
  let w ← if s1on then do
      let w ← stage1 r unit bypass sva acc
      if !entAllows w.leaf.entry k r.atomic then throw (.walk false w.leaf.level causePermission acc sva 0)
      else pure (some w)
    else pure none
  let spa := match w with
    | some w => pageAddr w.leaf sva
    | none => sva
  let key := match w with
    | some w => entKey w.leaf.entry
    | none => 0
  let s ← get
  if keyRefuses s r k key then throw (.key key sva)
  else do
    let x ← stage2 r unit bypass spa acc sva
    if !entAllows x.entry k r.atomic then throw (.walk true x.level causePermission acc sva spa)
    else if entType x.entry == 2 && (r.spec || !(r.agent == .sluice && r.slice == 0)) then
      throw (.walk true x.level causePermission acc sva spa)
    else do
      if !r.spec then adUpdates r k unit bypass sva spa w x else pure ()
      let s ← get
      return ⟨pageAddr x spa, effAttr s r k (entCache x.entry) (entType x.entry), entType x.entry⟩

/-- Drop the cached translations of a slice that cover an address, before a fault is confirmed (13 R458). -/
def dropCovering (s : State) (slice sva : Nat) : State :=
  let keepX (x : XEnt) : Bool := x.slice != slice
  let keepC (c : CEnt) : Bool := !(c.slice == slice && c.page == pageAt sva c.level)
  { s with xlt := { itlb := s.xlt.itlb.map (fun p => (p.1, p.2.filter keepC)),
                    dtlb := s.xlt.dtlb.map (fun p => (p.1, p.2.filter keepC)),
                    l2 := s.xlt.l2.map (fun p => (p.1, p.2.filter keepX)),
                    walker := s.xlt.walker.map (fun p => (p.1, p.2.filter keepX)) } }

/-- Whether a fault is a bus error, which needs no confirmation (13 R458). -/
def Err.isBus : Err → Bool
  | .walk _ _ c _ _ _ => c == causeBus
  | .key _ _ => false
  | _ => true

/-- Record a fault of a slice in its XLT_FAULT registers where valid is 0 (13 R467), the faults of the device's own accesses to its
rings among them. -/
def xltRecord (s : State) (r : Req) (e : Err) : State :=
  if s.flag F.xltFault_valid r.slice then s
  else
    let put (spa : Nat) : State :=
      let o := e.toOutc
      let v := 2 ^ 63 + r.queue % 8 * 2 ^ 48 + r.tag * 2 ^ 32 + o.status * 2 ^ 16 + o.detail
      ((s.setReg .xltFault r.slice v).setReg .xltFaultSva r.slice o.result).setReg .xltFaultSpa r.slice spa
    match e with
    | .walk _ _ _ _ _ spa => put spa
    | .key _ _ => put 0
    | _ => s

/-- The combined translation of a stone's own TLB that serves an access: it covers the SVA, allows the kind, and shows D
set for a write (13 R454). -/
def stoneTlb (s : State) (r : Req) (k : Kind) (sva : Nat) : Option CEnt :=
  match r.agent with
  | .stone n =>
    let l := tget (fun _ => []) (if k == .fetch then s.xlt.itlb else s.xlt.dtlb) n
    l.find? (fun c => c.slice == r.slice && c.page == pageAt sva c.level && c.typ != 2 &&
      (match k with
        | .read => c.r && (!r.atomic || (c.w && c.dKnown))
        | .write => c.w && c.dKnown && (!r.atomic || c.r)
        | .fetch => c.x))
  | _ => none

/-- A combined translation joins the stone's TLB; a full TLB gives up the entry that a free choice names. -/
def stoneFill (s : State) (r : Req) (k : Kind) (sva : Nat) (t : Target) : State :=
  match r.agent with
  | .stone n =>
    if r.spec then s else
    match (if s.flag F.slcS1Root_enable r.slice then tlbLeaf s r.agent.unit r.slice false sva else none),
      s.flag F.slcS1Root_enable r.slice with
    | none, true => s
    | w, _ =>
      let spa := match w with | some w => pageAddr w sva | none => sva
      match tlbLeaf s r.agent.unit r.slice true spa with
      | none => s
      | some x =>
        let lv := match w with | some w => max w.level x.level | none => x.level
        let e1 := match w with | some w => w.entry | none => 0xB8
        let c : CEnt := {
          slice := r.slice, level := lv, page := pageAt sva lv,
          frame := t.dpa / 2 ^ levelShift lv * 2 ^ levelShift lv,
          r := (entR e1 && entR x.entry), w := (entW e1 && entW x.entry), x := (entX e1 && entX x.entry),
          key := (match w with | some w => entKey w.entry | none => 0),
          typ := t.typ, cache := entCache x.entry, dKnown := (entD e1 && entD x.entry) }
        let put (l : List CEnt) (n : Nat) : List CEnt × State :=
          let rest := l.filter (fun y => !(y.slice == c.slice && y.level == c.level && y.page == c.page))
          if rest.length < n then (c :: rest, s)
          else let (v, s1) := s.drawFree; (c :: rest.eraseIdx (v % rest.length), s1)
        if k == .fetch then
          let (l, s1) := put (tget (fun _ => []) s.xlt.itlb n) 16
          { s1 with xlt := { s1.xlt with itlb := tset (fun _ => []) s1.xlt.itlb n l } }
        else
          let (l, s1) := put (tget (fun _ => []) s.xlt.dtlb n) 32
          { s1 with xlt := { s1.xlt with dtlb := tset (fun _ => []) s1.xlt.dtlb n l } }
  | _ => s

/-- A fault met, before it is reported (13 R458): one other than BUS_ERROR is confirmed by a walk from the root that bypasses every
cache, whose translation, where it succeeds, replaces the cached entries. -/
def confirmFault (r : Req) (k : Kind) (sva : Nat) (e : Err) : Op Target := do
  let again ← if e.isBus then pure (Except.error e) else do
    upd (fun s => (dropCovering s r.slice sva).countReq r 0x80F 1)
    attempt (translateOnce r k true sva)
  match again with
  | .ok t => do
    upd (fun s => stoneFill s r k sva t)
    return t
  | .error e => do
    upd (fun s => xltRecord (s.countReq r 0x80E 1) r e)
    throw e

/-- A translation that the stone's TLB does not serve: the walk of R443. A speculative one that meets a fault is dropped and leaves no
entry behind (13 R456); any other fault is confirmed (R458) and recorded (R467). -/
def translateMiss (r : Req) (k : Kind) (sva : Nat) : Op Target := do
  let before ← ask (·.xlt)
  match ← attempt (translateOnce r k false sva) with
  | .ok t => do
    upd (fun s => stoneFill s r k sva t)
    return t
  | .error e =>
    if r.spec then do
      upd (fun s => { s with xlt := before }.countReq r 0x80D 1)
      throw e
    else confirmFault r k sva e

/-- A translation: the stone's TLB, whose key is checked against the rights as they are (13 R447, R455), else the walk. -/
def translate (r : Req) (k : Kind) (sva : Nat) : Op Target := do
  let s ← get
  match stoneTlb s r k sva with
  | some c =>
    if keyRefuses s r k c.key then (if r.spec then throw (.key c.key sva) else confirmFault r k sva (.key c.key sva))
    else do
      upd (fun s => s.countReq r (if k == .fetch then 0x800 else 0x802) 1)
      return ⟨c.frame + sva % 2 ^ levelShift c.level, effAttr s r k c.cache c.typ, c.typ⟩
  | none => do
    upd (fun s => match r.agent with
      | .stone _ => s.countReq r (if k == .fetch then 0x801 else 0x803) 1
      | _ => s)
    translateMiss r k sva

/-- What an invalidation names (13 Table 13.5). -/
structure InvalReq where
  op : Nat
  stage1 : Bool
  stage2 : Bool
  slice : Nat
  addr : Nat
  pages : Nat
  deriving DecidableEq, Repr

/-- Whether a cached table entry is purged (13 R461). -/
def purgesX (q : InvalReq) (x : XEnt) : Bool :=
  match q.op with
  | 0 => x.slice == q.slice && decide (0 < q.pages) &&
      (let meets := rangesMeet (x.page * 2 ^ levelShift x.level) (2 ^ levelShift x.level) q.addr (q.pages * 4096)
       if q.stage2 then (if x.stage2 then meets else !entPage x.entry) else (!x.stage2 && meets))
  | 1 => x.slice == q.slice && (if x.stage2 then q.stage2 else q.stage1)
  | _ => true

/-- Whether a combined translation is purged (13 R461). -/
def purgesC (q : InvalReq) (c : CEnt) : Bool :=
  match q.op with
  | 0 => c.slice == q.slice && decide (0 < q.pages) &&
      (q.stage2 || rangesMeet (c.page * 2 ^ levelShift c.level) (2 ^ levelShift c.level) q.addr (q.pages * 4096))
  | 1 => c.slice == q.slice
  | _ => true

/-- Purge the caches (13 R461). -/
def xltPurge (s : State) (q : InvalReq) : State :=
  let px (p : Nat × List XEnt) : Nat × List XEnt := (p.1, p.2.filter (fun x => !purgesX q x))
  let pc (p : Nat × List CEnt) : Nat × List CEnt := (p.1, p.2.filter (fun c => !purgesC q c))
  { s with xlt := { itlb := s.xlt.itlb.map pc, dtlb := s.xlt.dtlb.map pc,
                    l2 := s.xlt.l2.map px, walker := s.xlt.walker.map px } }

end Sys2Proof.Machine
end

