-- ==== Sys2Proof/Machine/Mem.lean ====
section
/-! DEFINITION. Reading and writing a slice's memory: translation, then the owning Granary bank, line by line. -/

namespace Sys2Proof.Machine

/-- The lines that n bytes from an address can meet, at most. -/
def lineFuel (n : Nat) : Nat := n / 64 + 2

/-- The chunks of a range, one per line: address and length. -/
def chunks : Nat → Nat → Nat → List (Nat × Nat)
  | 0, _, _ => []
  | fuel + 1, a, n => if n = 0 then [] else
      let c := min n (64 - a % 64)
      (a, c) :: chunks fuel (a + c) (n - c)

/-- n bytes read at DPAs under an attribute, not translated. -/
def readDpa (r : Req) (attr dpa n : Nat) : Op (List Byte) := do
  let parts ← (chunks (lineFuel n) dpa n).mapM (fun c => do
    let line ← granRead r attr c.1
    return sub line (c.1 % 64) c.2)
  return parts.flatten

/-- Bytes written at DPAs under an attribute, not translated. -/
def writeDpa (r : Req) (attr dpa : Nat) (b : List Byte) : Op Unit :=
  (chunks (lineFuel b.length) dpa b.length).forM (fun c => granWrite r attr c.1 (sub b (c.1 - dpa) c.2))

/-- n bytes of a slice's memory (R443, 14 R470). -/
def readMem (r : Req) (sva n : Nat) (k : Kind := .read) : Op (List Byte) := do
  let parts ← (chunks (lineFuel n) sva n).mapM (fun c => do
    let t ← translate r k c.1
    let line ← granRead r t.attr t.dpa
    return sub line (t.dpa % 64) c.2)
  return parts.flatten

/-- Bytes written to a slice's memory. -/
def writeMem (r : Req) (sva : Nat) (b : List Byte) : Op Unit :=
  (chunks (lineFuel b.length) sva b.length).forM (fun c => do
    let t ← translate r .write c.1
    granWrite r t.attr t.dpa (sub b (c.1 - sva) c.2))

/-- A little-endian number of n bytes of a slice's memory. -/
def readNum (r : Req) (sva n : Nat) : Op Nat := do
  let b ← readMem r sva n
  return leNat b

/-- An atomic read-modify-write of n bytes (13 R445, 14 Table 14.1): the old bytes; f gives the new ones. -/
def atomicMem (r : Req) (sva n : Nat) (f : List Byte → List Byte) : Op (List Byte) := do
  let ra := { r with atomic := true }
  let ts ← (chunks (lineFuel n) sva n).mapM (fun c => do
    let t ← translate ra .write c.1
    return (c, t))
  let parts ← ts.mapM (fun x => do
    let line ← granRead ra x.2.attr x.2.dpa (noAlloc := x.2.attr != attrWB)
    return sub line (x.2.dpa % 64) x.1.2)
  let old := parts.flatten
  ts.forM (fun x => granWrite ra x.2.attr x.2.dpa (sub (f old) (x.1.1 - sva) x.1.2))
  return old

end Sys2Proof.Machine
end

