-- ==== Sys2Proof/Machine/Packet.lean ====
section
/-! DEFINITION. Sloesk command packets: the entry's fields, the opcode table, version 1 entries, and the conditions of 02
Table 2.9 that concern no opcode's own operands. -/

namespace Sys2Proof.Machine

/-- Fields of a version 2 entry (02 Table 2.1). -/
def eHeader (e : List Byte) : Nat := leAt e 0 8
def eEpoch (e : List Byte) : Nat := leAt e 8 8
def eFlow (e : List Byte) : Nat := leAt e 16 2
def eParam0 (e : List Byte) : Nat := leAt e 20 4
def eAddr0 (e : List Byte) : Nat := leAt e 24 8
def eAddr1 (e : List Byte) : Nat := leAt e 32 8
def eAddr2 (e : List Byte) : Nat := leAt e 40 8
def eLen0 (e : List Byte) : Nat := leAt e 48 4
def eLen1 (e : List Byte) : Nat := leAt e 52 4
def eParam1 (e : List Byte) : Nat := leAt e 56 8
def eOpcode (e : List Byte) : Nat := leAt e 0 2
def eFirst (e : List Byte) : Bool := bitAt (eHeader e) 16
def eLast (e : List Byte) : Bool := bitAt (eHeader e) 17
def eVersion (e : List Byte) : Nat := bitsAt (eHeader e) 24 4
def eTag (e : List Byte) : Nat := bitsAt (eHeader e) 32 16

/-- The roles of an opcode in a chain (02 Table 2.5). -/
inductive Role where
  | single
  | head
  | follower (heads : List Nat)
  | headFollower
  deriving DecidableEq, Repr

/-- A row of 02 Table 2.5: manager only, accepted in version 1, SNAPSHOT permitted, role, and which of addr0, addr1 and
addr2 the opcode uses (R45). -/
structure OpRow where
  op : Nat
  manager : Bool
  v1 : Bool
  snap : Bool
  role : Role
  addrs : Bool × Bool × Bool
  deriving DecidableEq, Repr

/-- The opcodes (02 Table 2.5). -/
def opRows : List OpRow := [
  ⟨0x0001, false, true, false, .single, (false, false, false)⟩,
  ⟨0x0002, false, true, false, .single, (false, false, false)⟩,
  ⟨0x0003, false, true, false, .single, (false, false, false)⟩,
  ⟨0x0004, false, false, false, .single, (false, false, false)⟩,
  ⟨0x0100, false, false, true, .head, (true, true, true)⟩,
  ⟨0x0101, false, false, false, .follower [0x0100, 0x0110], (true, true, true)⟩,
  ⟨0x0110, false, false, true, .head, (true, true, true)⟩,
  ⟨0x0111, false, false, false, .follower [0x0110], (true, true, true)⟩,
  ⟨0x0200, false, true, false, .single, (true, true, false)⟩,
  ⟨0x0201, false, true, false, .single, (false, true, false)⟩] ++ [
  ⟨0x0202, false, false, false, .headFollower, (true, true, false)⟩,
  ⟨0x0300, false, false, false, .single, (true, true, false)⟩,
  ⟨0x0301, false, false, false, .single, (true, true, false)⟩,
  ⟨0x0400, false, true, false, .single, (true, true, false)⟩,
  ⟨0x0401, false, false, false, .single, (true, true, false)⟩,
  ⟨0x0402, false, false, false, .single, (false, true, false)⟩,
  ⟨0x0403, false, false, false, .single, (true, false, false)⟩,
  ⟨0x0500, false, false, false, .single, (true, false, false)⟩,
  ⟨0x0501, false, false, false, .single, (true, false, false)⟩,
  ⟨0x0502, false, false, false, .single, (false, false, false)⟩] ++ [
  ⟨0x0503, false, false, false, .single, (false, false, false)⟩,
  ⟨0x0600, false, false, true, .single, (false, false, false)⟩,
  ⟨0x0601, false, false, false, .single, (false, false, false)⟩,
  ⟨0x0602, false, false, false, .single, (false, false, false)⟩,
  ⟨0x0603, false, false, false, .single, (false, false, false)⟩,
  ⟨0x0700, true, false, false, .headFollower, (true, true, false)⟩,
  ⟨0x0701, true, false, false, .single, (false, false, false)⟩,
  ⟨0x0702, true, false, false, .single, (false, false, false)⟩,
  ⟨0x0703, true, false, false, .single, (false, false, false)⟩,
  ⟨0x0704, true, false, false, .single, (false, false, false)⟩] ++ [
  ⟨0x0705, true, false, false, .single, (false, false, false)⟩,
  ⟨0x0706, true, false, false, .single, (true, false, false)⟩,
  ⟨0x0800, false, false, false, .single, (true, false, false)⟩,
  ⟨0x0801, false, false, false, .single, (false, false, false)⟩,
  ⟨0x0802, true, false, false, .single, (false, false, false)⟩]

/-- The row of an opcode. -/
def opRow (op : Nat) : Option OpRow := opRows.find? (fun r => r.op == op)

/-- The conditions of a list that are broken, as the lowest offset among them (02 R655). -/
def lowest (cs : List (Bool × Nat)) : Option Nat :=
  (cs.filter Prod.fst).foldl (fun m c => match m with
    | some x => some (min x c.2)
    | none => some c.2) none

/-- A condition: some byte of [o, o + n) is not 0; its offset. -/
def nonzero (e : List Byte) (o n : Nat) : Bool × Nat := (leAt e o n != 0, o)

/-- A condition on a range of an operand's value. -/
def badIf (b : Bool) (o : Nat) : Bool × Nat := (b, o)

/-- Whether an address has a bit of [63:48] set. -/
def badSva (a : Nat) : Bool := decide (2 ^ 48 ≤ a)

/-- The version 2 form of a version 1 entry (02 R62, Table 2.6). -/
def fromV1 (e : List Byte) : List Byte :=
  let flags := leAt e 2 1
  let notify := bitAt flags 4
  let h := leAt e 0 2 + boolNat (bitAt flags 0) * 2 ^ 16 + boolNat (bitAt flags 1) * 2 ^ 17 +
    boolNat (bitAt flags 2) * 2 ^ 18 + boolNat (bitAt flags 3) * 2 ^ 19 + boolNat notify * 2 ^ 21 +
    1 * 2 ^ 24 + 8 * 2 ^ 28 + leAt e 4 2 * 2 ^ 32 + boolNat notify * 2 ^ 53
  natLE 8 h ++ zeros 12 ++ sub e 40 4 ++ sub e 8 24 ++ sub e 32 8 ++ sub e 44 8

/-- The breaches of R63 in a version 1 entry, by offset. -/
def v1Form (e : List Byte) (poll : Bool) (row : Option OpRow) : Option Nat :=
  let byteBad (o : Nat) : Bool × Nat := nonzero e o 1
  lowest ([((row.map (·.v1)) != some true, 0), (poll, 3), (decide (32 ≤ leAt e 2 1), 2), (decide (16 ≤ leAt e 3 1), 3)] ++
    [6, 7].map byteBad ++ (List.range 12).map (fun i => byteBad (52 + i)))

/-- The fields of a FIRST entry that govern its job. -/
def hdrOf (e : List Byte) : Hdr :=
  let h := eHeader e
  let f := eFlow e
  { op := eOpcode e, tag := eTag e, prio := bitsAt h 28 4, irq := bitAt h 53, vector := bitsAt h 48 5,
    notify := bitAt h 21, fence := bitAt h 20, barrier := bitAt h 19, ordered := bitAt h 18, snapshot := bitAt h 22,
    epoch := eEpoch e, flow := if bitAt f 15 then some (bitsAt f 0 12) else none, v1 := eVersion e == 1 }

/-- An entry as the Weir checks it: where it stands, the bytes read, its version 2 form, the open chain's FIRST header
and count. -/
structure EntryCtx where
  slice : Nat
  queue : Nat
  index : Nat
  raw : List Byte
  e : List Byte
  chain : Option Chain
  head : Option Hdr
  deriving DecidableEq, Repr

/-- The global number of a queue. -/
def EntryCtx.gq (x : EntryCtx) : Nat := x.slice * 8 + x.queue

/-- Whether R55 or Table 2.5 refuses the issuer (02 reason 0x04). -/
def privBad (x : EntryCtx) (row : OpRow) : Bool :=
  let p := eParam0 x.e
  x.slice != 0 && (row.manager ||
    ((row.op == 0x0800 || row.op == 0x0801) && (bitAt p 31 || bitsAt p 16 6 != x.slice)))

/-- The first header field of a follower that breaks R50, as an offset. -/
def followerHeader (x : EntryCtx) (hd : Hdr) : Option Nat :=
  let h := eHeader x.e
  lowest [(bitAt h 18 || bitAt h 19 || bitAt h 20 || bitAt h 21 || bitAt h 22, 2),
    ((eVersion x.e == 1) != hd.v1 || bitsAt h 28 4 != 0, 3), (eTag x.e != hd.tag, 4),
    (bitsAt h 48 5 != 0 || bitAt h 53, 6)]

/-- CHAIN_FORM (02 reason 0x09, R655). -/
def chainForm (x : EntryCtx) (row : OpRow) : Option Nat :=
  if eFirst x.e then
    match row.role with
    | .follower _ => some 0
    | .single => if x.chain.isSome || !eLast x.e then some 2 else none
    | _ => if x.chain.isSome then some 2 else none
  else
    match x.chain, x.head with
    | some c, some hd =>
      let allowed := match row.role with
        | .follower hs => hs.contains hd.op
        | .headFollower => row.op == hd.op
        | _ => false
      if !allowed then some 0
      else if 256 ≤ c.count then some 2
      else followerHeader x hd
    | _, _ => some 2

/-- FLAG_FORM (02 reason 0x08, R655); bytes 8 to 15 of a follower are operands. -/
def flagForm (x : EntryCtx) (row : OpRow) : Option Nat :=
  let h := eHeader x.e
  lowest [(bitAt h 22 && !row.snap, 2), (!bitAt h 53 && bitsAt h 48 5 != 0, 6),
    (eFirst x.e && eEpoch x.e != 0 && !bitAt h 22 && row.op != 0x0603, 8)]

/-- ADDRESS_FORM (02 reason 0x07) of a FIRST entry. -/
def addressForm (x : EntryCtx) (row : OpRow) : Option Nat :=
  if !eFirst x.e then none
  else
    let bad (used : Bool) (a : Nat) : Bool := badSva a || (!used && a != 0)
    lowest [(bad row.addrs.1 (eAddr0 x.e), 24), (bad row.addrs.2.1 (eAddr1 x.e), 32), (bad row.addrs.2.2 (eAddr2 x.e), 40)]

/-- RESERVED_NONZERO (02 reason 0x06). -/
def reservedForm (x : EntryCtx) : Option Nat :=
  lowest [(bitsAt (eHeader x.e) 54 10 != 0, 6), (eFirst x.e && bitsAt (eFlow x.e) 12 3 != 0, 17),
    (eFirst x.e && leAt x.e 18 2 != 0, 18)]

/-- VECTOR_RANGE (02 reason 0x0A): R43 against the slice's vectors. -/
def vectorForm (s : State) (x : EntryCtx) : Option Nat :=
  let h := eHeader x.e
  if eFirst x.e && bitAt h 53 && decide (s.fld F.slcCfg_vectors_m1 x.slice < bitsAt h 48 5) then some 6 else none

/-- FLOW_RANGE (02 reason 0x0B): R49 and 04 R140. -/
def flowForm (s : State) (x : EntryCtx) : Option Nat :=
  let f := eFlow x.e
  let n := bitsAt f 0 12
  if !eFirst x.e then none
  else if bitAt f 15 then
    (if s.flag F.fanFlowCfg_valid n && s.fld F.fanFlowCfg_owner n == x.slice then none else some 16)
  else if n != 0 then some 16 else none

/-- TXN_FORM (02 reason 0x0C): R56. -/
def txnForm (s : State) (x : EntryCtx) (op : Nat) : Option Nat :=
  let open_ := s.flag F.wqState_txn_open x.gq
  if (op == 0x0600 && open_) || (op == 0x0601 && !open_) then some 0 else none

/-- Where an operand field of a version 2 entry stands in the entry as it was read (02 Table 2.6). -/
def rawOffset (v1 : Bool) (o : Nat) : Nat :=
  if !v1 then o
  else if 24 ≤ o ∧ o < 56 then o - 16
  else if 20 ≤ o ∧ o < 24 then o + 20
  else if 56 ≤ o then o - 12
  else o

/-- A reason of 02 Table 2.9 with its offset. -/
abbrev Reason := Nat × Nat

/-- The lowest reason that applies to an entry (02 R69, Table 2.9); operands answers the offset of a breach of the
opcode's own operand rules (reason 0x0D). -/
def entryReason (operands : State → EntryCtx → OpRow → Option Nat) (s : State) (x : EntryCtx) : Option Reason :=
  let op := leAt x.raw 0 2
  let ver := bitsAt (leAt x.raw 3 1) 0 4
  if op = 0 then some (1, 0)
  else match opRow op with
  | none => some (2, 0)
  | some row =>
    if ver ≠ 1 ∧ ver ≠ 2 then some (3, 3)
    else if privBad x row then some (4, 0)
    else
      let v1 := if ver = 1 then v1Form x.raw (s.flag F.wqCfg_poll x.gq) (some row) else none
      let at_ (o : Option Nat) : Option Nat := o.map (rawOffset (ver == 1))
      let tries : List (Nat × Option Nat) := [(5, v1), (6, reservedForm x), (7, at_ (addressForm x row)), (8, flagForm x row),
        (9, chainForm x row), (10, vectorForm s x), (11, flowForm s x), (12, txnForm s x op), (13, at_ (operands s x row))]
      tries.findSome? (fun t => t.2.map (fun o => (t.1, o)))

end Sys2Proof.Machine
end

