-- ==== Sys2Proof/Machine/Signals.lean ====
section
/-! DEFINITION. How the device reports: MSI-X messages, tailrace records and their pending stores, the scheduling trace,
slice and device halts (03 R102 to R114, 04 R146 to R148, 17 R537, R538). -/

namespace Sys2Proof.Machine

/-- A function vector's entry. -/
def State.vector (s : State) (v : Nat) : MsixEntry := tget (fun _ => MsixEntry.reset) s.msix.table v

/-- A function vector's entry set. -/
def State.setVector (s : State) (v : Nat) (e : MsixEntry) : State :=
  { s with msix := { s.msix with table := tset (fun _ => MsixEntry.reset) s.msix.table v e } }

/-- The slice that holds a function vector (17 R537). -/
def vectorSlice (s : State) (v : Nat) : Option Nat :=
  (List.range 64).find? (fun n => s.fld F.slcCfg_state n != 0 &&
    decide (s.fld F.slcCfg_vector_base n ≤ v ∧ v ≤ s.fld F.slcCfg_vector_base n + s.fld F.slcCfg_vectors_m1 n))

/-- A message on a function vector: sent, or held pending where the vector or the function is masked (17 R538). -/
def msixSend (s : State) (v : Nat) : State :=
  let e := s.vector v
  if s.flag F.mpdStatus_pwr_fail 0 || !s.msix.enabled then s
  else if e.masked || s.msix.funcMask then
    (s.setVector v { e with pending := true }).count ⟨0x903, 1, vectorSlice s v, some Agent.fantail.master, none⟩
  else ({ s with msix := { s.msix with sent := s.msix.sent ++ [(v, e.addr, e.data)] } }).count ⟨0x902, 1, vectorSlice s v, some Agent.fantail.master, none⟩

/-- A message on vector k of a slice (17 R537). -/
def sliceMsix (s : State) (slice k : Nat) : State := msixSend s (s.fld F.slcCfg_vector_base slice + k)

/-- A vector is unmasked: a held message is sent (17 R538). -/
def msixUnmask (s : State) (v : Nat) : State :=
  let e := s.vector v
  let s1 := s.setVector v { e with masked := false, pending := e.pending && s.msix.funcMask }
  if e.pending && !s.msix.funcMask then msixSend s1 v else s1

/-- A request for the device's own access to a slice's rings (14 R471, 13 R446). -/
def ownReq (slice : Nat) : Req := { slice := slice, agent := .fantail, own := true }

/-- A request for the device's own access to a queue's rings. -/
def ringReq (gq : Nat) : Req := { ownReq (gq / 8) with queue := gq % 8 }

/-- A slice's tailrace state. -/
def State.tail (s : State) (slice : Nat) : Tail := tget (fun _ => Tail.empty) s.tails slice

/-- A slice's tailrace state changed. -/
def State.setTail (s : State) (slice : Nat) (f : Tail → Tail) : State :=
  { s with tails := tupd (fun _ => Tail.empty) s.tails slice f }

/-- A work queue's state. -/
def State.queue (s : State) (gq : Nat) : Queue := tget (fun _ => Queue.empty) s.queues gq

/-- A work queue's state changed. -/
def State.setQueue (s : State) (gq : Nat) (f : Queue → Queue) : State :=
  { s with queues := tupd (fun _ => Queue.empty) s.queues gq f }

/-- A job of the job table changed. -/
def State.setJob (s : State) (id : Nat) (f : Job → Job) : State :=
  { s with fan := { s.fan with jobs := s.fan.jobs.map (fun j => if j.id = id then f j else j) } }

/-- a - b modulo 2^32 (03 R78). -/
def sub32 (a b : Nat) : Nat := (a + 2 ^ 32 - b) % 2 ^ 32

/-- The expected phase of index i of a ring of 2^n entries (03 R84). -/
def phaseOf (i n : Nat) : Nat := 1 - bitsAt i n 1

/-- Whether a slice's tailrace is written: it is enabled, and the power-fail sequence has not begun (09 R336). -/
def tailOn (s : State) (slice : Nat) : Bool := s.flag F.slcEvCfg_enable slice && !s.flag F.mpdStatus_pwr_fail 0

/-- Free slots of a tailrace beyond those reserved (03 R104, R106). -/
def tailFree (s : State) (slice : Nat) : Nat :=
  2 ^ s.fld F.slcEvCfg_depth_log2 slice - sub32 (s.reg .slcEvTail slice) (s.reg .slcEvHead slice) - (s.tail slice).reserved

/-- A tailrace record (03 Table 3.4). -/
structure TRec where
  kind : Nat
  detail : Nat := 0
  queue : Nat := 0
  tag : Nat := 0
  status : Nat := 0
  result : Nat := 0
  index : Nat := 0
  count : Nat := 0
  deriving DecidableEq, Repr

/-- The 32 bytes of a record, written at a tick with a phase. -/
def TRec.bytes (t : TRec) (phase time : Nat) : List Byte :=
  natLE 8 (t.detail % 2 ^ 16 * 2 ^ 48 + t.kind * 2 ^ 44 + 2 * 2 ^ 40 + t.queue * 2 ^ 32 + t.tag * 2 ^ 16 + t.status) ++
    natLE 8 t.result ++ natLE 4 t.index ++ natLE 4 (phase * 2 ^ 31 + min t.count 0xFFFF) ++ natLE 8 time

/-- SLC_FAULT of a halt (03 Table 3.14), where none is recorded. -/
def recordFault (s : State) (slice queue index kind reason target : Nat) (device : Bool) : State :=
  s.setReg .slcFault slice (index % 2 ^ 32 * 2 ^ 32 + 2 ^ 31 + boolNat device * 2 ^ 30 + target * 2 ^ 28 + kind * 2 ^ 24 +
    reason * 2 ^ 16 + queue)

/-- A record of kind 3 or 4 enters a ring's pending store: a general entry, else the reserved entry of its kind or
class, else merged into that entry's record (03 R108). -/
def pendAdd (s : State) (slice : Nat) (p : PRec) : State :=
  let t := s.tail slice
  let general := if slice = 0 then 512 else 1
  if (t.pend.filter (fun q => !q.reserved)).length < general then
    s.setTail slice (fun t => { t with pend := t.pend ++ [p] })
  else
    let same (q : PRec) : Bool := q.reserved && q.kind == p.kind && (p.kind == 3 || q.detail == p.detail)
    if t.pend.any same then
      s.setTail slice (fun t => { t with pend := t.pend.map (fun q => if same q then { q with count := q.count + 1 } else q) })
    else s.setTail slice (fun t => { t with pend := t.pend ++ [{ p with reserved := true }] })

/-- Tasks of a slice are to stop at their next batch boundary (03 R111). -/
def stopTasks (s : State) (p : Task → Bool) : State :=
  { s with fan := { s.fan with tasks := s.fan.tasks.map (fun t => if p t then { t with stop := true } else t) } }

/-- The slice of a task. -/
def taskSlice (s : State) (t : Task) : Nat := ((s.job t.job).map (·.slice)).getD 0

/-- A device halt with a fault class: nothing more is fetched, every stone stops at its next batch boundary, a Spillway
dump is owed (03 R113, 18 R568). -/
def deviceHalt (s : State) (cls : Nat) : State :=
  if s.halted then s else stopTasks { s with halted := true, fatal := some cls } (fun _ => true)

/-- The halt of a slice (03 R111), its records left in the pending stores; slice 0 halts the device (R112), as does
strict_failstop for a malformed entry (R113). -/
def haltSlice (s : State) (slice queue index kind reason target : Nat) : State :=
  let device := slice == 0 || (kind == 0 && s.flag F.devCfg_strict_failstop 0)
  if s.flag F.slcStatus_halted slice || s.halted then s
  else if device then deviceHalt (recordFault s slice queue index kind reason target true) 0x101
  else
    let s1 := recordFault s slice queue index kind reason target false
    let s2 := (s1.setFlag F.slcStatus_halted slice true).setFld F.slcCfg_state slice 2
    let s3 := stopTasks s2 (fun t => taskSlice s2 t == slice)
    let p : PRec := ⟨3, reason, queue, index, 0, false⟩
    let s4 := pendAdd (pendAdd s3 slice p) 0 p
    { s4 with haltMsgs := s4.haltMsgs ++ [slice] }

/-- The halt that a fault of one of the device's ring accesses causes (03 R114): the reason is the cause code, with
0x08 added for stage 2. -/
def ringFault (s : State) (slice queue index target : Nat) (e : Err) : State :=
  match e with
  | .walk s2 _ c _ _ _ => haltSlice s slice queue index 1 (c + boolNat s2 * 8) target
  | _ => haltSlice s slice queue index 1 causeBus target

/-- One record written at the ring's tail, which advances (03 R103, R104); a fault halts the slice with target 3. -/
def tailWrite (s : State) (slice : Nat) (t : TRec) : State :=
  let m := s.fld F.slcEvCfg_depth_log2 slice
  let i := s.reg .slcEvTail slice
  let a := s.fld F.slcEvBase_base slice * 4096 + 32 * (i % 2 ^ m)
  match (writeMem { ownReq slice with queue := t.queue, tag := t.tag } a (t.bytes (phaseOf i m) (s.reg .fanTick 0))).exec s with
  | (.ok _, s1) => (s1.setReg .slcEvTail slice ((i + 1) % 2 ^ 32)).count ⟨0xF03, 1, some slice, none, none⟩
  | (.error e, s1) => ringFault s1 slice 0 i 3 e

/-- The record of a pending store's entry. -/
def PRec.toRec (p : PRec) : TRec :=
  { kind := p.kind, detail := p.detail, queue := if p.kind = 3 then p.queue else 0, result := p.result, count := p.count }

/-- Pending records, oldest first, go to the first free slots, then an OVERFLOW record for dropped JOB records
(03 R107, R108, R656); a DEVICE_EVENT record of the manager's ring sends the message of slice 0's vector 0 (R109): one message
after each record that is written, also where several are written together (DESIGN CHOICE, log 59). -/
def tailFlush : Nat → State → Nat → State
  | 0, s, _ => s
  | fuel + 1, s, slice =>
    if !tailOn s slice || tailFree s slice = 0 then s
    else match (s.tail slice).pend with
    | p :: ps =>
      let s1 := tailWrite (s.setTail slice (fun t => { t with pend := ps })) slice p.toRec
      tailFlush fuel (if p.kind = 4 then sliceMsix s1 0 0 else s1) slice
    | [] =>
      if (s.tail slice).dropped = 0 then s
      else tailWrite (s.setTail slice (fun t => { t with dropped := 0 })) slice { kind := 2, count := (s.tail slice).dropped }

/-- A tailrace flushed of all that fits. -/
def tailDrain (s : State) (slice : Nat) : State := tailFlush ((s.tail slice).pend.length + 2) s slice

/-- A JOB record (03 R102, R105, R106): a slot reserved for it is used, and given back where the ring is disabled; otherwise it is
written where a slot is free and dropped where the ring is full. -/
def tailJob (s : State) (slice : Nat) (reserved : Bool) (t : TRec) : State :=
  let s0 := if reserved then s.setTail slice (fun u => { u with reserved := u.reserved - 1 }) else s
  if !tailOn s slice then s0
  else if reserved then tailWrite s0 slice t
  else
    let s1 := tailDrain s slice
    if tailFree s1 slice = 0 then
      let s2 := (s1.addSat F.slcEvDrops_count slice 1).setFlag F.slcStatus_ev_dropped slice true
      (s2.setTail slice (fun u => { u with dropped := u.dropped + 1 })).count ⟨0xF04, 1, some slice, none, none⟩
    else tailWrite s1 slice t

/-- The device's state settles at the end of a command: owed events enter the manager's pending store, the stores are
written as far as they fit, and the messages of halts follow their records (03 R109, R111). -/
def settleEvents (s : State) : State :=
  let evs := s.events
  let s1 := evs.foldl (fun t e => pendAdd t 0 ⟨4, e.1, 0, e.2, 0, false⟩) { s with events := [] }
  let msgs := s1.haltMsgs
  let s2 := msgs.foldl (fun t sl => tailDrain t sl) { s1 with haltMsgs := [] }
  let s3 := if evs.isEmpty && msgs.isEmpty then s2 else tailDrain s2 0
  msgs.foldl (fun t sl => sliceMsix (sliceMsix t sl 0) 0 0) s3

/-- A trace record's fields that its kind fills (04 Table 4.3). -/
structure Trace where
  kind : Nat
  slice : Nat
  queue : Nat
  tag : Nat
  part : Nat := 0
  flow : Option Nat := none
  interactive : Bool := false
  prio : Nat := 0
  stone : Nat := 0
  mill : Nat := 0
  counter : Nat := 0
  status : Nat := 0
  deriving DecidableEq, Repr

/-- The 32 bytes of a trace record (04 Table 4.3). -/
def Trace.bytes (t : Trace) (cycle seq phase : Nat) : List Byte :=
  natLE 8 cycle ++
  natLE 8 (t.kind * 2 ^ 60 + t.slice * 2 ^ 54 + t.queue * 2 ^ 51 + t.tag * 2 ^ 32 + t.part % 2 ^ 32) ++
  natLE 8 ((t.flow.getD 0) * 2 ^ 52 + boolNat t.flow.isSome * 2 ^ 51 + boolNat t.interactive * 2 ^ 50 + t.prio * 2 ^ 46 +
    t.stone * 2 ^ 39 + t.mill * 2 ^ 35 + t.counter % 2 ^ 16 * 2 ^ 16 + t.status) ++
  natLE 4 seq ++ natLE 4 (phase * 2 ^ 31)

/-- The Fantail's trace of a decision (04 R146); a fault clears tracing (R147). -/
def State.trace (s : State) (t : Trace) : State :=
  if !s.flag F.fanTraceCfg_enable 0 || !bitAt (s.reg .fanTraceCfg 0) t.kind ||
      (s.flag F.fanTraceCfg_slice_filter_en 0 && s.fld F.fanTraceCfg_slice 0 != t.slice) then s
  else
    let i := s.reg .fanTraceTail 0
    let m := s.fld F.fanTraceCfg_depth_log2 0
    let b := t.bytes s.cycle i (phaseOf i m)
    match (writeMem (ownReq 0) (s.fld F.fanTraceBase_base 0 * 4096 + 32 * (i % 2 ^ m)) b).exec s with
    | (.ok _, s1) => { (s1.setReg .fanTraceTail 0 ((i + 1) % 2 ^ 32)) with traceLog := (s1.traceLog ++ [b]).drop (s1.traceLog.length - 65535) }
    | (.error _, s1) => (s1.setFlag F.fanTraceCfg_enable 0 false).setFlag F.fanStatus_trace_fault 0 true

end Sys2Proof.Machine
end

