-- ==== Sys2Proof/Machine/Fantail.lean ====
section
/-! DEFINITION. The Fantail: the job table, tasks and counters, failing and cancelling, ranks and ready lists, ordered
flows, and a job's release (02 R41, R53, 03 R88 to R92, 04 R123 to R145). -/

namespace Sys2Proof.Machine

/-- The global queue of a job. -/
def Job.gq (j : Job) : Nat := j.slice * 8 + j.queue

/-- The FIRST entry of a job. -/
def Job.first (j : Job) : List Byte := j.entries.headD []

/-- A request for an access of a job. -/
def Job.req (j : Job) (a : Agent) : Req := { slice := j.slice, agent := a, queue := j.queue, tag := j.hdr.tag, job := some j.id }

/-- Operands of COMPRESS and DECOMPRESS (11 Table 11.3): SLOTTED. -/
def qSlotted (j : Job) : Bool := bitAt (eParam0 j.first) 10
/-- B. -/
def qBlock (j : Job) : Nat := eParam0 j.first % 512 * 1024
/-- Z (11 R398). -/
def qSlot (j : Job) : Nat := alignUp (qBlock j + 16) 64
/-- COMPRESS's blocks (11 R397), DECOMPRESS's slots (11 R404). -/
def qCount (j : Job) : Nat :=
  let u := if j.hdr.op = 0x0301 then qSlot j else qBlock j
  (eLen0 j.first + u - 1) / u

/-- The number of tasks that a job has (04 R124), before its opcode has started. Chapters 09 and 10 give no number: READ, WRITE and
TRIM have one task and FLUSH, BEGIN, COMMIT and the opcodes of groups 6 to 8 none (DESIGN CHOICE, log 54). -/
def taskCount (j : Job) : Nat :=
  match j.ntasks with
  | some n => n
  | none =>
    match j.hdr.op with
    | 0x0100 => eParam0 j.first
    | 0x0110 => boolNat (eParam0 j.first != 0)
    | 0x0300 | 0x0301 => if eLen0 j.first = 0 then 0 else if qSlotted j then qCount j else 1
    | 0x0502 => 0
    | op => boolNat (decide (2 ≤ op / 256 ∧ op / 256 ≤ 5))

/-- The trace fields of a job, with the dependence counter that it holds. -/
def Job.traceOf (s : State) (j : Job) (kind : Nat) : Trace :=
  { kind := kind, slice := j.slice, queue := j.queue, tag := j.hdr.tag, flow := j.hdr.flow,
    interactive := s.flag F.slcCfg_class j.slice, prio := j.hdr.prio, counter := j.counter.getD 0 }

/-- The dependence counters in use (04 R126). -/
def countersUsed (s : State) : List Nat := s.fan.jobs.filterMap (·.counter) ++ s.fan.tasks.filterMap (·.counter)

/-- The counter that a wait takes: the lowest that is free (04 R126; DESIGN CHOICE, log 55). -/
def freeCounter (s : State) : Option Nat :=
  (List.range ((countersUsed s).length + 1)).find? (fun i => !(countersUsed s).contains i)

/-- The job table's and task slots' counts in FAN_STATUS, and a queue's count of jobs, after a change (04 Tables 4.6, 4.9). -/
def fanCounts (s : State) : State :=
  let n := s.fan.jobs.length
  let t := (s.fan.tasks.filter (fun t => t.state != .released)).length
  ((s.setFld F.fanStatus_jobs 0 n).setFld F.fanStatus_tasks 0 t).setFld F.fanStatus_counters 0 (countersUsed s).length

/-- The entries on delay list n (04 Table 4.14). -/
def delayFld (n : Nat) : Fld := ⟨.fanDelayStat, 16 * n, 16⟩

/-- Whether a read of a queue's ring is under way, of the slice's generation now (03 R77, 17 R533). -/
def ringReading (s : State) (gq : Nat) : Bool :=
  s.issued.any (fun r => r.gq == gq && r.gen == s.fld F.slcGen_generation (gq / 8))

/-- WQ_STATE's chain_open and idle, and WEIR_QSTAT.jobs, of a queue (03 R77, Table 3.9, 04 Table 4.6): a queue is not idle while an entry
whose read has been issued is still to be fetched. -/
def queueFlags (s : State) (gq : Nat) : State :=
  let q := s.queue gq
  let jobs := (s.fan.jobs.filter (fun j => j.gq == gq)).length
  ((s.setFlag F.wqState_chain_open gq q.chain.isSome).setFlag F.wqState_idle gq (q.chain.isNone && jobs == 0 && !ringReading s gq)).setFld
    F.weirQstat_jobs gq jobs

/-- A task of a job. -/
def State.task (s : State) (job part : Nat) : Option Task :=
  s.fan.tasks.find? (fun t => t.job == job && t.part == part)

/-- A task changed. -/
def State.setTask (s : State) (job part : Nat) (f : Task → Task) : State :=
  { s with fan := { s.fan with tasks := s.fan.tasks.map (fun t => if t.job = job ∧ t.part = part then f t else t) } }

/-- Tasks removed. -/
def dropTasks (s : State) (p : Task → Bool) : State :=
  { s with fan := { s.fan with tasks := s.fan.tasks.filter (fun t => !p t) } }

/-- Whether a task has started: it is placed on a unit. -/
def Task.started (t : Task) : Bool := match t.state with | .placed _ => true | _ => false

/-- Whether a task has ended. -/
def Task.ended (t : Task) : Bool := t.state == .complete || t.state == .released

/-- The tasks of a job that have not started are removed, which a CANCEL record tells, and the started ones stop at their next
boundary (04 R129, Table 4.4). -/
def cancelTasks (s : State) (id : Nat) : State :=
  let mine (t : Task) : Bool := t.job == id
  let gone (t : Task) : Bool := mine t && !t.started && t.state != .released
  let s1 := stopTasks (dropTasks s gone) mine
  let s2 := match s1.job id with
    | some j => if s.fan.tasks.any gone then s1.trace (j.traceOf s1 0xC) else s1
    | none => s1
  fanCounts s2

/-- A job leaves its delay list (04 R142). -/
def leaveDelay (s : State) (id : Nat) : State :=
  match s.job id with
  | some j =>
    match j.delay with
    | some d =>
      let s1 := (s.setJob id (fun j => { j with delay := none })).subFld (delayFld d.1) 0 1
      (s1.trace (j.traceOf s 0xA)).count ⟨0x208, 1, some j.slice, none, none⟩
    | none => s
  | none => s

/-- A job's outcome is fixed by an error: the first detected stands (02 R68), and its tasks are cancelled (04 R129). Its waits for
earlier jobs end with it, a FENCE's and an ORDERED job's too (the spec does not say: DESIGN CHOICE, log 56). -/
def failJob (s : State) (id : Nat) (o : Outc) : State :=
  match s.job id with
  | none => s
  | some j =>
    if j.outc.isSome then s
    else
      cancelTasks (leaveDelay (s.setJob id (fun j => { j with outc := some o, awaits := [], counter := none, rows := [] })) id) id

/-- A job's outcome is fixed at its handover, before it starts; its release waits as the job would (02 R38). -/
def fixJob (s : State) (id : Nat) (o : Outc) : State :=
  s.setJob id (fun j => if j.outc.isSome then j else { j with outc := some o })

/-- A job's outcome is fixed. -/
def finishJob (s : State) (id : Nat) (o : Outc) : State :=
  s.setJob id (fun j => if j.outc.isSome then j else { j with outc := some o, started := true })

/-- A job completes with OK and a result. -/
def okJob (s : State) (id result : Nat) : State := finishJob s id ⟨0, 0, result⟩

/-- Whether a job may start: it waits for no earlier job, is on no delay list, its LAST is fetched, it has not started,
its slice runs and the device has not halted (02 R38, 04 R126, R143). -/
def startable (s : State) (j : Job) (op : Nat) : Bool :=
  j.hdr.op == op && j.awaits.isEmpty && j.delay.isNone && j.lastFetched && !j.started && j.outc.isNone && !s.halted &&
    s.fld F.slcCfg_state j.slice == 1

/-- A job that may start. -/
def startJob (s : State) (id op : Nat) : Option Job :=
  match s.job id with
  | some j => if startable s j op then some j else none
  | none => none

/-- A job's number of tasks is fixed, and it has started. -/
def setTasks (s : State) (id n : Nat) : State := s.setJob id (fun j => { j with ntasks := some n, started := true })

/-- The engine that an opcode's tasks go to (04 R125). -/
def engineOf (op : Nat) : Engine :=
  match op / 256 with
  | 1 => .stone
  | 2 => .sluice
  | 3 => .quern
  | 4 => .toll
  | 5 => .storage
  | _ => .journal

/-- Whether a job's class is INTERACTIVE now. -/
def jobInteractive (s : State) (j : Job) : Bool := s.flag F.slcCfg_class j.slice

/-- Whether job a ranks before job b for task creation: class, priority, handover order (04 R125, R131). -/
def jobBefore (s : State) (a b : Job) : Bool :=
  let ka := boolNat (jobInteractive s a) * 16 + a.hdr.prio
  let kb := boolNat (jobInteractive s b) * 16 + b.hdr.prio
  decide (kb < ka) || (ka == kb && decide (a.id < b.id))

/-- The job whose task is created next: the highest in rank with tasks to create (04 R125). -/
def nextCreate (s : State) : Option Job :=
  let cands := s.fan.jobs.filter (fun j => j.outc.isNone && decide (j.created < j.ntasks.getD 0) &&
    s.fld F.slcCfg_state j.slice == 1)
  cands.foldl (fun best j => match best with
    | some b => if jobBefore s j b then some j else some b
    | none => some j) none

/-- The next task of a job is created where a slot, and a counter if it waits, is free (04 R125, R126). -/
def createTask (s : State) (producersOf : Job → Nat → List Nat) : State :=
  match nextCreate s with
  | none => s
  | some j =>
    let ps := (producersOf j j.created).filter (fun p =>
      match s.task j.id p with
      | some t => !t.ended || (j.hdr.flow.isSome && t.state != .released)
      | none => decide (j.created ≤ p))
    if 32768 ≤ s.fld F.fanStatus_tasks 0 || (!ps.isEmpty && 65536 ≤ s.fld F.fanStatus_counters 0) then s
    else
      let t : Task := { job := j.id, part := j.created, engine := engineOf j.hdr.op, state := .waiting, producers := ps,
                        counter := if ps.isEmpty then none else freeCounter s, seq := 0, home := 0, interactive := jobInteractive s j,
                        prio := j.hdr.prio, stop := false }
      let s1 := { s with fan := { s.fan with tasks := s.fan.tasks ++ [t] } }
      fanCounts ((s1.setJob j.id (fun j => { j with created := j.created + 1 })).count ⟨0x200, 1, some j.slice, none, none⟩)

/-- Whether ready task a ranks above ready task b (04 R131). -/
def Task.before (a b : Task) : Bool :=
  let ka := boolNat a.interactive * 16 + a.prio
  let kb := boolNat b.interactive * 16 + b.prio
  decide (kb < ka) || (ka == kb && (decide (a.seq < b.seq) || (a.seq == b.seq &&
    (decide (a.job < b.job) || (a.job == b.job && decide (a.part < b.part))))))

/-- The highest-ranked task of a list. -/
def topTask (ts : List Task) : Option Task :=
  ts.foldl (fun best t => match best with
    | some b => if t.before b then some t else some b
    | none => some t) none

/-- The lowest-ranked task of a list: its tail (04 R135). -/
def tailTask (ts : List Task) : Option Task :=
  ts.foldl (fun best t => match best with
    | some b => if b.before t then some t else some b
    | none => some t) none

/-- The ready list of a mill's stones, or of an engine (04 R130). The eight storage ports share one list, since a volume's task can use
several of them (the spec names lists and not their number: DESIGN CHOICE, log 57). A task that waits for its tap's context stands in the
Toll's list (12 R415). A task that is to stop is not taken. -/
def readyList (s : State) (e : Engine) (mill : Nat) : List Task :=
  s.fan.tasks.filter (fun t => (if t.tapWait then .toll else t.engine) == e && t.state == .ready && !t.stop && ((e != .stone && e != .quern) || t.home == mill))

/-- A task's waiting for producers ends one by one: a completion or release of producer p of the job is counted (04 R127). -/
def producerDone (s : State) (job p : Nat) : State :=
  fanCounts { s with fan := { s.fan with
    tasks := s.fan.tasks.map (fun t => if t.job = job then { t with producers := t.producers.filter (· != p) } else t) } }

/-- Whether a job has a task that is not released, those not yet created among them (04 R124, Table 4.12). -/
def taskPending (s : State) (k : Job) : Bool :=
  k.outc.isNone && decide (k.created < taskCount k) || s.fan.tasks.any (fun t => t.job == k.id && t.state != .released)

/-- Whether every earlier task of a task's flow has been released (04 R137 to R139). -/
def flowTurn (s : State) (j : Job) (part : Nat) : Bool :=
  match j.hdr.flow with
  | none => true
  | some f =>
    s.fan.jobs.all (fun k => !(k.slice == j.slice && k.hdr.flow == some f) || k.outc.isSome ||
      (if k.id < j.id then !taskPending s k
      else if k.id = j.id then
        s.fan.tasks.all (fun t => t.job != k.id || part ≤ t.part || t.state == .released)
      else true))

/-- The journal records that a task's TAPPENDs formed go to join the open group, as the task releases (09 R308). -/
def joinRows (s : State) (job part : Nat) : State :=
  match s.job job with
  | none => s
  | some j =>
    let s1 := s.setJob job (fun j => { j with rows := j.rows.filter (fun r => r.part != part) })
    { s1 with mpd := { s1.mpd with joinQ := s1.mpd.joinQ ++ j.rows.filter (fun r => r.part == part) } }

/-- A task is released (04 R127, R138). -/
def releaseTask (s : State) (job part : Nat) : State :=
  let s1 := s.setTask job part (fun t => { t with state := .released })
  joinRows (fanCounts (producerDone s1 job part)) job part

/-- A task completes: outside a flow it is released at once; in a flow it is released in its turn, else held (04 R127,
R138). -/
def completeTask (s : State) (job part : Nat) : State :=
  match s.job job with
  | none => s
  | some j =>
    let s1 := (s.setTask job part (fun t => { t with state := .complete })).trace
      { (j.traceOf s 6) with part := part, counter := 0, mill := ((s.task job part).map (·.home)).getD 0,
                             status := if j.hdr.op / 256 = 4 then j.sumHi else 0 }
    if flowTurn s1 j part then releaseTask s1 job part
    else s1.count ⟨0x205, 1, some j.slice, none, none⟩

/-- Whether a job's work has ended: its outcome is fixed and none of its tasks is live. -/
def workEnded (s : State) (j : Job) : Bool :=
  j.outc.isSome && j.lastFetched && s.fan.tasks.all (fun t => t.job != j.id || t.state == .released)

/-- The bytes of a status slot (02 Table 2.7). -/
def statusSlot (o : Outc) (chainIndex tag : Nat) : List Byte :=
  natLE 8 (o.detail % 2 ^ 16 * 2 ^ 48 + 2 * 2 ^ 40 + chainIndex % 256 * 2 ^ 32 + tag * 2 ^ 16 + o.status) ++ natLE 8 o.result

/-- The SVA of the status slot of a ring index (03 R74). -/
def statusAddr (s : State) (gq index : Nat) : Nat :=
  s.fld F.wqStatusBase_base gq * 4096 + 16 * (index % 2 ^ s.fld F.wqCfg_depth_log2 gq)

/-- A status slot written (02 R66); its error. -/
def writeStatus (s : State) (gq index chainIndex tag : Nat) (o : Outc) : Except Err Unit × State :=
  (writeMem { ringReq gq with tag := tag } (statusAddr s gq index) (statusSlot o chainIndex tag)).exec s

/-- The status slots of a job's entries written in ring order (02 R53); a fault halts the slice with target 1. -/
def writeSlots (s : State) (gq tag : Nat) (o : Outc) : List (Nat × Nat) → State
  | [] => s
  | (k, index) :: rest =>
    match writeStatus s gq index k tag o with
    | (.ok _, s1) => writeSlots s1 gq tag o rest
    | (.error e, s1) => ringFault s1 (gq / 8) (gq % 8) index 1 e

/-- HEAD of a queue (03 R88). -/
def State.head (s : State) (gq : Nat) : Nat := s.reg .slcWqHead gq

/-- TAIL of a queue. -/
def State.tailOf (s : State) (gq : Nat) : Nat := s.reg .wqDoorbell gq

/-- The message and record of one post (03 R92). -/
def sendPost (s : State) (slice queue : Nat) (p : QPost) : State :=
  match p.record with
  | some (tag, o) => tailJob s slice p.reserved
      { kind := 1, detail := o.detail, queue := queue, tag := tag, status := o.status, result := o.result, index := p.last }
  | none => s

/-- HEAD advances over released entries; the head word is written, then the records and messages of the jobs it passes
are sent, one message per vector (03 R88 to R92). -/
def advanceHead (s : State) (gq : Nat) : State :=
  let q := s.queue gq
  let passed := q.ents.takeWhile (·.released)
  if passed.isEmpty then s
  else
    let h := (s.head gq + passed.length) % 2 ^ 32
    let slice := gq / 8
    let word := natLE 8 (h + s.fld F.slcGen_generation slice * 2 ^ 32)
    match (writeMem (ringReq gq) (s.fld F.wqHeadAddr_addr gq * 8) word).exec s with
    | (.error e, s1) => ringFault s1 slice (gq % 8) h 2 e
    | (.ok _, s1) =>
      let due (p : QPost) : Bool := passed.any (fun x => x.index == p.last)
      let posts := q.posts.filter due
      let s2 := (s1.setReg .slcWqHead gq h).setQueue gq (fun q =>
        { q with ents := q.ents.drop passed.length, posts := q.posts.filter (fun p => !due p) })
      let s3 := posts.foldl (fun t p => sendPost t slice (gq % 8) p) s2
      ((posts.filterMap (·.irq)).eraseDups).foldl (fun t v => sliceMsix t slice v) s3

/-- Jobs that waited for a released job (04 R127): its place among their awaited jobs goes; an ABORT that found it past
its release learns its status (03 R100). -/
def jobWaiters (s : State) (id status : Nat) : State :=
  { s with fan := { s.fan with jobs := s.fan.jobs.map (fun k =>
      let left := k.awaits.filter (· != id)
      let k1 := { k with awaits := left, counter := if left.isEmpty then none else k.counter }
      if k.hdr.op = 3 ∧ k.progress = id + 1 ∧ k.outc = none then { k1 with outc := some ⟨0x21, 0, status⟩ } else k1) } }

/-- Whether a job's release stands first among those that a tailrace holds (03 R106). -/
def heldFirst (s : State) (j : Job) : Bool :=
  (s.tail j.slice).held.all (· == j.id) || (s.tail j.slice).held.head? == some j.id

/-- A slot of a tailrace is reserved for a job's record. -/
def reserveSlot (s : State) (j : Job) : State :=
  ((s.setTail j.slice (fun t => { t with reserved := t.reserved + 1, held := t.held.filter (· != j.id) })).setJob
    j.id (fun j => { j with evReserved := true, evHeld := false })).setFlag F.slcStatus_ev_held j.slice
      (!((s.tail j.slice).held.filter (· != j.id)).isEmpty)

/-- A job's release is held for a slot of its tailrace. -/
def holdRelease (s : State) (j : Job) : State :=
  ((s.setTail j.slice (fun t => if t.held.contains j.id then t else { t with held := t.held ++ [j.id] })).setJob
    j.id (fun j => { j with evHeld := true })).setFlag F.slcStatus_ev_held j.slice true

/-- A slot of a drained tailrace for a job's record, where one is free and the job's turn has come. -/
def reserveFrom (s : State) (j : Job) : Bool × State :=
  if 0 < tailFree s j.slice && heldFirst s j then (true, reserveSlot s j) else (false, holdRelease s j)

/-- A slot of a lossless tailrace is reserved for a NOTIFY job's record, or the release is held (03 R106). -/
def reserveRecord (s : State) (j : Job) : Bool × State :=
  if !j.hdr.notify || j.evReserved || !tailOn s j.slice || !s.flag F.slcEvCfg_lossless j.slice then (true, s)
  else reserveFrom (tailDrain s j.slice) j

/-- The events that count a job's result (20 Table 20.1): an ABORT's, and OK_TRUNCATED. -/
def resultCount (s : State) (j : Job) (o : Outc) : State :=
  if j.hdr.op = 3 ∧ 0x20 ≤ o.status ∧ o.status ≤ 0x22 then s.count ⟨0x10A + (o.status - 0x20), 1, some j.slice, none, none⟩
  else if o.status = 1 then s.count ⟨0xD06, 1, some j.slice, none, none⟩
  else s

/-- The writes of a release (01 R25, 02 R53, 03 R88 to R92): status slots in ring order, then HEAD, the head word,
records and messages; the job leaves the job table and its waiters are told. -/
def releaseWrites (s : State) (j : Job) (o : Outc) : State :=
  let gq := j.gq
  let mine := (s.queue gq).ents.filter (fun x => x.job == j.id)
  let s1 := writeSlots s gq j.hdr.tag o ((List.range mine.length).zip (mine.map (·.index)))
  if s1.halted || s1.flag F.slcStatus_halted j.slice then s1
  else
    let last := (mine.getLast?.map (·.index)).getD j.index
    let reserved := match s1.job j.id with | some k => k.evReserved | none => false
    let post : QPost := { last := last, irq := if j.hdr.irq then some j.hdr.vector else none,
                          record := if j.hdr.notify then some (j.hdr.tag, o) else none, reserved := reserved }
    let s2 := s1.setQueue gq (fun q =>
      { q with ents := q.ents.map (fun x => if x.job = j.id then { x with released := true } else x),
               posts := q.posts ++ [post] })
    let s3 := { s2 with fan := { s2.fan with jobs := s2.fan.jobs.filter (fun k => k.id != j.id),
                                             tasks := s2.fan.tasks.filter (fun t => t.job != j.id) } }
    let s4 := (jobWaiters s3 j.id o.status).trace { (j.traceOf s3 8) with status := o.status }
    let s5 := resultCount (s4.count ⟨0x209, 1, some j.slice, none, none⟩) j o
    queueFlags (fanCounts (advanceHead s5 gq)) gq

/-- A job's release, as far as it may go now: a BARRIER job that wrote host memory first issues its flush read and waits
for it (02 R38, R41); a NOTIFY job of a lossless ring waits for a slot (03 R106). -/
def tryRelease (s : State) (id : Nat) : State :=
  match s.job id with
  | none => s
  | some j =>
    match j.outc with
    | none => s
    | some o =>
      if !workEnded s j || j.flushing || j.delay.isSome || s.halted || s.flag F.slcStatus_halted j.slice || !j.awaits.isEmpty ||
          s.fld F.slcCfg_state j.slice == 3 then s
      else if j.hdr.barrier && j.hostWrote && !j.flushed then
        (hostRequest (s.setJob id (fun j => { j with flushing := true })) (some j.slice)).countReq (j.req .fantail) 0x905 1
      else
        let (ok, s1) := reserveRecord s j
        if ok then releaseWrites s1 j o else s1

/-- The flush read of a BARRIER job completes (02 R41). -/
def flushDone (s : State) (id : Nat) : State :=
  match s.job id with
  | some j => if j.flushing then
      tryRelease (s.setJob id (fun j => { j with flushing := false, flushed := true })) id
    else s
  | none => s

/-- The trace record of a queue's chain timer: the fields of the chain's job (04 R142, R148). -/
def timerTrace (s : State) (gq kind : Nat) : Trace :=
  match (s.queue gq).chain.bind (fun c => s.job c.job) with
  | some j => j.traceOf s kind
  | none => { kind := kind, slice := gq / 8, queue := gq % 8, tag := 0 }

/-- The chain timer of a queue stops (03 R94). -/
def timerStop (s : State) (gq : Nat) : State :=
  if (s.queue gq).timer.isNone then s
  else
    let s1 := (s.setQueue gq (fun q => { q with timer := none })).subFld (delayFld 2) 0 1
    let s2 := { s1 with fan := { s1.fan with timers := s1.fan.timers.filter (· != gq) } }
    (s2.trace (timerTrace s2 gq 0xA)).count ⟨0x208, 1, some (gq / 8), none, none⟩

/-- The open chain of a queue is closed: no further entry belongs to it. -/
def closeChain (s : State) (gq : Nat) : State :=
  let s0 := timerStop s gq
  let s1 := match (s0.queue gq).chain with
    | some c => s0.setJob c.job (fun j => { j with lastFetched := true })
    | none => s0
  queueFlags (s1.setQueue gq (fun q => { q with chain := none })) gq

/-- The open chain fails with CHAIN_TIMEOUT (03 R95). -/
def chainFail (s : State) (gq : Nat) : State :=
  match (s.queue gq).chain with
  | none => s
  | some c =>
    let s1 := failJob (closeChain s gq) c.job ⟨0x90, 0, c.count⟩
    s1.count ⟨0x109, 1, some (gq / 8), none, none⟩

/-- Whether the chain timer's conditions hold: every entry up to TAIL is fetched, in poll mode the slot at TAIL is stale,
and a chain is open (03 R94). -/
def timerDue (s : State) (gq : Nat) : Bool :=
  let q := s.queue gq
  q.chain.isSome && s.fld F.wqState_fetch gq == s.tailOf gq && s.issued.all (fun r => r.gq != gq) &&
    (!s.flag F.wqCfg_poll gq || q.stale || !s.flag F.wqCfg_enable gq)

/-- The chain timer starts where its conditions hold; with a timeout of 0 the chain fails at once (03 R94, R95). -/
def timerCheck (s : State) (gq : Nat) : State :=
  if !timerDue s gq || (s.queue gq).timer.isSome then s
  else if s.fld F.wqChainTimeout_ticks 0 = 0 then chainFail s gq
  else
    let s1 := (s.setQueue gq (fun q => { q with timer := some (s.reg .fanTick 0) })).addWrap (delayFld 2) 0 1
    let s2 := { s1 with fan := { s1.fan with timers := s1.fan.timers ++ [gq] } }
    (s2.trace (timerTrace s2 gq 9)).count ⟨0x207, 1, some (gq / 8), none, none⟩

end Sys2Proof.Machine
end

