-- ==== Sys2Proof/Machine/Sha.lean ====
section
/-! DEFINITION. The Toll's algorithms: SHA-256, SHA-384 and SHA-512 (FIPS 180-4), SHA3-256 (FIPS 202), as running states
that absorb whole blocks (12 R413, Table 12.1). -/

namespace Sys2Proof.Machine

/-- The round constants of SHA-256. -/
def k256 : List Nat :=
  [0x428A2F98, 0x71374491, 0xB5C0FBCF, 0xE9B5DBA5, 0x3956C25B, 0x59F111F1, 0x923F82A4, 0xAB1C5ED5] ++
  [0xD807AA98, 0x12835B01, 0x243185BE, 0x550C7DC3, 0x72BE5D74, 0x80DEB1FE, 0x9BDC06A7, 0xC19BF174] ++
  [0xE49B69C1, 0xEFBE4786, 0x0FC19DC6, 0x240CA1CC, 0x2DE92C6F, 0x4A7484AA, 0x5CB0A9DC, 0x76F988DA] ++
  [0x983E5152, 0xA831C66D, 0xB00327C8, 0xBF597FC7, 0xC6E00BF3, 0xD5A79147, 0x06CA6351, 0x14292967] ++
  [0x27B70A85, 0x2E1B2138, 0x4D2C6DFC, 0x53380D13, 0x650A7354, 0x766A0ABB, 0x81C2C92E, 0x92722C85] ++
  [0xA2BFE8A1, 0xA81A664B, 0xC24B8B70, 0xC76C51A3, 0xD192E819, 0xD6990624, 0xF40E3585, 0x106AA070] ++
  [0x19A4C116, 0x1E376C08, 0x2748774C, 0x34B0BCB5, 0x391C0CB3, 0x4ED8AA4A, 0x5B9CCA4F, 0x682E6FF3] ++
  [0x748F82EE, 0x78A5636F, 0x84C87814, 0x8CC70208, 0x90BEFFFA, 0xA4506CEB, 0xBEF9A3F7, 0xC67178F2]

/-- The round constants of SHA-512. -/
def k512 : List Nat :=
  [0x428A2F98D728AE22, 0x7137449123EF65CD, 0xB5C0FBCFEC4D3B2F, 0xE9B5DBA58189DBBC, 0x3956C25BF348B538] ++
  [0x59F111F1B605D019, 0x923F82A4AF194F9B, 0xAB1C5ED5DA6D8118, 0xD807AA98A3030242, 0x12835B0145706FBE] ++
  [0x243185BE4EE4B28C, 0x550C7DC3D5FFB4E2, 0x72BE5D74F27B896F, 0x80DEB1FE3B1696B1, 0x9BDC06A725C71235] ++
  [0xC19BF174CF692694, 0xE49B69C19EF14AD2, 0xEFBE4786384F25E3, 0x0FC19DC68B8CD5B5, 0x240CA1CC77AC9C65] ++
  [0x2DE92C6F592B0275, 0x4A7484AA6EA6E483, 0x5CB0A9DCBD41FBD4, 0x76F988DA831153B5, 0x983E5152EE66DFAB] ++
  [0xA831C66D2DB43210, 0xB00327C898FB213F, 0xBF597FC7BEEF0EE4, 0xC6E00BF33DA88FC2, 0xD5A79147930AA725] ++
  [0x06CA6351E003826F, 0x142929670A0E6E70, 0x27B70A8546D22FFC, 0x2E1B21385C26C926, 0x4D2C6DFC5AC42AED] ++
  [0x53380D139D95B3DF, 0x650A73548BAF63DE, 0x766A0ABB3C77B2A8, 0x81C2C92E47EDAEE6, 0x92722C851482353B] ++
  [0xA2BFE8A14CF10364, 0xA81A664BBC423001, 0xC24B8B70D0F89791, 0xC76C51A30654BE30, 0xD192E819D6EF5218] ++
  [0xD69906245565A910, 0xF40E35855771202A, 0x106AA07032BBD1B8, 0x19A4C116B8D2D0C8, 0x1E376C085141AB53] ++
  [0x2748774CDF8EEB99, 0x34B0BCB5E19B48A8, 0x391C0CB3C5C95A63, 0x4ED8AA4AE3418ACB, 0x5B9CCA4F7763E373] ++
  [0x682E6FF3D6B2B8A3, 0x748F82EE5DEFB2FC, 0x78A5636F43172F60, 0x84C87814A1F0AB72, 0x8CC702081A6439EC] ++
  [0x90BEFFFA23631E28, 0xA4506CEBDE82BDE9, 0xBEF9A3F7B2C67915, 0xC67178F2E372532B, 0xCA273ECEEA26619C] ++
  [0xD186B8C721C0C207, 0xEADA7DD6CDE0EB1E, 0xF57D4F7FEE6ED178, 0x06F067AA72176FBA, 0x0A637DC5A2C898A6] ++
  [0x113F9804BEF90DAE, 0x1B710B35131C471B, 0x28DB77F523047D84, 0x32CAAB7B40C72493, 0x3C9EBE0A15C9BEBC] ++
  [0x431D67C49C100D4C, 0x4CC5D4BECB3E42B6, 0x597F299CFC657E2A, 0x5FCB6FAB3AD6FAEC, 0x6C44198C4A475817]

/-- The initial hash value of SHA-256. -/
def iv256 : List Nat :=
  [0x6A09E667, 0xBB67AE85, 0x3C6EF372, 0xA54FF53A, 0x510E527F, 0x9B05688C, 0x1F83D9AB, 0x5BE0CD19]

/-- The initial hash value of SHA-384. -/
def iv384 : List Nat :=
  [0xCBBB9D5DC1059ED8, 0x629A292A367CD507, 0x9159015A3070DD17, 0x152FECD8F70E5939, 0x67332667FFC00B31] ++
  [0x8EB44A8768581511, 0xDB0C2E0D64F98FA7, 0x47B5481DBEFA4FA4]

/-- The initial hash value of SHA-512. -/
def iv512 : List Nat :=
  [0x6A09E667F3BCC908, 0xBB67AE8584CAA73B, 0x3C6EF372FE94F82B, 0xA54FF53A5F1D36F1, 0x510E527FADE682D1] ++
  [0x9B05688C2B3E6C1F, 0x1F83D9ABFB41BD6B, 0x5BE0CD19137E2179]

/-- The round constants of Keccak-f[1600]. -/
def keccakRc : List Nat :=
  [0x0000000000000001, 0x0000000000008082, 0x800000000000808A, 0x8000000080008000, 0x000000000000808B] ++
  [0x0000000080000001, 0x8000000080008081, 0x8000000000008009, 0x000000000000008A, 0x0000000000000088] ++
  [0x0000000080008009, 0x000000008000000A, 0x000000008000808B, 0x800000000000008B, 0x8000000000008089] ++
  [0x8000000000008003, 0x8000000000008002, 0x8000000000000080, 0x000000000000800A, 0x800000008000000A] ++
  [0x8000000080008081, 0x8000000000008080, 0x0000000080000001, 0x8000000080008008]

/-- The rotations of Keccak's rho step, lane x + 5y. -/
def keccakRot : List Nat :=
  [0, 1, 62, 28, 27, 36, 44, 6, 55, 20, 3, 10, 43, 25, 39, 41, 45, 15, 21, 8, 18, 2, 61, 56, 14]

/-- A word rotated right by n bits. -/
def rotr (w x n : Nat) : Nat := (x / 2 ^ n ||| x * 2 ^ (w - n)) % 2 ^ w

/-- The complement of a word. -/
def wnot (w x : Nat) : Nat := 2 ^ w - 1 - x % 2 ^ w

/-- The shift and rotation amounts of an SHA-2 family: Sigma0, Sigma1, sigma0, sigma1. -/
structure ShaAmt where
  w : Nat
  big0 : Nat × Nat × Nat
  big1 : Nat × Nat × Nat
  sml0 : Nat × Nat × Nat
  sml1 : Nat × Nat × Nat
  deriving DecidableEq, Repr

/-- SHA-256's amounts. -/
def amt256 : ShaAmt := ⟨32, (2, 13, 22), (6, 11, 25), (7, 18, 3), (17, 19, 10)⟩

/-- SHA-512's amounts. -/
def amt512 : ShaAmt := ⟨64, (28, 34, 39), (14, 18, 41), (1, 8, 7), (19, 61, 6)⟩

/-- A Sigma function: three rotations. -/
def bigSigma (w : Nat) (a : Nat × Nat × Nat) (x : Nat) : Nat := rotr w x a.1 ^^^ rotr w x a.2.1 ^^^ rotr w x a.2.2

/-- A sigma function: two rotations and a shift. -/
def smallSigma (w : Nat) (a : Nat × Nat × Nat) (x : Nat) : Nat := rotr w x a.1 ^^^ rotr w x a.2.1 ^^^ x / 2 ^ a.2.2

/-- The message schedule, newest word first: n more words. -/
def shaSchedule (m : ShaAmt) : Nat → List Nat → List Nat
  | 0, ws => ws
  | n + 1, ws =>
    let v := smallSigma m.w m.sml1 (ws.getD 1 0) + ws.getD 6 0 + smallSigma m.w m.sml0 (ws.getD 14 0) + ws.getD 15 0
    shaSchedule m n (v % 2 ^ m.w :: ws)

/-- One round on the working variables a to h. -/
def shaRound (m : ShaAmt) (v : List Nat) (kw : Nat × Nat) : List Nat :=
  let a := v.getD 0 0
  let b := v.getD 1 0
  let c := v.getD 2 0
  let e := v.getD 4 0
  let f := v.getD 5 0
  let g := v.getD 6 0
  let ch := (e &&& f) ^^^ (wnot m.w e &&& g)
  let t1 := v.getD 7 0 + bigSigma m.w m.big1 e + ch + kw.1 + kw.2
  let maj := (a &&& b) ^^^ (a &&& c) ^^^ (b &&& c)
  let t2 := bigSigma m.w m.big0 a + maj
  [(t1 + t2) % 2 ^ m.w, a, b, c, (v.getD 3 0 + t1) % 2 ^ m.w, e, f, g]

/-- The big-endian words of a block. -/
def beWords (n : Nat) : Nat → List Byte → List Nat
  | 0, _ => []
  | k + 1, bs => beNat (bs.take n) :: beWords n k (bs.drop n)

/-- An SHA-2 state after a block. -/
def shaBlock (m : ShaAmt) (ks h : List Nat) (blk : List Byte) : List Nat :=
  let ws := (shaSchedule m (ks.length - 16) (beWords (m.w / 8) 16 blk).reverse).reverse
  let v := (ks.zip ws).foldl (shaRound m) h
  List.zipWith (fun a b => (a + b) % 2 ^ m.w) h v

/-- One round of Keccak-f[1600] on 25 lanes. -/
def keccakRound (a : List Nat) (rc : Nat) : List Nat :=
  let l (x y : Nat) : Nat := a.getD (x % 5 + 5 * (y % 5)) 0
  let c := (List.range 5).map (fun x => l x 0 ^^^ l x 1 ^^^ l x 2 ^^^ l x 3 ^^^ l x 4)
  let d := (List.range 5).map (fun x => c.getD ((x + 4) % 5) 0 ^^^ rotr 64 (c.getD ((x + 1) % 5) 0) 63)
  let t (i : Nat) : Nat :=
    let r := keccakRot.getD i 0
    let v := a.getD i 0 ^^^ d.getD (i % 5) 0
    if r = 0 then v else rotr 64 v (64 - r)
  let b := (List.range 25).map (fun i =>
    let x := i % 5
    let y := i / 5
    t ((x + 3 * y) % 5 + 5 * x))
  (List.range 25).map (fun i =>
    let x := i % 5
    let y := i / 5
    let g (k : Nat) : Nat := b.getD ((x + k) % 5 + 5 * y) 0
    let v := g 0 ^^^ (wnot 64 (g 1) &&& g 2)
    if i = 0 then v ^^^ rc else v)

/-- A SHA3-256 state after a 136-byte block. -/
def keccakBlock (a : List Nat) (blk : List Byte) : List Nat :=
  let ws := (List.range 17).map (fun i => leAt blk (8 * i) 8)
  let x := (List.range 25).map (fun i => a.getD i 0 ^^^ ws.getD i 0)
  keccakRc.foldl keccakRound x

/-- An algorithm's block length in bytes (12 Table 12.1). -/
def algBlock (alg : Nat) : Nat := match alg with | 1 => 64 | 4 => 136 | _ => 128

/-- An algorithm's digest length in bytes (12 Table 12.1). -/
def algDigest (alg : Nat) : Nat := match alg with | 2 => 48 | 3 => 64 | _ => 32

/-- An algorithm's initial state. -/
def algInit (alg : Nat) : List Nat :=
  match alg with
  | 1 => iv256
  | 2 => iv384
  | 3 => iv512
  | _ => List.replicate 25 0

/-- A state after one whole block. -/
def algBlockStep (alg : Nat) (h : List Nat) (blk : List Byte) : List Nat :=
  match alg with
  | 1 => shaBlock amt256 k256 h blk
  | 4 => keccakBlock h blk
  | _ => shaBlock amt512 k512 h blk

/-- A state after the whole blocks of a byte string, at most n, with the bytes left over. -/
def algAbsorb (alg : Nat) : Nat → List Nat → List Byte → List Nat × List Byte
  | 0, h, bs => (h, bs)
  | n + 1, h, bs =>
    let b := algBlock alg
    if bs.length < b then (h, bs) else algAbsorb alg n (algBlockStep alg h (bs.take b)) (bs.drop b)

/-- The standard's padding after a message of n bytes whose last partial block is tail. -/
def algPad (alg n : Nat) (tail : List Byte) : List Byte :=
  let b := algBlock alg
  if alg = 4 then
    let k := b - tail.length
    if k = 1 then tail ++ [0x86] else tail ++ [0x06] ++ zeros (k - 2) ++ [0x80]
  else
    let lb := if alg = 1 then 8 else 16
    let used := tail.length + 1 + lb
    tail ++ [0x80] ++ zeros (alignUp used b - used) ++ natBE lb (8 * n)

/-- The digest's bytes of a finished state (12 R414). -/
def algOut (alg : Nat) (h : List Nat) : List Byte :=
  let bytes := match alg with
    | 1 => h.flatMap (natBE 4)
    | 4 => h.flatMap (natLE 8)
    | _ => h.flatMap (natBE 8)
  bytes.take (algDigest alg)

/-- The digest of a message whose state after its whole blocks is h, with its tail and its whole length. -/
def algFinish (alg : Nat) (h : List Nat) (tail : List Byte) (n : Nat) : List Byte :=
  algOut alg (algAbsorb alg 3 h (algPad alg n tail)).1

/-- The digest of a whole message. -/
def digestOf (alg : Nat) (m : List Byte) : List Byte :=
  let r := algAbsorb alg (m.length / algBlock alg + 1) (algInit alg) m
  algFinish alg r.1 r.2 m.length

/-- SHA-256 of a byte string. -/
def sha256 (m : List Byte) : List Byte := digestOf 1 m

/-- A key prepared as FIPS 198-1 requires: one block. -/
def hmacKey (alg : Nat) (key : List Byte) : List Byte :=
  padTo (if algBlock alg < key.length then digestOf alg key else key) (algBlock alg)

/-- The key block exclusive-ored with a repeated byte. -/
def hmacPad (alg : Nat) (key : List Byte) (c : Byte) : List Byte := (hmacKey alg key).map (· ^^^ c)

end Sys2Proof.Machine
end

