-- ==== Sys2Proof/Machine/Contexts.lean ====
section
/-! DEFINITION. The Toll's contexts: running digests, the blocks staged for the cores, taps and their records (12 R413 to R421). -/

namespace Sys2Proof.Machine

/-- A digest before its first byte. -/
def Hash.start (alg : Nat) : Hash := ⟨alg, algInit alg, [], 0⟩

/-- Bytes of the message staged. -/
def Hash.stage (h : Hash) (b : List Byte) : Hash := { h with tail := h.tail ++ b, len := h.len + b.length }

/-- Whether a whole block is staged (R416). -/
def Hash.full (h : Hash) : Bool := decide (algBlock h.alg ≤ h.tail.length)

/-- A core's turn: one whole block absorbed (R413, R416). -/
def Hash.turn (h : Hash) : Hash :=
  { h with h := algBlockStep h.alg h.h (h.tail.take (algBlock h.alg)), tail := h.tail.drop (algBlock h.alg) }

/-- The message's final padding staged. -/
def Hash.pad (h : Hash) : Hash :=
  let whole := h.tail.length / algBlock h.alg * algBlock h.alg
  { h with tail := h.tail.take whole ++ algPad h.alg h.len (h.tail.drop whole) }

/-- The digest of a whole message, as a context holds it once every block is absorbed. -/
def Hash.whole (alg : Nat) (m : List Byte) : Hash :=
  let h := ((Hash.start alg).stage m).pad
  let r := algAbsorb alg (h.tail.length / algBlock alg + 1) h.h h.tail
  { h with h := r.1, tail := r.2 }

/-- A context. -/
def State.ctx (s : State) (n : Nat) : Option TollCtx := tget (fun _ => none) s.units.ctxs n

/-- A context set. -/
def State.setCtx (s : State) (n : Nat) (c : Option TollCtx) : State :=
  { s with units := { s.units with ctxs := tset (fun _ => none) s.units.ctxs n c } }

/-- A free context, if any: 1 to 31 serve jobs and taps (R415). -/
def freeCtx (s : State) : Option Nat := ((List.range 31).map (· + 1)).find? (fun n => (s.ctx n).isNone)

/-- The context that runs a job's task, or that a tap of it has. -/
def ctxOfJob (s : State) (id part : Nat) : Option (Nat × TollCtx) :=
  s.units.ctxs.findSome? (fun x => match x.2 with
    | some c => if c.job == some (id, part) then some (x.1, c) else none
    | none => none)

/-- The message has ended: its padding is staged (R416, R424). -/
def TollCtx.close (c : TollCtx) : TollCtx := { c with hash := c.hash.pad, closed := true }

/-- A core's turn on a context; where it ends the inner pass of a keyed digest, the outer pass is staged (R431). -/
def TollCtx.turn (c : TollCtx) : TollCtx :=
  let h := c.hash.turn
  if c.closed && h.tail.isEmpty && !c.outer.isEmpty then
    let outer := c.outer ++ algPad h.alg (c.outer.length + algDigest h.alg) (algOut h.alg h.h)
    { c with hash := { h with h := algInit h.alg, tail := outer }, outer := [] }
  else { c with hash := h }

/-- Whether a context's digest is complete. -/
def TollCtx.done (c : TollCtx) : Bool := c.closed && c.hash.tail.isEmpty && c.outer.isEmpty

/-- The digest or MAC of a context that is done (R414, R424, R431). -/
def TollCtx.digest (c : TollCtx) : List Byte := algOut c.hash.alg c.hash.h

/-- A tap word's algorithm, point and slot (R419). -/
def tapAlg (w : Nat) : Nat := bitsAt w 29 3
/-- The point. -/
def tapPoint (w : Nat) : Nat := bitsAt w 28 1
/-- The slot. -/
def tapSlot (w : Nat) : Nat := bitsAt w 0 16

/-- The tap word of a COMPRESS or DECOMPRESS. -/
def qTap (j : Job) : Nat := eParam1 j.first / 2 ^ 32

/-- A Sluice job's tap word. -/
def jobTap (j : Job) : Nat := if j.hdr.op = 0x0201 then 0 else eParam1 j.first / 2 ^ 32

/-- The tap that a job's task bears: algorithm, slot, point, block (R418 to R421, Table 12.3). -/
def tapAsk (j : Job) (part : Nat) : Option (Nat × Tap) :=
  match engineOf j.hdr.op with
  | .quern =>
    let w := qTap j
    let i := if qSlotted j then part else 0
    if w = 0 then none else some (tapAlg w, ⟨tapSlot w + i, tapPoint w, i⟩)
  | .sluice => if jobTap j = 0 then none else some (tapAlg (jobTap j), ⟨tapSlot (jobTap j), 4, 0⟩)
  | .storage => j.vtap.map (fun x => (x.1, ⟨x.2, if j.hdr.op = 0x0501 then 2 else 3, 0⟩))
  | _ => none

/-- A free context granted to a tap of a slice (R415, R435). -/
def grantTap (s : State) (slice : Nat) (job : Option (Nat × Nat)) (alg : Nat) (t : Tap) : Option (Nat × State) :=
  (freeCtx s).map (fun n => (n, s.setCtx n (some { hash := Hash.start alg, slice := slice, job := job, tap := some t })))

/-- A context changed. -/
def onCtx (s : State) (n : Nat) (f : TollCtx → TollCtx) : State := s.setCtx n ((s.ctx n).map f)

/-- Bytes of a tapped stream staged, as they pass (R418). -/
def stageTap (s : State) (ctx : Option Nat) (b : List Byte) : State :=
  match ctx with
  | some n => onCtx s n (fun c => { c with hash := c.hash.stage b })
  | none => s

/-- A tapped stream has ended. -/
def closeTap (s : State) (ctx : Option Nat) : State :=
  match ctx with
  | some n => onCtx s n TollCtx.close
  | none => s

/-- Whether a tap, where there is one, is absorbed to its end. -/
def tapDone (s : State) (ctx : Option Nat) : Bool :=
  match ctx.bind s.ctx with
  | some c => c.done
  | none => true

/-- A volume tap's sectors staged in increasing order, those ahead of their turn kept (R418, Table 12.2). -/
def stageParts : Nat → TollCtx → TollCtx
  | 0, c => c
  | n + 1, c =>
    match c.parts.find? (fun x => x.1 == c.pos) with
    | none => c
    | some x => stageParts n { c with hash := c.hash.stage x.2, pos := c.pos + x.2.length, parts := c.parts.filter (fun y => y.1 != x.1) }

/-- Bytes at an offset of a volume job's buffer pass its tap; the stream ends with the last of n bytes (R418). -/
def tapSector (s : State) (id n off : Nat) (b : List Byte) : State :=
  match ctxOfJob s id 0 with
  | none => s
  | some (k, c) =>
    let c1 := stageParts (c.parts.length + 1) { c with parts := c.parts ++ [(off, b)] }
    s.setCtx k (some (if n ≤ c1.pos ∧ c1.closed = false then c1.close else c1))

/-- The tap record of a tap: its digest, bytes, algorithm, place and tag (R420, Table 12.3). -/
def tapRecord (digest : List Byte) (n alg tag : Nat) (t : Tap) : List Byte :=
  padTo digest 64 ++ natLE 8 n ++ natLE 1 alg ++ natLE 1 t.point ++ natLE 2 tag ++ natLE 4 t.block ++ zeros 48

/-- A tap record written in a slice's tap table, as one write (R420). -/
def writeTap (r : Req) (job : Option Nat) (digest : List Byte) (n alg tag : Nat) (t : Tap) : Op Unit := do
  let s ← get
  upd (fun s => s.count ⟨0xD01, n, some r.slice, none, none⟩)
  let at_ := s.fld F.tolTapBase_base r.slice * 4096 + 128 * t.slot
  writeMem { r with own := true, job := job } at_ (tapRecord digest n alg tag t)

/-- The tap record of a context that is done, and the context freed (R420). -/
def recordTap (r : Req) (job : Option Nat) (tag : Nat) (ctx : Option Nat) : Op Unit := do
  let s ← get
  match ctx.bind s.ctx, ctx with
  | some c, some n =>
    match c.tap with
    | some t => do
      writeTap r job c.digest c.hash.len c.hash.alg tag t
      upd (fun s => s.setCtx n none)
    | none => pure ()
  | _, _ => pure ()

/-- The journal's chain tap on context 0 (R415, 09 R335): a record absorbed, its digest. -/
def chainTap (s : State) (b : List Byte) : List Byte × State :=
  let d := sha256 b
  (d, s.setCtx 0 (some { hash := ⟨1, beWords 4 8 d, [], b.length⟩, slice := 0, closed := true }))

end Sys2Proof.Machine
end

