-- ==== Sys2Proof/Machine/Channels.lean ====
section
/-! DEFINITION. The Sluice's channels as those that use them see them: taken for tasks, engines' transfers and transfers of no job, and
given back; their request lines (16 R509 to R511, R524). -/

namespace Sys2Proof.Machine

/-- A channel's work. -/
def State.slu (s : State) (c : Nat) : Chan := tget (fun _ => Chan.idle) s.units.chans c

/-- A channel's work changed. -/
def State.setSlu (s : State) (c : Nat) (f : Chan → Chan) : State :=
  { s with units := { s.units with chans := tupd (fun _ => Chan.idle) s.units.chans c f } }

/-- SLU_CH_STATUS.state (Table 16.8). -/
def chanState (s : State) (c : Nat) : Nat := s.fld F.sluChStatus_state c

/-- Whether a channel is a MANAGER channel (R510). -/
def isManager (s : State) (c : Nat) : Bool := s.flag F.sluChCfg_manager c

/-- The level of a task's transfers, its slice's class taken as the task became ready (R511, 17 R546). -/
def taskLevel (s : State) (j : Job) (part : Nat) : Nat :=
  let l := j.hdr.prio / 4
  if (s.task j.id part).any (·.interactive) then max l 2 else l

/-- A request line's level; a line is asserted until it falls (R524). -/
def lineUp (s : State) (l : Option Nat) : Bool :=
  match l with
  | none => true
  | some n => tget (fun _ => true) s.units.lines n

/-- The request lines of the requestors: 0 to 15 the Querns, 16 the Toll, 17 the storage ports. -/
def lineOf (e : Engine) (unit : Nat) : Option Nat :=
  match e with
  | .quern => some unit
  | .toll => some 16
  | .storage => some 17
  | _ => none

/-- SLU_CH_STATUS.source of an engine's transfer (Table 16.8). -/
def sourceOf (e : Engine) : Nat :=
  match e with
  | .sluice => 1
  | .quern => 3
  | .toll => 4
  | .storage => 5
  | _ => 6

/-- A channel at a descriptor's start: nothing read, nothing written. -/
def State.emptyBuf (s : State) (c : Nat) : State :=
  ((s.setSlu c (fun x => { x with buf := [], wrote := 0, burst := 0 })).setFld F.sluChStatus_buffered c 0).setFld F.sluChStatus_written c 0

/-- A channel's status as it takes up work. -/
def chanStart (s : State) (c source level slice : Nat) : State :=
  ((((s.setFld F.sluChStatus_state c 1).setFld F.sluChStatus_source c source).setFld F.sluChStatus_level c level).setFld
    F.sluChStatus_slice c slice).emptyBuf c

/-- A channel without work; host writes since its last flush stay to be flushed (R520). -/
def chanIdle (s : State) (c : Nat) : State :=
  (((((s.setSlu c (fun x => { Chan.idle with unflushed := x.unflushed })).setFld F.sluChStatus_state c 0).setFld F.sluChStatus_source c 0).setFld
    F.sluChStatus_level c 0).setFld F.sluChStatus_slice c 0).setFld F.sluChStatus_buffered c 0

/-- The idle POOL channels (R510). -/
def poolIdle (s : State) : List Nat := (List.range 32).filter (fun c => !isManager s c && chanState s c == 0)

/-- The ACTIVE set loaded with a descriptor (Tables 16.10, 16.11). -/
def loadActive (s : State) (c : Nat) (d : Desc) : State :=
  let flags := boolNat d.barrier + 2 * boolNat d.fill + 4 * boolNat d.notify
  (((((s.setReg .sluActSrc c d.src).setReg .sluActDst c d.dst).setReg .sluActLen c d.len).setReg .sluActCtrl c flags).setReg
    .sluActTap c d.tap).emptyBuf c

/-- The channel that moves an engine's data for a task (R510): held until the task ends. -/
def engineChan (s : State) (id part : Nat) : Option Nat :=
  (s.units.chans.find? (fun x => x.2.job == some (id, part))).map Prod.fst

/-- A POOL channel taken for an engine's task (R510, R524). -/
def takeEngineChan (s : State) (j : Job) (part unit : Nat) (e : Engine) : Option State :=
  ((poolIdle s).head?).map (fun c =>
    (chanStart s c (sourceOf e) (taskLevel s j part) j.slice).setSlu c (fun x =>
      { Chan.idle with job := some (j.id, part), line := lineOf e unit, unflushed := x.unflushed }))

/-- The channel of an engine's task given back; it has written host memory where its job has (R520). -/
def freeEngineChan (s : State) (id part : Nat) : State :=
  match engineChan s id part with
  | some c => (chanIdle s c).setSlu c (fun x => { x with unflushed := x.unflushed || (s.job id).any (·.hostWrote) })
  | none => s

/-- Whether a channel's transfer flows: it is not in WAIT_REQUEST, and its line is asserted or its burst has started (R524). -/
def inFlow (s : State) (c : Nat) : Bool := chanState s c == 1 && ((s.slu c).burst != 0 || lineUp s (s.slu c).line)

/-- Whether an engine's transfer flows (R524). -/
def chanFlows (s : State) (id part : Nat) : Bool :=
  match engineChan s id part with
  | some c => inFlow s c
  | none => true

/-- The channel that moves a transfer of no job, named by its drive command (R510). -/
def cmdChan (s : State) (id : Nat) : Option Nat := (s.units.chans.find? (fun x => x.2.cmd == some id)).map Prod.fst

/-- An idle POOL channel taken for a transfer of no job: it runs at NORMAL (R510, R511), for slice 0 and ahead of the tasks that wait
(DESIGN CHOICE, log 80). -/
def takeCmdChan (s : State) (id : Nat) : State :=
  match (poolIdle s).head? with
  | none => s
  | some c => (chanStart s c 6 1 0).setSlu c (fun x => { Chan.idle with cmd := some id, line := lineOf .storage 0, unflushed := x.unflushed })

/-- The channels whose drive commands have ended are given back. -/
def sweepChans (s : State) : State :=
  (s.units.chans.filter (fun x => x.2.cmd.any (fun id => !s.vols.cmds.any (fun d => d.id == id)))).foldl (fun t x => chanIdle t x.1) s

/-- The drive commands of which only some stay. -/
def keepCmds (s : State) (keep : DCmd → Bool) : State :=
  sweepChans { s with vols := { s.vols with cmds := s.vols.cmds.filter keep } }

/-- Whether a drive command moves data for no job (R510, R511): write-back, a rewrite, or a unit of an operation. -/
def DCmd.alone (c : DCmd) : Bool :=
  decide (c.op ≤ 1) && (match c.use with
    | .read _ _ _ => false
    | .write _ => false
    | .late _ _ => false
    | _ => true)

/-- The transfers of no job that wait for a channel take one where one is idle (R510). -/
def startTransfers (s : State) : State :=
  (s.vols.cmds.filter (fun d => d.alone && (cmdChan s d.id).isNone)).foldl (fun t d => takeCmdChan t d.id) s

/-- Whether a drive command's data can move (R510, R524): a job's through its task's channel, another's through its own. -/
def cmdFlows (s : State) (c : DCmd) : Bool := !c.alone || (cmdChan s c.id).any (inFlow s)

end Sys2Proof.Machine
end

