-- ==== Sys2Proof/Machine/Crc.lean ====
section
/-! DEFINITION. CRC-32C: the Castagnoli polynomial, reflected (05 Table 5.7). -/

namespace Sys2Proof.Machine

/-- One bit of the division. -/
def crcBit (c : BitVec 32) : BitVec 32 :=
  if c.getLsbD 0 then (c >>> 1) ^^^ 0x82F63B78#32 else c >>> 1

/-- One byte taken into the register. -/
def crcByte (c : BitVec 32) (b : Byte) : BitVec 32 :=
  let x := c ^^^ b.setWidth 32
  crcBit (crcBit (crcBit (crcBit (crcBit (crcBit (crcBit (crcBit x)))))))

/-- The register after a byte string. -/
def crcRun (c : BitVec 32) (bs : List Byte) : BitVec 32 := bs.foldl crcByte c

/-- The CRC-32C of a byte string: initial value and final exclusive-or all ones. -/
def crc32c (bs : List Byte) : Nat := (crcRun 0xFFFFFFFF#32 bs ^^^ 0xFFFFFFFF#32).toNat

end Sys2Proof.Machine
end

