-- ==== Sys2Proof/Machine/Decimal.lean ====
section
/-! DEFINITION. Types and exact decimals: limits, rounding, conversion, the exact values of arithmetic, comparison
(05 Table 5.3, 08 R262 to R275). -/

namespace Sys2Proof.Machine

/-- The type codes (05 Table 5.3). -/
abbrev tNone : Nat := 0x00
abbrev tBool : Nat := 0x01
abbrev tInt32 : Nat := 0x04
abbrev tInt64 : Nat := 0x05
abbrev tUint32 : Nat := 0x08
abbrev tUint64 : Nat := 0x09
abbrev tDec64 : Nat := 0x0A
abbrev tDec128 : Nat := 0x0B
abbrev tDate : Nat := 0x0C
abbrev tTimestamp : Nat := 0x0D
abbrev tChar : Nat := 0x0E
abbrev tVarchar : Nat := 0x0F

/-- No tag. -/
abbrev noTag : Tag := ⟨0, 0⟩

/-- A 16-bit tag word: [4:0] type, [10:5] scale. -/
def tagOf (w : Nat) : Tag := ⟨bitsAt w 0 5, bitsAt w 5 6⟩

/-- The word of a tag. -/
def Tag.word (t : Tag) : Nat := t.typ + t.scale * 32

/-- Whether a type is signed or unsigned integer. -/
def isInt (t : Nat) : Bool := decide (2 ≤ t ∧ t ≤ 9)

/-- Whether a type is numeric (08 Table 8.1). -/
def isNum (t : Nat) : Bool := decide (2 ≤ t ∧ t ≤ 0xB)

/-- Whether a type is text. -/
def isText (t : Nat) : Bool := t == tChar || t == tVarchar

/-- Whether a type is one-lane and not text, and names a value. -/
def isLane (t : Nat) : Bool := decide (1 ≤ t ∧ t ≤ 0xD) && t != tDec128

/-- Whether a type reads its lane as two's complement. -/
def isSigned (t : Nat) : Bool := decide (2 ≤ t ∧ t ≤ 5) || decide (0xA ≤ t ∧ t ≤ 0xD)

/-- A tag that R263 permits, other than none. -/
def Tag.ok (t : Tag) : Bool :=
  decide (1 ≤ t.typ ∧ t.typ ≤ 0xF) &&
    (if t.typ = tDec64 then decide (t.scale ≤ 18) else if t.typ = tDec128 then decide (t.scale ≤ 38) else t.scale == 0)

/-- The storage width in bytes of a type's PLAIN value (06 Table 6.1); 0 for BOOL and text. -/
def plainWidth (t : Nat) : Nat :=
  match t with
  | 0x02 | 0x06 => 1
  | 0x03 | 0x07 => 2
  | 0x04 | 0x08 | 0x0C => 4
  | 0x05 | 0x09 | 0x0A | 0x0D => 8
  | 0x0B => 16
  | _ => 0

/-- The limits of a type's value (08 Table 8.1): the least, and one above the greatest; DATE and TIMESTAMP as stored. -/
def typeRange (t : Nat) : Int × Int :=
  match t with
  | 0x01 => (0, 2)
  | 0x0A => (-(10 ^ 18 - 1), 10 ^ 18)
  | 0x0B => (-(10 ^ 38 - 1), 10 ^ 38)
  | _ =>
    let w := 8 * plainWidth t
    if isSigned t then (-(2 ^ (w - 1)), 2 ^ (w - 1)) else (0, 2 ^ w)

/-- Whether a value lies within its type's limits. -/
def inRange (t : Nat) (v : Int) : Bool := decide ((typeRange t).1 ≤ v ∧ v < (typeRange t).2)

/-- The value of a lane's bits, or of a DEC128 pair's. -/
def rawValue (t raw : Nat) : Int :=
  if t = tDec128 then toSigned 128 raw else if isSigned t then toSigned 64 raw else ((raw % 2 ^ 64 : Nat) : Int)

/-- The bits that hold a value. -/
def valueRaw (t : Nat) (v : Int) : Nat := ofSigned (if t = tDec128 then 128 else 64) v

/-- The rounding of the rational n / d (d above 0) under a mode (08 R270): the integer; none where it is inexact under
UNNECESSARY. -/
def roundDiv (mode : Nat) (n : Int) (d : Nat) : Option Int :=
  let m := n.natAbs
  let q := m / d
  let r := m % d
  let up : Bool := match mode with
    | 0 => decide (d < 2 * r) || (2 * r == d && q % 2 == 1)
    | 1 => decide (d ≤ 2 * r)
    | 3 => decide (0 < r ∧ n < 0)
    | 4 => decide (0 < r ∧ 0 < n)
    | _ => false
  if mode = 5 ∧ r ≠ 0 then none
  else
    let a := if up then q + 1 else q
    some (if n < 0 then -(a : Int) else (a : Int))

/-- How a conversion ends. -/
inductive Conv where
  | ok (v : Int)
  | inexact
  | overflow
  deriving DecidableEq, Repr

/-- A rounded value checked against its target (08 R272). -/
def checkConv (typ : Nat) : Option Int → Conv
  | none => .inexact
  | some v => if inRange typ v then .ok v else .overflow

/-- An exact value at scale se converted to a type and scale under a mode (08 R272). -/
def convert (v : Int) (se : Nat) (t : Tag) (mode : Nat) : Conv :=
  if se ≤ t.scale then checkConv t.typ (some (v * 10 ^ (t.scale - se)))
  else checkConv t.typ (roundDiv mode v (10 ^ (se - t.scale)))

/-- The quotient of DIV at the result's scale, rounded (08 R267); cb is not 0. A scaled dividend that reaches 10^76 is an overflow (R265). -/
def divide (ca cb : Int) (sa sb : Nat) (t : Tag) (mode : Nat) : Conv :=
  let num := ca * 10 ^ (t.scale + sb - sa)
  let den := cb * 10 ^ (sa - (t.scale + sb))
  if 10 ^ 76 ≤ num.natAbs then .overflow
  else checkConv t.typ (roundDiv mode (if den < 0 then -num else num) den.natAbs)

/-- Two values aligned to one scale (08 R266). -/
def align (a : Int) (sa : Nat) (b : Int) (sb : Nat) : Int × Int × Nat :=
  let s := max sa sb
  (a * 10 ^ (s - sa), b * 10 ^ (s - sb), s)

/-- Comparison of two values after aligning (06 R214). -/
def cmpVal (a : Int) (sa : Nat) (b : Int) (sb : Nat) : Ordering :=
  let (x, y, _) := align a sa b sb
  compare x y

/-- Whether a comparison's outcome meets the comparison mod (05 R172). -/
def cmpMeets (mod : Nat) (o : Ordering) : Bool :=
  match mod % 8 with
  | 0 => o == .eq
  | 1 => o != .eq
  | 2 => o == .lt
  | 3 => o != .gt
  | 4 => o == .gt
  | _ => o != .lt

/-- The remainder with the sign of the dividend (08 R268). -/
def remainder (a b : Int) : Int := Int.tmod a b

/-- Days since 1970-01-01 as year, month, day of the proleptic Gregorian calendar. -/
def civilOf (days1970 : Int) : Int × Nat × Nat :=
  let z := days1970 + 719468
  let era := Int.fdiv z 146097
  let doe := (z - era * 146097).toNat
  let yoe := (doe - doe / 1460 + doe / 36524 - doe / 146096) / 365
  let doy := doe - (365 * yoe + yoe / 4 - yoe / 100)
  let mp := (5 * doy + 2) / 153
  let d := doy - (153 * mp + 2) / 5 + 1
  let m := if mp < 10 then mp + 3 else mp - 9
  ((yoe : Int) + era * 400 + (if m ≤ 2 then 1 else 0), m, d)

/-- The day number since 1970-01-01 of a date. -/
def daysOf (y : Int) (m d : Nat) : Int :=
  let y1 := if m ≤ 2 then y - 1 else y
  let era := Int.fdiv y1 400
  let yoe := (y1 - era * 400).toNat
  let doy := (153 * (if 2 < m then m - 3 else m + 9) + 2) / 5 + d - 1
  let doe := yoe * 365 + yoe / 4 - yoe / 100 + doy
  era * 146097 + (doe : Int) - 719468

/-- Days between 1900-01-01 and 1970-01-01. -/
abbrev epochShift : Int := 25567

/-- A part of a DATE (05 Table 5.12 DPART). -/
def datePart (part : Nat) (days1900 : Int) : Int :=
  let d := days1900 - epochShift
  let c := civilOf d
  match part with
  | 0 => c.1
  | 1 => c.2.1
  | 2 => c.2.2
  | 3 => Int.emod days1900 7 + 1
  | _ => d - daysOf c.1 1 1 + 1

/-- The number of days of a month. -/
def monthDays (y : Int) (m : Nat) : Nat :=
  if m = 12 then 31 else (daysOf y (m + 1) 1 - daysOf y m 1).toNat

/-- A DATE moved by months (05 Table 5.12 DADD): the day of the month is kept; none where the month has no such day, for
which the spec states no result. -/
def addMonths (days1900 n : Int) : Option Int :=
  let c := civilOf (days1900 - epochShift)
  let k := c.1 * 12 + ((c.2.1 : Int) - 1) + n
  let y := Int.fdiv k 12
  let m := (Int.emod k 12).toNat + 1
  if c.2.2 ≤ monthDays y m then some (daysOf y m c.2.2 + epochShift) else none

end Sys2Proof.Machine
end

