-- ==== Sys2Proof/Machine/Record.lean ====
section
/-! DEFINITION. Legacy records: where records lie, and how fields are read and written (08 R276 to R299). -/

namespace Sys2Proof.Machine

/-- The offset of record j (08 R279). -/
def Layout.recOff (l : Layout) (j : Nat) : Nat :=
  if l.blockLen = 0 then j * l.len else j / l.rpb * l.blockLen + j % l.rpb * l.len

/-- What the reading of a field's bytes gives: NULL, a value, an invalid nibble at a byte of the field, an overflow, or
text. -/
inductive FieldRead where
  | null
  | value (v : Int)
  | badDigit (at_ : Nat)
  | overflow
  | text
  deriving DecidableEq, Repr

/-- A sign nibble read (08 Table 8.8): whether it is negative; none where it is invalid. -/
def signNibble (f : LField) (n : Nat) : Option Bool :=
  if n = 0xF then some false
  else if f.lenient && (n == 0xA || n == 0xE || n == 0xC) then some false
  else if f.unsigned then none
  else if n = 0xC then some false
  else if n = 0xD then some true
  else if f.lenient && n == 0xB then some true
  else none

/-- The nibbles of a byte string, high nibble first. -/
def nibbles (bs : List Byte) : List Nat := bs.flatMap (fun b => [b.toNat / 16, b.toNat % 16])

/-- Digits as a decimal integer, most significant first. -/
def digitsVal (ds : List Nat) : Nat := ds.foldl (fun a d => a * 10 + d) 0

/-- A value with a sign. -/
def signed (neg : Bool) (n : Nat) : Int := if neg then -(n : Int) else (n : Int)

/-- A PACKED field read (08 R282, R283). -/
def readPacked (f : LField) (bs : List Byte) : FieldRead :=
  let ns := nibbles bs
  let lead := ns.take (ns.length - 1)
  let bad (i n : Nat) : Bool := if i = 0 && f.digits % 2 == 0 then n != 0 else decide (9 < n)
  match ((List.range lead.length).zip lead).find? (fun p => bad p.1 p.2) with
  | some p => .badDigit (p.1 / 2)
  | none =>
    match signNibble f (ns.getLastD 0) with
    | some neg => .value (signed neg (digitsVal lead))
    | none => .badDigit (bs.length - 1)

/-- Where a ZONED field's digits lie: the offset of the first digit byte. -/
def zonedStart (f : LField) : Nat := if f.placement = 3 && !f.unsigned then 1 else 0

/-- Whether the digit byte i of a ZONED field carries the sign in its zone (08 R285). -/
def zoneSign (f : LField) (i : Nat) : Bool :=
  !f.unsigned && ((f.placement == 0 && i + 1 == f.digits) || (f.placement == 1 && i == 0))

/-- Whether a ZONED field has a separate sign byte. -/
def signByte (f : LField) : Bool := !f.unsigned && decide (2 ≤ f.placement)

/-- A separate sign byte read (08 R285). -/
def readSignByte (l : Layout) (b : Byte) : Option Bool :=
  if b.toNat = l.plus then some false else if b.toNat = l.minus then some true else none

/-- A ZONED field read (08 R285, R286). -/
def readZoned (l : Layout) (f : LField) (bs : List Byte) : FieldRead :=
  let st := zonedStart f
  let ds := sub bs st f.digits
  let badDigit (i : Nat) (b : Byte) : Bool :=
    decide (9 < b.toNat % 16) ||
      (if zoneSign f i then (signNibble f (b.toNat / 16)).isNone else b.toNat / 16 != f.zone)
  let digitBad := (((List.range ds.length).zip ds).find? (fun p => badDigit p.1 p.2)).map (fun p => p.1 + st)
  let sPos := if f.placement = 3 then 0 else bs.length - 1
  let sByte := readSignByte l (bs.getD sPos 0)
  let first : Option Nat :=
    if signByte f && sByte.isNone then
      (match digitBad with
        | some d => some (min d sPos)
        | none => some sPos)
    else digitBad
  match first with
  | some i => .badDigit i
  | none =>
    let neg :=
      if signByte f then sByte.getD false
      else ((((List.range ds.length).zip ds).find? (fun p => zoneSign f p.1)).bind
        (fun p => signNibble f (p.2.toNat / 16))).getD false
    .value (signed neg (digitsVal (ds.map (fun b => b.toNat % 16))))

/-- A BINARY field read (08 R288). -/
def readBinary (f : LField) (bs : List Byte) : FieldRead :=
  let v : Int := if f.unsigned then (beNat bs : Int) else toSigned (8 * bs.length) (beNat bs)
  if f.digits ≠ 0 ∧ 10 ^ f.digits ≤ v.natAbs then .overflow else .value v

/-- A field read under its kind's rules, after the blank test (08 R290, R293). -/
def readField (l : Layout) (f : LField) (bs : List Byte) : FieldRead :=
  if f.blankNull && bs.all (fun b => b.toNat == l.blank) then .null
  else match f.kind with
    | 1 => readPacked f bs
    | 2 => readZoned l f bs
    | 3 => readBinary f bs
    | _ => .text

/-- The decimal digits of a number, most significant first, n of them. -/
def decDigits : Nat → Nat → List Nat
  | 0, _ => []
  | n + 1, v => v / 10 ^ n % 10 :: decDigits n v

/-- The sign nibble the device writes (08 R284). -/
def writeSign (f : LField) (neg : Bool) : Nat :=
  if neg then 0xD else if f.unsigned || f.positiveF then 0xF else 0xC

/-- Nibbles, high first, as bytes. -/
def packNibbles : List Nat → List Byte
  | h :: l :: t => BitVec.ofNat 8 (h * 16 + l) :: packNibbles t
  | [h] => [BitVec.ofNat 8 (h * 16)]
  | [] => []

/-- The bytes of a ZONED field (08 R287). -/
def writeZoned (l : Layout) (f : LField) (v : Int) : List Byte :=
  let neg := decide (v < 0)
  let ds := decDigits f.digits v.natAbs
  let body := ((List.range ds.length).zip ds).map (fun p =>
    BitVec.ofNat 8 ((if zoneSign f p.1 then writeSign f neg else f.zone) * 16 + p.2))
  let sb : Byte := BitVec.ofNat 8 (if neg then l.minus else l.plus)
  if !signByte f then body else if f.placement = 3 then sb :: body else body ++ [sb]

/-- Whether a value fits a numeric field (08 R298). -/
def fieldFits (f : LField) (v : Int) : Bool :=
  !(f.unsigned && decide (v < 0)) &&
    (if f.kind = 3 then
      (f.digits == 0 || decide (v.natAbs < 10 ^ f.digits)) &&
        (if f.unsigned then decide (v.natAbs < 2 ^ (8 * f.length))
         else decide (-(2 ^ (8 * f.length - 1)) ≤ v ∧ v < 2 ^ (8 * f.length - 1)))
    else decide (v.natAbs < 10 ^ f.digits))

/-- The bytes of a numeric field holding a value; none where it does not fit (08 R284, R287, R288, R298). -/
def writeField (l : Layout) (f : LField) (v : Int) : Option (List Byte) :=
  if !fieldFits f v then none
  else match f.kind with
    | 1 =>
      let pad := if f.digits % 2 = 0 then [0] else []
      some (packNibbles (pad ++ decDigits f.digits v.natAbs ++ [writeSign f (decide (v < 0))]))
    | 2 => some (writeZoned l f v)
    | _ => some (natBE f.length (ofSigned (8 * f.length) v))

/-- The bytes of text after its table (05 R152, 08 R291); table 0 is the identity. -/
def translateText (tables : List (Nat × List Byte)) (n : Nat) (bs : List Byte) : List Byte :=
  match tables.find? (fun t => t.1 == n) with
  | some t => bs.map (fun b => t.2.getD b.toNat 0)
  | none => bs

/-- Trailing bytes of 0x20 dropped. -/
def dropSpaces (bs : List Byte) : List Byte := (bs.reverse.dropWhile (· == 0x20)).reverse

end Sys2Proof.Machine
end

