-- ==== Sys2Proof/Machine/Container.lean ====
section
/-! DEFINITION. Program containers: load checks 1 to 8 of 05 Table 5.13, and the container as data. -/

namespace Sys2Proof.Machine

/-- The outcome of a failed load check at a block index and byte offset (05 R180). -/
def loadFail (status block off : Nat) : Outc := ⟨status, 0, block * 2 ^ 32 + off⟩

/-- BAD_HEADER, BAD_CODE, CHECK_MISMATCH, LENGTH_SHORT, LENGTH_OVERRUN, INPUT_TRUNCATED, OUTPUT_FULL (02 Table 2.8). -/
abbrev stBadHeader : Nat := 0x40
abbrev stBadCode : Nat := 0x41
abbrev stOverrun : Nat := 0x43
abbrev stTruncated : Nat := 0x44
abbrev stMismatch : Nat := 0x45
abbrev stShort : Nat := 0x30
abbrev stFull : Nat := 0x31

/-- Load checks 1 and 2: len0, magic, format and total_len of the header (05 Table 5.13). -/
def headCheck (h : List Byte) (len0 : Nat) : Option Outc :=
  let total := leAt h 8 4
  if leAt h 0 4 ≠ 0x504E5244 then some (loadFail stBadHeader 0 0)
  else if leAt h 4 2 ≠ 1 then some (loadFail stBadHeader 0 4)
  else if total < 96 ∨ 1048576 < total then some (loadFail stBadHeader 0 8)
  else if len0 < total then some ⟨stShort, 0, total⟩
  else none

/-- Load check 3: the CRC-32C over the container with bytes 12 to 15 taken as 0 (05 Table 5.7). -/
def crcCheck (c : List Byte) : Option Outc :=
  if crc32c (patch c 12 (zeros 4)) = leAt c 12 4 then none else some (loadFail stMismatch 0 12)

/-- Load check 4: the other fields of the header. -/
def headFields (c : List Byte) : Option Outc :=
  let out (o lo hi : Nat) : Bool × Nat := badIf (leAt c o 1 < lo || hi < leAt c o 1) o
  (lowest [out 6 6 11, out 7 1 16, out 16 2 32, out 17 1 32, out 18 0 32, nonzero c 19 1, nonzero c 24 40]).map
    (loadFail stBadHeader 0)

/-- The section table. -/
def sections (c : List Byte) : List Sec :=
  (List.range (leAt c 16 1)).map (fun i =>
    let o := 64 + 16 * i
    ⟨leAt c o 1, leAt c (o + 1) 1, leAt c (o + 4) 4, leAt c (o + 8) 4⟩)

/-- The index a section of a type may carry (05 Table 5.8). -/
def indexOk (typ idx : Nat) : Bool :=
  match typ with
  | 5 => decide (idx ≤ 15)
  | 6 => decide (1 ≤ idx ∧ idx ≤ 7)
  | _ => idx == 0

/-- The length a section of a type may have (05 Table 5.8, 08 R276). -/
def secLenOk (phases statics typ len : Nat) : Bool :=
  match typ with
  | 1 => len % 8 == 0 && decide (8 ≤ len ∧ len ≤ 65536)
  | 3 => len == 48 * phases
  | 4 => len % 4 == 0
  | 5 => len % 16 == 0 && decide (48 ≤ len ∧ len ≤ 32 + 16 * 255)
  | 6 => len == 256
  | 7 => len == 2 * statics
  | _ => true

/-- The first offence of section table entry i (05 R167, Table 5.8); before are the earlier entries. -/
def secCheck (c : List Byte) (before : List Sec) (i : Nat) (s : Sec) : Option Outc :=
  let o := 64 + 16 * i
  let total := leAt c 8 4
  let tableEnd := 64 + 16 * leAt c 16 1
  let again := before.any (fun t => t.typ == s.typ && (t.idx == s.idx || (s.typ != 5 && s.typ != 6)))
  let overlap := before.any (fun t => rangesMeet t.off t.len s.off s.len)
  (lowest [badIf (s.typ == 0 || decide (7 < s.typ) || (s.typ == 7 && leAt c 18 1 == 0) ||
        (again && s.typ != 5 && s.typ != 6)) o,
      badIf (!indexOk s.typ s.idx || again) (o + 1), nonzero c (o + 2) 2,
      badIf (s.off % 16 != 0 || decide (s.off < tableEnd) || decide (total < s.off) || overlap) (o + 4),
      badIf (!secLenOk (leAt c 7 1) (leAt c 18 1) s.typ s.len || decide (total < s.off + s.len)) (o + 8),
      nonzero c (o + 12) 4]).map (loadFail stBadHeader (i + 1))

/-- The first section of a type, with its place in the table. -/
def findSec (ss : List Sec) (typ : Nat) : Option (Nat × Sec) :=
  ((List.range ss.length).zip ss).find? (fun p => p.2.typ == typ)

/-- Whether a section belongs to the resident set (05 R167). -/
def Sec.resident (s : Sec) : Bool := s.typ == 1 || s.typ == 2 || s.typ == 5 || s.typ == 6

/-- The resident set's bytes. -/
def residentBytes (ss : List Sec) : Nat := ((ss.filter Sec.resident).map (·.len)).sum

/-- The section with which the resident set first passes 65,536 bytes (05 R659). -/
def residentOver : List Sec → Nat → Nat → Option Nat
  | [], _, _ => none
  | s :: ss, i, acc =>
    let acc1 := if s.resident then acc + s.len else acc
    if s.resident && decide (65536 < acc1) then some i else residentOver ss (i + 1) acc1

/-- A field entry of a layout (08 Table 8.6). -/
def readLField (c : List Byte) (o : Nat) : LField :=
  let fl := leAt c (o + 7) 1
  { offset := leAt c o 2, length := leAt c (o + 2) 2, kind := leAt c (o + 4) 1, digits := leAt c (o + 5) 1,
    scale := leAt c (o + 6) 1, blankNull := bitAt fl 5, placement := bitsAt fl 3 2, positiveF := bitAt fl 2,
    lenient := bitAt fl 1, unsigned := bitAt fl 0, zone := bitsAt (leAt c (o + 8) 1) 0 4, pad := leAt c (o + 9) 1,
    inX := leAt c (o + 10) 1, outX := leAt c (o + 11) 1 }

/-- A layout section (08 Table 8.5). -/
def readLayout (c : List Byte) (s : Sec) : Layout :=
  let o := s.off
  { len := leAt c (o + 4) 2, src := leAt c (o + 7) 1, blockLen := leAt c (o + 8) 4, rpb := leAt c (o + 12) 2,
    fill := leAt c (o + 14) 1, blank := leAt c (o + 15) 1, plus := leAt c (o + 16) 1, minus := leAt c (o + 17) 1,
    discEn := bitAt (leAt c (o + 18) 1) 0, discVal := leAt c (o + 19) 1, discOff := leAt c (o + 20) 2,
    fields := (List.range (leAt c (o + 6) 1)).map (fun i => readLField c (o + 32 + 16 * i)) }

/-- The length a field's kind gives it (08 Table 8.7). -/
def fieldLenOk (f : LField) : Bool :=
  match f.kind with
  | 1 => f.length == f.digits / 2 + 1
  | 2 => f.length == f.digits + boolNat (decide (2 ≤ f.placement))
  | 3 => f.length == 1 || f.length == 2 || f.length == 4 || f.length == 8 || f.length == 16
  | _ => decide (1 ≤ f.length ∧ f.length ≤ 4095)

/-- The digits and scale a field's kind permits (08 Table 8.7). -/
def fieldDigitsOk (f : LField) : Bool :=
  match f.kind with
  | 1 | 2 => decide (1 ≤ f.digits ∧ f.digits ≤ 31)
  | 3 => decide (f.digits ≤ 38)
  | _ => f.digits == 0

/-- The scale a field's kind permits. -/
def fieldScaleOk (f : LField) : Bool :=
  match f.kind with
  | 1 | 2 => decide (f.scale ≤ f.digits)
  | 3 => decide (f.scale ≤ 38)
  | _ => f.scale == 0

/-- The flags a field's kind permits (08 Tables 8.6, 8.7). -/
def fieldFlagsOk (f : LField) (fl : Nat) : Bool :=
  bitsAt fl 6 2 == 0 &&
  match f.kind with
  | 1 => f.placement == 0
  | 2 => !f.unsigned || f.placement == 0
  | 3 => f.placement == 0 && !f.positiveF && !f.lenient
  | _ => f.placement == 0 && !f.positiveF && !f.lenient && !f.unsigned

/-- The first offence of a field entry at offset o (08 R277, R278); tables are the container's XLATE numbers. -/
def fieldCheck (c : List Byte) (tables : List Nat) (recLen o : Nat) : Option Nat :=
  let f := readLField c o
  let zb := leAt c (o + 8) 1
  let tableOk (n : Nat) : Bool := if f.kind = 4 then n == 0 || tables.contains n else n == 0
  lowest [badIf (decide (recLen < f.offset + f.length)) o, badIf (!fieldLenOk f) (o + 2),
    badIf (f.kind == 0 || decide (4 < f.kind)) (o + 4), badIf (!fieldDigitsOk f) (o + 5), badIf (!fieldScaleOk f) (o + 6),
    badIf (!fieldFlagsOk f (leAt c (o + 7) 1)) (o + 7), badIf (16 ≤ zb || (f.kind != 2 && zb != 0)) (o + 8),
    badIf (f.kind != 4 && f.pad != 0) (o + 9), badIf (!tableOk f.inX) (o + 10), badIf (!tableOk f.outX) (o + 11),
    nonzero c (o + 12) 4]

/-- The first offence of a layout section (08 R276, Table 8.5, R281). -/
def layoutCheck (c : List Byte) (tables : List Nat) (s : Sec) : Option Nat :=
  let o := s.off
  let l := readLayout c s
  let head := lowest [badIf (leAt c o 4 != 0x4C415931) o, badIf (l.len == 0) (o + 4),
    badIf (l.fields.isEmpty || s.len != 32 + 16 * l.fields.length) (o + 6),
    badIf (l.blockLen != 0 && (decide (l.blockLen < l.rpb * l.len) || decide (16777216 < l.blockLen))) (o + 8),
    badIf ((l.blockLen == 0) != (l.rpb == 0)) (o + 12),
    badIf (l.plus == l.minus && l.fields.any (fun f => f.kind == 2 && signByte f)) (o + 17),
    badIf (2 ≤ leAt c (o + 18) 1) (o + 18), badIf (decide (l.len ≤ l.discOff)) (o + 20), nonzero c (o + 22) 10]
  match head with
  | some x => some x
  | none => (List.range l.fields.length).findSome? (fun i => fieldCheck c tables l.len (o + 32 + 16 * i))

/-- Load check 5 (05 Table 5.13, R659, 08 R281). -/
def tableCheck (c : List Byte) : Option Outc :=
  let n := leAt c 16 1
  let ss := sections c
  let is := List.range n
  if leAt c 8 4 < 64 + 16 * n then some (loadFail stBadHeader 0 16)
  else match (is.zip ss).findSome? (fun p => secCheck c (ss.take p.1) p.1 p.2) with
  | some o => some o
  | none =>
    if (findSec ss 1).isNone || (findSec ss 3).isNone then some (loadFail stBadHeader 0 16)
    else if 0 < leAt c 18 1 && (findSec ss 7).isNone then some (loadFail stBadHeader 0 18)
    else match residentOver ss 0 0 with
    | some i => some (loadFail stBadHeader (i + 1) (64 + 16 * i + 8))
    | none =>
      let tables := (ss.filter (·.typ == 6)).map (·.idx)
      (is.zip ss).findSome? (fun p =>
        if p.2.typ = 5 then (layoutCheck c tables p.2).map (loadFail stBadHeader (p.1 + 1)) else none)

/-- A pool entry at offset o of the container. -/
def readConst (c : List Byte) (o : Nat) : Const :=
  let w := leAt c o 2
  { tag := tagOf w, null := bitAt w 11, value := toSigned 128 (leAt c (o + 8) 16), off := leAt c (o + 8) 4,
    len := leAt c (o + 12) 2, table := leAt c (o + 14) 1 }

/-- The pool's constant entries (05 R660): they end at the first multiple of 32 that reaches the section's length or the
lowest text offset read so far. -/
def poolEntries (c : List Byte) (s : Sec) : Nat → Nat → Nat → List Const
  | 0, _, _ => []
  | fuel + 1, i, limit =>
    if limit ≤ 32 * i then []
    else
      let k := readConst c (s.off + 32 * i)
      k :: poolEntries c s fuel (i + 1) (if isText k.tag.typ then min limit k.off else limit)

/-- The pool's entries. -/
def poolOf (c : List Byte) (s : Sec) : List Const := poolEntries c s (s.len / 32 + 1) 0 s.len

/-- The first offence of pool entry i (05 Table 5.10, R660, 08 R263, R275). -/
def constCheck (c : List Byte) (s : Sec) (e i : Nat) (k : Const) : List (Bool × Nat) :=
  let o := s.off + 32 * i
  let text := isText k.tag.typ
  [badIf (!k.tag.ok || bitsAt (leAt c o 2) 12 4 != 0) o, nonzero c (o + 2) 6,
    badIf (text && (decide (k.off < 32 * e) || decide (s.len < k.off + k.len))) (o + 8),
    badIf (text && decide (4095 < k.len)) (o + 12), badIf (text && decide (7 < k.table)) (o + 14),
    badIf (!text && !k.null && !inRange k.tag.typ k.value) (o + 8), nonzero c (o + 24) 8]

/-- The offences of the POOL section. -/
def poolCheck (c : List Byte) (i : Nat) (s : Sec) : List (Bool × Nat) :=
  let ks := poolOf c s
  let ragged := s.len % 32 != 0 && !ks.any (fun k => isText k.tag.typ)
  badIf ragged (64 + 16 * i) ::
    ((List.range ks.length).zip ks).flatMap (fun p => constCheck c s ks.length p.1 p.2)

/-- A phase entry. -/
def readPhase (c : List Byte) (o : Nat) : PhaseEnt :=
  ⟨(List.range 18).map (fun j => leAt c (o + 2 * j) 2), leAt c (o + 36) 1⟩

/-- The offences of a phase entry (05 Table 5.9). -/
def phaseCheck (c : List Byte) (ncode o k : Nat) : List (Bool × Nat) :=
  (List.range 18).map (fun j => badIf (leAt c (o + 2 * j) 2 != 0xFFFF && decide (ncode ≤ leAt c (o + 2 * j) 2)) (o + 2 * j)) ++
    [badIf (2 < leAt c (o + 36) 1 || (k == 0 && leAt c (o + 36) 1 != 0)) (o + 36), nonzero c (o + 37) 11]

/-- A BINDINGS entry. -/
def readBind (c : List Byte) (o : Nat) : BindEnt :=
  let fl := leAt c (o + 1) 1
  ⟨leAt c o 1, bitAt fl 0, bitAt fl 1, bitAt fl 2⟩

/-- The offences of a BINDINGS entry; before are the numbers of the earlier ones. -/
def bindCheck (c : List Byte) (o : Nat) (before : List Nat) : List (Bool × Nat) :=
  let b := readBind c o
  [badIf (decide (63 < b.num) || before.contains b.num) o,
    badIf (decide (8 ≤ leAt c (o + 1) 1) || (b.scratch && !(b.r && b.w))) (o + 1), nonzero c (o + 2) 2]

/-- The tags of the static scalars. -/
def readArgTags (c : List Byte) (s : Sec) : List Tag := (List.range (s.len / 2)).map (fun i => tagOf (leAt c (s.off + 2 * i) 2))

/-- The offences of ARGTAGS (05 Table 5.8, 08 R263): the odd scalar of a DEC128 pair carries 0x0000. -/
def argTagCheck (c : List Byte) (s : Sec) : List (Bool × Nat) :=
  let n := s.len / 2
  (List.range n).map (fun i =>
    let o := s.off + 2 * i
    let w := leAt c o 2
    let odd := i % 2 == 1 && (tagOf (leAt c (o - 2) 2)).typ == tDec128
    let t := tagOf w
    badIf (if odd then w != 0 else !t.ok || decide (2048 ≤ w) ||
      (t.typ == tDec128 && (i % 2 == 1 || decide (n ≤ i + 1)))) o)

/-- Load check 8: PHASES, BINDINGS, POOL and ARGTAGS, the offence at the lowest offset (05 Table 5.13). -/
def entryCheck (c : List Byte) : Option Outc :=
  let ss := sections c
  let ncode := ((findSec ss 1).map (fun p => p.2.len / 8)).getD 0
  let per (p : Nat × Sec) : Option (Nat × Nat) :=
    let s := p.2
    let offences : List (Bool × Nat) := match s.typ with
      | 2 => poolCheck c p.1 s
      | 3 => (List.range (s.len / 48)).flatMap (fun k => phaseCheck c ncode (s.off + 48 * k) k)
      | 4 => (List.range (s.len / 4)).flatMap (fun k =>
          bindCheck c (s.off + 4 * k) ((List.range k).map (fun j => leAt c (s.off + 4 * j) 1)))
      | 7 => argTagCheck c s
      | _ => []
    (lowest offences).map (fun o => (p.1 + 1, o))
  let found := ((List.range ss.length).zip ss).filterMap per
  (found.foldl (fun m x => match m with
    | some y => if x.2 < y.2 then some x else some y
    | none => some x) none).map (fun x => loadFail stBadHeader x.1 x.2)

/-- The container as data, once its checks pass. -/
def progOf (c : List Byte) : Prog :=
  let ss := sections c
  let code := findSec ss 1
  let pool := findSec ss 2
  { batchLog := leAt c 6 1, cols := leAt c 17 1, statics := leAt c 18 1, totalLen := leAt c 8 4, crc := leAt c 12 4,
    secs := ss,
    code := (code.map (fun p => (List.range (p.2.len / 8)).map (fun i => leAt c (p.2.off + 8 * i) 8))).getD [],
    codeBlock := (code.map (fun p => p.1 + 1)).getD 0, codeOff := (code.map (fun p => p.2.off)).getD 0,
    pool := (pool.map (fun p => poolOf c p.2)).getD [], poolOff := (pool.map (fun p => p.2.off)).getD 0,
    poolBytes := (pool.map (fun p => sub c p.2.off p.2.len)).getD [],
    phases := ((findSec ss 3).map (fun p => (List.range (p.2.len / 48)).map (fun k => readPhase c (p.2.off + 48 * k)))).getD [],
    binds := ((findSec ss 4).map (fun p => (List.range (p.2.len / 4)).map (fun k => readBind c (p.2.off + 4 * k)))).getD [],
    layouts := (ss.filter (·.typ == 5)).map (fun s => (s.idx, readLayout c s)),
    tables := (ss.filter (·.typ == 6)).map (fun s => (s.idx, sub c s.off 256)),
    argTags := ((findSec ss 7).map (fun p => readArgTags c p.2)).getD [] }

/-- The column registers that P's code reserves (05 Table 5.16). -/
def preemptCols (code : Nat) : Nat := match code with | 1 => 8 | 2 => 16 | _ => 0

/-- Load checks 6 and 7 (05 Table 5.13, R187); p is the number of reserved column registers. -/
def jobCheck (statics cols len1 p : Nat) (interactive : Bool) : Option Outc :=
  if len1 < 8 * statics then some ⟨stShort, 1, 8 * statics⟩
  else if (if interactive then 64 else 64 - p) < cols then some (loadFail stBadHeader 0 17)
  else none

end Sys2Proof.Machine
end

