-- ==== Sys2Proof/Machine/Segment.lean ====
section
/-! DEFINITION. Input directories and column segments: the decoding checks and the value of each row (06 R194 to R212). -/

namespace Sys2Proof.Machine

/-- What decodes: the stone, the request it reads for, the partition, the container's translation tables. -/
structure DecCtx where
  stone : Nat
  req : Req
  part : Nat
  tables : List Nat
  deriving DecidableEq, Repr

/-- A decoding fault of R206: STN_SCAN_FAULT where none is recorded, and the job's outcome. -/
def scanFault {α : Type} (c : DecCtx) (status source column off : Nat) : Op α := do
  upd (fun s =>
    if s.flag F.stnScanFault_valid c.stone then s
    else s.setReg .stnScanFault c.stone (2 ^ 63 + source * 2 ^ 61 + column * 2 ^ 48 + status * 2 ^ 32 + off % 2 ^ 32))
  throw (.outc ⟨status, 0, c.part * 2 ^ 32 + off % 2 ^ 32⟩)

/-- The first offence of a column entry at directory offset o (06 R197). -/
def colEntryCheck (d : List Byte) (o : Nat) : Option Nat :=
  let a := leAt d o 8
  let n := leAt d (o + 8) 4
  lowest [badIf (badSva a || ((a == 0) != (n == 0))) o, nonzero d (o + 12) 4]

/-- The first offence of a stamp entry (06 R208). -/
def stampCheck (d : List Byte) (o : Nat) (ledger : Bool) (rows : Nat) : Option Nat :=
  let a := leAt d o 8
  if ledger then lowest [badIf (badSva a || a % 8 != 0) o, badIf (decide (leAt d (o + 8) 4 < 8 * rows)) (o + 8),
    nonzero d (o + 12) 4]
  else lowest [nonzero d o 8, nonzero d (o + 8) 4, nonzero d (o + 12) 4]

/-- The first offence of a directory's own fields and entries (06 Table 6.2, Table 6.5). -/
def dirCheck (d : List Byte) : Option Nat :=
  let c := leAt d 2 2
  let rows := leAt d 8 4
  let fl := leAt d 4 1
  let opt (o : Option Nat) : Bool × Nat := (o.isSome, o.getD 0)
  lowest ([badIf (leAt d 0 2 != 1) 0, badIf (decide (256 < c)) 2, badIf (2 ≤ fl) 4, nonzero d 5 3, nonzero d 12 4,
    nonzero d 24 8, opt (stampCheck d 32 (bitAt fl 0) rows), opt (stampCheck d 48 (bitAt fl 0) rows)] ++
    (List.range c).map (fun k => opt (colEntryCheck d (64 + 16 * k))))

/-- A task's input directory read and checked against the partition's rows (06 R205, R661). -/
def readDir (c : DecCtx) (sva rows : Nat) : Op Dir := do
  if sva % 16 ≠ 0 then scanFault c stBadHeader 0 0 0
  let head ← readMem c.req sva 64
  let n := min (leAt head 2 2) 256
  let rest ← readMem c.req (sva + 64) (16 * n)
  let d := head ++ rest
  match dirCheck d with
  | some o => scanFault c stBadHeader 0 0 o
  | none =>
    if leAt d 8 4 ≠ rows then scanFault c stBadHeader 0 0 8
    pure { sva := sva, ledger := bitAt (leAt d 4 1) 0, rows := rows, firstRow := leAt d 16 8, beginSva := leAt d 32 8,
           endSva := leAt d 48 8,
           cols := (List.range n).map (fun k => (leAt d (64 + 16 * k) 8, leAt d (72 + 16 * k) 4)) }

/-- Whether an encoding is permitted for a type (06 Table 6.1); of an invalid type code the type is the offence. -/
def encOk (enc typ : Nat) : Bool :=
  match typ with
  | 0x01 => enc == 0 || enc == 2
  | 0x0B | 0x0E => decide (enc ≤ 2)
  | 0x0D => decide (enc ≤ 3)
  | 0x0F => decide (enc ≤ 1)
  | _ => decide (enc ≤ 4)

/-- The width field an encoding permits (06 Table 6.3). -/
def widthOk (enc typ w : Nat) : Bool :=
  match enc with
  | 1 => decide (1 ≤ w ∧ w ≤ 32)
  | 3 => decide (w ≤ 64)
  | 4 => decide (1 ≤ w ∧ w ≤ 8 * plainWidth typ)
  | _ => w == 0

/-- A segment header's fields. -/
def segHdrOf (b : List Byte) (sva len : Nat) : SegHdr :=
  { sva := sva, len := len, enc := leAt b 0 1, typ := leAt b 1 1, scale := leAt b 2 1, width := leAt b 3 1,
    count := leAt b 4 4, vldOff := leAt b 8 4, dataOff := leAt b 12 4, ref := leAt b 16 8, elem := leAt b 24 4,
    xlate := leAt b 28 1 }

/-- The first offence of a segment header (06 Table 6.3, R194, R203). -/
def segCheck (b : List Byte) (h : SegHdr) (t : Tag) (rows : Nat) (tables : List Nat) : Option Nat :=
  let refOk := match h.enc with
    | 1 => decide (1 ≤ h.ref / 2 ^ 32 ∧ h.ref / 2 ^ 32 ≤ 2 ^ h.width)
    | 3 => true
    | _ => h.ref == 0
  let elemOk := if h.typ = tChar then decide (1 ≤ h.elem ∧ h.elem ≤ 4095) else h.typ == tVarchar || h.elem == 0
  lowest [badIf (!encOk h.enc h.typ) 0, badIf (h.typ != t.typ || h.typ == 0 || decide (0xF < h.typ)) 1,
    badIf (h.scale != t.scale || !t.ok) 2,
    badIf (!widthOk h.enc t.typ h.width) 3, badIf (if h.enc = 2 then h.count == 0 else h.count != rows) 4,
    badIf (decide (h.dataOff < 32)) 12, badIf (!refOk) (if h.enc = 1 then 20 else 16), badIf (!elemOk) 24,
    badIf (h.xlate != 0 && !(isText h.typ && tables.contains h.xlate)) 28, nonzero b 29 3]

/-- A segment's header read and checked at the first DCOL of its column (06 R205). -/
def openSeg (c : DecCtx) (column sva len : Nat) (t : Tag) (rows : Nat) : Op SegHdr := do
  if len < 32 then scanFault c stTruncated 1 column len
  let b ← readMem c.req sva 32
  let h := segHdrOf b sva len
  match segCheck b h t rows c.tables with
  | some o => scanFault c stBadHeader 1 column o
  | none => pure h

/-- n bytes at an offset of a segment; INPUT_TRUNCATED where they reach the segment's length (06 Table 6.5). -/
def segRead (c : DecCtx) (column : Nat) (h : SegHdr) (off n : Nat) : Op (List Byte) :=
  if h.len < off + n then scanFault c stTruncated 1 column (max off h.len)
  else readMem c.req (h.sva + off) n

/-- A text handle (05 R152). -/
def handle (sva len table : Nat) : Nat := sva % 2 ^ 48 + len * 2 ^ 48 + table * 2 ^ 60

/-- Value i of a packed area at off with values of w bits (06 R199). -/
def packedAt (c : DecCtx) (column : Nat) (h : SegHdr) (off w i : Nat) : Op Nat := do
  if w = 0 then pure 0
  else
    let first := i * w / 8
    let last := (i * w + w - 1) / 8
    let b ← segRead c column h (off + first) (last - first + 1)
    pure (leNat b / 2 ^ (i * w % 8) % 2 ^ w)

/-- DECIMAL_OVERFLOW of DECODE at a row (06 Table 6.5). -/
def decOverflow {α : Type} (c : DecCtx) (row : Nat) : Op α := throw (.outc ⟨0x60, 1, c.part * 2 ^ 32 + row⟩)

/-- Bits of a PLAIN value of a numeric type extended to its lane, or its pair, within its limits (06 R195). -/
def plainLane (c : DecCtx) (t row v : Nat) : Op Nat :=
  let x : Int := if isSigned t then toSigned (8 * plainWidth t) v else (v : Int)
  if inRange t x then pure (valueRaw t x) else decOverflow c row

/-- A value checked against its type's range and put in its lane. -/
def rangeLane (c : DecCtx) (t row : Nat) (x : Int) : Op Nat :=
  if inRange t x then pure (valueRaw t x) else decOverflow c row

/-- The VARCHAR whose two offsets are a and b: a handle; BAD_CODE at off where they decrease or the length is above
4,095. -/
def varHandle (c : DecCtx) (column : Nat) (h : SegHdr) (a b off : Nat) : Op Nat :=
  if b < a ∨ 4095 < b - a then scanFault c stBadCode 1 column off
  else pure (handle (h.sva + h.elem + a) (b - a) h.xlate)

/-- Value i of a PLAIN segment (06 Table 6.4). -/
def plainValue (c : DecCtx) (column : Nat) (h : SegHdr) (row : Nat) : Op Nat := do
  match h.typ with
  | 0x01 => packedAt c column h h.dataOff 1 row
  | 0x0E => pure (handle (h.sva + h.dataOff + row * h.elem) h.elem h.xlate)
  | 0x0F =>
    let o := h.dataOff + 4 * row
    let b ← segRead c column h o 8
    varHandle c column h (leAt b 0 4) (leAt b 4 4) o
  | t =>
    let w := plainWidth t
    let b ← segRead c column h (h.dataOff + w * row) w
    plainLane c t row (leNat b)

/-- Value i of a DICT segment (06 Table 6.4). -/
def dictValue (c : DecCtx) (column : Nat) (h : SegHdr) (row : Nat) : Op Nat := do
  let i ← packedAt c column h h.dataOff h.width row
  let at_ := h.dataOff + row * h.width / 8
  let dict := h.ref % 2 ^ 32
  if h.ref / 2 ^ 32 ≤ i then scanFault c stBadCode 1 column at_
  else match h.typ with
  | 0x0E => pure (handle (h.sva + dict + i * h.elem) h.elem h.xlate)
  | 0x0F =>
    let b ← segRead c column h (dict + 4 * i) 8
    varHandle c column h (leAt b 0 4) (leAt b 4 4) at_
  | t =>
    let w := plainWidth t
    let b ← segRead c column h (dict + w * i) w
    plainLane c t row (leNat b)

/-- Value i of a FOR or BITPACK segment (06 Table 6.4). -/
def packedValue (c : DecCtx) (column : Nat) (h : SegHdr) (row : Nat) : Op Nat := do
  let v ← packedAt c column h h.dataOff h.width row
  if h.enc = 3 then rangeLane c h.typ row (toSigned 64 h.ref + (v : Int))
  else rangeLane c h.typ row (if isSigned h.typ then toSigned h.width v else (v : Int))

/-- The validity of a row, or of a run (06 R201). -/
def validBit (c : DecCtx) (column : Nat) (h : SegHdr) (i : Nat) : Op Bool := do
  if h.vldOff = 0 then pure true
  else
    let b ← segRead c column h (h.vldOff + i / 8) 1
    pure (bitAt (leNat b) (i % 8))

/-- The size of a run record (06 Table 6.4). -/
def runSize (h : SegHdr) : Nat :=
  4 + (if h.typ = 1 then 1 else if h.typ = tChar then h.elem else plainWidth h.typ)

/-- The value of a run record (06 Table 6.4). -/
def runValue (c : DecCtx) (column : Nat) (h : SegHdr) (off row : Nat) : Op Nat := do
  match h.typ with
  | 0x0E => pure (handle (h.sva + off + 4) h.elem h.xlate)
  | 0x01 =>
    let b ← segRead c column h (off + 4) 1
    if 1 < leNat b then scanFault c stBadCode 1 column (off + 4) else pure (leNat b)
  | t =>
    let b ← segRead c column h (off + 4) (plainWidth t)
    plainLane c t row (leNat b)

/-- The rows of [first, last) from run k on, which begins at row start (06 Table 6.4, R661); total is the partition's
rows. The fuel is the number of run records left. -/
def runRows (c : DecCtx) (column : Nat) (h : SegHdr) (total first last : Nat) :
    Nat → Nat → Nat → Op (List (Option Nat))
  | 0, k, _ => scanFault c stTruncated 1 column (h.dataOff + k * runSize h)
  | fuel + 1, k, start => do
    let off := h.dataOff + k * runSize h
    let lb ← segRead c column h off 4
    let len := leNat lb
    if len = 0 then scanFault c stBadCode 1 column off
    let e := start + len
    let here ← (if e ≤ first then pure [] else do
      let ok ← validBit c column h k
      let v ← (if ok then do
          let x ← runValue c column h off (max start first)
          pure (some x)
        else pure none)
      pure (List.replicate (min e last - max start first) v))
    if last ≤ e then
      if last = total ∧ total < e then scanFault c stOverrun 1 column off
      else if last = total ∧ e = total ∧ fuel ≠ 0 then scanFault c stOverrun 1 column (off + runSize h)
      else pure here
    else
      let rest ← runRows c column h total first last fuel (k + 1) e
      pure (here ++ rest)

/-- The value of a row of a segment that is not RLE: its validity, then, where it is not NULL, the bytes it needs (06 R201, R203, R661). -/
def rowValue (c : DecCtx) (column : Nat) (h : SegHdr) (row : Nat) : Op (Option Nat) := do
  let ok ← validBit c column h row
  if ok then
    let x ← (match h.enc with
      | 0 => plainValue c column h row
      | 1 => dictValue c column h row
      | _ => packedValue c column h row)
    pure (some x)
  else pure none

/-- The values of rows [first, first + n) of a segment, in row order: none is NULL (06 R200 to R203, 05 R191). -/
def decodeRows (c : DecCtx) (column : Nat) (h : SegHdr) (total first n : Nat) : Op (List (Option Nat)) :=
  if h.enc = 2 then runRows c column h total first (first + n) h.count 0 0
  else (List.range n).mapM (fun i => rowValue c column h (first + i))

/-- The stamps of rows [first, first + n) (06 R208, R210). -/
def readStamps (c : DecCtx) (d : Dir) (first n : Nat) : Op (List Nat × List Nat) := do
  let b ← readMem c.req (d.beginSva + 8 * first) (8 * n)
  let e ← readMem c.req (d.endSva + 8 * first) (8 * n)
  let words (x : List Byte) : List Nat := (List.range n).map (fun i => leAt x (8 * i) 8)
  pure (words b, words e)

/-- The visibility test of 06 R209. -/
def visible (s b e : Nat) : Bool := decide (b ≤ s ∧ s < e)

end Sys2Proof.Machine
end

