-- ==== Sys2Proof/Machine/HashTab.lean ====
section
/-! DEFINITION. Bindings, the key hash, and hash tables: BUILD, PROBE and GAGG on one row (05 R164, 07 R223 to R242). -/

namespace Sys2Proof.Machine

/-- Bytes written for a job; a write that reaches host memory is remembered for BARRIER (02 R38). -/
def jobWrite (job : Nat) (r : Req) (sva : Nat) (b : List Byte) : Op Unit := writeMem { r with job := some job } sva b

/-- A binding in use: its number, SVA, length, the job and the request of its accesses. -/
structure Bnd where
  num : Nat
  sva : Nat
  len : Nat
  req : Req
  deriving DecidableEq, Repr

/-- n bytes at an offset of a binding; beyond its length, INPUT_TRUNCATED (05 R164, Table 5.15). -/
def Bnd.read (b : Bnd) (off n : Nat) : Op (List Byte) :=
  if b.len < off + n then throw (.outc ⟨stTruncated, 0, b.num * 2 ^ 32 + off % 2 ^ 32⟩)
  else readMem b.req (b.sva + off) n

/-- A little-endian number in a binding. -/
def Bnd.num8 (b : Bnd) (off n : Nat) : Op Nat := do
  let x ← b.read off n
  pure (leNat x)

/-- Bytes written at an offset of a binding; beyond its length, OUTPUT_FULL (05 R164, Table 5.15). -/
def Bnd.write (b : Bnd) (off : Nat) (x : List Byte) : Op Unit :=
  if b.len < off + x.length then throw (.outc ⟨stFull, 0, 0⟩)
  else writeMem b.req (b.sva + off) x

/-- An atomic read-modify-write of a number of n bytes in a binding: the old number (05 R174, 07 R230). -/
def Bnd.rmw (b : Bnd) (off n : Nat) (f : Nat → Nat) : Op Nat :=
  if b.len < off + n then throw (.outc ⟨stFull, 0, 0⟩)
  else do
    let old ← atomicMem b.req (b.sva + off) n (fun x => natLE n (f (leNat x)))
    pure (leNat old)

/-- A number of n bytes put in the place of another, as a change to a table is made (07 R230). -/
def Bnd.swap (b : Bnd) (off n v : Nat) : Op Unit := do
  let _ ← b.rmw off n (fun _ => v)

/-- One bit of a bitmap in a binding set to a value, by a read-modify-write of its byte (07 R230). -/
def Bnd.setBit (b : Bnd) (off i : Nat) (v : Bool) : Op Unit := do
  let _ ← b.rmw (off + i / 8) 1 (fun x => putBits x (i % 8) 1 (boolNat v))

/-- Bits put in a bitmap from a bit's place on: a byte of which all bits are put is written, a part of one is changed by a
read-modify-write (05 R174). -/
def Bnd.putBitmap (b : Bnd) (bit : Nat) (vs : List Bool) : Op Unit :=
  (List.range ((bit + vs.length + 7) / 8 - bit / 8)).forM (fun i => do
    let at_ := 8 * (bit / 8 + i)
    let put (x : Nat) : Nat := (List.range 8).foldl (fun x k =>
      if bit ≤ at_ + k ∧ at_ + k < bit + vs.length then putBits x k 1 (boolNat (vs.getD (at_ + k - bit) false)) else x) x
    if bit ≤ at_ ∧ at_ + 8 ≤ bit + vs.length then b.write (at_ / 8) (natLE 1 (put 0))
    else do
      let _ ← b.rmw (at_ / 8) 1 put)

/-- One bit of a bitmap in a binding. -/
def Bnd.bit (b : Bnd) (off i : Nat) : Op Bool := do
  let x ← b.num8 (off + i / 8) 1
  pure (bitAt x (i % 8))

/-- A value the spec gives no contents for. -/
def freeBits (w : Nat) : Op Nat := do
  let v ← modifyGet State.drawFree
  pure (v % 2 ^ w)

/-- The finaliser of the hash (07 R223), modulo 2^64. -/
def fmix (x : Nat) : Nat :=
  let x1 := x ^^^ (x / 2 ^ 33)
  let x2 := x1 * 0xFF51AFD7ED558CCD % 2 ^ 64
  let x3 := x2 ^^^ (x2 / 2 ^ 33)
  let x4 := x3 * 0xC4CEB9FE1A85EC53 % 2 ^ 64
  x4 ^^^ (x4 / 2 ^ 33)

/-- The constant of the hash. -/
abbrev golden : Nat := 0x9E3779B97F4A7C15

/-- H of a one-lane value (07 R223). -/
def hashLane (v : Nat) : Nat := fmix (v ^^^ golden)

/-- H of a DEC128 pair (07 R223). -/
def hashPair (lo hi : Nat) : Nat := fmix (hashLane lo ^^^ hi)

/-- The 8-byte words of a byte string, the last padded with zeros. -/
def words8 : Nat → List Byte → List Nat
  | 0, _ => []
  | n + 1, bs => if bs.isEmpty then [] else leNat (bs.take 8) :: words8 n (bs.drop 8)

/-- H of text, its bytes already translated and trimmed (07 R223). -/
def hashText (bs : List Byte) : Nat :=
  (words8 (bs.length + 1) bs).foldl (fun h w => fmix (h ^^^ w)) (fmix (bs.length ^^^ golden))

/-- H of a key lane that may be NULL. -/
def hashKey : Option Nat → Nat
  | none => 0
  | some v => hashLane v

/-- The region base of a table (07 R227). -/
def HtHdr.regionBase (h : HtHdr) : Nat := alignUp (64 + 8 * 2 ^ h.k) 64

/-- Offsets of the arrays within a sub-table region (07 Table 7.2). -/
def HtHdr.offNext (h : HtHdr) : Nat := 128 + 4 * 2 ^ h.b
def HtHdr.offHash (h : HtHdr) : Nat := h.offNext + 4 * h.cap
def HtHdr.offKey (h : HtHdr) : Nat := h.offHash + 8 * h.cap
def HtHdr.offRest (h : HtHdr) : Nat := h.offKey + 8 * h.cap
def HtHdr.offSlot (h : HtHdr) (i : Nat) : Nat := h.offRest + h.cap / 8 + i * (32 * h.cap + h.cap / 8)

/-- The size of a sub-table region (07 R228). -/
def HtHdr.regionSize (h : HtHdr) : Nat :=
  alignUp (if h.kind = 1 then h.offRest + 8 * h.cap + h.cap / 8 else h.offSlot h.slots) 64

/-- The table's size (07 R228). -/
def HtHdr.size (h : HtHdr) : Nat := h.regionBase + 2 ^ h.k * h.regionSize

/-- Where sub-table j begins. -/
def HtHdr.sub (h : HtHdr) (j : Nat) : Nat := h.regionBase + j * h.regionSize

/-- The sub-table of a hash (07 R231). -/
def HtHdr.subOf (h : HtHdr) (x : Nat) : Nat := x / 2 ^ (64 - h.k)

/-- The bucket of a hash (07 R231). -/
def HtHdr.bucketOf (h : HtHdr) (x : Nat) : Nat := x / 2 ^ (64 - h.k - h.b) % 2 ^ h.b

/-- The fields of a table header (07 Table 7.1). -/
def htOf (b : List Byte) : HtHdr :=
  { kind := leAt b 4 1, k := leAt b 5 1, b := leAt b 6 1, slots := leAt b 7 1, cap := leAt b 8 4,
    keyTag := tagOf (leAt b 12 2), mark := leAt b 14 1 == 1,
    vtags := (List.range 8).map (fun i => tagOf (leAt b (16 + 2 * i) 2)),
    funcs := (List.range 8).map (fun i => leAt b (32 + i) 1) }

/-- Whether the tag word of slot i suits its function (07 Table 7.1). -/
def slotTagOk (func w : Nat) : Bool :=
  if func = 1 ∨ func = 2 then w == 5 else (tagOf w).ok && !isText (tagOf w).typ && decide (w < 2048)

/-- The first offending field of a table header (07 Table 7.1). -/
def htCheck (b : List Byte) : Option Nat :=
  let h := htOf b
  let join := decide (h.kind = 1)
  let keyOk := h.keyTag.ok && isLane h.keyTag.typ && decide (leAt b 12 2 < 2048)
  lowest ([badIf (leAt b 0 4 != 0x48544C31) 0, badIf (h.kind != 1 && h.kind != 2) 4, badIf (decide (12 < h.k)) 5,
    badIf (decide (h.b < 4 ∨ 24 < h.b ∨ 32 < h.k + h.b)) 6,
    badIf (if join then h.slots != 0 else decide (h.slots = 0 ∨ 8 < h.slots)) 7,
    badIf (decide (h.cap % 64 ≠ 0 ∨ h.cap < 64 ∨ 67108864 < h.cap)) 8, badIf (!keyOk) 12, badIf (2 ≤ leAt b 14 1) 14,
    nonzero b 15 1, nonzero b 40 24] ++
    (List.range 8).map (fun i =>
      let w := leAt b (16 + 2 * i) 2
      badIf (if join then (if i = 0 then !((tagOf w).ok && isLane (tagOf w).typ && decide (w < 2048)) else w != 0)
        else decide (i < h.slots) && !slotTagOk (leAt b (32 + i) 1) w) (16 + 2 * i)) ++
    (List.range 8).map (fun i =>
      let f := leAt b (32 + i) 1
      badIf (if join then f != 0 else decide (i < h.slots ∧ 4 < f)) (32 + i)))

/-- BAD_HEADER of a table: the binding's number and the offset (07 R229). -/
def htFail {α : Type} (num off : Nat) : Op α := throw (.outc ⟨stBadHeader, 0, num * 2 ^ 32 + off⟩)

/-- A table's header read and checked at a task's first use (07 R229): kind, key tag, and the tests of the instruction
(offset of each with whether it holds). -/
def openTable (b : Bnd) (kind : Nat) (key : Tag) (tests : HtHdr → List (Bool × Nat)) : Op HtHdr := do
  let x ← b.read 0 64
  let h := htOf x
  match htCheck x with
  | some o => htFail b.num o
  | none =>
    if b.len < h.size then htFail b.num 0
    match lowest (badIf (h.kind != kind) 4 :: badIf (h.keyTag != key) 12 :: tests h) with
    | some o => htFail b.num o
    | none => pure h

/-- The count array entry of sub-table j (07 R227). -/
def countOf (b : Bnd) (j : Nat) : Op Nat := b.num8 (64 + 8 * j) 8

/-- An entry is claimed in sub-table j by one change of its count, or of its spilled bit where it is full under MARK (07 R230, R231,
R236): the entry's index; none under MARK. -/
def claimEntry (b : Bnd) (h : HtHdr) (j : Nat) : Op (Option Nat) := do
  let c ← b.rmw (64 + 8 * j) 8 (fun c =>
    if bitsAt c 0 32 < h.cap then putBits c 0 32 (bitsAt c 0 32 + 1) else if h.mark then putBits c 32 1 1 else c)
  let e := bitsAt c 0 32
  if h.cap ≤ e then
    if h.mark then
      upd (fun s => s.countReq b.req 0x403 1)
      pure none
    else throw (.outc ⟨stFull, 0, 0⟩)
  else pure (some e)

/-- An entry's link at the head of its bucket's chain (07 R231). -/
def linkEntry (b : Bnd) (h : HtHdr) (j bucket e : Nat) : Op Unit := do
  let base := h.sub j
  let old ← b.num8 (base + 128 + 4 * bucket) 4
  b.swap (base + h.offNext + 4 * e) 4 old
  b.swap (base + 128 + 4 * bucket) 4 (e + 1)

/-- The entries of a chain that a test names are unlinked from it (10 R382); off is where the link to the rest of the chain stands. -/
def unlinkChain (b : Bnd) (h : HtHdr) (j : Nat) (gone : Nat → Op Bool) : Nat → Nat → Op Unit
  | 0, _ => pure ()
  | fuel + 1, off => do
    let link ← b.num8 off 4
    if link ≠ 0 then
      let nextOff := h.sub j + h.offNext + 4 * (link - 1)
      if ← gone (link - 1) then do
        let next ← b.num8 nextOff 4
        b.swap off 4 next
        unlinkChain b h j gone fuel off
      else unlinkChain b h j gone fuel nextOff

/-- A lane as it is written: a NULL lane's bits are a free value. -/
def laneBits (v : Option Nat) (n : Nat) : Op Nat := do
  match v with
  | some x => pure x
  | none => freeBits (8 * n)

/-- The bytes of a lane as it is written. -/
def laneBytes (v : Option Nat) (n : Nat) : Op (List Byte) := do
  let x ← laneBits v n
  pure (natLE n x)

/-- BUILD of one row (07 R231). -/
def buildRow (b : Bnd) (h : HtHdr) (key : Nat) (payload : Option Nat) : Op Unit := do
  let x := hashLane key
  let j := h.subOf x
  match ← claimEntry b h j with
  | none => pure ()
  | some e =>
    let base := h.sub j
    b.swap (base + h.offHash + 8 * e) 8 x
    b.swap (base + h.offKey + 8 * e) 8 key
    let p ← laneBits payload 8
    b.swap (base + h.offRest + 8 * e) 8 p
    b.setBit (base + h.offRest + 8 * h.cap) e payload.isSome
    linkEntry b h j (h.bucketOf x) e
    upd (fun s => s.countReq b.req 0x402 1)

/-- A chain followed from a link (entry index + 1, or 0) to the first entry whose hash and key bits match (07 R232). -/
def chainFind (b : Bnd) (h : HtHdr) (j hash key : Nat) : Nat → Nat → Op (Option Nat)
  | 0, _ => pure none
  | fuel + 1, link => do
    if link = 0 then pure none
    else
      let e := link - 1
      let base := h.sub j
      let eh ← b.num8 (base + h.offHash + 8 * e) 8
      let ek ← b.num8 (base + h.offKey + 8 * e) 8
      if eh = hash ∧ ek = key then pure (some e)
      else
        let next ← b.num8 (base + h.offNext + 4 * e) 4
        chainFind b h j hash key fuel next

/-- The payload of an entry, NULL where its validity is 0. -/
def payloadOf (b : Bnd) (h : HtHdr) (j e : Nat) : Op (Option Nat) := do
  let base := h.sub j
  let v ← b.num8 (base + h.offRest + 8 * e) 8
  let ok ← b.bit (base + h.offRest + 8 * h.cap) e
  pure (if ok then some v else none)

/-- The cursor that marks a spilled sub-table (07 R232). -/
abbrev spillCursor : Nat := 2 ^ 64 - 1

/-- The pair of PROBE's results for a match (07 R232). -/
def probeResult (b : Bnd) (h : HtHdr) (j : Nat) : Option Nat → Op (Option Nat × Option Nat)
  | none => pure (none, none)
  | some e => do
    let p ← payloadOf b h j e
    pure (p, some (j * 2 ^ 32 + e))

/-- PROBE of one row, first match (07 R232). -/
def probeFirst (b : Bnd) (h : HtHdr) (key hash : Option Nat) : Op (Option Nat × Option Nat) := do
  match key, hash with
  | some k, some x =>
    let j := h.subOf x
    let c ← countOf b j
    if bitAt c 32 then pure (none, some spillCursor)
    else
      let link ← b.num8 (h.sub j + 128 + 4 * h.bucketOf x) 4
      let e ← chainFind b h j x k (h.cap + 1) link
      probeResult b h j e
  | _, _ => pure (none, none)

/-- PROBE of one row, next match (07 R233): the entries after the cursor's whose hash is the cursor entry's and whose key
bits are C(ra). -/
def probeNext (b : Bnd) (h : HtHdr) (key cursor : Option Nat) : Op (Option Nat × Option Nat) := do
  match key, cursor with
  | _, none => pure (none, none)
  | none, some c => pure (none, if c = spillCursor then some spillCursor else none)
  | some k, some c =>
    if c = spillCursor then pure (none, some spillCursor)
    else
      let j := c / 2 ^ 32
      let e := c % 2 ^ 32
      let x ← b.num8 (h.sub j + h.offHash + 8 * e) 8
      let link ← b.num8 (h.sub j + h.offNext + 4 * e) 4
      let m ← chainFind b h j x k (h.cap + 1) link
      probeResult b h j m

/-- An accumulator after one more value (07 R239): SUM, COUNT, COUNT_ALL, MIN, MAX. -/
def accumulate (func : Nat) (acc : Option Int) (v : Option Int) : Option Int :=
  match func, acc, v with
  | 1, a, some _ => some (a.getD 0 + 1)
  | 1, a, none => a
  | 2, a, _ => some (a.getD 0 + 1)
  | _, a, none => a
  | _, none, some x => some x
  | 0, some a, some x => some (a + x)
  | 3, some a, some x => some (if x < a then x else a)
  | _, some a, some x => some (if a < x then x else a)

/-- A chain followed to the group of a key (07 R240): validity and key bits equal. -/
def groupFind (b : Bnd) (h : HtHdr) (j : Nat) (key : Option Nat) : Nat → Nat → Op (Option Nat)
  | 0, _ => pure none
  | fuel + 1, link => do
    if link = 0 then pure none
    else
      let e := link - 1
      let base := h.sub j
      let ek ← b.num8 (base + h.offKey + 8 * e) 8
      let ok ← b.bit (base + h.offRest) e
      if (key = none ∧ ok = false) ∨ (ok = true ∧ key = some ek) then pure (some e)
      else
        let next ← b.num8 (base + h.offNext + 4 * e) 4
        groupFind b h j key fuel next

/-- A slot's value written: 256 bits and validity (07 Table 7.2). -/
def writeSlotVal (b : Bnd) (h : HtHdr) (j i e : Nat) (v : Option Int) : Op Unit := do
  let base := h.sub j + h.offSlot i
  let raw := ofSigned 256 (v.getD 0)
  b.swap (base + 16 * e) 16 raw
  b.swap (base + 16 * h.cap + 16 * e) 16 (raw / 2 ^ 128)
  b.setBit (base + 32 * h.cap) e v.isSome

/-- A slot's value. -/
def readSlotVal (b : Bnd) (h : HtHdr) (j i e : Nat) : Op (Option Int) := do
  let base := h.sub j + h.offSlot i
  let lo ← b.num8 (base + 16 * e) 16
  let hi ← b.num8 (base + 16 * h.cap + 16 * e) 16
  let ok ← b.bit (base + 32 * h.cap) e
  pure (if ok then some (toSigned 256 (lo + hi * 2 ^ 128)) else none)

/-- A new group (07 R240): its key, validity, and every slot at its start. -/
def newGroup (b : Bnd) (h : HtHdr) (j x : Nat) (key : Option Nat) : Op (Option Nat) := do
  match ← claimEntry b h j with
  | none => pure none
  | some e =>
    let base := h.sub j
    b.swap (base + h.offHash + 8 * e) 8 x
    let kb ← laneBits key 8
    b.swap (base + h.offKey + 8 * e) 8 kb
    b.setBit (base + h.offRest) e key.isSome
    for i in List.range h.slots do
      let f := h.funcs.getD i 0
      writeSlotVal b h j i e (if f = 1 ∨ f = 2 then some 0 else none)
    linkEntry b h j (h.bucketOf x) e
    upd (fun s => s.countReq b.req 0x404 1)
    pure (some e)

/-- GAGG of one row on slot i (07 R240 to R242). -/
def gaggRow (b : Bnd) (h : HtHdr) (i func : Nat) (key : Option Nat) (v : Option Int) : Op Unit := do
  let x := hashKey key
  let j := h.subOf x
  let link ← b.num8 (h.sub j + 128 + 4 * h.bucketOf x) 4
  let found ← groupFind b h j key (h.cap + 1) link
  let e ← (match found with
    | some e => pure (some e)
    | none => newGroup b h j x key)
  match e with
  | none => pure ()
  | some e =>
    let old ← readSlotVal b h j i e
    let new := accumulate func old v
    writeSlotVal b h j i e new
    if 10 ^ 38 ≤ (new.getD 0).natAbs then
      let _ ← b.rmw (64 + 8 * j) 8 (fun c => putBits c 33 1 1)

end Sys2Proof.Machine
end

