-- ==== Sys2Proof/Machine/ProgCheck.lean ====
section
/-! DEFINITION. Instructions of pipeline programs: encoding, the instruction table, and load checks 9 to 11 (05 R170 to
R179, R657 to R659). -/

namespace Sys2Proof.Machine

/-- The other fields of an instruction word (05 Table 5.11). -/
def insnOf (w : Nat) : Insn :=
  { rd := bitsAt w 50 6, dk := bitsAt w 48 2, ra := bitsAt w 42 6, ak := bitsAt w 40 2, rb := bitsAt w 34 6,
    bk := bitsAt w 32 2, g := bitAt w 31, gm := bitsAt w 28 3, mod := bitsAt w 24 4, typ := bitsAt w 19 5,
    scale := bitsAt w 13 6, imm := bitsAt w 0 13 }

/-- [23:13], the length L of TCMP and STCOL. -/
def insnLong (f : Insn) : Nat := f.typ * 64 + f.scale

/-- The tag of an instruction's type and scale. -/
def insnTag (f : Insn) : Tag := ⟨f.typ, f.scale⟩

/-- A row of 05 Table 5.12: opcode, stages, the kinds each operand may have (0 C, 1 M, 2 S, 3 pool constant), whether the
cost involves N, the modifiers. -/
structure OpSpec where
  op : Nat
  stages : List Nat
  rd : List Nat
  ra : List Nat
  rb : List Nat
  body : Bool
  mods : List Nat
  deriving DecidableEq, Repr

/-- All stages. -/
abbrev allStages : List Nat := [1, 2, 3, 4, 5, 6]

/-- The modifiers of a comparison (05 R172). -/
abbrev cmpMods : List Nat := [0, 1, 2, 3, 4, 5, 8, 9, 10, 11, 12, 13]

/-- The rounding modes. -/
abbrev roundMods : List Nat := [0, 1, 2, 3, 4, 5]

/-- 05 Table 5.12. -/
def opSpecs : List OpSpec := [
  ⟨0x01, allStages, [], [], [], false, [0]⟩,
  ⟨0x02, allStages, [], [], [], false, [0]⟩,
  ⟨0x03, allStages, [], [2], [], false, [0, 1, 2]⟩,
  ⟨0x04, allStages, [], [], [], false, [0]⟩,
  ⟨0x05, allStages, [], [], [], false, [0]⟩,
  ⟨0x06, allStages, [2], [], [2, 3], false, [0, 1, 2, 3, 4, 5, 6, 7]⟩,
  ⟨0x07, allStages, [2], [2], [2, 3], false, [0, 1, 2, 3, 4, 5, 6]⟩,
  ⟨0x10, [1], [0], [], [], true, [0]⟩,
  ⟨0x11, [1], [0], [], [], true, [0]⟩,
  ⟨0x12, [1], [0], [], [], true, [0]⟩,
  ⟨0x20, [2, 3, 4, 5], [1], [0, 2], [0, 2, 3], true, cmpMods⟩,
  ⟨0x21, [2, 3, 4, 5], [1], [0], [0, 3], true, cmpMods⟩,
  ⟨0x22, [2, 3, 4, 5], [1], [0], [3], true, [0, 8]⟩,
  ⟨0x23, [2, 3, 4, 5], [1], [0], [], true, [0, 1]⟩,
  ⟨0x24, [2, 3, 4, 5], [1], [1], [1], true, [0, 8]⟩] ++ [
  ⟨0x25, [2, 3, 4, 5], [1], [1], [1], true, [0, 8]⟩,
  ⟨0x26, [2, 3, 4, 5], [1], [1], [], true, [0, 8]⟩,
  ⟨0x27, [2, 3, 4, 5], [], [1], [], true, [0]⟩,
  ⟨0x30, [3], [0], [0], [0, 2, 3], true, roundMods⟩,
  ⟨0x31, [3], [0], [0], [0, 2, 3], true, roundMods⟩,
  ⟨0x32, [3], [0], [0], [0, 2, 3], true, roundMods⟩,
  ⟨0x33, [3], [0], [0], [0, 2, 3], true, roundMods⟩,
  ⟨0x34, [3], [0], [0], [0, 2, 3], true, [0]⟩,
  ⟨0x35, [3], [0], [0], [], true, [0]⟩,
  ⟨0x36, [3], [0], [0], [], true, [0]⟩,
  ⟨0x37, [3], [0], [0], [0, 2, 3], true, roundMods⟩,
  ⟨0x38, [3], [0], [0], [0, 2, 3], true, roundMods⟩,
  ⟨0x39, [3], [0], [0, 2], [], true, roundMods⟩,
  ⟨0x3A, [3], [0], [], [0, 2, 3], true, [0]⟩,
  ⟨0x3B, [3], [0], [0], [0, 2, 3], true, [0, 1, 2, 3, 4, 5, 6, 7]⟩] ++ [
  ⟨0x3C, [3], [0], [0], [0, 2, 3], true, [0]⟩,
  ⟨0x3D, [3], [0], [0], [], true, [0, 1, 2, 3, 4]⟩,
  ⟨0x3E, [3], [0], [0], [0, 2, 3], true, [0, 1]⟩,
  ⟨0x40, [4], [0], [0], [0], true, [0, 1]⟩,
  ⟨0x41, [4], [], [0], [0], true, [0]⟩,
  ⟨0x42, [4], [0], [0], [0], true, [0, 1]⟩,
  ⟨0x43, [4], [0], [0], [], true, [0]⟩,
  ⟨0x50, [5], [2], [0], [], true, [0, 1, 2, 3, 4]⟩,
  ⟨0x51, [5], [], [0], [0], true, [0, 1, 2, 3, 4]⟩,
  ⟨0x52, [5], [2], [2], [], false, roundMods⟩,
  ⟨0x60, [6], [2], [0], [], true, [0, 1]⟩,
  ⟨0x61, [6], [2], [0], [], true, [0]⟩,
  ⟨0x62, [6], [2], [2], [], false, [0]⟩,
  ⟨0x63, [6], [], [0], [0], true, [0]⟩,
  ⟨0x64, [6], [], [0], [], true, [0]⟩]

/-- The row of an opcode. -/
def opSpec (op : Nat) : Option OpSpec := opSpecs.find? (·.op == op)

/-- Whether the operand that a row marks "or —" is present (05 Table 5.12). -/
def raPresent (op mod : Nat) : Bool :=
  match op with
  | 0x03 => mod != 0
  | 0x50 => mod != 2
  | _ => true

/-- Whether the second source is present. -/
def rbPresent (op mod : Nat) : Bool :=
  match op with
  | 0x06 => mod == 0
  | 0x40 => mod == 1
  | 0x51 => mod != 2
  | _ => true

/-- Register numbers below F, 8 or 32; a pool constant's register field is 0 (05 R171, Table 5.13). -/
def regOk (p : Prog) (kind num : Nat) : Bool :=
  match kind with
  | 0 => decide (num < p.cols)
  | 1 => decide (num < 8)
  | 2 => decide (num < 32)
  | _ => num == 0

/-- An operand's kind and number obey the row. -/
def operandOk (p : Prog) (kinds : List Nat) (present : Bool) (kind num : Nat) : Bool :=
  if kinds.isEmpty || !present then kind == 0 && num == 0 else kinds.contains kind && regOk p kind num

/-- A binding is declared with the access used. -/
def bindOk (p : Prog) (n : Nat) (r w : Bool) : Bool :=
  p.binds.any (fun b => b.num == n && (!r || b.r) && (!w || b.w))

/-- A layout of the container. -/
def Prog.layout (p : Prog) (n : Nat) : Option Layout := (p.layouts.find? (fun l => l.1 == n)).map Prod.snd

/-- A pool constant's translation table is present. -/
def constTableOk (p : Prog) (n : Nat) : Bool :=
  match p.pool[n]? with
  | some k => !isText k.tag.typ || k.table == 0 || p.tables.any (fun t => t.1 == k.table)
  | none => false

/-- The imm field (05 Table 5.12). -/
def immOk (p : Prog) (op : Nat) (f : Insn) : Bool :=
  match op with
  | 0x03 | 0x04 => decide (1 ≤ f.imm ∧ f.imm ≤ 4095)
  | 0x10 => decide (f.imm ≤ 255)
  | 0x11 =>
    match p.layout (f.imm / 256) with
    | some l => decide (f.imm % 256 < l.fields.length)
    | none => false
  | 0x22 => decide (f.imm + f.scale ≤ p.pool.length)
  | 0x41 | 0x51 => bindOk p f.imm true true
  | 0x42 => bindOk p f.imm true false
  | 0x60 => bindOk p f.imm false true && (f.mod == 0 || bindOk p (f.imm + 1) false true)
  | 0x61 => (p.layout (f.imm / 256)).isSome && bitsAt f.imm 6 2 == 0 && bindOk p (f.imm % 64) false true
  | 0x62 => bindOk p f.imm false true
  | 0x64 => bindOk p f.imm true true
  | _ => if f.bk = 3 then constTableOk p f.imm else f.imm == 0

/-- Whether a DREC's target suits its field (08 R292). -/
def drecTarget (p : Prog) (f : Insn) : Bool :=
  match (p.layout (f.imm / 256)).bind (fun l => l.fields[f.imm % 256]?) with
  | none => false
  | some d =>
    if d.kind = 4 then f.typ == tChar && f.scale == 0
    else (isInt f.typ && f.scale == 0 && d.scale == 0) ||
      ((f.typ == tDec64 || f.typ == tDec128) && decide (d.scale ≤ f.scale))

/-- The type and scale fields (05 Table 5.12, 08 R263, R269). -/
def typeOk (p : Prog) (op : Nat) (f : Insn) : Bool :=
  let pairOk (limit : Nat) : Bool := f.typ != tDec128 || (f.rd % 2 == 0 && decide (f.rd + 1 < limit))
  match op with
  | 0x10 | 0x3A | 0x3B | 0x3C => (insnTag f).ok && pairOk p.cols
  | 0x11 => (insnTag f).ok && pairOk p.cols && drecTarget p f
  | 0x12 | 0x40 => insnTag f == ⟨tUint64, 0⟩
  | 0x30 | 0x31 | 0x32 | 0x33 | 0x35 | 0x36 | 0x37 | 0x38 | 0x39 => (insnTag f).ok && isNum f.typ && pairOk p.cols
  | 0x34 => (insnTag f).ok && isInt f.typ
  | 0x3D => insnTag f == ⟨tInt32, 0⟩
  | 0x3E => insnTag f == ⟨tDate, 0⟩ || insnTag f == ⟨tTimestamp, 0⟩
  | 0x43 => f.typ == tUint32 && decide (1 ≤ f.scale ∧ f.scale ≤ 12)
  | 0x22 => f.typ == 0 && decide (1 ≤ f.scale)
  | 0x21 => decide (1 ≤ insnLong f)
  | 0x52 => (insnTag f).ok && pairOk 32
  | 0x60 => true
  | _ => f.typ == 0 && f.scale == 0

/-- Alignment of mask pairs, accumulators and PROBE's destinations (05 R153, R172, 07 R232). -/
def alignOk (p : Prog) (op : Nat) (f : Insn) : Bool :=
  match op with
  | 0x20 | 0x21 | 0x22 => f.mod < 8 || f.rd % 2 == 0
  | 0x24 | 0x25 => f.mod < 8 || (f.rd % 2 == 0 && f.ra % 2 == 0 && f.rb % 2 == 0)
  | 0x26 => f.mod < 8 || (f.rd % 2 == 0 && f.ra % 2 == 0)
  | 0x42 => decide (f.rd + 1 < p.cols)
  | 0x50 => f.rd % 4 == 0
  | 0x52 => f.ra % 4 == 0
  | 0x60 => f.mod == 0 || decide (f.rd < 31)
  | 0x63 => bindOk p 63 true false
  | _ => true

/-- Check 9 on one instruction by its own fields and the container's entries (05 R170 to R174); uses are the stages and
parts it stands in. -/
def fieldsOk (p : Prog) (op : Nat) (f : Insn) (uses : List (Nat × Nat)) : Bool :=
  match opSpec op with
  | none => false
  | some sp =>
    uses.all (fun u => sp.stages.contains u.1 && (!sp.body || u.2 == 1)) && sp.mods.contains f.mod &&
      (f.g || f.gm == 0) && (!f.g || sp.body) && operandOk p sp.rd true f.dk f.rd &&
      operandOk p sp.ra (raPresent op f.mod) f.ak f.ra && operandOk p sp.rb (rbPresent op f.mod) f.bk f.rb &&
      typeOk p op f && immOk p op f && alignOk p op f

/-- The instructions of a part: from its entry to the first END met in sequence (05 R176); whether END was met. -/
def partFrom (code : List Nat) : Nat → Nat → List (Nat × Nat) × Bool
  | 0, _ => ([], false)
  | fuel + 1, i =>
    match code[i]? with
    | none => ([], false)
    | some w =>
      if insnOp w = 1 then ([(i, w)], true)
      else
        let r := partFrom code fuel (i + 1)
        ((i, w) :: r.1, r.2)

/-- The entry of a part of a stage of a phase. -/
def partEntry (p : Prog) (phase stage part : Nat) : Nat :=
  ((p.phases[phase]?).bind (fun e => e.entries[3 * (stage - 1) + part]?)).getD 0xFFFF

/-- A part's instructions, each with its number. -/
def partCode (p : Prog) (phase stage part : Nat) : List (Nat × Nat) × Bool :=
  let e := partEntry p phase stage part
  if e = 0xFFFF then ([], true) else partFrom p.code (p.code.length + 1) e

/-- The innermost LOOP around each instruction of a part, by its place in the part, and the offences of R176's pairing
and nesting. -/
def loopsOf : List (Nat × Nat) → Nat → List Nat → List (Option Nat) × List Nat
  | [], _, stack => ([], match stack.getLast? with | some n => [n] | none => [])
  | (n, w) :: rest, k, stack =>
    let op := insnOp w
    if op = 4 then
      let r := loopsOf rest (k + 1) (n :: stack)
      (stack.head? :: r.1, (if 4 ≤ stack.length then [n] else []) ++ r.2)
    else if op = 5 then
      let r := loopsOf rest (k + 1) stack.tail
      (stack.head? :: r.1, (if stack.isEmpty then [n] else []) ++ r.2)
    else
      let r := loopsOf rest (k + 1) stack
      (stack.head? :: r.1, r.2)

/-- The offences of R176 in a part, and for each instruction whether its writes are ones that no BR skips and no LOOP
body contains (05 R179). -/
def structureOf (code : List (Nat × Nat)) (ended : Bool) : List Nat × List Bool :=
  let (encl, bad1) := loopsOf code 0 []
  let n := code.length
  let idx := (List.range n).zip code
  let brs := idx.filter (fun x => insnOp x.2.2 == 3)
  let target (x : Nat × Nat × Nat) : Nat := x.1 + (insnOf x.2.2).imm + 1
  let bad2 := (brs.filter (fun x => decide (n ≤ target x) || encl[target x]? != encl[x.1]?)).map (fun x => x.2.1)
  let bad0 := if ended then [] else (code.head?.map (·.1)).toList
  (bad0 ++ bad1 ++ bad2,
    (List.range n).map (fun k => (encl[k]?).join.isNone && !brs.any (fun x => decide (x.1 < k ∧ k < target x))))

/-- The tag that stands for a type known only from a table at run time (07 R232: PROBE's payload). -/
abbrev dynTag : Tag := ⟨31, 0⟩

/-- The flow of tags through a phase (05 R179, R659): per column register whether a sure write reaches, and the tags
that reach; per scalar its stage and tags; per mask its stage; numbers failing checks 9 and 10; costs. -/
structure Flow where
  cols : List (Nat × Bool × List Tag)
  scal : List (Nat × Nat × List Tag)
  masks : List (Nat × Nat)
  e9 : List Nat
  e10 : List Nat
  cost : Nat
  deriving DecidableEq, Repr

/-- Where the flow stands: the program, stage, part, instruction number, whether its writes are sure. -/
structure Here where
  prog : Prog
  stage : Nat
  part : Nat
  num : Nat
  sure : Bool
  deriving DecidableEq, Repr

/-- Check 9 fails here where a condition does not hold. -/
def Flow.need9 (fl : Flow) (h : Here) (ok : Bool) : Flow := if ok then fl else { fl with e9 := h.num :: fl.e9 }

/-- Check 10 fails here where a condition does not hold. -/
def Flow.need10 (fl : Flow) (h : Here) (ok : Bool) : Flow := if ok then fl else { fl with e10 := h.num :: fl.e10 }

/-- What reaches a column register. -/
def Flow.colAt (fl : Flow) (r : Nat) : Bool × List Tag :=
  match fl.cols.find? (fun c => c.1 == r) with
  | some c => c.2
  | none => (false, [])

/-- The one tag that reaches a column register; none where there is no write or the writes give different tags. -/
def Flow.colTag (fl : Flow) (r : Nat) : Option Tag :=
  match (fl.colAt r).2 with
  | [t] => if t.typ = tDec128 ∧ (fl.colAt (r + 1)).2 ≠ [noTag] then none else some t
  | _ => none

/-- A column register is read: its tag, with check 10 failing where it is not known or no sure write reaches, and check 9 where it is the
upper half of a DEC128 pair. -/
def Flow.readCol (fl : Flow) (h : Here) (r : Nat) : Option Tag × Flow :=
  let t := fl.colTag r
  let sure := (fl.colAt r).1 && ((t.map (·.typ)) != some tDec128 || (fl.colAt (r + 1)).1)
  (t, (fl.need9 h (t != some noTag)).need10 h (t.isSome && sure))

/-- The tags that reach the column registers, each with whether a sure write is among those before. -/
abbrev ColTags := List (Nat × Bool × List Tag)

/-- A write of a column register: no earlier tag reaches beyond it. -/
def setTag (cols : ColTags) (sure : Bool) (r : Nat) (t : Tag) : ColTags :=
  (r, ((cols.find? (fun c => c.1 == r)).any (·.2.1) || sure, [t])) :: cols.filter (fun c => c.1 != r)

/-- Two paths meet: the tags of either reach. -/
def joinTags (a b : ColTags) : ColTags :=
  b.foldl (fun m c =>
    match m.find? (fun x => x.1 == c.1) with
    | some x => (c.1, x.2.1 || c.2.1, x.2.2 ++ c.2.2.filter (fun t => !x.2.2.contains t)) :: m.filter (fun y => y.1 != c.1)
    | none => c :: m) a

/-- A tag reaches a column register, and no earlier one. -/
def Flow.put (fl : Flow) (sure : Bool) (r : Nat) (t : Tag) : Flow := { fl with cols := setTag fl.cols sure r t }

/-- A column register, or a DEC128 pair, is written. -/
def Flow.writeCol (fl : Flow) (h : Here) (r : Nat) (t : Tag) : Flow :=
  let fl1 := fl.put h.sure r t
  if t.typ = tDec128 then fl1.put h.sure (r + 1) noTag else fl1

/-- A scalar register's stage and tags. -/
def Flow.scalAt (fl : Flow) (r : Nat) : Option (Nat × List Tag) := (fl.scal.find? (fun c => c.1 == r)).map Prod.snd

/-- A scalar register is read (05 R179). -/
def Flow.readScal (fl : Flow) (h : Here) (r : Nat) : Option Tag × Flow :=
  if r < h.prog.statics then (h.prog.argTags[r]?, fl)
  else match fl.scalAt r with
    | some (s, [t]) =>
      let ok := s == h.stage || (h.part == 2 && decide (s < h.stage))
      (some t, fl.need10 h ok)
    | _ => (none, fl.need10 h false)

/-- A scalar register is written with a tag, or keeps its tag (none). -/
def Flow.writeScal (fl : Flow) (h : Here) (r : Nat) (t : Option Tag) : Flow :=
  let put (fl : Flow) (r : Nat) (t : Option Tag) : Flow :=
    if r < h.prog.statics then fl.need10 h false
    else
      let old := fl.scalAt r
      let fl1 := fl.need10 h (match old with | some o => o.1 == h.stage | none => true)
      let s := (old.map Prod.fst).getD h.stage
      let ts := (old.map Prod.snd).getD []
      let ts1 := match t with
        | some x => if ts.contains x then ts else x :: ts
        | none => ts
      let fl2 := fl1.need10 h (decide (ts1.length ≤ 1))
      { fl2 with scal := (r, s, ts1) :: fl2.scal.filter (fun c => c.1 != r) }
  let fl1 := put fl r t
  if (t.map (·.typ)) = some tDec128 then (put fl1 (r + 1) (some noTag)).need9 h (r % 2 == 0 && decide (r < 31)) else fl1

/-- A mask register, or a pair, is named in a stage (05 R179). -/
def Flow.useMask (fl : Flow) (h : Here) (r : Nat) (pair : Bool) : Flow :=
  (if pair then [r, r + 1] else [r]).foldl (fun fl m =>
    match fl.masks.find? (fun x => x.1 == m) with
    | some x => fl.need10 h (x.2 == h.stage)
    | none => { fl with masks := (m, h.stage) :: fl.masks }) fl

/-- A source operand's tag. -/
def Flow.source (fl : Flow) (h : Here) (kind num imm : Nat) : Option Tag × Flow :=
  match kind with
  | 0 => fl.readCol h num
  | 2 => fl.readScal h num
  | _ => ((h.prog.pool[imm]?).map (·.tag), fl)

/-- A condition on a tag where it is known before run time. -/
def known (t : Option Tag) (p : Tag → Bool) : Bool :=
  match t with
  | some x => x == dynTag || p x
  | none => true

/-- Whether two types may be compared (06 R214). -/
def comparable (a b : Nat) : Bool :=
  (isNum a && isNum b) || (a == b && (a == tBool || a == tDate || a == tTimestamp))

/-- The class of a cost (05 R665). -/
def classCost (n t : Nat) : Nat := if t = tDec128 then n else if t = tDec64 then n / 2 else n / 4

/-- A rounded-up quotient. -/
def ceilDiv (a b : Nat) : Nat := (a + b - 1) / b

/-- The type of a tag that is known, else none. -/
def typOf (t : Option Tag) : Nat := (t.map (·.typ)).getD 0

/-- The wider of two types, by class. -/
def wider (a b : Nat) : Nat :=
  if a = tDec128 ∨ b = tDec128 then tDec128 else if a = tDec64 ∨ b = tDec64 then tDec64 else a

/-- The check of an arithmetic instruction's operand types (08 R269; R268; MOV, CSEL, COALESCE). -/
def arithTypes (op : Nat) (f : Insn) (ta tb : Option Tag) : Bool :=
  let num (t : Option Tag) : Bool := known t (fun x => isNum x.typ)
  match op with
  | 0x34 => known ta (fun x => isInt x.typ) && known tb (fun x => isInt x.typ)
  | 0x35 | 0x36 | 0x39 => num ta
  | 0x3A => known tb (fun x => x == insnTag f)
  | 0x3B | 0x3C =>
    if isNum f.typ then num ta && num tb
    else known ta (fun x => x.typ == f.typ) && known tb (fun x => x.typ == f.typ)
  | 0x3D => known ta (fun x => x.typ == tDate || x.typ == tTimestamp)
  | 0x3E => known ta (fun x => x.typ == f.typ) && known tb (fun x => isInt x.typ)
  | _ => num ta && num tb

/-- The registers of a STREC: one per field, a pair where the register is DEC128 (08 R296). -/
def strecFlow (h : Here) : List LField → Flow → Nat → Flow
  | [], fl, _ => fl
  | d :: ds, fl, r =>
    if h.prog.cols ≤ r then fl.need9 h false
    else
      let (t, fl1) := fl.readCol h r
      let ok := known t (fun x => if d.kind = 4 then isText x.typ else isNum x.typ && decide (x.scale ≤ d.scale))
      let pair := typOf t == tDec128
      let fl2 := fl1.need9 h (ok && (!pair || (r % 2 == 0 && decide (r + 1 < h.prog.cols))))
      strecFlow h ds fl2 (if pair then r + 2 else r + 1)

/-- The stage's own instructions with columns in and out: tags, checks, and the cost (05 Table 5.12, R659). -/
def flowInsn (h : Here) (n op : Nat) (f : Insn) (fl0 : Flow) : Flow × Nat :=
  let fl := if f.g then fl0.useMask h f.gm false else fl0
  let pair := decide (8 ≤ f.mod)
  match op with
  | 0x01 => (fl, 0)
  | 0x02 => (fl, 1)
  | 0x03 => ((if f.mod = 0 then fl else (fl.readScal h f.ra).2), 1)
  | 0x04 => (fl, 1)
  | 0x05 => (fl, 0)
  | 0x06 =>
    if f.mod = 0 then
      let (t, fl1) := fl.source h f.bk f.rb f.imm
      (fl1.writeScal h f.rd t, 1)
    else (fl.writeScal h f.rd (some ⟨tUint64, 0⟩), 1)
  | 0x07 =>
    let (ta, fl1) := fl.readScal h f.ra
    let (tb, fl2) := fl1.source h f.bk f.rb f.imm
    let ok (t : Option Tag) : Bool := known t (fun x => x == ⟨tInt64, 0⟩ || x == ⟨tUint64, 0⟩)
    ((fl2.need9 h (ok ta && ok tb)).writeScal h f.rd ta, 1)
  | 0x10 | 0x11 => (fl.writeCol h f.rd (insnTag f), if f.typ = tDec128 then n else n / 2)
  | 0x12 => (fl.writeCol h f.rd ⟨tUint64, 0⟩, n / 4)
  | 0x20 =>
    let (ta, fl1) := fl.source h f.ak f.ra f.imm
    let (tb, fl2) := fl1.source h f.bk f.rb f.imm
    let ok := known ta (fun x => known tb (fun y => comparable x.typ y.typ)) &&
      known ta (fun x => comparable x.typ x.typ) && known tb (fun y => comparable y.typ y.typ)
    ((fl2.need9 h ok).useMask h f.rd pair, classCost n (wider (typOf ta) (typOf tb)))
  | 0x21 =>
    let (ta, fl1) := fl.source h f.ak f.ra f.imm
    let (tb, fl2) := fl1.source h f.bk f.rb f.imm
    let ok (t : Option Tag) : Bool := match t with | some x => isText x.typ | none => true
    ((fl2.need9 h (ok ta && ok tb)).useMask h f.rd pair, n * ceilDiv (insnLong f) 16)
  | 0x22 =>
    let (ta, fl1) := fl.readCol h f.ra
    let ks := ((h.prog.pool.drop f.imm).take f.scale).map (·.tag.typ)
    let ok := known ta (fun x => ks.all (comparable x.typ)) && ks.all (fun k => comparable k k)
    ((fl1.need9 h ok).useMask h f.rd pair, f.scale * classCost n (ks.foldl wider (typOf ta)))
  | 0x23 => (((fl.readCol h f.ra).2).useMask h f.rd false, ceilDiv n 128)
  | 0x24 | 0x25 => (((fl.useMask h f.ra pair).useMask h f.rb pair).useMask h f.rd pair, ceilDiv n 128)
  | 0x26 => ((fl.useMask h f.ra pair).useMask h f.rd pair, ceilDiv n 128)
  | 0x27 => (fl.useMask h f.ra false, ceilDiv n 128)
  | 0x40 =>
    let (_, fl1) := fl.readCol h f.ra
    let fl2 := if f.mod = 1 then
        let (tb, fl3) := fl1.readCol h f.rb
        fl3.need9 h (known tb (fun x => x.typ == tUint64))
      else fl1
    (fl2.writeCol h f.rd ⟨tUint64, 0⟩, n / 2)
  | 0x41 =>
    let (ta, fl1) := fl.readCol h f.ra
    let (tb, fl2) := fl1.readCol h f.rb
    (fl2.need9 h (known ta (fun x => isLane x.typ) && known tb (fun x => isLane x.typ)), n / 2)
  | 0x42 =>
    let (ta, fl1) := fl.readCol h f.ra
    let (tb, fl2) := fl1.readCol h f.rb
    let fl3 := fl2.need9 h (known ta (fun x => isLane x.typ) && known tb (fun x => x.typ == tUint64))
    ((fl3.writeCol h f.rd dynTag).writeCol h (f.rd + 1) ⟨tUint64, 0⟩, n / 2)
  | 0x43 =>
    let (ta, fl1) := fl.readCol h f.ra
    ((fl1.need9 h (known ta (fun x => x.typ == tUint64))).writeCol h f.rd ⟨tUint32, 0⟩, n / 4)
  | 0x50 =>
    let (ta, fl1) := if f.mod = 2 then (some ⟨tInt64, 0⟩, fl) else fl.readCol h f.ra
    let ok := match f.mod with
      | 0 => known ta (fun x => isNum x.typ)
      | 3 | 4 => known ta (fun x => comparable x.typ x.typ)
      | _ => true
    let t := if f.mod = 1 ∨ f.mod = 2 then some ⟨tInt64, 0⟩ else ta
    let fl2 := (fl1.need9 h ok)
    let fl3 := [1, 2, 3].foldl (fun fl i => fl.writeScal h (f.rd + i) (some noTag)) (fl2.writeScal h f.rd t)
    (fl3, if f.mod = 1 ∨ f.mod = 2 then ceilDiv n 128 else classCost n (typOf ta))
  | 0x51 =>
    let (ta, fl1) := fl.readCol h f.ra
    let (tb, fl2) := if f.mod = 2 then (some ⟨tInt64, 0⟩, fl1) else fl1.readCol h f.rb
    let ok := match f.mod with
      | 0 => known tb (fun x => isNum x.typ)
      | 3 | 4 => known tb (fun x => comparable x.typ x.typ)
      | _ => true
    let sameKey := h.prog.code.all (fun w => insnOp w != 0x51 || (insnOf w).imm != f.imm || (insnOf w).ra == f.ra)
    (fl2.need9 h (ok && sameKey && known ta (fun x => isLane x.typ)), n / 2)
  | 0x52 =>
    let (ta, fl1) := fl.readScal h f.ra
    let accNamed := h.prog.code.any (fun w => insnOp w == 0x50 && (insnOf w).rd == f.ra)
    let ok := known ta (fun x =>
      if isNum x.typ then isNum f.typ
      else comparable x.typ x.typ && f.typ == x.typ && f.scale == 0 && f.mod == 0)
    ((((fl1.need9 h ok).need10 h accNamed)).writeScal h f.rd (some (insnTag f)), 1)
  | 0x60 =>
    let (ta, fl1) := fl.readCol h f.ra
    let offs := if f.mod = 1 then [f.rd, f.rd + 1] else [f.rd]
    let fl2 := offs.foldl (fun fl r =>
      let (t, fl3) := fl.readScal h r
      (fl3.need9 h (known t (fun x => x == ⟨tInt64, 0⟩ || x == ⟨tUint64, 0⟩))).writeScal h r none) fl1
    let ok := known ta (fun x => if isText x.typ then insnLong f != 0 else insnLong f == 0)
    let c := if isText (typOf ta) then n * ceilDiv (insnLong f) 16 else if typOf ta = tDec128 then n else n / 2
    (fl2.need9 h ok, c)
  | 0x61 =>
    let (t, fl1) := fl.readScal h f.rd
    let fl2 := (fl1.need9 h (known t (fun x => x == ⟨tInt64, 0⟩ || x == ⟨tUint64, 0⟩))).writeScal h f.rd none
    match h.prog.layout (f.imm / 256) with
    | some l => (strecFlow h l.fields fl2 f.ra, n * ceilDiv l.len 16)
    | none => (fl2, n)
  | 0x62 =>
    let (t, fl1) := fl.readScal h f.rd
    let (ts, fl2) := fl1.readScal h f.ra
    ((fl2.need9 h (known t (fun x => x == ⟨tInt64, 0⟩ || x == ⟨tUint64, 0⟩) &&
      known ts (fun x => x != noTag))).writeScal h f.rd none, 1)
  | 0x63 =>
    let (ta, fl1) := fl.readCol h f.ra
    let (tb, fl2) := fl1.readCol h f.rb
    let two := !(typOf tb == tDec128)
    let (tc, fl3) := if two then fl2.readCol h (f.rb + 1) else (none, fl2)
    let one := (h.prog.code.filter (fun w => insnOp w == 0x63)).length
    let first := (h.prog.code.findIdx? (fun w => insnOp w == 0x63)) == some h.num
    (fl3.need9 h (known ta (fun x => isLane x.typ) && known tb (fun x => isLane x.typ || x.typ == tDec128) &&
      known tc (fun x => isLane x.typ) && (!two || decide (f.rb + 1 < h.prog.cols)) && (one ≤ 1 || first)), n / 8)
  | 0x64 =>
    let (ta, fl1) := fl.readCol h f.ra
    (fl1.need9 h (known ta (fun x => x == ⟨tUint64, 0⟩ || x == ⟨tInt64, 0⟩)), n * ceilDiv (8 + 8 * (h.prog.cols - 1 - f.ra)) 16)
  | _ =>
    let (ta, fl1) := if op = 0x3A then (none, fl) else fl.source h f.ak f.ra f.imm
    let (tb, fl2) := if op = 0x35 ∨ op = 0x36 ∨ op = 0x39 ∨ op = 0x3D then (none, fl1) else fl1.source h f.bk f.rb f.imm
    let fl3 := if op = 0x3B then fl2.useMask h (f.mod % 8) false else fl2
    let c := if op = 0x33 ∨ op = 0x34 then 4 * classCost n f.typ
      else if op = 0x3D ∨ op = 0x3E then n / 4 else classCost n f.typ
    ((fl3.need9 h (arithTypes op f ta tb)).writeCol h f.rd (insnTag f), c)

/-- The column registers that an instruction writes, each with its tag. -/
def insnCols (op : Nat) (f : Insn) : List (Nat × Tag) :=
  match op with
  | 0x12 | 0x40 => [(f.rd, ⟨tUint64, 0⟩)]
  | 0x42 => [(f.rd, dynTag), (f.rd + 1, ⟨tUint64, 0⟩)]
  | 0x43 => [(f.rd, ⟨tUint32, 0⟩)]
  | _ => if op = 0x10 ∨ op = 0x11 ∨ (0x30 ≤ op ∧ op ≤ 0x3E) then
      (f.rd, insnTag f) :: (if f.typ = tDec128 then [(f.rd + 1, noTag)] else []) else []

/-- Two paths meet, where each is possible. -/
def joinPaths : Option ColTags → Option ColTags → Option ColTags
  | some a, some b => some (joinTags a b)
  | some a, none => some a
  | none, b => b

/-- The paths that BRs bring to a place meet the one that falls through to it. -/
def arrive (here : Option ColTags) (outs : List (Nat × ColTags)) (k : Nat) : Option ColTags :=
  (outs.filter (fun x => x.1 == k)).foldl (fun m x => joinPaths m (some x.2)) here

/-- What a LOOP's body leaves in the column registers at its ENDLOOP, from what they hold at its head (05 R179); none where the ENDLOOP is
not reached. k is the place in the part, depth the LOOPs open, outs what BRs carry to later places. -/
def bodyTags (skip : List Nat) : List (Nat × Nat) → Nat → Nat → Option ColTags → List (Nat × ColTags) → Option ColTags
  | [], _, _, here, _ => here
  | (n, w) :: rest, k, depth, here0, outs =>
    let op := insnOp w
    let f := insnOf w
    let here := arrive here0 outs k
    if op = 5 then (if depth ≤ 1 then here else bodyTags skip rest (k + 1) (depth - 1) here outs)
    else if op = 4 then
      let head := if f.imm ≤ 1 then here else joinPaths here (bodyTags skip rest (k + 1) 1 here [])
      bodyTags skip rest (k + 1) (depth + 1) head outs
    else if op = 3 then
      let outs1 := match here with
        | some c => (k + 1 + f.imm, c) :: outs
        | none => outs
      bodyTags skip rest (k + 1) depth (if f.mod = 0 then none else here) outs1
    else if skip.contains n then bodyTags skip rest (k + 1) depth here outs
    else bodyTags skip rest (k + 1) depth (here.map (fun c => (insnCols op f).foldl (fun c x => setTag c false x.1 x.2) c)) outs

/-- Where the flow stands in a part: the place, whether it is reached by falling through, what BRs carry to later places. -/
structure Path where
  place : Nat
  reached : Bool
  outs : List (Nat × ColTags)
  deriving DecidableEq, Repr

/-- The flow as it comes to an instruction: the paths that meet there, and at a LOOP's head what its body leaves for the next trip. -/
def flowArrive (skip : List Nat) (op imm : Nat) (rest : List (Nat × Nat)) (p : Path) (fl : Flow) : Flow × Path :=
  let here := arrive (if p.reached then some fl.cols else none) p.outs p.place
  let head := if op = 4 ∧ 1 < imm then joinPaths here (bodyTags skip rest (p.place + 1) 1 here []) else here
  ({ fl with cols := head.getD fl.cols }, { p with reached := head.isSome })

/-- The path after an instruction: a BR carries what reaches it to its target, and BR 0 alone does not fall through. -/
def flowLeave (op : Nat) (f : Insn) (fl : Flow) (p : Path) : Path :=
  if op = 3 then ⟨p.place + 1, p.reached && f.mod != 0, if p.reached then (p.place + 1 + f.imm, fl.cols) :: p.outs else p.outs⟩
  else { p with place := p.place + 1 }

/-- A part's flow: the tags, and the costs of its instructions in order (trip count above 0 for a LOOP). -/
def flowPart (p : Prog) (stage part : Nat) (skip : List Nat) :
    List (Nat × Nat) → List Bool → Path → Flow → List (Nat × Nat × Nat) → Flow × List (Nat × Nat × Nat)
  | [], _, _, fl, cs => (fl, cs.reverse)
  | (i, w) :: rest, sure, path, fl, cs =>
    let op := insnOp w
    let f := insnOf w
    let (fl1, path1) := flowArrive skip op f.imm rest path fl
    if skip.contains i then flowPart p stage part skip rest sure.tail (flowLeave op f fl1 path1) fl1 cs
    else
      let h : Here := ⟨p, stage, part, i, sure.headD false⟩
      let (fl2, c) := flowInsn h (2 ^ p.batchLog) op f fl1
      flowPart p stage part skip rest sure.tail (flowLeave op f fl2 path1) fl2 ((op, c, f.imm) :: cs)

/-- A part's cost: LOOP adds its body's cost as many times as its trip count (05 R177, Table 5.12). -/
def partCost : List (Nat × Nat × Nat) → Nat → List (Nat × Nat) → Nat
  | [], acc, _ => acc
  | (op, c, imm) :: rest, acc, stack =>
    if op = 4 then partCost rest 0 ((acc, imm) :: stack)
    else if op = 5 then
      match stack with
      | (outer, trips) :: st => partCost rest (outer + 1 + trips * (acc + 1)) st
      | [] => partCost rest acc []
    else partCost rest (acc + c) stack

/-- The stages and parts in the order in which they are checked: PROLOGUEs, BODYs, EPILOGUEs (05 R178). -/
def partOrder : List (Nat × Nat) := [0, 1, 2].flatMap (fun p => allStages.map (fun s => (s, p)))

/-- One pass of the flow over a phase: the flow, and the parts' entries with their costs. -/
def flowPhase (p : Prog) (skip : List Nat) (phase : Nat) (scal : List (Nat × Nat × List Tag)) : Flow × List (Nat × Nat) :=
  partOrder.foldl (fun acc sp =>
    let (code, ended) := partCode p phase sp.1 sp.2
    let (bad, sure) := structureOf code ended
    let fl0 := { acc.1 with e10 := bad ++ acc.1.e10 }
    let (fl, cs) := flowPart p sp.1 sp.2 skip code sure ⟨0, true, []⟩ fl0 []
    match code.head? with
    | some first => (fl, (first.1, partCost cs 0 []) :: acc.2)
    | none => (fl, acc.2)) (⟨[], scal, [], [], [], 0⟩, [])

/-- The scalar tags of a phase, learnt until they no longer change. -/
def learnScal (p : Prog) (skip : List Nat) (phase : Nat) : Nat → List (Nat × Nat × List Tag) → List (Nat × Nat × List Tag)
  | 0, sc => sc
  | n + 1, sc => learnScal p skip phase n (flowPhase p skip phase sc).1.scal

/-- The numbers of a program's instructions with the stages and parts each stands in. -/
def usesOf (p : Prog) : List (Nat × Nat × Nat) :=
  (List.range p.phases.length).flatMap (fun ph =>
    partOrder.flatMap (fun sp => (partCode p ph sp.1 sp.2).1.map (fun x => (x.1, sp.1, sp.2))))

/-- The least of a list. -/
def least (l : List Nat) : Option Nat :=
  l.foldl (fun m x => match m with | some y => some (min x y) | none => some x) none

/-- Load checks 9 to 11 (05 Table 5.13, R659). -/
def codeCheck (p : Prog) : Option Outc :=
  let fail (num : Nat) : Outc := loadFail stBadCode p.codeBlock (p.codeOff + 8 * num)
  let uses := usesOf p
  let idx := (List.range p.code.length).zip p.code
  let bad := (idx.filter (fun x => !fieldsOk p (insnOp x.2) (insnOf x.2)
    ((uses.filter (fun u => u.1 == x.1)).map Prod.snd))).map Prod.fst
  let flows := (List.range p.phases.length).map (fun ph => flowPhase p bad ph (learnScal p bad ph 33 []))
  match least (bad ++ flows.flatMap (fun f => f.1.e9)) with
  | some n => some (fail n)
  | none =>
    match least (flows.flatMap (fun f => f.1.e10)) with
    | some n => some (fail n)
    | none => (least ((flows.flatMap Prod.snd).filterMap (fun c => if 1024 < c.2 then some c.1 else none))).map fail

/-- The tags of the accumulators that AGGs of a phase name (07 R238). -/
def accTags (p : Prog) (phase : Nat) : List (Nat × Nat × Tag) :=
  let fl := flowPhase p [] phase (learnScal p [] phase 33 [])
  let aggs := ([0, 1, 2].flatMap (fun part => (partCode p phase 5 part).1)).filter (fun x => insnOp x.2 == 0x50)
  aggs.map (fun x =>
    let f := insnOf x.2
    let t := ((fl.1.scalAt f.rd).map (fun o => o.2.headD noTag)).getD noTag
    (f.rd, f.mod, t))

end Sys2Proof.Machine
end

