-- ==== Sys2Proof/Machine/StoneOps.lean ====
section
/-! DEFINITION. What a stone's instructions act on: the context of an instruction, column, mask and scalar registers,
bindings, operands, active rows (05 R151 to R159). -/

namespace Sys2Proof.Machine

/-- A stone changed. -/
def State.setStone (s : State) (n : Nat) (f : Stone → Stone) : State :=
  { s with pipe := { s.pipe with stones := tupd (fun _ => Stone.empty) s.pipe.stones n f } }

/-- The running task of a stone changed. -/
def State.setRun (s : State) (n : Nat) (f : Run → Run) : State :=
  s.setStone n (fun st => { st with run := st.run.map f })

/-- A stage changed. -/
def Run.setStage (r : Run) (k : Nat) (f : Stage → Stage) : Run :=
  { r with stages := tupd (fun _ => Stage.empty) r.stages k f }

/-- The context of an instruction: the stone, the stage and part (0 PROLOGUE, 1 BODY, 2 EPILOGUE), the instruction's
number, the job, its slice and pipeline, the partition and its table entry, where its registers lie, the batch. -/
structure Ctx where
  stone : Nat
  stage : Nat
  part : Nat
  num : Nat
  job : Nat
  req : Req
  pj : PipeJob
  partn : Nat
  p : Part
  base : Nat
  bank : Nat
  batch : Option Batch
  epoch : Nat
  txn : Nat
  deriving DecidableEq, Repr

/-- The batch's rows; 0 where no batch is in the stage. -/
def Ctx.rows (c : Ctx) : Nat := (c.batch.map (·.rows)).getD 0

/-- The batch's first row within the partition. -/
def Ctx.firstRow (c : Ctx) : Nat := (c.batch.map (·.ord)).getD 0 * 2 ^ c.pj.prog.batchLog

/-- The number of a logical column register (05 R154). -/
def Ctx.phys (c : Ctx) (k : Nat) : Nat := c.base + (c.batch.map (·.frame)).getD 0 * c.pj.prog.cols + k

/-- The row that a fault at a row of the batch reports; 0xFFFF_FFFF outside a BODY (05 R191). -/
def Ctx.faultRow (c : Ctx) (row : Nat) : Nat := if c.part = 1 then c.firstRow + row else 0xFFFFFFFF

/-- A program fault with the stage as detail and partition:row as result (05 Table 5.15). -/
def Ctx.fault {α : Type} (c : Ctx) (status row : Nat) : Op α :=
  throw (.outc ⟨status, c.stage, c.partn * 2 ^ 32 + c.faultRow row⟩)

/-- A column register at reset: no tag, every lane NULL (log 5). -/
def Col.empty : Col := { tag := noTag, lanes := [] }

/-- What an unlisted lane of a column register is held as: NULL, or, in a task that has not written it, no 64-bit value. -/
def Col.unset (c : Col) (_ : Nat) : Option Nat := if c.fill.isSome then some (2 ^ 64) else none

/-- The contents of a register that a task has not written (log 5): a free value, NULL or not. -/
def freeLane (k : Nat) : Option Nat :=
  let v := Config.freeValue k
  if v % 2 = 0 then none else some (v / 2 % 2 ^ 64)

/-- A column register of a stone. -/
def State.col (s : State) (stone phys : Nat) : Col := tget (fun _ => Col.empty) (s.stone stone).cols phys

/-- A lane. -/
def Col.lane (c : Col) (row : Nat) : Option Nat :=
  let v := tget c.unset c.lanes row
  match c.fill with
  | some k => if v = some (2 ^ 64) then freeLane (k + row) else v
  | none => v

/-- A row of a logical column register: its lane, or the 128 bits of its pair. -/
def colRaw (s : State) (c : Ctx) (k row : Nat) : Option Nat :=
  let lo := s.col c.stone (c.phys k)
  match lo.lane row with
  | none => none
  | some v => if lo.tag.typ = tDec128 then some (v + (((s.col c.stone (c.phys (k + 1))).lane row).getD 0) * 2 ^ 64) else some v

/-- The tag of a logical column register. -/
def colTag (s : State) (c : Ctx) (k : Nat) : Tag := (s.col c.stone (c.phys k)).tag

/-- Lanes of a physical register set, and its tag. -/
def putCol (s : State) (stone phys : Nat) (t : Tag) (vs : List (Nat × Option Nat)) : State :=
  s.setStone stone (fun st => { st with cols := tupd (fun _ => Col.empty) st.cols phys (fun col =>
    { col with tag := t, lanes := vs.foldl (fun ls v => tset col.unset ls v.1 v.2) col.lanes }) })

/-- A logical column register, or its pair, written in the rows given; other lanes are kept (05 R158). -/
def writeCol (c : Ctx) (k : Nat) (t : Tag) (vs : List (Nat × Option Nat)) : Op Unit :=
  upd (fun s =>
    if t.typ = tDec128 then
      let lo := vs.map (fun v => (v.1, v.2.map (· % 2 ^ 64)))
      let hi := vs.map (fun v => (v.1, v.2.map (· / 2 ^ 64)))
      putCol (putCol s c.stone (c.phys k) t lo) c.stone (c.phys (k + 1)) noTag hi
    else putCol s c.stone (c.phys k) t vs)

/-- A scalar register at reset (log 5). -/
def Scalar.empty : Scalar := { tag := noTag, val := none }

/-- A scalar register of the bank in use. -/
def scalar (s : State) (c : Ctx) (n : Nat) : Scalar :=
  let x := tget (fun _ => Scalar.empty) (s.stone c.stone).scalars (c.bank * 32 + n)
  match x.fill with
  | some k => { tag := x.tag, val := freeLane k }
  | none => x

/-- A scalar register set. -/
def setScalar (s : State) (stone bank n : Nat) (v : Scalar) : State :=
  s.setStone stone (fun st => { st with scalars := tset (fun _ => Scalar.empty) st.scalars (bank * 32 + n) v })

/-- The bits of a scalar, or of its pair (05 R153). -/
def scalarRaw (s : State) (c : Ctx) (n : Nat) : Option Nat :=
  let x := scalar s c n
  match x.val with
  | none => none
  | some v => if x.tag.typ = tDec128 then some (v + ((scalar s c (n + 1)).val.getD 0) * 2 ^ 64) else some v

/-- A scalar, or its pair, written with a tag. -/
def putScalar (s : State) (c : Ctx) (n : Nat) (t : Tag) (raw : Option Nat) : State :=
  let s1 := setScalar s c.stone c.bank n { tag := t, val := raw.map (· % 2 ^ 64) }
  if t.typ = tDec128 then setScalar s1 c.stone c.bank (n + 1) { tag := noTag, val := raw.map (· / 2 ^ 64) } else s1

/-- A 256-bit accumulator Sn to Sn+3; none is NULL (05 R153). -/
def readAcc (s : State) (c : Ctx) (n : Nat) : Option Int :=
  (scalar s c n).val.map (fun _ =>
    toSigned 256 ((List.range 4).foldl (fun a i => a + ((scalar s c (n + i)).val.getD 0) * 2 ^ (64 * i)) 0))

/-- An accumulator written: the value, valid or NULL, with its tag in Sn. -/
def writeAcc (s : State) (stone bank n : Nat) (t : Tag) (v : Option Int) : State :=
  (List.range 4).foldl (fun s i =>
    setScalar s stone bank (n + i)
      { tag := if i = 0 then t else noTag, val := v.map (fun x => ofSigned 256 x / 2 ^ (64 * i) % 2 ^ 64) }) s

/-- A mask register's bit. -/
def maskBit (s : State) (c : Ctx) (m row : Nat) : Bool :=
  (tget (fun _ => []) (s.stone c.stone).masks (c.bank * 8 + m)).getD row false

/-- A mask register set. -/
def setMask (s : State) (c : Ctx) (m : Nat) (bits : List Bool) : State :=
  s.setStone c.stone (fun st => { st with masks := tset (fun _ => []) st.masks (c.bank * 8 + m) bits })

/-- Whether an instruction acts on a row (05 R158): it is selected, and its guard bit is 1 where there is a guard. -/
def active (s : State) (c : Ctx) (f : Insn) (row : Nat) : Bool :=
  match c.batch with
  | none => false
  | some b => decide (row < b.rows) && b.sel.getD row false && (!f.g || maskBit s c f.gm row)

/-- The rows that an instruction acts on, in row order. -/
def activeRows (s : State) (c : Ctx) (f : Insn) : List Nat := (List.range c.rows).filter (active s c f)

/-- The batch selection changed. -/
def setSel (s : State) (c : Ctx) (sel : List Bool) : State :=
  s.setRun c.stone (fun r => r.setStage c.stage (fun st => { st with batch := st.batch.map (fun b => { b with sel := sel }) }))

/-- A binding of the job; one that the chain does not supply has length 0 (05 R163). -/
def Ctx.bnd (c : Ctx) (n : Nat) : Bnd :=
  let e := c.pj.binds.find? (fun b => b.1 == n)
  let scratch := c.pj.prog.binds.any (fun b => b.num == n && b.scratch)
  { num := n, sva := (e.map (·.2.1)).getD 0, len := (e.map (·.2.2)).getD 0,
    req := { c.req with scratch := scratch && (c.stage == 4 || c.stage == 5), emit := c.stage == 6, job := some c.job } }

/-- A pool constant's bits: its value, or the handle of its text in the container (05 R152, Table 5.10). -/
def constRaw (c : Ctx) (k : Const) : Option Nat :=
  if k.null then none
  else if isText k.tag.typ then some (handle (c.pj.key.addr + c.pj.prog.poolOff + k.off) k.len k.table)
  else some (valueRaw k.tag.typ k.value)

/-- A source operand: its tag, and its bits at a row. -/
structure Src where
  tag : Tag
  raw : Nat → Option Nat

/-- A source operand by kind and number, or pool index (05 Table 5.11). -/
def source (s : State) (c : Ctx) (kind num imm : Nat) : Src :=
  match kind with
  | 0 => ⟨colTag s c num, fun row => colRaw s c num row⟩
  | 2 => ⟨(scalar s c num).tag, fun _ => scalarRaw s c num⟩
  | _ =>
    match c.pj.prog.pool[imm]? with
    | some k => ⟨k.tag, fun _ => constRaw c k⟩
    | none => ⟨noTag, fun _ => none⟩

/-- The bytes of a text handle, read and passed through its table (05 R152). -/
def textBytes (c : Ctx) (h : Nat) : Op (List Byte) := do
  let b ← readMem c.req (bitsAt h 0 48) (bitsAt h 48 12)
  pure (translateText c.pj.prog.tables (bitsAt h 60 3) b)

/-- The bytes of a text operand at a row: a constant's from the program's pool, others through the handle; for CHAR,
trailing spaces dropped (06 R216). -/
def textAt (c : Ctx) (src : Src) (kind imm row : Nat) : Op (Option (List Byte)) := do
  match src.raw row with
  | none => pure none
  | some h =>
    let b ← (match kind, c.pj.prog.pool[imm]? with
      | 3, some k => pure (translateText c.pj.prog.tables k.table (sub c.pj.prog.poolBytes k.off k.len))
      | _, _ => textBytes c h)
    pure (some (if src.tag.typ = tChar then dropSpaces b else b))

/-- A destination column written over the active rows with what each row gives. -/
def mapRows (c : Ctx) (f : Insn) (t : Tag) (g : State → Nat → Op (Option Nat)) : Op Unit := do
  let s ← get
  let vs ← (activeRows s c f).mapM (fun row => do
    let s1 ← get
    let v ← g s1 row
    pure (row, v))
  writeCol c f.rd t vs

/-- A destination mask, or pair of masks, written: 1 where a row is active and its truth is TRUE; in pair form the second
mask takes UNKNOWN (05 R172, 06 R219); none is UNKNOWN. -/
def writeTruth (c : Ctx) (f : Insn) (g : Nat → Op (Option Bool)) : Op Unit := do
  let s ← get
  let ts ← (List.range c.rows).mapM (fun row => if active s c f row then do
      let v ← g row
      pure (some v)
    else pure none)
  upd (fun s =>
    let s1 := setMask s c f.rd (ts.map (· == some (some true)))
    if 8 ≤ f.mod then setMask s1 c (f.rd + 1) (ts.map (· == some none)) else s1)

end Sys2Proof.Machine
end

