-- ==== Sys2Proof/Machine/Interp.lean ====
section
/-! DEFINITION. The meanings of the pipeline instructions of stages FILTER, COMPUTE, HASH and AGGREGATE, and of the
scalar instructions (05 Table 5.12, R657, 06, 07, 08). -/

namespace Sys2Proof.Machine

/-- MOVS: what the source gives (05 Table 5.12, R657). -/
def opMovs (c : Ctx) (f : Insn) : Op Unit :=
  upd (fun s =>
    let num (v : Nat) : State := putScalar s c f.rd ⟨tUint64, 0⟩ (some v)
    match f.mod with
    | 0 =>
      let src := source s c f.bk f.rb f.imm
      putScalar s c f.rd src.tag (src.raw 0)
    | 1 => num c.partn
    | 2 => num c.p.rows
    | 3 => num c.p.outIndex
    | 4 => num ((c.batch.map (·.ord)).getD 0)
    | 5 => num c.rows
    | 6 => num c.epoch
    | _ => num (((c.batch.map (fun b => (b.sel.take b.rows).filter id)).getD []).length))

/-- SALU on two 64-bit patterns (05 R657); a is INT64 where signed. -/
def salu (mod : Nat) (signed : Bool) (a b : Nat) : Nat :=
  match mod with
  | 0 => (a + b) % 2 ^ 64
  | 1 => (a + 2 ^ 64 - b) % 2 ^ 64
  | 2 => a * b % 2 ^ 64
  | 3 => a &&& b
  | 4 => a ||| b
  | 5 => if 64 ≤ b then 0 else a * 2 ^ b % 2 ^ 64
  | _ => if signed then ofSigned 64 (Int.fdiv (toSigned 64 a) (2 ^ (min b 64))) else if 64 ≤ b then 0 else a / 2 ^ b

/-- SALU (05 R657). -/
def opSalu (c : Ctx) (f : Insn) : Op Unit :=
  upd (fun s =>
    let a := scalar s c f.ra
    let b := source s c f.bk f.rb f.imm
    putScalar s c f.rd a.tag (match a.val, b.raw 0 with
      | some x, some y => some (salu f.mod (a.tag.typ == tInt64) x y)
      | _, _ => none))

/-- A comparison of two operands' values at a row: none is UNKNOWN (06 R214, R215). -/
def cmpAt (mod : Nat) (a b : Src) (row : Nat) : Option Bool :=
  match a.raw row, b.raw row with
  | some x, some y =>
    some (cmpMeets mod (cmpVal (rawValue a.tag.typ x) a.tag.scale (rawValue b.tag.typ y) b.tag.scale))
  | _, _ => none

/-- A truth value the spec does not give. -/
def freeTruth : Op (Option Bool) := do
  let v ← freeBits 1
  pure (some (v == 1))

/-- CMP (06 R214, R215). -/
def opCmp (c : Ctx) (f : Insn) : Op Unit := do
  let s ← get
  let a := source s c f.ak f.ra f.imm
  let b := source s c f.bk f.rb f.imm
  writeTruth c f (fun row => if comparable a.tag.typ b.tag.typ then pure (cmpAt f.mod a b row) else freeTruth)

/-- Two byte strings compared as unsigned bytes; a proper prefix ranks lower (06 R216). -/
def cmpBytes : List Byte → List Byte → Ordering
  | [], [] => .eq
  | [], _ :: _ => .lt
  | _ :: _, [] => .gt
  | a :: as, b :: bs => if a.toNat < b.toNat then .lt else if b.toNat < a.toNat then .gt else cmpBytes as bs

/-- TCMP (06 R216). -/
def opTcmp (c : Ctx) (f : Insn) : Op Unit := do
  let s ← get
  let a := source s c f.ak f.ra f.imm
  let b := source s c f.bk f.rb f.imm
  writeTruth c f (fun row => do
    let x ← textAt c a f.ak f.imm row
    let y ← textAt c b f.bk f.imm row
    match x, y with
    | some x, some y => pure (some (cmpMeets f.mod (cmpBytes (x.take (insnLong f)) (y.take (insnLong f)))))
    | _, _ => pure none)

/-- INSET's truth for a value among pool entries (06 R217). -/
def insetAt (c : Ctx) (a : Src) (ks : List Const) (row : Nat) : Option Bool :=
  match a.raw row with
  | none => none
  | some _ =>
    if ks.any (fun k => cmpAt 0 a ⟨k.tag, fun _ => constRaw c k⟩ row == some true) then some true
    else if ks.any (·.null) then none else some false

/-- INSET (06 R217). -/
def opInset (c : Ctx) (f : Insn) : Op Unit := do
  let s ← get
  let a := source s c f.ak f.ra f.imm
  let ks := (c.pj.prog.pool.drop f.imm).take f.scale
  writeTruth c f (fun row =>
    if ks.all (fun k => comparable a.tag.typ k.tag.typ) then pure (insetAt c a ks row) else freeTruth)

/-- ISNULL (06 R218). -/
def opIsnull (c : Ctx) (f : Insn) : Op Unit := do
  let s ← get
  writeTruth c { f with mod := f.mod % 8 } (fun row => pure (some ((colRaw s c f.ra row).isNone == (f.mod == 0))))

/-- A row's truth in a mask, or in a pair: TRUE where both bits are 1 (06 R219). -/
def truthAt (s : State) (c : Ctx) (pair : Bool) (m row : Nat) : Option Bool :=
  if maskBit s c m row then some true else if pair && maskBit s c (m + 1) row then none else some false

/-- Three-valued AND (06 Table 6.6). -/
def and3 : Option Bool → Option Bool → Option Bool
  | some true, some true => some true
  | some false, _ => some false
  | _, some false => some false
  | _, _ => none

/-- Three-valued OR (06 Table 6.6). -/
def or3 : Option Bool → Option Bool → Option Bool
  | some true, _ => some true
  | _, some true => some true
  | some false, some false => some false
  | _, _ => none

/-- MAND and MOR (06 R219). -/
def opLogic (g : Option Bool → Option Bool → Option Bool) (c : Ctx) (f : Insn) : Op Unit := do
  let s ← get
  let pair := decide (8 ≤ f.mod)
  writeTruth c f (fun row => pure (g (truthAt s c pair f.ra row) (truthAt s c pair f.rb row)))

/-- MNOT (06 R219). -/
def opMnot (c : Ctx) (f : Insn) : Op Unit := do
  let s ← get
  writeTruth c f (fun row => pure ((truthAt s c (decide (8 ≤ f.mod)) f.ra row).map (!·)))

/-- SEL (06 R220): the guard chooses the rows it acts on. -/
def opSel (c : Ctx) (f : Insn) : Op Unit :=
  upd (fun s =>
    match c.batch with
    | none => s
    | some b =>
      let sel := (List.range b.rows).map (fun row => if active s c f row then maskBit s c f.ra row else b.sel.getD row false)
      (setSel s c sel).countReq c.req 0x31B ((b.sel.take b.rows).countP id - sel.countP id))

/-- Occurrences of the DECIMAL class for an instruction's rows (20 R596). -/
def Ctx.countDec (c : Ctx) (code : Nat) : Op Unit := upd (fun s => s.countReq c.req code 1)

/-- A conversion's result at a row, or its fault (08 R272, Table 8.4); cut tells that a nonzero remainder was discarded
under the mode. -/
def convOr (c : Ctx) (t : Tag) (row : Nat) (k : Conv) (mode : Nat := 0) (cut : Bool := false) : Op (Option Nat) := do
  c.countDec 0x506
  if cut then c.countDec (0x500 + mode)
  match k with
  | .ok v => pure (some (valueRaw t.typ v))
  | .inexact => c.fault 0x63 row
  | .overflow => c.fault 0x60 row

/-- A date instruction's result at a row, or its overflow (05 Table 5.15); it is no conversion point of 08 Table 8.4. -/
def dateOr (c : Ctx) (t : Tag) (row : Nat) (v : Int) : Op (Option Nat) :=
  if inRange t.typ v then pure (some (valueRaw t.typ v)) else c.fault 0x60 row

/-- The exact value of an arithmetic instruction on two values, converted (08 Table 8.2, R267, R268). -/
def arithConv (op : Nat) (t : Tag) (mode : Nat) (a : Int) (sa : Nat) (b : Int) (sb : Nat) : Conv :=
  let (x, y, sc) := align a sa b sb
  match op with
  | 0x30 => convert (x + y) sc t mode
  | 0x31 => convert (x - y) sc t mode
  | 0x32 => convert (a * b) (sa + sb) t mode
  | 0x33 => divide a b sa sb t mode
  | 0x34 => convert (remainder a b) 0 t 2
  | 0x37 => if y < x then convert b sb t mode else convert a sa t mode
  | _ => if x < y then convert b sb t mode else convert a sa t mode

/-- An arithmetic instruction with two value operands: ADD, SUB, MUL, DIV, REM, MIN, MAX (08 R266 to R268). -/
def opArith (op : Nat) (c : Ctx) (f : Insn) : Op Unit := do
  let s ← get
  let a := source s c f.ak f.ra f.imm
  let b := source s c f.bk f.rb f.imm
  let t := insnTag f
  mapRows c f t (fun _ row =>
    if !arithTypes op f (some a.tag) (some b.tag) then do
      let v ← freeBits 64
      pure (some v)
    else match a.raw row, b.raw row with
      | some x, some y =>
        let av := rawValue a.tag.typ x
        let bv := rawValue b.tag.typ y
        if (op = 0x33 ∨ op = 0x34) ∧ bv = 0 then c.fault 0x61 row
        else convOr c t row (arithConv op t f.mod av a.tag.scale bv b.tag.scale) f.mod
          (arithConv op t 5 av a.tag.scale bv b.tag.scale == .inexact)
      | _, _ => pure none)

/-- NEG, ABS and CVT (08 R266). -/
def opUnary (g : Int → Int) (mode : Nat) (c : Ctx) (f : Insn) : Op Unit := do
  let s ← get
  let a := source s c f.ak f.ra f.imm
  let t := insnTag f
  mapRows c f t (fun _ row =>
    if !isNum a.tag.typ then do
      let v ← freeBits 64
      pure (some v)
    else match a.raw row with
      | some x => convOr c t row (convert (g (rawValue a.tag.typ x)) a.tag.scale t mode) mode
          (convert (g (rawValue a.tag.typ x)) a.tag.scale t 5 == .inexact)
      | none => pure none)

/-- A chosen operand's bits: converted where the result is numeric, else as they are (08 R269). -/
def chosen (c : Ctx) (t : Tag) (src : Src) (row : Nat) : Op (Option Nat) :=
  match src.raw row with
  | none => pure none
  | some x =>
    if isNum t.typ then
      (if isNum src.tag.typ then convOr c t row (convert (rawValue src.tag.typ x) src.tag.scale t 0) 0
          (convert (rawValue src.tag.typ x) src.tag.scale t 5 == .inexact)
       else do
        let v ← freeBits 64
        pure (some v))
    else pure (some x)

/-- MOV (08 Table 8.2). -/
def opMov (c : Ctx) (f : Insn) : Op Unit := do
  let s ← get
  let b := source s c f.bk f.rb f.imm
  mapRows c f (insnTag f) (fun _ row => pure (b.raw row))

/-- CSEL (05 Table 5.12, 08 R269): C(ra) where the condition mask is 1, else the second operand. -/
def opCsel (c : Ctx) (f : Insn) : Op Unit := do
  let s ← get
  let a := source s c f.ak f.ra f.imm
  let b := source s c f.bk f.rb f.imm
  mapRows c f (insnTag f) (fun _ row => chosen c (insnTag f) (if maskBit s c (f.mod % 8) row then a else b) row)

/-- COALESCE (08 R269): C(ra) where it is not NULL, else the second operand. -/
def opCoalesce (c : Ctx) (f : Insn) : Op Unit := do
  let s ← get
  let a := source s c f.ak f.ra f.imm
  let b := source s c f.bk f.rb f.imm
  mapRows c f (insnTag f) (fun _ row => chosen c (insnTag f) (if (a.raw row).isSome then a else b) row)

/-- The microseconds of a day. -/
abbrev dayMicros : Int := 86400000000

/-- DPART (05 Table 5.12). -/
def opDpart (c : Ctx) (f : Insn) : Op Unit := do
  let s ← get
  let a := source s c f.ak f.ra f.imm
  mapRows c f ⟨tInt32, 0⟩ (fun _ row =>
    match a.raw row with
    | none => pure none
    | some x =>
      let v := rawValue a.tag.typ x
      let days := if a.tag.typ = tTimestamp then Int.fdiv v dayMicros else v
      dateOr c ⟨tInt32, 0⟩ row (datePart f.mod days))

/-- The moved date, where the spec states one (05 Table 5.12 DADD). -/
def dateAdd (mod : Nat) (stamp : Bool) (v n : Int) : Option Int :=
  let days := if stamp then Int.fdiv v dayMicros else v
  let rest := if stamp then v - days * dayMicros else 0
  let moved := if mod = 0 then some (days + n) else addMonths days n
  moved.map (fun d => if stamp then d * dayMicros + rest else d)

/-- DADD (05 Table 5.12). -/
def opDadd (c : Ctx) (f : Insn) : Op Unit := do
  let s ← get
  let a := source s c f.ak f.ra f.imm
  let b := source s c f.bk f.rb f.imm
  let t := insnTag f
  mapRows c f t (fun _ row =>
    match a.raw row, b.raw row with
    | some x, some y =>
      match dateAdd f.mod (t.typ == tTimestamp) (rawValue t.typ x) (rawValue b.tag.typ y) with
      | some d => dateOr c t row d
      | none => do
        let v ← freeBits (8 * plainWidth t.typ)
        pure (some (valueRaw t.typ (toSigned (8 * plainWidth t.typ) v)))
    | _, _ => pure none)

/-- H of an operand at a row (07 R223). -/
def hashAt (c : Ctx) (src : Src) (row : Nat) : Op Nat := do
  match src.raw row with
  | none => pure 0
  | some x =>
    if src.tag.typ = tDec128 then pure (hashPair (x % 2 ^ 64) (x / 2 ^ 64))
    else if isText src.tag.typ then
      let b ← textBytes c x
      pure (hashText (if src.tag.typ = tChar then dropSpaces b else b))
    else pure (hashLane x)

/-- HASHK (07 R224). -/
def opHashk (c : Ctx) (f : Insn) : Op Unit := do
  let s ← get
  let a := source s c f.ak f.ra f.imm
  mapRows c f ⟨tUint64, 0⟩ (fun s1 row => do
    let h ← hashAt c a row
    if f.mod = 0 then pure (some h)
    else
      let prev := ((colRaw s1 c f.rb row).getD 0) % 2 ^ 64
      pure (some (fmix ((prev + golden + h) % 2 ^ 64))))

/-- PART (07 R226). -/
def opPart (c : Ctx) (f : Insn) : Op Unit := do
  let s ← get
  mapRows c f ⟨tUint32, 0⟩ (fun _ row => pure ((colRaw s c f.ra row).map (fun v => v / 2 ^ (64 - f.scale))))

/-- A table's header in this task: checked at its first use, its tests at every instruction (07 R229). -/
def tableFor (c : Ctx) (f : Insn) (kind : Nat) (tests : HtHdr → List (Bool × Nat)) : Op HtHdr := do
  let s ← get
  let b := c.bnd f.imm
  let key := colTag s c f.ra
  match ((s.stone c.stone).run.map (·.tables)).getD [] |>.find? (fun t => t.1 == f.imm) with
  | some t =>
    match lowest (badIf (t.2.kind != kind) 4 :: badIf (t.2.keyTag != key) 12 :: tests t.2) with
    | some o => htFail f.imm o
    | none => pure t.2
  | none =>
    let h ← openTable b kind key tests
    upd (fun s => s.setRun c.stone (fun r => { r with tables := (f.imm, h) :: r.tables }))
    pure h

/-- BUILD of one row; a NULL key builds nothing (07 R231). -/
def buildAt (c : Ctx) (f : Insn) (s : State) (h : HtHdr) (row : Nat) : Op Unit :=
  match colRaw s c f.ra row with
  | none => pure ()
  | some k => buildRow (c.bnd f.imm) h k (colRaw s c f.rb row)

/-- BUILD (07 R231). -/
def opBuild (c : Ctx) (f : Insn) : Op Unit := do
  let s ← get
  let h ← tableFor c f 1 (fun h => [badIf (h.vtags.headD noTag != colTag s c f.rb) 16])
  (activeRows s c f).forM (buildAt c f s h)

/-- PROBE of one row, counted. -/
def probeAt (c : Ctx) (f : Insn) (s : State) (h : HtHdr) (row : Nat) : Op (Option Nat × Option Nat) := do
  let k := colRaw s c f.ra row
  let x := colRaw s c f.rb row
  let r ← (if f.mod = 0 then probeFirst (c.bnd f.imm) h k x else probeNext (c.bnd f.imm) h k x)
  upd (fun s => s.countReq c.req 0x400 1)
  if r.2.isSome ∧ r.2 ≠ some spillCursor then upd (fun s => s.countReq c.req 0x401 1)
  pure r

/-- PROBE (07 R232, R233). -/
def opProbe (c : Ctx) (f : Insn) : Op Unit := do
  let s ← get
  let h ← tableFor c f 1 (fun _ => [])
  let vs ← (activeRows s c f).mapM (fun row => do
    let r ← probeAt c f s h row
    pure (row, r))
  writeCol c f.rd (h.vtags.headD noTag) (vs.map (fun v => (v.1, v.2.1)))
  writeCol c (f.rd + 1) ⟨tUint64, 0⟩ (vs.map (fun v => (v.1, v.2.2)))

/-- AGG (07 R239). -/
def opAgg (c : Ctx) (f : Insn) : Op Unit :=
  upd (fun s =>
    let a := source s c f.ak f.ra f.imm
    let v (row : Nat) : Option Int := (a.raw row).map (rawValue a.tag.typ)
    let acc := (activeRows s c f).foldl (fun acc row => accumulate f.mod acc (v row)) (readAcc s c f.rd)
    let t := if f.mod = 1 ∨ f.mod = 2 then ⟨tInt64, 0⟩ else a.tag
    writeAcc s c.stone c.bank f.rd t acc)

/-- The slot of a GAGG: how many GAGGs before it in CODE name its binding (07 R240). -/
def gaggSlot (p : Prog) (num imm : Nat) : Nat :=
  ((p.code.take num).filter (fun w => insnOp w == 0x51 && (insnOf w).imm == imm)).length

/-- GAGG (07 R240). -/
def opGagg (c : Ctx) (f : Insn) : Op Unit := do
  let s ← get
  let i := gaggSlot c.pj.prog c.num f.imm
  let vt := source s c 0 f.rb 0
  let h ← tableFor c f 2 (fun h => [badIf (decide (h.slots ≤ i)) 7, badIf (h.funcs.getD i 0 != f.mod) (32 + i),
    badIf ((f.mod == 0 || decide (3 ≤ f.mod)) && h.vtags.getD i noTag != vt.tag) (16 + 2 * i)])
  let b := c.bnd f.imm
  (activeRows s c f).forM (fun row =>
    gaggRow b h i f.mod (colRaw s c f.ra row) (if f.mod = 2 then none else (vt.raw row).map (rawValue vt.tag.typ)))

/-- AFIN (07 R239). -/
def opAfin (c : Ctx) (f : Insn) : Op Unit := do
  let s ← get
  let t := insnTag f
  let src := (scalar s c f.ra).tag
  match readAcc s c f.ra with
  | none => upd (fun s => putScalar s c f.rd t none)
  | some v =>
    if !isNum src.typ then upd (fun s => putScalar s c f.rd t (some (valueRaw t.typ v)))
    else
      let r ← convOr c t 0 (convert v src.scale t f.mod) f.mod (convert v src.scale t 5 == .inexact)
      upd (fun s => putScalar s c f.rd t r)

end Sys2Proof.Machine
end

