-- ==== Sys2Proof/Machine/LedgerOps.lean ====
section
/-! DEFINITION. Ledger tables: registrations, descriptors, where a row's stamps and lanes lie (09 R314 to R318, R321). -/

namespace Sys2Proof.Machine

/-- The stamp of a version that is still current, and of a row never written (06 R208, 09 R316). -/
abbrev stampMax : Nat := 2 ^ 64 - 1

/-- The registration of a slice with projection 0 whose descriptor lies at an SVA (09 R315). -/
def registrationOf (s : State) (slice sva : Nat) : Option Nat :=
  ((s.regInsts .mpdTableCfg).map Prod.fst).find? (fun n =>
    s.flag F.mpdTableCfg_valid n && !s.flag F.mpdTableCfg_projection n && s.fld F.mpdTableCfg_slice n == slice &&
      s.fld F.mpdTableCfg_addr n * 64 == sva)

/-- The first offending field of a ledger table descriptor (09 Table 9.1). -/
def ledgerCheck (d : List Byte) : Option Nat :=
  lowest [badIf (leAt d 0 4 != 0x4C544231) 0, badIf (leAt d 4 2 == 0 || decide (64 < leAt d 4 2)) 4, nonzero d 6 2,
    badIf (badSva (leAt d 8 8) || leAt d 8 8 % 16 != 0) 8,
    badIf (leAt d 16 4 == 0 || decide (65536 < leAt d 16 4)) 16, badIf (decide (leAt d 16 4 ≤ leAt d 20 4)) 20,
    nonzero d 28 36]

/-- The first offending column tag of a descriptor. -/
def ledgerTagCheck (t : List Byte) (c : Nat) : Option Nat :=
  lowest ((List.range c).map (fun k =>
    let w := leAt t (2 * k) 2
    badIf (!(tagOf w).ok || isText (tagOf w).typ || decide (2048 ≤ w)) (64 + 2 * k)))

/-- The registers that a table's columns take from register k on: a DEC128 column takes a pair. -/
def ledgerRegs : List Tag → Nat → List (Tag × Nat)
  | [], _ => []
  | t :: ts, k => (t, k) :: ledgerRegs ts (k + if t.typ = tDec128 then 2 else 1)

/-- The place of a partition: its directory's SVA and its rows (05 Table 5.5). -/
def ledgerPart (r : Req) (ptable q : Nat) : Op (Nat × Nat) := do
  let b ← readMem r (ptable + 16 * q) 16
  pure (bitsAt (leAt b 0 8) 0 48, leAt b 8 4)

/-- The SVAs of the begin and end stamps of row n under a directory (06 Table 6.2). -/
def ledgerStamps (r : Req) (dir n : Nat) : Op (Nat × Nat) := do
  let b ← readNum r (dir + 32) 8
  let e ← readNum r (dir + 48) 8
  pure (bitsAt b 0 48 + 8 * n, bitsAt e 0 48 + 8 * n)

/-- The SVA of column k's segment under a directory, and its header. -/
def ledgerSeg (r : Req) (dir k : Nat) : Op (Nat × List Byte) := do
  let a ← readNum r (dir + 64 + 16 * k) 8
  let h ← readMem r (bitsAt a 0 48) 32
  pure (bitsAt a 0 48, h)

/-- One bit of a bitmap at an SVA set to a value, by a read-modify-write of its byte as for every partial byte of a stone's write (05
R174). -/
def writeBitAt (r : Req) (base i : Nat) (v : Bool) : Op Unit := do
  let _ ← atomicMem r (base + i / 8) 1 (fun x => natLE 1 (putBits (leNat x) (i % 8) 1 (boolNat v)))

/-- Lane and validity of row n of a PLAIN column segment written (09 R316, R318, 06 Table 6.4). -/
def ledgerLane (r : Req) (dir k n : Nat) (t : Tag) (raw : Nat) (ok : Bool) : Op Unit := do
  let (a, h) ← ledgerSeg r dir k
  let data := a + leAt h 12 4
  if t.typ = tBool then writeBitAt r data n (raw % 2 == 1)
  else writeMem r (data + plainWidth t.typ * n) (natLE (plainWidth t.typ) raw)
  if leAt h 8 4 ≠ 0 then writeBitAt r (a + leAt h 8 4) n ok

/-- The bytes of a ROW record's lane or pair. -/
def laneLE (t : Tag) (raw : Nat) : List Byte := natLE (if t.typ = tDec128 then 16 else 8) raw

/-- The validity bitmap of a ROW record. -/
def rowValid (oks : List Bool) : Nat :=
  ((List.range oks.length).zip oks).foldl (fun a p => a + boolNat p.2 * 2 ^ p.1) 0

end Sys2Proof.Machine
end

