-- ==== Sys2Proof/Machine/StoneMem.lean ====
section
/-! DEFINITION. The memory instructions of stages DECODE and EMIT: DCOL, DREC, DROWID, STCOL, STREC, STSCL, MERGE,
TAPPEND (05 R174, 06 R203 to R206, 07 R244, 08 R293 to R298, 09 R317, R318). -/

namespace Sys2Proof.Machine

/-- What decodes for an instruction. -/
def Ctx.dec (c : Ctx) : DecCtx := ⟨c.stone, c.req, c.partn, c.pj.prog.tables.map Prod.fst⟩

/-- The running task of the instruction's stone. -/
def Ctx.run (s : State) (c : Ctx) : Option Run := (s.stone c.stone).run

/-- The task's input directory; BAD_HEADER at offset 0 where it has none (06 R207). -/
def dirFor (c : Ctx) : Op Dir := do
  let s ← get
  match (c.run s).bind (·.dir) with
  | some d => pure d
  | none => scanFault c.dec stBadHeader 0 0 0

/-- The segment of a column in this task, checked at its first DCOL (06 R661). -/
def segFor (c : Ctx) (d : Dir) (column : Nat) (t : Tag) : Op SegHdr := do
  let s ← get
  match ((c.run s).map (·.segs)).getD [] |>.find? (fun x => x.1 == column) with
  | some x =>
    if x.2.typ ≠ t.typ then scanFault c.dec stBadHeader 1 column 1
    else if x.2.scale ≠ t.scale then scanFault c.dec stBadHeader 1 column 2
    else pure x.2
  | none =>
    if d.cols.length ≤ column then scanFault c.dec stBadHeader 0 0 2
    else
      let e := d.cols.getD column (0, 0)
      let h ← openSeg c.dec column e.1 e.2 t d.rows
      upd (fun s => s.setRun c.stone (fun r => { r with segs := (column, h) :: r.segs }))
      pure h

/-- DCOL (06 R203); an absent column's lanes are NULL (06 R197). -/
def opDcol (c : Ctx) (f : Insn) : Op Unit := do
  let d ← dirFor c
  let t := insnTag f
  let s ← get
  let rows := activeRows s c f
  if d.cols.getD f.imm (1, 0) = (0, 0) then writeCol c f.rd t (rows.map (fun row => (row, none)))
  else
  let h ← segFor c d f.imm t
  let vs ← (if rows.length = c.rows then
      decodeRows c.dec f.imm h d.rows c.firstRow c.rows
    else
      rows.mapM (fun row => do
        let v ← decodeRows c.dec f.imm h d.rows (c.firstRow + row) 1
        pure (v.headD none)))
  writeCol c f.rd t (rows.zip vs)

/-- DROWID (06 R204). -/
def opDrowid (c : Ctx) (f : Insn) : Op Unit := do
  let d ← dirFor c
  let s ← get
  writeCol c f.rd ⟨tUint64, 0⟩ ((activeRows s c f).map (fun row => (row, some ((d.firstRow + c.firstRow + row) % 2 ^ 64))))

/-- The record area that a layout's DRECs read, checked at the layout's first DREC in the task (08 R279); a directory
without column src names no bytes. -/
def areaFor (c : Ctx) (d : Dir) (n : Nat) (l : Layout) : Op Nat := do
  let s ← get
  let e := d.cols.getD l.src (0, 0)
  if (((c.run s).map (·.areas)).getD []).contains n then pure e.1
  else if e.2 < l.recOff (d.rows - 1) + l.len then scanFault c.dec stTruncated 1 l.src e.2
  else
    upd (fun s => s.setRun c.stone (fun r => { r with areas := n :: r.areas }))
    pure e.1

/-- DREC of one record at an SVA (08 R293, R294). -/
def drecRow (c : Ctx) (l : Layout) (fd : LField) (t : Tag) (sva row : Nat) : Op (Option Nat) := do
  let disc ← (if l.discEn then readNum c.req (sva + l.discOff) 1 else pure l.discVal)
  if disc ≠ l.discVal then pure none
  else
    let bs ← (if fd.kind = 4 ∧ !fd.blankNull then pure [] else readMem c.req (sva + fd.offset) fd.length)
    match (if fd.kind = 4 ∧ !fd.blankNull then FieldRead.text else readField l fd bs) with
    | .null => pure none
    | .text => pure (some (handle (sva + fd.offset) fd.length fd.inX))
    | .badDigit i => throw (.outc ⟨0x62, fd.offset + i, c.partn * 2 ^ 32 + c.faultRow row⟩)
    | .overflow => convOr c t row .overflow
    | .value v => convOr c t row (convert v fd.scale t 0)

/-- DREC (08 R293). -/
def opDrec (c : Ctx) (f : Insn) : Op Unit := do
  let d ← dirFor c
  match c.pj.prog.layout (f.imm / 256) with
  | none => pure ()
  | some l =>
    match l.fields[f.imm % 256]? with
    | none => pure ()
    | some fd =>
      let base ← areaFor c d (f.imm / 256) l
      mapRows c f (insnTag f) (fun _ row => drecRow c l fd (insnTag f) (base + l.recOff (c.firstRow + row)) row)

/-- An offset register's value; OUTPUT_FULL where it is NULL (05 R174). -/
def offsetOf (c : Ctx) (n : Nat) : Op Nat := do
  let s ← get
  match (scalar s c n).val with
  | some v => pure v
  | none => throw (.outc ⟨stFull, 0, 0⟩)

/-- An offset register advanced; it keeps its tag. -/
def advance (c : Ctx) (n by_ : Nat) : Op Unit :=
  upd (fun s =>
    let x := scalar s c n
    setScalar s c.stone c.bank n { x with val := x.val.map (fun v => (v + by_) % 2 ^ 64) })

/-- The bytes of a row that STCOL writes: the lane or pair as held, or the text padded with undefined bytes to L. -/
def stcolBytes (c : Ctx) (f : Insn) (src : Src) (row : Nat) : Op (List Byte) := do
  if isText src.tag.typ then
    let b ← (match src.raw row with
      | some h => textBytes c h
      | none => pure [])
    let t := b.take (insnLong f)
    let rest ← freeBytes (insnLong f - t.length)
    pure (t ++ rest)
  else laneBytes (src.raw row) (if src.tag.typ = tDec128 then 16 else 8)

/-- STCOL (05 R174). -/
def opStcol (c : Ctx) (f : Insn) : Op Unit := do
  let s ← get
  let off ← offsetOf c f.rd
  let bit ← (if f.mod = 1 then offsetOf c (f.rd + 1) else pure 0)
  let src := source s c 0 f.ra 0
  let rows := activeRows s c f
  let parts ← rows.mapM (stcolBytes c f src)
  let bytes := parts.flatten
  if !rows.isEmpty then (c.bnd f.imm).write off bytes
  advance c f.rd bytes.length
  if f.mod = 1 then
    let b := c.bnd (f.imm + 1)
    if !rows.isEmpty ∧ b.len < (bit + rows.length + 7) / 8 then throw (.outc ⟨stFull, 0, 0⟩)
    b.putBitmap bit (rows.map (fun row => (src.raw row).isSome))
    advance c (f.rd + 1) rows.length

/-- The bytes of a field that STREC writes; DECIMAL_OVERFLOW, detail 6, where the value does not fit (08 R297, R298). -/
def strecField (c : Ctx) (l : Layout) (fd : LField) (src : Src) (row : Nat) : Op (List Byte) := do
  match src.raw row with
  | none => if fd.blankNull then pure (List.replicate fd.length (BitVec.ofNat 8 l.blank)) else c.fault 0x60 row
  | some x =>
    if fd.kind = 4 then
      let b ← textBytes c x
      let t := translateText c.pj.prog.tables fd.outX (if src.tag.typ = tChar then dropSpaces b else b)
      if fd.length < t.length then c.fault 0x60 row
      else pure (t ++ List.replicate (fd.length - t.length) (BitVec.ofNat 8 fd.pad))
    else
      c.countDec 0x506
      let v := rawValue src.tag.typ x * 10 ^ (fd.scale - src.tag.scale)
      match writeField l fd v with
      | some b => pure b
      | none => c.fault 0x60 row

/-- A record's fields written in order over its bytes; k is the next register (08 R296). -/
def strecFields (c : Ctx) (s : State) (l : Layout) (row : Nat) : List LField → Nat → List Byte → Op (List Byte)
  | [], _, rec_ => pure rec_
  | fd :: fds, k, rec_ => do
    let src := source s c 0 k 0
    let b ← strecField c l fd src row
    strecFields c s l row fds (k + if src.tag.typ = tDec128 then 2 else 1) (patch rec_ fd.offset b)

/-- STREC of one row (08 R297). -/
def strecRow (c : Ctx) (f : Insn) (l : Layout) (row : Nat) : Op Unit := do
  let s ← get
  let blank := List.replicate l.len (BitVec.ofNat 8 l.fill)
  let b ← strecFields c s l row l.fields f.ra (if l.discEn then patch blank l.discOff [BitVec.ofNat 8 l.discVal] else blank)
  let off ← offsetOf c f.rd
  let bd := c.bnd (f.imm % 64)
  bd.write off b
  advance c f.rd l.len
  let o ← offsetOf c f.rd
  if l.blockLen ≠ 0 ∧ l.blockLen - o % l.blockLen < l.len then
    let n := l.blockLen - o % l.blockLen
    bd.write o (List.replicate n (BitVec.ofNat 8 l.fill))
    advance c f.rd n

/-- STREC (08 R296 to R298). -/
def opStrec (c : Ctx) (f : Insn) : Op Unit := do
  match c.pj.prog.layout (f.imm / 256) with
  | none => pure ()
  | some l =>
    let s ← get
    let _ ← offsetOf c f.rd
    (activeRows s c f).forM (strecRow c f l)

/-- STSCL (05 R174). -/
def opStscl (c : Ctx) (f : Insn) : Op Unit := do
  let s ← get
  let off ← offsetOf c f.rd
  let acc := c.pj.prog.code.any (fun w => insnOp w == 0x50 && (insnOf w).rd == f.ra)
  let x := scalar s c f.ra
  let b :=
    if acc then natLE 32 (match readAcc s c f.ra with | some v => ofSigned 256 v | none => 0)
    else natLE (if x.tag.typ = tDec128 then 16 else 8) ((scalarRaw s c f.ra).getD 0)
  (c.bnd f.imm).write off b
  advance c f.rd b.length

/-- A payload's lanes as an element carries them: a NULL lane's bits are a free value. -/
def payloadBits (v : Option Nat) : Op Nat := do
  match v with
  | some x => pure x
  | none => freeBits 64

/-- The element of one row that MERGE passes (07 R243, R244). -/
def mergeElem (c : Ctx) (key : Nat) (p0 p1 : Src) (row : Nat) : Op Elem := do
  let o := c.partn * 2 ^ 32 + c.firstRow + row
  if p0.tag.typ = tDec128 then
    let v := p0.raw row
    let x ← (match v with
      | some x => pure x
      | none => freeBits 128)
    pure ⟨key, x % 2 ^ 64, x / 2 ^ 64, v.isSome, v.isSome, o⟩
  else
    let x ← payloadBits (p0.raw row)
    let y ← payloadBits (p1.raw row)
    pure ⟨key, x, y, (p0.raw row).isSome, (p1.raw row).isSome, o⟩

/-- The element of one row, if its key is not NULL. -/
def mergeAt (c : Ctx) (k p0 p1 : Src) (row : Nat) : Op (Option Elem) := do
  match k.raw row with
  | none => pure none
  | some v =>
    let e ← mergeElem c v p0 p1 row
    pure (some e)

/-- MERGE (07 R244): the batch's elements form one run in the task's merge context; rows with a NULL key are counted. -/
def opMerge (c : Ctx) (f : Insn) : Op Unit := do
  let s ← get
  let k := source s c 0 f.ra 0
  let p0 := source s c 0 f.rb 0
  let p1 := source s c 0 (f.rb + 1) 0
  let rows := activeRows s c f
  let es ← rows.mapM (mergeAt c k p0 p1)
  let elems := es.filterMap id
  upd (fun s => s.setRun c.stone (fun r => { r with merge := r.merge.map (fun m =>
    { m with runs := m.runs ++ [elems], nulls := m.nulls + (rows.length - elems.length), keyTag := k.tag,
             tags := if p0.tag.typ = tDec128 then [p0.tag] else [p0.tag, p1.tag],
             form := if p0.tag.typ = tDec128 then 1 else 2 }) }))

/-- BAD_HEADER of a ledger table's descriptor (09 R317). -/
def ledgerFail {α : Type} (num off : Nat) : Op α := throw (.outc ⟨stBadHeader, 0, num * 2 ^ 32 + off⟩)

/-- The checks of a task's first TAPPEND through a binding (09 R315, R317). -/
def openLedger (c : Ctx) (f : Insn) : Op Ledger := do
  let s ← get
  let b := c.bnd f.imm
  match registrationOf s c.req.slice b.sva with
  | none => ledgerFail f.imm 0
  | some n =>
    if b.len < 64 then ledgerFail f.imm 0
    let d ← readMem c.req b.sva 64
    match ledgerCheck d with
    | some o => ledgerFail f.imm o
    | none =>
      let k := leAt d 4 2
      if b.len < 64 + 2 * k then ledgerFail f.imm 0
      let tb ← readMem c.req (b.sva + 64) (2 * k)
      match ledgerTagCheck tb k with
      | some o => ledgerFail f.imm o
      | none =>
        let tags := (List.range k).map (fun i => tagOf (leAt tb (2 * i) 2))
        if colTag s c f.ra ≠ ⟨tUint64, 0⟩ then ledgerFail f.imm 0
        let regs := ledgerRegs tags (f.ra + 1)
        match ((List.range k).zip regs).find? (fun p =>
            decide (c.pj.prog.cols ≤ p.2.2) || (p.2.1.typ == tDec128 && p.2.2 % 2 == 1) || colTag s c p.2.2 != p.2.1) with
        | some p => ledgerFail f.imm (64 + 2 * p.1)
        | none =>
          let l : Ledger := ⟨n, b.sva, leAt d 8 8, leAt d 16 4, leAt d 20 4, tags⟩
          upd (fun s =>
            let s1 := s.setRun c.stone (fun r => { r with ledgers := (f.imm, l) :: r.ledgers })
            let u : TableUse := ⟨n, c.txn⟩
            if s1.mpd.uses.contains u then s1 else { s1 with mpd := { s1.mpd with uses := u :: s1.mpd.uses } })
          pure l

/-- The checked table of a binding in this task. -/
def ledgerFor (c : Ctx) (f : Insn) : Op Ledger := do
  let s ← get
  match ((c.run s).map (·.ledgers)).getD [] |>.find? (fun x => x.1 == f.imm) with
  | some x => pure x.2
  | none => openLedger c f

/-- A transaction changed. -/
def State.setTxn (s : State) (n : Nat) (f : Txn → Txn) : State :=
  { s with mpd := { s.mpd with txns := s.mpd.txns.map (fun t => if t.num = n then f t else t) } }

/-- A journal record that a TAPPEND forms waits for its task's release (09 R308). -/
def formRow (c : Ctx) (l : Ledger) (kind addr aux : Nat) (payload : List Byte) : Op Unit :=
  upd (fun s => s.setJob c.job (fun j => { j with rows := j.rows ++
    [{ kind := kind, commit := false, txn := c.txn, slice := c.req.slice, queue := c.req.queue, tag := c.req.tag,
       obj := l.table, addr := addr, aux := aux, payload := payload, job := some c.job, part := c.partn }] }))

/-- The request of an instruction's writes: EMIT's are marked as such (01 R29). -/
def Ctx.writeReq (c : Ctx) : Req := { c.req with emit := c.stage == 6, job := some c.job }

/-- A new row or a new version (09 R318, steps 1 to 5). -/
def appendRow (c : Ctx) (f : Insn) (l : Ledger) (row prior : Nat) : Op Unit := do
  let s ← get
  let (dir, rows) ← ledgerPart c.req l.ptable l.opn
  let old ← atomicMem c.writeReq (l.sva + 24) 4 (fun b => natLE 4 (leNat b + 1))
  let u := leNat old
  if rows ≤ u then throw (.outc ⟨stFull, 0, 0⟩)
  let regs := ledgerRegs l.tags (f.ra + 1)
  let lanes ← ((List.range regs.length).zip regs).mapM (fun p => do
    let v := colRaw s c p.2.2 row
    let raw ← (match v with
      | some x => pure x
      | none => freeBits (if p.2.1.typ = tDec128 then 128 else 64))
    ledgerLane c.writeReq dir p.1 u p.2.1 raw v.isSome
    pure (laneLE p.2.1 raw, v.isSome))
  let (b, e) ← ledgerStamps c.req dir u
  writeMem c.writeReq e (natLE 8 stampMax)
  writeMem c.writeReq b (natLE 8 (2 ^ 63 + c.txn))
  upd (fun s => s.setTxn c.txn (fun t => { t with begins := t.begins ++ [⟨c.req.slice, b⟩] }))
  formRow c l 3 (l.opn * 2 ^ 32 + u) prior (natLE 8 (rowValid (lanes.map Prod.snd)) ++ (lanes.map Prod.fst).flatten)

/-- The prior row must exist (09 R318). -/
def checkPrior (c : Ctx) (l : Ledger) (p row : Nat) : Op Unit := do
  if l.partitions ≤ row / 2 ^ 32 then throw (.outc ⟨stBadHeader, 0, p⟩)
  let (_, rows) ← ledgerPart c.req l.ptable (row / 2 ^ 32)
  if rows ≤ row % 2 ^ 32 then throw (.outc ⟨stBadHeader, 0, p⟩)

/-- TAPPEND of one row: a new row for a NULL prior, else a new version or a deletion (09 R318). -/
def tappendAt (c : Ctx) (f : Insn) (s : State) (l : Ledger) (row : Nat) : Op Unit :=
  match colRaw s c f.ra row with
  | none => appendRow c f l row stampMax
  | some p =>
    if p < 2 ^ 63 then do
      checkPrior c l p p
      appendRow c f l row p
    else do
      checkPrior c l p (p - 2 ^ 63)
      formRow c l 4 (p - 2 ^ 63) 0 []

/-- TAPPEND (09 R317, R318). -/
def opTappend (c : Ctx) (f : Insn) : Op Unit := do
  let l ← ledgerFor c f
  let s ← get
  (activeRows s c f).forM (tappendAt c f s l)

end Sys2Proof.Machine
end

