-- ==== Sys2Proof/Machine/MergeUnit.lean ====
section
/-! DEFINITION. The merge unit: merge descriptors, sorted runs, COMBINE and merge-update (07 R243 to R257, 08 R299). -/

namespace Sys2Proof.Machine

/-- A run slot's size for a capacity (07 R246): c columns, v validity bitmaps. -/
def slotSize (form cap : Nat) : Nat :=
  let c := if form = 1 then 3 else 4
  let v := if form = 1 then 1 else 2
  alignUp (192 + 32 * c + 32 * cap + v * (cap / 8)) 64

/-- The fields of a merge descriptor (07 Table 7.3). -/
def mergeDescOf (b : List Byte) : MergeDesc :=
  { mode := leAt b 0 1, desc := bitAt (leAt b 1 1) 0, report := bitAt (leAt b 1 1) 1, rounding := leAt b 2 1,
    layout := leAt b 3 1, keyField := leAt b 4 1, postField := leAt b 5 1, out := leAt b 6 1, aux := leAt b 7 1,
    exc := leAt b 8 1, outStride := leAt b 16 8, auxStride := leAt b 24 8, cap := leAt b 32 4 }

/-- Whether a field may hold merge-update's key (07 R251, 08 R299). -/
def keyFieldOk (f : LField) : Bool := decide (1 ≤ f.kind ∧ f.kind ≤ 3) && f.scale == 0 && decide (1 ≤ f.digits ∧ f.digits ≤ 18)

/-- Whether a field is numeric. -/
def numField (f : LField) : Bool := decide (1 ≤ f.kind ∧ f.kind ≤ 3)

/-- The first offending field of a merge descriptor (07 Table 7.3, R245, 08 R299); form is the run's, merges whether the
phase holds MERGE. -/
def mergeDescCheck (p : Prog) (b : List Byte) (form : Nat) (merges : Bool) : Option Nat :=
  let m := mergeDescOf b
  let fl := leAt b 1 1
  let runs := m.mode == 1 || m.mode == 2
  let up := m.mode == 3
  let l := p.layout m.layout
  let field (n : Nat) (ok : LField → Bool) : Bool := match l.bind (fun l => l.fields[n]?) with
    | some f => ok f
    | none => false
  let zeroUnless (c : Bool) (x : Nat) (ok : Bool) : Bool := if c then ok else x == 0
  let noneUnless (c : Bool) (x : Nat) (ok : Bool) : Bool := if c then ok else x == 0xFF
  let layoutOk := match l with
    | some l => !l.discEn
    | none => false
  lowest [badIf (3 < m.mode || (merges && m.mode != 1)) 0,
    badIf (decide (4 ≤ fl) || (m.desc && !runs) || (m.report && !up)) 1,
    badIf (!zeroUnless up m.rounding (decide (m.rounding ≤ 5))) 2, badIf (!zeroUnless up m.layout layoutOk) 3,
    badIf (!zeroUnless up m.keyField (field m.keyField keyFieldOk)) 4,
    badIf (!zeroUnless up m.postField (field m.postField numField)) 5, badIf (62 < m.out) 6,
    badIf (!(if up then decide (m.aux ≤ 62) || m.aux == 0xFF else noneUnless (m.mode == 1) m.aux (decide (m.aux ≤ 62)))) 7,
    badIf (!noneUnless up m.exc (decide (m.exc ≤ 62))) 8, nonzero b 9 7,
    badIf (m.outStride % 64 != 0 || (runs && decide (m.outStride < slotSize form m.cap)) ||
      (up && decide (m.outStride < 64))) 16,
    badIf (if up then m.auxStride % 64 != 0 || decide (m.auxStride < 128) else m.mode != 1 && m.auxStride != 0) 24,
    badIf (!zeroUnless runs m.cap (m.cap % 64 == 0 && decide (64 ≤ m.cap))) 32, nonzero b 36 28]

/-- The MERGE of a phase, if it has one. -/
def mergeInsn (p : Prog) (phase : Nat) : Option Insn :=
  ([0, 1, 2].flatMap (fun part => (partCode p phase 6 part).1)).findSome? (fun x =>
    if insnOp x.2 = 0x63 then some (insnOf x.2) else none)

/-- The key and payload tags that a phase's MERGE passes, as the flow of tags gives them (05 R179). -/
def mergeTags (p : Prog) (phase : Nat) : Option (Tag × List Tag) :=
  (mergeInsn p phase).map (fun f =>
    let fl := (flowPhase p [] phase (learnScal p [] phase 33 [])).1
    let tag (r : Nat) : Tag := (fl.colTag r).getD noTag
    (tag f.ra, if (tag f.rb).typ = tDec128 then [tag f.rb] else [tag f.rb, tag (f.rb + 1)]))

/-- A task's merge context, its phase's descriptor read and checked at task start, and a SORT task's scratch tested
(07 R245, R247). A program that does not declare binding 63 with R has none. -/
def openMerge (c : Ctx) : Op (Option MergeCtx) := do
  let p := c.pj.prog
  if !p.binds.any (fun b => b.num == 63 && b.r) then pure none
  else
    let raw ← (c.bnd 63).read (64 * c.p.phase) 64
    let tags := mergeTags p c.p.phase
    let pay := (tags.map (·.2)).getD []
    let form := if pay.length = 1 then 1 else 2
    let least := if tags.isSome then form else 1
    match mergeDescCheck p raw least (mergeInsn p c.p.phase).isSome with
    | some o => throw (.outc ⟨stBadHeader, 0, 63 * 2 ^ 32 + 64 * c.p.phase + o⟩)
    | none =>
      let m := mergeDescOf raw
      if m.mode = 1 ∧ m.auxStride < 64 * c.p.rows then throw (.outc ⟨stFull, 0, 0⟩)
      pure (some ⟨m, [], 0, (tags.map (·.1)).getD noTag, pay, form, false⟩)

/-- A key as it compares: signed for INT, DEC64, DATE and TIMESTAMP (07 R244). -/
def keyVal (t : Tag) (k : Nat) : Int := rawValue t.typ k

/-- Whether element a stands before b in a run, or with it (07 R249). -/
def elemLe (t : Tag) (desc : Bool) (a b : Elem) : Bool :=
  let x := keyVal t a.key
  let y := keyVal t b.key
  if x = y then decide (a.origin ≤ b.origin) else if desc then decide (y < x) else decide (x < y)

/-- An element placed before the elements it does not follow. -/
def insertElem (t : Tag) (desc : Bool) (e : Elem) : List Elem → List Elem
  | [] => [e]
  | x :: xs => if elemLe t desc e x then e :: x :: xs else x :: insertElem t desc e xs

/-- The elements of runs in order; equal key and origin keep the order of their runs (07 R249). -/
def sortElems (t : Tag) (desc : Bool) (es : List Elem) : List Elem := es.foldr (insertElem t desc) []

/-- A value of a PLAIN data area packed for writing: a type's values, of their plain width; BOOL packs bits. -/
def plainBytes (t : Tag) (vs : List Nat) : List Byte :=
  if t.typ = tBool then
    natLE ((vs.length + 7) / 8) (((List.range vs.length).zip vs).foldl (fun a p => a + p.2 % 2 * 2 ^ p.1) 0)
  else vs.flatMap (natLE (plainWidth t.typ))

/-- The bytes of a bitmap. -/
def bitmapBytes (bs : List Bool) : List Byte := natLE ((bs.length + 7) / 8) (rowValid bs)

/-- A run's column: its tag, whether it has a validity bitmap, its values with their validity. -/
structure RunCol where
  tag : Tag
  valid : Bool
  vals : List (Nat × Bool)
  deriving DecidableEq, Repr

/-- The columns of a run (07 R246). -/
def runCols (m : MergeCtx) (es : List Elem) : List RunCol :=
  let key : RunCol := ⟨m.keyTag, false, es.map (fun e => (e.key, true))⟩
  let origin : RunCol := ⟨⟨tUint64, 0⟩, false, es.map (fun e => (e.origin, true))⟩
  let pays : List RunCol :=
    if m.form = 1 then [⟨m.tags.headD noTag, true, es.map (fun e => (e.p0 + e.p1 * 2 ^ 64, e.v0))⟩]
    else [⟨m.tags.headD noTag, true, es.map (fun e => (e.p0, e.v0))⟩, ⟨m.tags.getD 1 noTag, true, es.map (fun e => (e.p1, e.v1))⟩]
  key :: pays ++ [origin]

/-- The bytes of data that a column's region reserves for cap values: 8 or 16 bytes a value (07 R246). -/
def colSpan (t : Tag) (cap : Nat) : Nat := (if t.typ = tDec128 then 16 else 8) * cap

/-- The size of a column's region. -/
def RunCol.size (rc : RunCol) (cap : Nat) : Nat := 32 + colSpan rc.tag cap + if rc.valid then cap / 8 else 0

/-- The segment header of a run's column (06 Table 6.3). -/
def segHeader (t : Tag) (count vld : Nat) : List Byte :=
  natLE 1 0 ++ natLE 1 t.typ ++ natLE 1 t.scale ++ natLE 1 0 ++ natLE 4 count ++ natLE 4 vld ++ natLE 4 32 ++ zeros 16

/-- Where each column's region begins within a slot. -/
def regionOffs (cap : Nat) : List RunCol → Nat → List (Nat × RunCol)
  | [], _ => []
  | rc :: rcs, o => (o, rc) :: regionOffs cap rcs (o + rc.size cap)

/-- The header of an output slot (07 Table 7.4). -/
def slotHeader (form flags count nulls cap deleted applied : Nat) : List Byte :=
  natLE 4 0x4E555231 ++ natLE 1 form ++ natLE 1 flags ++ zeros 2 ++ natLE 8 count ++ natLE 8 nulls ++ natLE 8 cap ++
    natLE 8 deleted ++ natLE 8 applied ++ zeros 16

/-- The context with which the merge unit reaches bindings (01 R29: its scratch). -/
def Ctx.mrg (c : Ctx) : Ctx := { c with stage := 5 }

/-- A run written to the task's output slot: values, segment headers, directory, slot header (07 R246, R247). -/
def writeRun (c : Ctx) (m : MergeCtx) (es : List Elem) (nulls : Nat) : Op Unit := do
  let d := m.desc
  if d.cap < es.length then throw (.outc ⟨stFull, 0, 0⟩)
  let b := c.mrg.bnd d.out
  let slot := c.p.outIndex * d.outStride
  let regs := regionOffs d.cap (runCols m es) 192
  for r in regs do
    b.write (slot + r.1 + 32) (plainBytes r.2.tag (r.2.vals.map Prod.fst))
    if r.2.valid then b.write (slot + r.1 + 32 + colSpan r.2.tag d.cap) (bitmapBytes (r.2.vals.map Prod.snd))
  for r in regs do
    b.write (slot + r.1) (segHeader r.2.tag es.length (if r.2.valid then 32 + colSpan r.2.tag d.cap else 0))
  let ents := regs.flatMap (fun r => natLE 8 (b.sva + slot + r.1) ++ natLE 4 (r.2.size d.cap) ++ zeros 4)
  let dir := natLE 2 1 ++ natLE 2 regs.length ++ zeros 4 ++ natLE 4 es.length ++ zeros 52 ++ ents
  b.write (slot + 64) dir
  b.write slot (slotHeader m.form (boolNat d.desc) es.length nulls d.cap 0 0)

/-- The merge passes of a SORT task of n batches, 16 runs at a time (07 R250). -/
def sortPasses : Nat → Nat → Nat
  | _, 0 => 0
  | n, fuel + 1 => if n ≤ 1 then 0 else 1 + sortPasses ((n + 15) / 16) fuel

/-- SORT's forming and merging passes (07 R247): the scratch area holds no stated contents afterwards. -/
def sortRun (c : Ctx) (m : MergeCtx) : Op Unit := do
  let es := m.runs.flatten
  let junk ← freeBytes (64 * es.length)
  if !es.isEmpty then (c.mrg.bnd m.desc.aux).write (c.p.outIndex * m.desc.auxStride) junk
  let batches ← ask (fun s => ((c.run s).map (·.total)).getD 0)
  upd (fun s => (s.countReq c.req 0x405 es.length).countReq c.req 0x406 (sortPasses batches (batches + 1)))
  writeRun c m (sortElems m.keyTag m.desc.desc es) m.nulls

/-- BAD_HEADER of a merge task's block or slot (07 R248). -/
def mergeFail {α : Type} (c : Ctx) (off : Nat) : Op α := throw (.outc ⟨stBadHeader, 0, c.partn * 2 ^ 32 + off % 2 ^ 32⟩)

/-- A run slot opened for reading: its SVA, header fields, tags, and where its regions lie. -/
structure RunSlot where
  sva : Nat
  form : Nat
  desc : Bool
  count : Nat
  nulls : Nat
  cap : Nat
  keyTag : Tag
  tags : List Tag
  offs : List Nat
  deriving DecidableEq, Repr

/-- The tag in a segment header. -/
def segTag (h : List Byte) : Tag := ⟨leAt h 1 1, leAt h 2 1⟩

/-- A run slot's header and segment headers read (07 Table 7.4, R246). -/
def openRun (c : Ctx) (sva : Nat) : Op RunSlot := do
  let h ← readMem c.req sva 64
  let form := leAt h 4 1
  match lowest [badIf (leAt h 0 4 != 0x4E555231) 0, badIf (form == 0 || decide (2 < form)) 4, badIf (2 ≤ leAt h 5 1) 5,
      nonzero h 6 2, badIf (decide (leAt h 24 8 < leAt h 8 8)) 8] with
  | some o => mergeFail c o
  | none =>
    let cap := leAt h 24 8
    let keyH ← readMem c.req (sva + 192) 32
    let o1 := 192 + 32 + 8 * cap
    let h1 ← readMem c.req (sva + o1) 32
    if form = 1 then
      let o2 := o1 + 32 + 16 * cap + cap / 8
      pure ⟨sva, form, bitAt (leAt h 5 1) 0, leAt h 8 8, leAt h 16 8, cap, segTag keyH, [segTag h1], [192, o1, o2]⟩
    else
      let o2 := o1 + 32 + 8 * cap + cap / 8
      let h2 ← readMem c.req (sva + o2) 32
      let o3 := o2 + 32 + 8 * cap + cap / 8
      pure ⟨sva, form, bitAt (leAt h 5 1) 0, leAt h 8 8, leAt h 16 8, cap, segTag keyH, [segTag h1, segTag h2], [192, o1, o2, o3]⟩

/-- Value i of a run's region, as its lane or pair. -/
def runVal (c : Ctx) (r : RunSlot) (off : Nat) (t : Tag) (i : Nat) : Op Nat := do
  if t.typ = tBool then
    let b ← readNum c.req (r.sva + off + 32 + i / 8) 1
    pure (boolNat (bitAt b (i % 8)))
  else
    let w := plainWidth t.typ
    let v ← readNum c.req (r.sva + off + 32 + w * i) w
    pure (if isSigned t.typ then valueRaw t.typ (toSigned (8 * w) v) else v)

/-- Validity i of a payload region. -/
def runOk (c : Ctx) (r : RunSlot) (off : Nat) (t : Tag) (i : Nat) : Op Bool := do
  let b ← readNum c.req (r.sva + off + 32 + colSpan t r.cap + i / 8) 1
  pure (bitAt b (i % 8))

/-- Element i of a run. -/
def runElem (c : Ctx) (r : RunSlot) (i : Nat) : Op Elem := do
  let k ← runVal c r 192 r.keyTag i
  let t0 := r.tags.headD noTag
  let o1 := r.offs.getD 1 0
  let o2 := r.offs.getD 2 0
  let x ← runVal c r o1 t0 i
  let v0 ← runOk c r o1 t0 i
  if r.form = 1 then
    let og ← runVal c r o2 ⟨tUint64, 0⟩ i
    pure ⟨k, x % 2 ^ 64, x / 2 ^ 64, v0, v0, og⟩
  else
    let t1 := r.tags.getD 1 noTag
    let y ← runVal c r o2 t1 i
    let v1 ← runOk c r o2 t1 i
    let og ← runVal c r (r.offs.getD 3 0) ⟨tUint64, 0⟩ i
    pure ⟨k, x, y, v0, v1, og⟩

/-- The first way in which a run differs from the first run (07 R248), as an offset in its slot. -/
def runDiffers (a r : RunSlot) : Option Nat :=
  let tagOff (o : Nat) (x y : Tag) : List (Bool × Nat) := [badIf (x.typ != y.typ) (o + 1), badIf (x.scale != y.scale) (o + 2)]
  if r.form ≠ a.form then some 4
  else lowest (badIf (r.desc != a.desc) 5 :: tagOff 192 r.keyTag a.keyTag ++
    (((r.offs.drop 1).zip (r.tags.zip a.tags)).flatMap (fun p => tagOff p.1 p.2.1 p.2.2)))

/-- COMBINE (07 R248). The form that the descriptor's out_stride must hold is known from the runs (R245, Table 7.3). -/
def combineRuns (c : Ctx) (m : MergeCtx) : Op Unit := do
  let head ← readMem c.req c.p.input 8
  let n := leAt head 0 4
  if n = 0 ∨ 16 < n then mergeFail c 0
  if leAt head 4 4 ≠ 0 then mergeFail c 4
  let addrs ← readMem c.req (c.p.input + 8) (8 * n)
  let runs ← (List.range n).mapM (fun i => do
    let a := leAt addrs (8 * i) 8
    if badSva a then mergeFail c (8 + 8 * i)
    openRun c a)
  match runs with
  | [] => pure ()
  | a :: rest =>
    if a.desc ≠ m.desc.desc then mergeFail c 5
    match rest.findSome? (runDiffers a) with
    | some o => mergeFail c o
    | none =>
      if m.desc.outStride < slotSize a.form m.desc.cap then throw (.outc ⟨stBadHeader, 0, 63 * 2 ^ 32 + 64 * c.p.phase + 16⟩)
      if m.desc.cap < (runs.map (·.count)).sum then throw (.outc ⟨stFull, 0, 0⟩)
      let es ← runs.mapM (fun r => (List.range r.count).mapM (runElem c r))
      let m1 := { m with keyTag := a.keyTag, tags := a.tags, form := a.form }
      upd (fun s => (s.countReq c.req 0x405 es.flatten.length).countReq c.req 0x406 1)
      writeRun c m1 (sortElems a.keyTag m.desc.desc es.flatten) ((runs.map (·.nulls)).sum)

/-- The exception reasons (07 Table 7.7). -/
inductive Excn where
  | noMaster | duplicate | overflow | inexact | badDigit (at_ : Nat) | badAction | rolledBack
  deriving DecidableEq, Repr

/-- The code of a reason. -/
def Excn.code : Excn → Nat
  | .noMaster => 1
  | .duplicate => 2
  | .overflow => 3
  | .inexact => 4
  | .badDigit _ => 5
  | .badAction => 6
  | .rolledBack => 7

/-- What an UPDATE task works with: layout, tags of the run, the descriptor. -/
structure Upd where
  l : Layout
  desc : MergeDesc
  form : Nat
  tags : List Tag
  deriving DecidableEq, Repr

/-- The action, field and image offset of an element (07 R252). -/
def Upd.action (u : Upd) (e : Elem) : Nat × Nat × Nat :=
  if u.form = 1 then (1, u.desc.postField, 0) else (bitsAt e.p1 0 8, bitsAt e.p1 8 8, bitsAt e.p1 16 48)

/-- The amount of an element. -/
def Upd.amount (u : Upd) (e : Elem) : Int :=
  let t := u.tags.headD noTag
  rawValue t.typ (if u.form = 1 then e.p0 + e.p1 * 2 ^ 64 else e.p0)

/-- A sum at a scale converted to a field's scale and written (07 R253, 08 R299). -/
def Upd.write (u : Upd) (f : LField) (rec_ : List Byte) (v : Int) (sc : Nat) : Except Excn (List Byte) :=
  let r := if sc ≤ f.scale then some (v * 10 ^ (f.scale - sc)) else roundDiv u.desc.rounding v (10 ^ (sc - f.scale))
  match r with
  | none => .error .inexact
  | some x =>
    match writeField u.l f x with
    | some b => .ok (patch rec_ f.offset b)
    | none => .error .overflow

/-- POST and SET on a record (07 Table 7.6). -/
def Upd.post (u : Upd) (e : Elem) (set : Bool) (fno : Nat) (rec_ : List Byte) : Except Excn (List Byte) :=
  match u.l.fields[fno]? with
  | none => .error .badAction
  | some f =>
    if !numField f || !e.v0 then .error .badAction
    else
      let t := u.tags.headD noTag
      match readField u.l f (sub rec_ f.offset f.length) with
      | .badDigit i => .error (.badDigit (f.offset + i))
      | .value v =>
        if set then u.write f rec_ (u.amount e) t.scale
        else
          let (x, y, sc) := align v f.scale (u.amount e) t.scale
          u.write f rec_ (x + y) sc
      | .null => if set then u.write f rec_ (u.amount e) t.scale else .ok rec_
      | _ => if set then u.write f rec_ (u.amount e) t.scale else .error .overflow

/-- An insert image read from the aux binding, where it lies within it (07 Table 7.7). -/
def readImage (c : Ctx) (u : Upd) (off : Nat) : Op (Option (List Byte)) := do
  let b := c.mrg.bnd u.desc.aux
  if u.desc.aux = 0xFF ∨ b.len < off + u.l.len then pure none
  else
    let x ← readMem b.req (b.sva + off) u.l.len
    pure (some x)

/-- The key of a record; a BAD_DIGIT in it fails the job (07 R257). ord is the record reported. -/
def recKey (c : Ctx) (u : Upd) (rec_ : List Byte) (ord : Nat) : Op (Option Int) := do
  match u.l.fields[u.desc.keyField]? with
  | none => pure none
  | some f =>
    match readField u.l f (sub rec_ f.offset f.length) with
    | .value v => pure (some v)
    | .badDigit i => throw (.outc ⟨0x62, f.offset + i, c.partn * 2 ^ 32 + ord⟩)
    | .overflow => throw (.outc ⟨0x60, 1, c.partn * 2 ^ 32 + ord⟩)
    | _ => pure none

/-- Whether a POST or SET meets a BINARY field whose value exceeds its digits, as DREC reads it (07 R251, 08 R288). -/
def Upd.tooWide (u : Upd) (e : Elem) (fno : Nat) (rec_ : List Byte) : Bool :=
  match u.l.fields[fno]? with
  | some f => numField f && e.v0 && readField u.l f (sub rec_ f.offset f.length) == .overflow
  | none => false

/-- The field that a POST or SET names is read: a value beyond its digits fails the job (08 R288). -/
def readTarget (c : Ctx) (u : Upd) (e : Elem) (fno ord : Nat) (rec_ : List Byte) : Op Unit :=
  if u.tooWide e fno rec_ then throw (.outc ⟨0x60, 1, c.partn * 2 ^ 32 + ord⟩) else pure ()

/-- The conversion that a POST or SET makes is counted (20 Table 20.1, 08 Table 8.4). -/
def countPost (c : Ctx) (u : Upd) (e : Elem) (set : Bool) (fno : Nat) (rec_ : List Byte) : Op Unit := do
  let exact : Upd := { u with desc := { u.desc with rounding := 5 } }
  match u.post e set fno rec_ with
  | .error .badAction | .error (.badDigit _) => pure ()
  | _ => do
    c.countDec 0x506
    match exact.post e set fno rec_ with
    | .error .inexact => c.countDec (0x500 + u.desc.rounding)
    | _ => pure ()

/-- One transaction acts on the current record (07 R254, Table 7.6). -/
def actOn (c : Ctx) (u : Upd) (key : Int) (ord : Nat) (e : Elem) (cur : Option (List Byte)) : Op (Except Excn (Option (List Byte))) := do
  let (act, fno, img) := u.action e
  if u.form = 2 ∧ !e.v1 then pure (.error .badAction)
  else match act, cur with
  | 1, none | 2, none | 4, none => pure (.error .noMaster)
  | 1, some r => do
    readTarget c u e fno ord r
    countPost c u e false fno r
    pure ((u.post e false fno r).map some)
  | 2, some r => do
    readTarget c u e fno ord r
    countPost c u e true fno r
    pure ((u.post e true fno r).map some)
  | 3, some _ => pure (.error .duplicate)
  | 3, none => do
    match ← readImage c u img with
    | none => pure (.error .badAction)
    | some x =>
      let k ← recKey c u x 0xFFFFFFFF
      pure (if k = some key then .ok (some x) else .error .badAction)
  | 4, some _ => pure (.ok none)
  | _, _ => pure (.error .badAction)

/-- What a merge-update has done so far: records written, exceptions, masters read, inserted, deleted, applied. -/
structure UpdAcc where
  outn : Nat
  exc : Nat
  masters : Nat
  ins : Nat
  del : Nat
  app : Nat
  deriving DecidableEq, Repr

/-- One record of the new master, with a full block's slack filled (07 R257, 08 R299). -/
def writeMaster (c : Ctx) (u : Upd) (n : Nat) (rec_ : List Byte) : Op Unit := do
  let o := 64 + u.l.recOff n
  let slack := if u.l.blockLen ≠ 0 ∧ n % u.l.rpb = u.l.rpb - 1 then u.l.blockLen - u.l.rpb * u.l.len else 0
  if u.desc.outStride < o + u.l.len + slack then throw (.outc ⟨stFull, 0, 0⟩)
  (c.mrg.bnd u.desc.out).write (c.p.outIndex * u.desc.outStride + o)
    (rec_ ++ List.replicate slack (BitVec.ofNat 8 u.l.fill))

/-- The slack of a last block that is not full takes the fill byte too (08 R299). -/
def fillSlack (c : Ctx) (u : Upd) (n : Nat) : Op Unit :=
  let slack := u.l.blockLen - u.l.rpb * u.l.len
  let o := 64 + n / u.l.rpb * u.l.blockLen + u.l.rpb * u.l.len
  if u.l.blockLen = 0 ∨ n % u.l.rpb = 0 ∨ slack = 0 then pure ()
  else if u.desc.outStride < o + slack then throw (.outc ⟨stFull, 0, 0⟩)
  else (c.mrg.bnd u.desc.out).write (c.p.outIndex * u.desc.outStride + o) (List.replicate slack (BitVec.ofNat 8 u.l.fill))

/-- One exception record (07 R256). -/
def writeExc (c : Ctx) (u : Upd) (n : Nat) (key : Int) (e : Elem) (reason : Excn) (ord : Nat) : Op Unit := do
  let o := 64 + 64 * n
  if u.desc.auxStride < o + 64 then throw (.outc ⟨stFull, 0, 0⟩)
  let (act, fno, _) := u.action e
  let t0 := (u.tags.headD noTag).word
  let t1 := if u.form = 1 then 0 else (u.tags.getD 1 noTag).word
  (c.mrg.bnd u.desc.exc).write (c.p.outIndex * u.desc.auxStride + o)
    (natLE 8 (ofSigned 64 key) ++ natLE 2 reason.code ++ natLE 1 act ++ natLE 1 fno ++ natLE 4 ord ++ natLE 8 e.origin ++
      natLE 8 e.p0 ++ natLE 8 e.p1 ++ natLE 2 t0 ++ natLE 2 t1 ++ zeros 20)

/-- The outcome with which an error fails the job where it does not go to the report (07 R255). -/
def excOutc (c : Ctx) (ord idx : Nat) : Excn → Outc
  | .overflow => ⟨0x60, 6, c.partn * 2 ^ 32 + idx⟩
  | .inexact => ⟨0x63, 6, c.partn * 2 ^ 32 + idx⟩
  | .badDigit a => ⟨0x62, a, c.partn * 2 ^ 32 + ord⟩
  | _ => ⟨stBadCode, 0, c.partn * 2 ^ 32 + idx⟩

/-- A group's transactions act in turn; each one's error, and the record they leave. -/
def actGroup (c : Ctx) (u : Upd) (key : Int) (ord : Nat) : List (Nat × Elem) → Option (List Byte) →
    Op (List (Option Excn) × Option (List Byte))
  | [], cur => pure ([], cur)
  | (i, e) :: es, cur => do
    match ← actOn c u key ord e cur with
    | .ok cur1 => do
      let (rs, last) ← actGroup c u key ord es cur1
      pure (none :: rs, last)
    | .error x => do
      let report := u.desc.report || x == .noMaster || x == .duplicate
      if !report then throw (.outc (excOutc c ord i x))
      let (rs, last) ← actGroup c u key ord es cur
      pure (some x :: rs, last)

/-- apply_group (07 R254, R255). -/
def applyGroup (c : Ctx) (u : Upd) (a : UpdAcc) (key : Int) (g : List (Nat × Elem)) (rec_ : Option (List Byte))
    (ord : Nat) : Op UpdAcc := do
  let (errs, cur) ← actGroup c u key ord g rec_
  let keep (r : Option (List Byte)) (a : UpdAcc) : Op UpdAcc := do
    match r with
    | none => pure a
    | some b =>
      writeMaster c u a.outn b
      pure { a with outn := a.outn + 1 }
  let count (n : Nat) : Nat := (g.filter (fun x => (u.action x.2).1 == n)).length
  if !g.isEmpty then upd (fun s => s.countReq c.req (if errs.all (·.isNone) then 0x407 else 0x408)
    (if errs.all (·.isNone) then 1 else g.length))
  if errs.all (·.isNone) then
    keep cur { a with ins := a.ins + count 3, del := a.del + count 4, app := a.app + g.length }
  else do
    let a1 ← keep rec_ a
    for p in (List.range g.length).zip (g.zip errs) do
      writeExc c u (a1.exc + p.1) key p.2.1.2 (p.2.2.getD .rolledBack) ord
    pure { a1 with exc := a1.exc + g.length }

/-- The first of the n elements from lo on whose key reaches k, by binary search (07 R251). -/
def lowerBound (c : Ctx) (r : RunSlot) (k : Int) : Nat → Nat → Nat → Op Nat
  | 0, lo, _ => pure lo
  | fuel + 1, lo, n => do
    if n = 0 then pure lo
    else
      let mid := lo + n / 2
      let v ← runVal c r 192 r.keyTag mid
      if keyVal r.keyTag v < k then lowerBound c r k fuel (mid + 1) (n - n / 2 - 1)
      else lowerBound c r k fuel lo (n / 2)

/-- The elements from t on whose keys are below k, with their ordinals. -/
def takeBelow (c : Ctx) (r : RunSlot) (k : Int) : Nat → Nat → Op (List (Nat × Elem))
  | 0, _ => pure []
  | fuel + 1, t => do
    if r.count ≤ t then pure []
    else
      let e ← runElem c r t
      if keyVal r.keyTag e.key < k then do
        let rest ← takeBelow c r k fuel (t + 1)
        pure ((t, e) :: rest)
      else pure []

/-- The groups of a run's elements, one per key in order. -/
def groupsOf (t : Tag) : List (Nat × Elem) → List (Int × List (Nat × Elem))
  | [] => []
  | x :: xs =>
    let k := keyVal t x.2.key
    match groupsOf t xs with
    | (k', g) :: rest => if k' = k then (k, x :: g) :: rest else (k, [x]) :: (k', g) :: rest
    | [] => [(k, [x])]

/-- Groups of keys below k applied to no master; the rest (07 R254). -/
def applyBelow (c : Ctx) (u : Upd) (k : Int) : List (Int × List (Nat × Elem)) → UpdAcc →
    Op (UpdAcc × List (Int × List (Nat × Elem)))
  | [], a => pure (a, [])
  | g :: gs, a => do
    if g.1 < k then do
      let a1 ← applyGroup c u a g.1 g.2 none 0xFFFFFFFF
      applyBelow c u k gs a1
    else pure (a, g :: gs)

/-- The masters in order (07 R254): n left, ord the next. -/
def updMasters (c : Ctx) (u : Upd) (base : Nat) (lo hi : Int) : Nat → Nat → Option Int →
    List (Int × List (Nat × Elem)) → UpdAcc → Op (UpdAcc × List (Int × List (Nat × Elem)))
  | 0, _, _, gs, a => pure (a, gs)
  | n + 1, ord, prev, gs, a => do
    let m ← readMem c.req (base + u.l.recOff ord) u.l.len
    let k ← recKey c u m ord
    match k with
    | none => throw (.outc ⟨stBadHeader, 0, c.partn * 2 ^ 32 + ord⟩)
    | some k =>
      let after := match prev with
        | some p => decide (k ≤ p)
        | none => false
      if after || decide (k < lo) || decide (hi ≤ k) then throw (.outc ⟨stBadHeader, 0, c.partn * 2 ^ 32 + ord⟩)
      let (a1, gs1) ← applyBelow c u k gs { a with masters := a.masters + 1 }
      match gs1 with
      | g :: rest =>
        if g.1 = k then do
          let a2 ← applyGroup c u a1 k g.2 (some m) ord
          updMasters c u base lo hi n (ord + 1) (some k) rest a2
        else do
          let a2 ← applyGroup c u a1 k [] (some m) ord
          updMasters c u base lo hi n (ord + 1) (some k) gs1 a2
      | [] =>
        let a2 ← applyGroup c u a1 k [] (some m) ord
        updMasters c u base lo hi n (ord + 1) (some k) gs1 a2

/-- Merge-update of one task (07 R251 to R257). -/
def mergeUpdate (c : Ctx) (m : MergeCtx) : Op Unit := do
  let b ← readMem c.req c.p.input 64
  let lo := toSigned 64 (leAt b 16 8)
  let hi := toSigned 64 (leAt b 24 8)
  match lowest [badIf (badSva (leAt b 0 8)) 0, nonzero b 12 4, badIf (decide (hi ≤ lo)) 24, badIf (badSva (leAt b 32 8)) 32,
      nonzero b 40 24] with
  | some o => mergeFail c o
  | none =>
    let r ← openRun c (leAt b 32 8)
    if r.desc then mergeFail c 5
    if r.keyTag.typ ≠ tInt64 then mergeFail c 193
    if r.keyTag.scale ≠ 0 then mergeFail c 194
    match c.pj.prog.layout m.desc.layout with
    | none => pure ()
    | some l =>
      let u : Upd := ⟨l, m.desc, r.form, r.tags⟩
      let t ← lowerBound c r lo 64 0 r.count
      let es ← takeBelow c r hi (r.count + 1) t
      let (a, gs) ← updMasters c u (leAt b 0 8) lo hi (leAt b 8 4) 0 none (groupsOf r.keyTag es) ⟨0, 0, 0, 0, 0, 0⟩
      let (a1, _) ← applyBelow c u hi gs a
      fillSlack c u a1.outn
      (c.mrg.bnd m.desc.exc).write (c.p.outIndex * m.desc.auxStride) (slotHeader 4 0 a1.exc 0 0 0 0)
      (c.mrg.bnd m.desc.out).write (c.p.outIndex * m.desc.outStride)
        (slotHeader 3 0 a1.outn a1.masters a1.ins a1.del a1.app)

end Sys2Proof.Machine
end

