-- ==== Sys2Proof/Machine/StoneSeq.lean ====
section
/-! DEFINITION. A stone at work: the instruction sequencer, parts, task start, admission of batches, the steps of the
stages (05 R154 to R158, R173 to R191, 06 R205 to R210). -/

namespace Sys2Proof.Machine

/-- A partition entry of zeros. -/
def Part.zero : Part := ⟨0, 0, 0, 0⟩

/-- The context of an instruction of a stone's running task. -/
def ctxOf (s : State) (stone : Nat) (r : Run) (stage part num : Nat) : Option Ctx :=
  match s.job r.job with
  | none => none
  | some j => j.pipe.map (fun pj =>
      { stone := stone, stage := stage, part := part, num := num, job := r.job, req := j.req (.stone stone), pj := pj,
        partn := r.part, p := pj.parts.getD r.part Part.zero, base := r.base, bank := r.bank,
        batch := if part = 1 then (r.stage stage).batch else none, epoch := j.epoch, txn := j.txn.getD 0 })

/-- The context with the batch as it stands in its stage. -/
def Ctx.fresh (s : State) (c : Ctx) : Ctx :=
  if c.part = 1 then { c with batch := (c.run s).bind (fun r => (r.stage c.stage).batch) } else c

/-- The instruction that an opcode names acts (05 Table 5.12); the sequencer's own instructions act on the sequencer. -/
def issue (op : Nat) (c : Ctx) (f : Insn) : Op Unit :=
  match op with
  | 0x06 => opMovs c f
  | 0x07 => opSalu c f
  | 0x10 => opDcol c f
  | 0x11 => opDrec c f
  | 0x12 => opDrowid c f
  | 0x20 => opCmp c f
  | 0x21 => opTcmp c f
  | 0x22 => opInset c f
  | 0x23 => opIsnull c f
  | 0x24 => opLogic and3 c f
  | 0x25 => opLogic or3 c f
  | 0x26 => opMnot c f
  | 0x27 => opSel c f
  | 0x35 => opUnary (fun x => -x) 0 c f
  | 0x36 => opUnary (fun x => (x.natAbs : Int)) 0 c f
  | 0x39 => opUnary id f.mod c f
  | 0x3A => opMov c f
  | 0x3B => opCsel c f
  | 0x3C => opCoalesce c f
  | 0x3D => opDpart c f
  | 0x3E => opDadd c f
  | 0x40 => opHashk c f
  | 0x41 => opBuild c f
  | 0x42 => opProbe c f
  | 0x43 => opPart c f
  | 0x50 => opAgg c f
  | 0x51 => opGagg c f
  | 0x52 => opAfin c f
  | 0x60 => opStcol c f
  | 0x61 => opStrec c f
  | 0x62 => opStscl c f
  | 0x63 => opMerge c f
  | 0x64 => opTappend c f
  | 0x30 | 0x31 | 0x32 | 0x33 | 0x34 | 0x37 | 0x38 => opArith op c f
  | _ => pure ()

/-- STN_FAULT of a program fault, where none is recorded (05 R191, Table 5.21). -/
def recordStnFault (s : State) (c : Ctx) (e : Err) : State :=
  if s.flag F.stnFault_valid c.stone then s
  else s.setReg .stnFault c.stone (2 ^ 63 + c.stage * 2 ^ 60 + c.part * 2 ^ 58 + c.num % 2 ^ 13 * 2 ^ 32 +
    e.toOutc.status * 2 ^ 16 + c.req.tag)

/-- The DECIMAL event of a fault (20 Table 20.1). -/
def countFault (s : State) (c : Ctx) (e : Err) : State :=
  match e.toOutc.status with
  | 0x60 => s.countReq c.req 0x507 1
  | 0x61 => s.countReq c.req 0x509 1
  | 0x62 => s.countReq c.req 0x50A 1
  | 0x63 => s.countReq c.req 0x508 1
  | _ => s

/-- An operation of a task that is no instruction; its fault is counted. -/
def counting {α : Type} (c : Ctx) (o : Op α) : Op α := fun s =>
  match o s with
  | .ok a s1 => .ok a s1
  | .error e s1 => .error e (countFault s1 c e)

/-- An operation for an instruction; its fault is counted, and recorded with the instruction. -/
def faulting (c : Ctx) (o : Op Unit) : Op Unit := fun s =>
  match o s with
  | .ok a s1 => .ok a s1
  | .error e s1 => .error e (recordStnFault (countFault s1 c e) c e)

/-- Whether a BR skips (05 Table 5.12, R657). -/
def brTaken (s : State) (c : Ctx) (f : Insn) : Bool :=
  match f.mod, scalarRaw s c f.ra with
  | 0, _ => true
  | 1, some v => v != 0
  | 2, some v => v == 0
  | _, _ => false

/-- What follows an instruction: the next instruction and the open LOOPs; none is the part's end (05 R176). -/
def seqNext (s : State) (c : Ctx) (op : Nat) (f : Insn) (pc : Nat) (loops : List (Nat × Nat)) :
    Option (Nat × List (Nat × Nat)) :=
  match op with
  | 0x01 => none
  | 0x03 => some (if brTaken s c f then pc + 1 + f.imm else pc + 1, loops)
  | 0x04 => some (pc + 1, (pc + 1, f.imm) :: loops)
  | 0x05 =>
    match loops with
    | (start, k) :: rest => if 1 < k then some (start, (start, k - 1) :: rest) else some (pc + 1, rest)
    | [] => some (pc + 1, [])
  | _ => some (pc + 1, loops)

/-- A part runs from an instruction to its END. The fuel exceeds the issue cycles that R177 allows a part. -/
def runPart : Nat → Ctx → Nat → List (Nat × Nat) → Op Unit
  | 0, _, _, _ => pure ()
  | fuel + 1, c, pc, loops => do
    match c.pj.prog.code[pc]? with
    | none => pure ()
    | some w =>
      let s ← get
      let c1 := { c.fresh s with num := pc }
      let op := insnOp w
      let f := insnOf w
      upd (fun s => s.countReq c.req 0x31D 1)
      faulting c1 (issue op c1 f)
      let s1 ← get
      match seqNext s1 c1 op f pc loops with
      | none => pure ()
      | some (pc1, loops1) => runPart fuel c pc1 loops1

/-- The fuel of a part. -/
abbrev partFuel : Nat := 2100

/-- A stage's part runs, where it is not empty. -/
def runStagePart (c : Ctx) : Op Unit :=
  let e := partEntry c.pj.prog c.p.phase c.stage c.part
  if e = 0xFFFF then pure () else runPart partFuel c e []

/-- The parts of the six stages in stage order (05 R178). -/
def runAll (c : Ctx) (part : Nat) : Op Unit :=
  allStages.forM (fun k => runStagePart { c with stage := k, part := part, batch := none })

/-- The static scalars loaded and checked (05 R184, 08 R274). -/
def loadStatics (c : Ctx) : Op Unit := do
  let tags := c.pj.prog.argTags
  let k := c.pj.prog.statics
  let b ← readMem c.req c.pj.args (8 * k)
  for i in List.range k do
    let t := tags.getD i noTag
    let odd := i % 2 == 1 && (tags.getD (i - 1) noTag).typ == tDec128
    let raw := if t.typ = tDec128 then leAt b (8 * i) 16 else leAt b (8 * i) 8
    if !odd && isNum t.typ && !inRange t.typ (rawValue t.typ raw) then
      throw (.outc ⟨0x60, 1, c.partn * 2 ^ 32 + 0xFFFFFFFF⟩)
    upd (fun s => setScalar s c.stone c.bank i { tag := if odd then noTag else t, val := some (leAt b (8 * i) 8) })

/-- The keys of the programs of a stone's running and parked tasks. -/
def keysInUse (s : State) (st : Stone) : List ProgKey :=
  [st.run, st.parked].filterMap (fun r => (r.bind (fun r => s.job r.job)).bind (fun j => j.pipe.map (·.key)))

/-- The bytes of the programs resident on a stone. -/
def pcacheBytes (st : Stone) : Nat := (st.programs.map (·.bytes)).sum

/-- Programs leave the cache, the least recently started first, until need bytes fit (05 R182). -/
def evictPrograms (keep : List ProgKey) (need : Nat) : Nat → Stone → Stone
  | 0, st => st
  | fuel + 1, st =>
    if pcacheBytes st + need ≤ 65536 then st
    else
      let free := st.programs.filter (fun p => !keep.contains p.key)
      match free.foldl (fun m p => match m with
          | some (q : Resident) => if p.started < q.started then some p else some q
          | none => some p) none with
      | none => st
      | some p => evictPrograms keep need fuel { st with programs := st.programs.filter (fun q => q.key != p.key) }

/-- The program of a starting task is made resident (05 R182). -/
def fetchProgram (c : Ctx) : Op Unit := do
  let s ← get
  let key := c.pj.key
  let st := s.stone c.stone
  let stamp (st : Stone) : Stone := { st with
    programs := st.programs.map (fun p => if p.key = key then { p with started := st.starts } else p),
    starts := st.starts + 1 }
  if st.programs.any (fun p => p.key == key) then upd (fun s => s.setStone c.stone stamp)
  else
    let need := residentBytes c.pj.prog.secs
    upd (fun s => (s.countReq c.req 0x31C 1).setStone c.stone (evictPrograms (keysInUse s st) need (st.programs.length + 1)))
    for x in c.pj.prog.secs.filter Sec.resident do
      let _ ← readMem c.req (key.addr + x.off) x.len .fetch
    upd (fun s => s.setStone c.stone (fun st => stamp { st with programs := st.programs ++ [⟨key, need, 0⟩] }))

/-- The accumulators that AGGs name (07 R238). -/
def initAccs (c : Ctx) : Op Unit :=
  (accTags c.pj.prog c.p.phase).forM (fun a =>
    upd (fun s =>
      if a.2.1 = 1 ∨ a.2.1 = 2 then writeAcc s c.stone c.bank a.1 ⟨tInt64, 0⟩ (some 0)
      else writeAcc s c.stone c.bank a.1 a.2.2 none))

/-- The start of a task up to its last PROLOGUE (05 R184, 07 R245, R247). -/
def startOps (c : Ctx) : Op Unit := do
  if 0 < c.pj.prog.statics then counting c (loadStatics c)
  fetchProgram c
  initAccs c
  let m ← openMerge c
  upd (fun s => s.setRun c.stone (fun r => { r with merge := m }))
  runAll c 0

/-- Whether every stage is between two steps, or suspended at a wait for memory or for the merge unit (05 R185). -/
def atBoundary (s : State) (r : Run) : Bool :=
  (s.job r.job).isNone || r.stages.all (fun x => !x.2.running || (stageWaits s r x.2).isSome)

/-- An error of a stone's task fails its job (05 R191). -/
def stoneError (s : State) (job : Nat) (e : Err) : State := failJob s job e.toOutc

/-- Run a task's operation; its error fails the job. -/
def stoneOp (s : State) (job : Nat) (o : Op Unit) : State :=
  match o s with
  | .ok _ s1 => s1
  | .error e s1 => stoneError s1 job e

/-- Column registers in force for pre-emption (05 R187, R193). -/
def preemptP (s : State) : Nat := preemptCols (s.fld F.stnCfg_preempt_active 0)

/-- A task's batches (05 R155). -/
def batchesOf (rows log : Nat) : Nat := (rows + 2 ^ log - 1) / 2 ^ log

/-- The columns that a job's program declares; INDEX_LOOKUP's is 8 (07 R258). -/
def jobCols (j : Job) : Nat := (j.pipe.map (·.prog.cols)).getD 8

/-- The resident bytes of a job's program; INDEX_LOOKUP's fixed program is the device's own. -/
def jobResident (j : Job) : Nat := (j.pipe.map (fun pj => residentBytes pj.prog.secs)).getD 0

/-- A task as a stone starts it. A task of an INDEX_LOOKUP with ROW_FETCH has the fetching of its rows to do. -/
def newRun (j : Job) (t : Task) (base avail bank : Nat) : Run :=
  let p := (j.pipe.map (fun pj => pj.parts.getD t.part Part.zero)).getD Part.zero
  let fetch := boolNat (j.entries.any (fun e => eOpcode e == 0x0111))
  let total := (j.pipe.map (fun pj => batchesOf p.rows pj.prog.batchLog)).getD fetch
  { job := j.id, part := t.part, interactive := t.interactive, base := base, avail := avail, bank := bank,
    frames := min 8 (avail / max (jobCols j) 1), next := 0, total := total, stages := [], dir := none, segs := [],
    areas := [], tables := [], ledgers := [], merge := none }

/-- The registers that a task begins with hold no earlier task's values: until the task writes them, their lanes and scalars hold free
values, which show no slice's data (00 R4, R5), their masks 0 (DESIGN CHOICE, log 5). -/
def freshRegs (s : State) (stone : Nat) (r : Run) (cols : Nat) : State :=
  let n := r.frames * cols
  let s1 := { s with free := s.free + n * 4096 + 32 }
  s1.setStone stone (fun st => { st with
    cols := (List.range n).foldl (fun l i => tset (fun _ => Col.empty) l (r.base + i) { Col.empty with fill := some (s.free + i * 4096) }) st.cols
    scalars := (List.range 32).foldl (fun l i =>
      tset (fun _ => Scalar.empty) l (r.bank * 32 + i) { Scalar.empty with fill := some (s.free + n * 4096 + i) }) st.scalars
    masks := tclear (fun _ => []) st.masks ((List.range 8).map (r.bank * 8 + ·)) })

/-- A task starts on a stone whose registers it takes from base (05 R184, R189). -/
def beginRun (s : State) (stone : Nat) (j : Job) (t : Task) (base avail bank : Nat) : State :=
  let r := newRun j t base avail bank
  let s1 := (freshRegs s stone r (jobCols j)).setStone stone (fun st => { st with run := some r })
  match ctxOf s1 stone r 1 0 0 with
  | some c => stoneOp s1 j.id (startOps c)
  | none => s1

/-- A task is dispatched to a stone: its flow's last stone, the trace (04 R141, R146). -/
def dispatched (s : State) (stone : Nat) (j : Job) (t : Task) (kind mill code : Nat) : State :=
  let s1 := s.setTask t.job t.part (fun t => { t with state := .placed stone })
  let s2 := match j.hdr.flow with
    | some f => (s1.setFld F.fanFlowCfg_last_stone f stone).setFlag F.fanFlowCfg_last_valid f true
    | none => s1
  let s3 := s2.trace { (j.traceOf s2 kind) with part := t.part, stone := stone, mill := mill, interactive := t.interactive }
  s3.count ⟨code, 1, some j.slice, some stone, none⟩

/-- Whether a stone is idle (04 R133). -/
def stoneIdle (s : State) (stone : Nat) : Bool :=
  let st := s.stone stone
  st.run.isNone && st.parked.isNone && st.wanted.isNone && decide (stone < 128)

/-- A task started on an idle stone (05 R187). -/
def startIdle (s : State) (stone : Nat) (j : Job) (t : Task) : State :=
  beginRun s stone j t 0 (if t.interactive then 64 else 64 - preemptP s) 0

/-- The pre-empting task assigned to a stone, where it still stands (17 R547). -/
def wantedTask (s : State) (stone : Nat) : Option (Job × Task) :=
  match (s.stone stone).wanted with
  | none => none
  | some (j, p) =>
    match s.job j, s.task j p with
    | some jb, some t => if t.stop then none else some (jb, t)
    | _, _ => none

/-- The assignment of a pre-empting task ends; a task that is to stop is removed. -/
def clearWanted (s : State) (stone : Nat) : State :=
  match (s.stone stone).wanted with
  | none => s
  | some (j, p) =>
    let s1 := s.setStone stone (fun st => { st with wanted := none })
    fanCounts (dropTasks s1 (fun t => t.job == j && t.part == p && t.stop))

/-- A stone's running task has ended: a parked task resumes (05 R189), or a task assigned for pre-emption starts as on an
idle stone (05 R190, 17 R547). -/
def freeStone (s : State) (stone : Nat) : State :=
  match (s.stone stone).parked with
  | some r => s.setStone stone (fun st => { st with run := some r, parked := none })
  | none =>
    let s1 := s.setStone stone (fun st => { st with run := none })
    let w := wantedTask s1 stone
    let s2 := clearWanted s1 stone
    match w with
    | some (j, t) => startIdle s2 stone j t
    | none => s2

/-- The batches in flight: held by stages and in links (05 R156). -/
def Run.inFlight (r : Run) : List Batch := r.stages.flatMap (fun x => [x.2.batch, x.2.link].filterMap id)

/-- The lowest free frame of a task (05 R154, R156). -/
def Run.freeFrame (r : Run) : Option Nat :=
  (List.range r.frames).find? (fun f => !(r.inFlight.any (fun b => b.frame == f)))

/-- Whether a task of a stone may take a further step: it is not to stop and no pre-emption is requested (05 R185). -/
def mayStep (s : State) (stone : Nat) (r : Run) : Bool :=
  (s.stone stone).wanted.isNone && (match s.task r.job r.part with
    | some t => !t.stop
    | none => false)

/-- Whether a phase's DECODE reads the input directory. -/
def readsInput (p : Prog) (phase : Nat) : Bool :=
  ((partCode p phase 1 1).1).any (fun x => insnOp x.2 == 0x10 || insnOp x.2 == 0x11 || insnOp x.2 == 0x12)

/-- The directory of a task, checked before its first batch (06 R205, R207). -/
def openInput (c : Ctx) : Op Unit := do
  if c.p.input = 0 then
    if readsInput c.pj.prog c.p.phase then scanFault c.dec stBadHeader 0 0 0
    else pure ()
  else
    let d ← readDir c.dec c.p.input c.p.rows
    upd (fun s => s.setRun c.stone (fun r => { r with dir := some d }))

/-- DECODE's fixed action: the next batch, its frame, its selection and its stamps (05 Table 5.1, R155, 06 R210). -/
def admitOps (c : Ctx) (frame : Nat) (next : Nat) : Op Unit := do
  if next = 0 then openInput c
  let s ← get
  let n := 2 ^ c.pj.prog.batchLog
  let rows := min n (c.p.rows - next * n)
  let dir := (c.run s).bind (·.dir)
  let stamps ← (match dir with
    | some d => if d.ledger then readStamps c.dec d (next * n) rows else pure ([], [])
    | none => pure ([], []))
  let b : Batch := ⟨next, frame, rows, List.replicate rows true, stamps.1, stamps.2⟩
  upd (fun s =>
    let s1 := s.setRun c.stone (fun r => { (r.setStage 1 (fun st => { st with batch := some b, stepped := false, pc := 0 })) with
      next := next + 1 })
    (s1.countReq c.req 0x318 1).countReq c.req 0x319 rows)

/-- DECODE admits the next batch of a stone's task (05 R156). -/
def batchAdmit (s : State) (stone : Nat) : State :=
  match (s.stone stone).run with
  | none => s
  | some r =>
    match ctxOf s stone r 1 1 0, r.freeFrame with
    | some c, some f =>
      if !mayStep s stone r || r.total ≤ r.next || (r.stage 1).batch.isSome then s
      else stoneOp s r.job (admitOps c f r.next)
    | _, _ => s

/-- FILTER's fixed action as a batch crosses its link (06 R209, R210). -/
def visibleSel (epoch : Nat) (ledger : Bool) (b : Batch) : Batch :=
  if !ledger then b
  else { b with sel := ((List.range b.rows).map (fun i =>
      b.sel.getD i false && visible epoch (b.begins.getD i 0) (b.ends.getD i 0))) }

/-- A stage takes the batch of the link behind it (05 R156). -/
def takeBatch (s : State) (c : Ctx) (k : Nat) (b : Batch) : State :=
  let ledger := match (c.run s).bind (·.dir) with
    | some d => d.ledger
    | none => false
  let b1 := if k = 2 then visibleSel c.epoch ledger b else b
  let s1 := s.setRun c.stone (fun r => r.setStage k (fun st => { st with batch := some b1, link := none, stepped := false,
                                                                         pc := 0, loops := [] }))
  if k = 2 then s1.countReq c.req 0x31A (b.sel.countP id - b1.sel.countP id) else s1

/-- A stage's step has ended. -/
def stepEnds (s : State) (c : Ctx) : State :=
  s.setRun c.stone (fun r => r.setStage c.stage (fun st => { st with stepped := true, pc := 0, loops := [], running := false }))

/-- A stage's BODY on its batch, from the instruction in turn where the step runs already; none where the selection is empty
as the batch arrives (05 R157). -/
def bodyOps (c : Ctx) (st : Stage) : Op Unit := do
  let s ← get
  let c1 := c.fresh s
  if st.running then runPart partFuel c1 st.pc st.loops
  else if ((c1.batch.map (·.sel)).getD []).any id then runStagePart c1
  else upd (fun s => s.countReq c.req (0x300 + 4 * (c.stage - 1) + 3) 1)
  upd (fun s => stepEnds s c)

/-- A stage whose step has ended passes its batch on, where the link ahead is empty; EMIT frees its frame (05 R156). -/
def passBatch (s : State) (stone k : Nat) : State :=
  match (s.stone stone).run with
  | none => s
  | some r =>
    let st := r.stage k
    match st.batch, st.stepped with
    | some b, true =>
      let clear (r : Run) : Run := r.setStage k (fun st => { st with batch := none, stepped := false })
      if k = 6 then s.setRun stone clear
      else if (r.stage (k + 1)).link.isSome then s
      else s.setRun stone (fun r => (clear r).setStage (k + 1) (fun st => { st with link := some b }))
    | _, _ => s

/-- A batch that a finished step may pass on: after a stop or pre-emption request only EMIT's, which frees its frame (05 R185,
Table 5.14). -/
def passOn (s : State) (stone k : Nat) : State :=
  match (s.stone stone).run with
  | some r => if mayStep s stone r || k = 6 then passBatch s stone k else s
  | none => s

/-- A fault of a stage's instruction ends its step and fails the job (05 R191). -/
def stepFault (s : State) (c : Ctx) (e : Err) : State :=
  stoneError (s.setRun c.stone (fun r => r.setStage c.stage (fun st => { st with running := false }))) c.job e

/-- A stage runs its step on the batch it holds, and passes the batch on. -/
def stepBody (s : State) (stone : Nat) (c : Ctx) (st : Stage) : State :=
  match (bodyOps c st) s with
  | .ok _ s1 => passOn s1 stone c.stage
  | .error e s1 => stepFault s1 c e

/-- One instruction of a stage's step (05 R173, R176): it acts, and the sequencer goes on. -/
def insnOps (c : Ctx) (op : Nat) (act : Ctx → Insn → Op Unit) (f : Insn) (loops : List (Nat × Nat)) : Op Unit := do
  upd (fun s => s.countReq c.req 0x31D 1)
  faulting c (act c f)
  let s ← get
  match seqNext s c op f c.num loops with
  | none => upd (fun s => stepEnds s c)
  | some (pc, loops1) =>
    upd (fun s => s.setRun c.stone (fun r => r.setStage c.stage (fun st => { st with pc := pc, loops := loops1, running := true })))

/-- The instruction whose turn it is in a stage's BODY, and the open LOOPs. -/
def stageTurn (c : Ctx) (st : Stage) : Nat × List (Nat × Nat) :=
  if st.running then (st.pc, st.loops) else (partEntry c.pj.prog c.p.phase c.stage 1, [])

/-- A stage issues an instruction on the batch it holds; after the END it passes the batch on (05 R156, R176). -/
def issueInsn (s : State) (stone k op : Nat) (act : Ctx → Insn → Op Unit) (f : Insn) (c : Ctx) (st : Stage) : State :=
  let turn := stageTurn c st
  match (insnOps { c with num := turn.1 } op act f turn.2) s with
  | .ok _ s1 => passOn s1 stone k
  | .error e s1 => stepFault s1 c e

/-- Whether a stage may issue an instruction: its task may take steps, or a step that runs finishes, up to a wait for memory or for the
merge unit (05 R185). -/
def mayIssue (s : State) (stone : Nat) (r : Run) (st : Stage) : Bool :=
  mayStep s stone r || st.running && (stageWaits s r st).isNone

/-- A stage takes the batch of the link behind it and issues the first instruction of its step on it; none where the
selection is empty as the batch arrives (05 R156, R157). -/
def arriveInsn (s : State) (stone k op : Nat) (act : Ctx → Insn → Op Unit) (f : Insn) (c : Ctx) (b : Batch) : State :=
  let s1 := takeBatch s c k b
  let c1 := c.fresh s1
  if ((c1.batch.map (·.sel)).getD []).any id then issueInsn s1 stone k op act f c1 Stage.empty
  else stepBody s1 stone c1 Stage.empty

/-- A stage issues an instruction of its BODY on the batch it holds, or on the one it takes from the link behind it (05 R156,
R176). -/
def insnStep (s : State) (stone k op : Nat) (act : Ctx → Insn → Op Unit) (f : Insn) : State :=
  match (s.stone stone).run with
  | none => s
  | some r =>
    match ctxOf s stone r k 1 0 with
    | none => s
    | some c =>
      let st := r.stage k
      if !mayIssue s stone r st || k = 0 || 6 < k then s
      else match st.batch, st.link with
      | some _, _ => if st.stepped then s else issueInsn s stone k op act f c st
      | none, some b => arriveInsn s stone k op act f c b
      | none, none => s

/-- The instruction in turn of a step that finishes after a request (05 R185). -/
def finishInsn (s : State) (stone k : Nat) (c : Ctx) (st : Stage) : State :=
  match c.pj.prog.code[st.pc]? with
  | some w => issueInsn s stone k (insnOp w) (issue (insnOp w)) (insnOf w) c st
  | none => s

/-- A stage's step on the batch it holds, or on the one it takes from the link behind it. -/
def stageRuns (s : State) (stone k : Nat) (r : Run) (c : Ctx) : State :=
  let st := r.stage k
  match st.batch, st.link with
  | some _, _ => if mayStep s stone r then stepBody s stone c st else finishInsn s stone k c st
  | none, some b => stepBody (takeBatch s c k b) stone c Stage.empty
  | none, none => s

/-- The class of an uncorrectable error of a stone's arrays (02 Table 2.8). -/
def checkClass : StoneCheck → Option Nat
  | .clean => none
  | .hopper => some 1
  | .registerBank => some 2
  | .programCache => some 3

/-- A stage's step with the check of the arrays that it reads (05 R191): an uncorrectable error is a fault of the instruction in turn. -/
def stageChecked (s : State) (stone k : Nat) (check : StoneCheck) (r : Run) (c : Ctx) : State :=
  match checkClass check with
  | none => stageRuns s stone k r c
  | some cls =>
    let c1 := { c with num := (stageTurn c (r.stage k)).1 }
    stepFault (recordStnFault s c1 (.device cls)) c1 (.device cls)

/-- A stage decides on its own what to do next (05 R156): it passes on a batch it has finished, runs its step on the one
it holds, or takes the next from the link behind and runs its step. After a request it finishes the step it runs (05 R185). -/
def stageStep (s : State) (stone k : Nat) (check : StoneCheck) : State :=
  match (s.stone stone).run with
  | none => s
  | some r =>
    match ctxOf s stone r k 1 0 with
    | none => s
    | some c =>
      let st := r.stage k
      if !mayIssue s stone r st || k = 0 || 6 < k || (st.batch.isNone && st.link.isNone) then s
      else if st.stepped then passBatch s stone k
      else stageChecked s stone k check r c

/-- Whether a task's last batch has left EMIT. -/
def Run.drained (r : Run) : Bool := decide (r.total ≤ r.next) && r.inFlight.isEmpty

/-- Whether a task's merge work is done, where its phase has any (07 R247, R248, R254). -/
def Run.merged (r : Run) : Bool :=
  match r.merge with
  | some m => m.desc.mode == 0 || m.ended
  | none => true

/-- The stone that runs a task. -/
def stoneOf (s : State) (job part : Nat) : Option (Nat × Run) :=
  s.pipe.stones.findSome? (fun x => match x.2.run with
    | some r => if r.job = job ∧ r.part = part then some (x.1, r) else none
    | none => none)

/-- A merge unit does a task's merge work of a mode, once, after its last batch (07 R247, R248, R254). -/
def mergeWork (s : State) (job part mode : Nat) (work : Ctx → MergeCtx → Op Unit) : State :=
  match stoneOf s job part with
  | none => s
  | some (stone, r) =>
    match r.merge, ctxOf s stone r 6 0 0 with
    | some m, some c =>
      if m.desc.mode ≠ mode ∨ m.ended ∨ !r.drained ∨ !mayStep s stone r then s
      else stoneOp s job (do
        counting c (work c m)
        upd (fun s => s.setRun stone (fun r => { r with merge := r.merge.map (fun m => { m with ended := true }) })))
    | _, _ => s

/-- A task is to stop, or its job is gone. -/
def runStops (s : State) (r : Run) : Bool :=
  match s.task r.job r.part with
  | some t => t.stop
  | none => true

/-- A stopped task ends at its stone's batch boundary: its batches are discarded, it runs no EPILOGUE; a parked one ends
without being resumed (05 R186, R190). -/
def taskStop (s : State) (stone : Nat) : State :=
  let st := s.stone stone
  let gone (r : Run) (s : State) : State := fanCounts (dropTasks s (fun t => t.job == r.job && t.part == r.part))
  let s1 := match st.parked with
    | some r => if runStops s r then gone r (s.setStone stone (fun st => { st with parked := none })) else s
    | none => s
  match st.run with
  | some r => if runStops s1 r && atBoundary s1 r then freeStone (gone r (s1.setStone stone (fun st => { st with run := none }))) stone else s1
  | none => s1

/-- At the batch boundary, a stone parks its BATCH task and starts the pre-empting one in the reserved registers and the
shadow banks (05 R189). -/
def park (s : State) (stone : Nat) : State :=
  let st := s.stone stone
  match st.run with
  | none => s
  | some r =>
    if st.wanted.isNone || runStops s r || st.parked.isSome || !atBoundary s r then s
    else match wantedTask s stone with
    | none => clearWanted s stone
    | some (j, t) =>
      let s1 := s.setStone stone (fun st => { st with wanted := none, parked := some r, run := none })
      beginRun s1 stone j t (64 - preemptP s) (preemptP s) 1

/-- Whether an INTERACTIVE job's task may pre-empt a stone (05 R188, 17 R547). -/
def preemptable (s : State) (j : Job) (stone : Nat) : Bool :=
  let st := s.stone stone
  match st.run with
  | none => false
  | some r =>
    let resident := ((s.job r.job).map jobResident).getD 0
    let same : Bool := match s.job r.job with
      | some k => k.pipe.isSome && (k.pipe.map (·.key) == j.pipe.map (·.key))
      | none => false
    !r.interactive && st.parked.isNone && st.wanted.isNone && decide (jobCols j ≤ preemptP s) &&
      decide (resident + (if same then 0 else jobResident j) ≤ 65536)

/-- The task that a stone runs. -/
def runTask (s : State) (stone : Nat) : Option Task :=
  (s.stone stone).run.bind (fun r => s.task r.job r.part)

/-- The stone whose task ranks lowest, and among equals the lowest number (17 R547). -/
def lowestStone (s : State) (stones : List Nat) : Option Nat :=
  stones.foldl (fun best n => match best with
    | none => some n
    | some b =>
      match runTask s b, runTask s n with
      | some x, some y =>
        if x.before y then some n else some b
      | _, _ => some b) none

/-- The stones of a mill. -/
def millStones (mill : Nat) : List Nat := (List.range 8).map (fun i => 8 * mill + i)

/-- An INTERACTIVE task at the head of its mill's list is assigned to a stone that runs a BATCH task (17 R547). -/
def preempt (s : State) (mill : Nat) : State :=
  match topTask (readyList s .stone mill) with
  | none => s
  | some t =>
    match s.job t.job with
    | none => s
    | some j =>
      if !t.interactive || (millStones mill).any (stoneIdle s) || 16 ≤ mill then s
      else match lowestStone s ((millStones mill).filter (preemptable s j)) with
      | none => s
      | some n => dispatched (s.setStone n (fun st => { st with wanted := some (t.job, t.part) })) n j t 0xB mill 0x206

/-- Whether a task waits in its affinity window for a stone (04 R134): the stone goes to it as it falls idle. -/
def stoneClaimed (s : State) (stone : Nat) : Bool :=
  s.fan.tasks.any (fun t => match t.state with
    | .affinity c => decide (s.cycle ≤ c) && !t.stop &&
        (((s.job t.job).bind (fun j => j.hdr.flow)).any (fun f =>
          s.flag F.fanFlowCfg_last_valid f && s.fld F.fanFlowCfg_last_stone f == stone))
    | _ => false)

/-- An idle stone that no task waits for in its window takes the highest-ranked task of its own mill's list (04 R133, R134). -/
def dispatchStone (s : State) (stone : Nat) : State :=
  if !stoneIdle s stone || stoneClaimed s stone || s.halted then s
  else match topTask (readyList s .stone (stone / 8)) with
  | none => s
  | some t =>
    match s.job t.job with
    | some j => startIdle (dispatched s stone j t 4 (stone / 8) 0x203) stone j t
    | none => s

/-- The distance between mills (04 R135). -/
def millDistance (a b : Nat) : Nat :=
  let d (x y : Nat) : Nat := max x y - min x y
  d (a % 4) (b % 4) + d (a / 4) (b / 4)

/-- The other mills in the order in which a mill's stone searches them (04 R135). -/
def millOrder (m : Nat) : List Nat :=
  (List.range 7).flatMap (fun d => ((List.range 16).map (fun k => (m + k) % 16)).filter (fun x =>
    x != m && millDistance m x == d))

/-- The steal threshold; none under OFF (01 R30). -/
def stealThreshold (s : State) : Option Nat :=
  match s.fld F.devCfg_steal_mode 0 with
  | 0 => some 32
  | 1 => some 8
  | 2 => some 2
  | _ => none

/-- An idle stone whose mill's list is empty steals from the first mill whose list is longer than the threshold (04 R135,
R136). -/
def steal (s : State) (stone : Nat) : State :=
  let mill := stone / 8
  match stealThreshold s with
  | none => s
  | some n =>
    if !stoneIdle s stone || stoneClaimed s stone || s.halted || !(readyList s .stone mill).isEmpty then s
    else match (millOrder mill).find? (fun m => decide (n < (readyList s .stone m).length)) with
    | none => s
    | some m =>
      match tailTask (readyList s .stone m) with
      | none => s
      | some t =>
        match s.job t.job with
        | some j => startIdle (dispatched s stone j t 5 m 0x204) stone j t
        | none => s

/-- A ready task of a flow goes to its flow's last stone, where that stone is idle and its window has not ended (04 R134). -/
def dispatchAffinity (s : State) (job part : Nat) : State :=
  match s.job job, s.task job part with
  | some j, some t =>
    match t.state, j.hdr.flow with
    | .affinity c, some f =>
      let stone := s.fld F.fanFlowCfg_last_stone f
      if !s.flag F.fanFlowCfg_last_valid f || !stoneIdle s stone || s.halted || t.stop || decide (c < s.cycle) then s
      else startIdle (dispatched s stone j t 3 t.home 0x202) stone j t
    | _, _ => s
  | _, _ => s

/-- A task enters its home mill's ready list (04 R130); counter is the dependence counter it has just freed. -/
def enterList (s : State) (job part counter : Nat) : State :=
  match s.job job, s.task job part with
  | some j, some t =>
    let s1 := s.setTask job part (fun t => { t with state := .ready })
    s1.trace { (j.traceOf s1 2) with part := part, mill := t.home, interactive := t.interactive, counter := counter }
  | _, _ => s

/-- A task's affinity window ends (04 R134): where the last stone is idle in that cycle the task goes to it, else it joins its home
mill's list. -/
def affinityEnd (s : State) (job part : Nat) : State :=
  match s.task job part with
  | some t =>
    match t.state with
    | .affinity c =>
      let s1 := dispatchAffinity (clockTo s c) job part
      match s1.task job part with
      | some { state := .affinity _, .. } => enterList s1 job part 0
      | _ => s1
    | _ => s
  | none => s

end Sys2Proof.Machine
end

