-- ==== Sys2Proof/Machine/Lookup.lean ====
section
/-! DEFINITION. INDEX_LOOKUP with its ROW_FETCH and PIPE_ARGS followers (07 R258 to R261). -/

namespace Sys2Proof.Machine

/-- The bindings that the PIPE_ARGS entries of a chain supply (05 R163): number, SVA, length. -/
def bindsOf (es : List (List Byte)) : List (Nat × Nat × Nat) :=
  (es.filter (fun e => eOpcode e == 0x0101)).flatMap (fun e =>
    (List.range (leAt e 9 1)).map (fun i => (leAt e 8 1 + i, leAt e (16 + 16 * i) 8, leAt e (24 + 16 * i) 8)))

/-- The ROW_FETCH entries of a chain. -/
def rowFetches (es : List (List Byte)) : List (List Byte) := es.filter (fun e => eOpcode e == 0x0111)

/-- The input columns that a chain's ROW_FETCH entries name, in chain order (07 R259). -/
def fetchCols (es : List (List Byte)) : List Nat :=
  (rowFetches es).flatMap (fun e => (List.range (leAt e 20 1)).map (fun i => leAt e (24 + i) 1))

/-- The least length of INDEX_LOOKUP's result area (07 R261). -/
def lookupLen (n f : Nat) : Nat := n * (16 + 16 * f)

/-- The operands of an INDEX_LOOKUP job. -/
structure LookupJob where
  job : Job
  stone : Nat
  req : Req
  cols : List Nat
  rowMap : Nat
  rowCount : Nat
  deriving DecidableEq, Repr

/-- The operands of a job on a stone. -/
def lookupOf (j : Job) (stone : Nat) : LookupJob :=
  let first := (rowFetches j.entries).headD []
  ⟨j, stone, j.req (.stone stone), fetchCols j.entries, leAt first 8 8, leAt first 16 4⟩

/-- The binding of the index table: it has no binding number. -/
abbrev indexBinding : Nat := 0xFFFFFFFF

/-- Every entry of a chain whose hash and key bits match, in chain order (07 R258). -/
def chainAll (b : Bnd) (h : HtHdr) (j hash key : Nat) : Nat → Nat → Op (List Nat)
  | 0, _ => pure []
  | fuel + 1, link => do
    if link = 0 then pure []
    else
      let e := link - 1
      let base := h.sub j
      let eh ← b.num8 (base + h.offHash + 8 * e) 8
      let ek ← b.num8 (base + h.offKey + 8 * e) 8
      let next ← b.num8 (base + h.offNext + 4 * e) 4
      let rest ← chainAll b h j hash key fuel next
      pure (if eh = hash ∧ ek = key then e :: rest else rest)

/-- The row identifiers that a table holds for a key, in chain order (07 R258); an entry whose payload is NULL names no row
(DEDUCED, log 52), and a sub-table's spilled bit changes nothing. -/
def tableRows (b : Bnd) (h : HtHdr) (key : Nat) : Op (List Nat) := do
  let x := hashLane key
  let j := h.subOf x
  let link ← b.num8 (h.sub j + 128 + 4 * h.bucketOf x) 4
  let es ← chainAll b h j x key (h.cap + 1) link
  let ps ← es.mapM (payloadOf b h j)
  pure (ps.filterMap id)

/-- An index table checked: a JOIN table whose payload is UINT64. -/
def openIndex (b : Bnd) : Op HtHdr := do
  let x ← b.read 0 64
  openTable b 1 (htOf x).keyTag (fun h => [badIf (h.vtags.headD noTag != ⟨tUint64, 0⟩) 16])

/-- The directory of a candidate's partition (07 R260, R261). -/
def lookupDir (l : LookupJob) (q : Nat) : Op Dir := do
  if l.rowCount ≤ q then throw (.outc ⟨stTruncated, 0, 0xFFFFFFFF * 2 ^ 32 + q⟩)
  let sva ← readNum l.req (l.rowMap + 8 * q) 8
  let c : DecCtx := ⟨l.stone, l.req, q, [1, 2, 3, 4, 5, 6, 7]⟩
  if sva % 16 ≠ 0 then scanFault c stBadHeader 0 0 0
  let rows ← readNum l.req (sva + 8) 4
  readDir c sva rows

/-- Whether a candidate is visible under a snapshot (07 R260, 06 R209). -/
def lookupVisible (l : LookupJob) (d : Dir) (q row : Nat) : Op Bool := do
  if !d.ledger then pure true
  else
    let c : DecCtx := ⟨l.stone, l.req, q, []⟩
    if d.rows ≤ row then scanFault c stTruncated 2 0 (8 * d.rows)
    let (b, e) ← readStamps c d row 1
    pure (visible l.job.epoch (b.headD 0) (e.headD 0))

/-- One field of a fetched row: its 16 bytes and validity (07 R261); the bytes above a lane are not stated. -/
def lookupField (l : LookupJob) (d : Dir) (q row column : Nat) : Op (List Byte × Bool) := do
  let c : DecCtx := ⟨l.stone, l.req, q, [1, 2, 3, 4, 5, 6, 7]⟩
  if d.cols.length ≤ column then scanFault c stBadHeader 0 0 2
  let e := d.cols.getD column (0, 0)
  if e = (0, 0) then pure (zeros 16, false)
  else
    if e.2 < 32 then scanFault c stTruncated 1 column e.2
    let hb ← readMem l.req e.1 32
    let t : Tag := ⟨leAt hb 1 1, leAt hb 2 1⟩
    let h ← openSeg c column e.1 e.2 t d.rows
    let vs ← decodeRows c column h d.rows row 1
    match vs.headD none with
    | none => pure (zeros 16, false)
    | some v =>
      if t.typ = tDec128 then pure (natLE 16 v, true)
      else
        let up ← freeBytes 8
        pure (natLE 8 v ++ up, true)

/-- The record of one key (07 R260, R261). -/
def lookupRecord (l : LookupJob) (payload state count : Nat) (fields : List (List Byte × Bool)) : List Byte :=
  natLE 8 payload ++ natLE 1 state ++ [0] ++ natLE 2 (min count 0xFFFF) ++
    natLE 4 (rowValid (fields.map Prod.snd)) ++ (fields.map Prod.fst).flatten ++ zeros (16 * (l.cols.length - fields.length))

/-- The state of a key and its record (07 R260). -/
def lookupKey (l : LookupJob) (cands : List Nat) : Op (List Byte) := do
  let n := cands.length
  match cands, (rowFetches l.job.entries).isEmpty with
  | [], _ => pure (lookupRecord l 0 1 0 [])
  | c :: _, true => pure (lookupRecord l c 0 n [])
  | _, false =>
    let seen ← cands.mapM (fun p => do
      let d ← lookupDir l (p / 2 ^ 32)
      let v ← lookupVisible l d (p / 2 ^ 32) (p % 2 ^ 32)
      pure (p, d, v))
    match seen.filter (fun x => x.2.2) with
    | [] => pure (lookupRecord l 0 2 n [])
    | [x] => do
      let fs ← l.cols.mapM (lookupField l x.2.1 (x.1 / 2 ^ 32) (x.1 % 2 ^ 32))
      pure (lookupRecord l x.1 0 n fs)
    | _ => pure (lookupRecord l 0 3 n [])

/-- INDEX_LOOKUP's task (07 R258 to R261). -/
def lookupOps (l : LookupJob) : Op Unit := do
  let e := l.job.first
  let n := eParam0 e
  let bnd (num sva len : Nat) : Bnd := ⟨num, sva, len, l.req⟩
  let b0 := bnd indexBinding (eAddr0 e) (eLen0 e)
  let h0 ← openIndex b0
  let delta := (bindsOf l.job.entries).find? (fun b => b.1 == 0)
  let b1 := (delta.map (fun d => bnd 0 d.2.1 d.2.2)).getD b0
  let h1 ← (if delta.isSome then openIndex b1 else pure h0)
  let w := 16 + 16 * l.cols.length
  for i in List.range n do
    let key ← readNum l.req (eAddr2 e + 8 * i) 8
    let r0 ← tableRows b0 h0 key
    let r1 ← (if delta.isSome then tableRows b1 h1 key else pure [])
    upd (fun s => (s.countReq l.req 0x400 1).countReq l.req 0x401 (r0.length + r1.length))
    let rec_ ← lookupKey l (r0 ++ r1)
    jobWrite l.job.id l.req (eAddr1 e + w * i) rec_

end Sys2Proof.Machine
end

