-- ==== Sys2Proof/Machine/Loader.lean ====
section
/-! DEFINITION. The program loader: what a PIPE_RUN at handover is checked for, the check cache, partition entries and
producers (05 R158 to R165, R169, R180, R658). -/

namespace Sys2Proof.Machine

/-- Why a program is refused, or the program. -/
abbrev LoadRes := Except Outc Prog

/-- A check as a step of loading. -/
def check (o : Option Outc) : Op Unit :=
  match o with
  | some x => throw (.outc x)
  | none => pure ()

/-- Whether a job of a slice is INTERACTIVE for load check 7. -/
def sliceInteractive (s : State) (slice : Nat) : Bool := s.flag F.slcCfg_class slice

/-- A program entered in the check cache of 512 entries (05 R658): the oldest entry gives way. -/
def cacheProgram (s : State) (key : ProgKey) (p : Prog) : State :=
  let l := s.pipe.checked ++ [(key, p)]
  { s with pipe := { s.pipe with checked := l.drop (l.length - 512) } }

/-- The container of a PIPE_RUN read and checked (05 Table 5.13, R658). -/
def loadProgram (j : Job) : Op (ProgKey × Prog) := do
  let s ← get
  let e := j.first
  let r := j.req .fantail
  let a := eAddr0 e
  let n := eLen0 e
  let interactive := sliceInteractive s j.slice
  if n < 64 then throw (.outc ⟨stShort, 0, 64⟩)
  let h ← readMem r a 64 .fetch
  check (headCheck h n)
  let total := leAt h 8 4
  let key : ProgKey := ⟨j.slice, a, n, leAt h 12 4⟩
  let s1 ← get
  match s1.pipe.checked.find? (fun x => x.1 == key) with
  | some x =>
    check (jobCheck x.2.statics x.2.cols (eLen1 e) (preemptP s) interactive)
    pure (key, x.2)
  | none =>
    let rest ← readMem r (a + 64) (total - 64) .fetch
    let c := h ++ rest
    check (crcCheck c)
    check (headFields c)
    check (tableCheck c)
    check (jobCheck (leAt c 18 1) (leAt c 17 1) (eLen1 e) (preemptP s) interactive)
    check (entryCheck c)
    let p := progOf c
    check (codeCheck p)
    upd (fun s => cacheProgram s key p)
    pure (key, p)

/-- Whether a program holds TAPPEND. -/
def Prog.appends (p : Prog) : Bool := p.code.any (fun w => insnOp w == 0x64)

/-- Whether the container that a PIPE_RUN names holds TAPPEND, as its bytes stand. -/
def readAppends (j : Job) : Op Bool := do
  let r := j.req .fantail
  let n := eLen0 j.first
  if n < 64 then pure false
  else
    let h ← readMem r (eAddr0 j.first) 64 .fetch
    if (headCheck h n).isSome then pure false
    else
      let rest ← readMem r (eAddr0 j.first + 64) (leAt h 8 4 - 64) .fetch
      pure (progOf (h ++ rest)).appends

/-- Whether a PIPE_RUN's program holds TAPPEND (09 R307), where it is not loaded: as its container's bytes say, and not where they cannot be
read (DESIGN CHOICE, log 65). -/
def holdsAppend (s : State) (j : Job) : Bool :=
  match j.pipe, (readAppends j).exec s with
  | some pj, _ => pj.prog.appends
  | none, (.ok b, _) => b
  | none, (.error _, _) => false

/-- The pipeline job that a PIPE_RUN becomes once its container is loaded. -/
def pipeJobOf (j : Job) (key : ProgKey) (p : Prog) : PipeJob :=
  let e := j.first
  { key := key, prog := p, binds := bindsOf j.entries, args := eAddr1 e, argLen := eLen1 e, table := eAddr2 e, parts := [] }

/-- BAD_HEADER of a partition table at a byte offset (05 R162). -/
def partFail (off : Nat) : Outc := ⟨stBadHeader, 0, 0xFFFFFFFF * 2 ^ 32 + off⟩

/-- A partition table entry read (05 Table 5.5). -/
def readPart (j : Job) (pj : PipeJob) (n : Nat) : Op Part := do
  let b ← readMem (j.req .fantail) (pj.table + 16 * n) 16
  let q := leAt b 0 8
  let p : Part := ⟨bitsAt q 48 4, bitsAt q 0 48, leAt b 8 4, leAt b 12 4⟩
  let prev := (pj.parts.getLast?.map (·.phase)).getD 0
  if bitsAt q 52 12 ≠ 0 ∨ pj.prog.phases.length ≤ p.phase ∨ p.phase < prev then throw (.outc (partFail (16 * n)))
  pure p

/-- The producers of a task (05 R169): of phase k under ALL every task of phase k - 1, under SAME the task of the same
place in it. -/
def producersOf (j : Job) (part : Nat) : List Nat :=
  match j.pipe with
  | none => []
  | some pj =>
    let me := pj.parts.getD part Part.zero
    let dep := ((pj.prog.phases[me.phase]?).map (·.dep)).getD 0
    let idx := (List.range pj.parts.length).zip pj.parts
    let of (k : Nat) : List Nat := (idx.filter (fun x => x.2.phase == k)).map Prod.fst
    if me.phase = 0 then []
    else match dep with
      | 1 => of (me.phase - 1)
      | 2 => ((of (me.phase - 1))[(of me.phase).findIdx (· == part)]?).toList
      | _ => []

/-- The next task is created; a PIPE_RUN's partition table entry is read first, and an entry in breach fails the job
(04 R125, 05 R162). -/
def taskCreate (s : State) : State :=
  match nextCreate s with
  | none => s
  | some j =>
    match j.pipe with
    | none => createTask s producersOf
    | some pj =>
      if 32768 ≤ s.fld F.fanStatus_tasks 0 then s
      else match (readPart j pj j.created).exec s with
      | (.error e, s1) => failJob s1 j.id e.toOutc
      | (.ok p, s1) =>
        let s2 := s1.setJob j.id (fun j => { j with pipe := j.pipe.map (fun pj => { pj with
          parts := pj.parts.take j.created ++ [p] }) })
        createTask s2 producersOf

/-- The mill whose Granary bank owns an SVA's byte (04 R132). -/
def millOf (s : State) (j : Job) (sva : Nat) : Option Nat :=
  match (translate { j.req .fantail with spec := true } .read sva).exec s with
  | (.ok t, _) => some (granBank t.dpa)
  | (.error _, _) => none

/-- The bytes from one input block of a Quern's job to the next, a block or a slot where it is SLOTTED (11 R397, R404). -/
def quernStride (j : Job) : Nat :=
  let p := eParam0 j.first
  let b := p % 512 * 1024
  if !bitAt p 10 then 0 else if j.hdr.op = 0x0301 then alignUp (b + 16) 64 else b

/-- The input address of a task, where its opcode names one (04 R132): a partition table entry's input, unless it is 0; a Quern task's
first input block; the key array of an INDEX_LOOKUP (which of its addresses is its input the spec does not say: DESIGN CHOICE, log 60);
the source of a copy, a digest's message, a blob to restore, a WRITE's buffer. -/
def taskInput (j : Job) (part : Nat) : Option Nat :=
  match j.hdr.op with
  | 0x0100 =>
    let a := ((j.pipe.map (fun pj => (pj.parts.getD part Part.zero).input))).getD 0
    if a = 0 then none else some a
  | 0x0110 => some (eAddr2 j.first)
  | 0x0300 | 0x0301 => some (eAddr0 j.first + part * quernStride j)
  | 0x0200 | 0x0202 | 0x0400 | 0x0401 | 0x0403 | 0x0501 => some (eAddr0 j.first)
  | _ => none

/-- The last stone of a job's flow, where one is recorded (04 R141). -/
def lastStone (s : State) (j : Job) : Option Nat :=
  j.hdr.flow.bind (fun f => if s.flag F.fanFlowCfg_last_valid f then some (s.fld F.fanFlowCfg_last_stone f) else none)

/-- A task's home mill (04 R132); an input that does not translate takes the rotation (DESIGN CHOICE, log 60). -/
def homeMill (s : State) (j : Job) (input : Option Nat) : Nat × State :=
  match lastStone s j, input.bind (millOf s j) with
  | some stone, _ => (stone / 8, s)
  | none, some m => (m, s)
  | none, none => (s.fan.rotation % 16, { s with fan := { s.fan with rotation := (s.fan.rotation + 1) % 16 } })

/-- The epoch that a registration's projection has applied (09 R330). -/
def appliedEpoch (s : State) (table : Nat) : Nat := s.reg .mpdTableStat table

/-- The projection that a PIPE_RUN or INDEX_LOOKUP reads (09 R331): the volume's. -/
def projRead (s : State) (j : Job) : Option Proj :=
  (s.vols.projs.map Prod.snd).find? (fun p => p.slice == j.slice &&
    (match j.hdr.op with
      | 0x0100 => p.ptable == eAddr2 j.first
      | 0x0110 => p.index == eAddr0 j.first
      | _ => false))

/-- Whether a job is held until a projection reaches its epoch (01 R24). -/
def projHeld (s : State) (j : Job) : Bool :=
  match projRead s j with
  | some p => decide (appliedEpoch s p.table < j.epoch)
  | none => false

/-- While keys are erased projection application stops, and a job held for a projection ends (19 R589). -/
def projStops (s : State) (j : Job) : Bool := projHeld s j && s.flag F.brkStatus_keys_erased 0

/-- The rows of an entry of a job that reads a projection, as they stand now (09 R331). -/
def rereadRows (s : State) (j : Job) (job part : Nat) : Op Unit := do
  match j.pipe with
  | some pj =>
    if (projRead s j).isSome then
      let n ← readNum (j.req .fantail) (pj.table + 16 * part + 8) 4
      upd (fun s => s.setJob job (fun j => { j with pipe := j.pipe.map (fun pj => { pj with
        parts := pj.parts.take part ++ [{ (pj.parts.getD part Part.zero) with rows := n }] ++ pj.parts.drop (part + 1) }) }))
  | none => pure ()

/-- A ready task's class, home mill and cycle, its counter freed; it waits in its affinity window, or joins its mill's list, or the Toll's
where it needs a tap's context (04 R127, R130, R131, R134, 12 R415). -/
def becomeReady (s : State) (j : Job) (t : Task) (job part home : Nat) : State :=
  let w := s.fld F.fanAffinity_window 0
  let s1 := (fanCounts (s.setTask job part (fun t => { t with
    home := home, seq := s.cycle, interactive := jobInteractive s j, prio := j.hdr.prio, counter := none,
    tapWait := (tapAsk j part).isSome, state := .affinity (s.cycle + w) }))).count ⟨0x201, 1, some j.slice, none, none⟩
  match lastStone s j with
  | some stone => if t.engine == .stone && (stoneIdle s1 stone || decide (0 < w)) then s1 else enterList s1 job part (t.counter.getD 0)
  | none => enterList s1 job part (t.counter.getD 0)

/-- A task that waits for nothing becomes ready (04 R127, R130, R134): its class, its home mill, its flow's last stone. A
job that reads a projection has its entry's rows read now (09 R331). -/
def taskReady (s : State) (job part : Nat) : State :=
  match s.job job, s.task job part with
  | some j, some t =>
    if projStops s j && t.state == .waiting && t.producers.isEmpty && !t.stop then failJob s job ⟨0x80, 0, 0⟩
    else if t.state != .waiting || !t.producers.isEmpty || t.stop || projHeld s j || s.fld F.slcCfg_state j.slice != 1 then s
    else
      match (rereadRows s j job part).exec s with
      | (.error e, s1) => failJob s1 job e.toOutc
      | (.ok _, s1) =>
        let h := homeMill s1 j (taskInput j part)
        becomeReady h.2 j t job part h.1
  | _, _ => s

end Sys2Proof.Machine
end

