-- ==== Sys2Proof/Machine/Journal.lean ====
section
/-! DEFINITION. The Millpond's journal: records, commit groups, publication, truncation, transactions and claims (09 R300
to R348). -/

namespace Sys2Proof.Machine

/-- The journal area's size; the anchor stands above it (09 Table 9.8). -/
abbrev journalEnd : Nat := 0x7C000000

/-- Record kinds (09 Table 9.5). -/
abbrev kSector : Nat := 0x01
abbrev kTrim : Nat := 0x02
abbrev kRow : Nat := 0x03
abbrev kRowDelete : Nat := 0x04
abbrev kCommit : Nat := 0x10
abbrev kAbort : Nat := 0x11
abbrev kSeal : Nat := 0x20
abbrev kCkpt : Nat := 0x21
abbrev kGenesis : Nat := 0x30
abbrev kPad : Nat := 0x3F

/-- A byte of the Millpond by logical offset; unwritten bytes read 0. -/
def State.mpdByte (s : State) (off : Nat) : Byte := tget (fun _ => 0) s.mpd.cells off

/-- n bytes of the Millpond. -/
def State.mpdBytes (s : State) (off n : Nat) : List Byte := (List.range n).map (fun i => s.mpdByte (off + i))

/-- The physical block behind a logical block (09 R348). -/
def physBlock (m : Mpd) (b : Nat) : Nat := tget (fun k => k) m.moved b

/-- The write count of a physical block. -/
def blockWrites (m : Mpd) (p : Nat) : Nat := tget (fun _ => 0) m.writes p

/-- The reserved or spare block whose physical block has been written least (09 R348). -/
def leastWorn (m : Mpd) : Nat :=
  (List.range 1023).foldl (fun b i => if blockWrites m (physBlock m (31745 + i)) < blockWrites m (physBlock m b) then 31745 + i else b) 31744

/-- The journal block whose physical block has been written least. -/
def leastWornJournal (m : Mpd) : Nat :=
  (List.range 31744).foldl (fun b i => if blockWrites m (physBlock m i) < blockWrites m (physBlock m b) then i else b) 0

/-- A journal block and a reserved or spare block of which the one just written is worn 2^20 writes beyond the other exchange their
physical blocks (09 R348). -/
def wearExchange (m : Mpd) (b : Nat) : Mpd :=
  let p := physBlock m b
  if blockWrites m p ≤ 2 ^ 20 then m
  else
    let c := if b < 31744 then leastWorn m else leastWornJournal m
    let q := physBlock m c
    if blockWrites m p ≤ blockWrites m q + 2 ^ 20 then m
    else { m with moved := tset (fun k => k) (tset (fun k => k) m.moved b q) c p }

/-- Bytes written to the Millpond: each granule of 64 bytes counts as a write of its block (09 R348). -/
def mpdWrite (s : State) (off : Nat) (b : List Byte) : State :=
    let m := s.mpd
    let cells := ((List.range b.length).zip b).foldl (fun cs p => tset (fun _ => (0 : Byte)) cs (off + p.1) p.2) m.cells
    let grans := if b.isEmpty then [] else (List.range ((off % 64 + b.length + 63) / 64)).map (fun i => off / 64 + i)
    let m1 := grans.foldl (fun m g =>
      wearExchange { m with writes := tupd (fun _ => 0) m.writes (physBlock m (g / 1024)) (· + 1) } (g / 1024)) { m with cells := cells }
    { s with mpd := m1 }

/-- A record's size in the Millpond (09 R301, R334). -/
def recSize (payload : Nat) : Nat := 128 + alignUp payload 64

/-- The whole record, padding included (09 Table 9.4). -/
def JRec.bytes (r : JRec) : List Byte :=
  let h := natLE 4 0x4A524E4C ++ natLE 1 r.kind ++ natLE 1 (boolNat r.commit) ++ zeros 2 ++ natLE 4 r.payload.length ++
    natLE 4 r.txn ++ natLE 8 r.seq ++ natLE 8 r.epoch ++ natLE 1 r.slice ++ natLE 1 r.queue ++ natLE 2 r.tag ++ zeros 4 ++
    natLE 8 r.obj ++ natLE 8 r.addr ++ natLE 8 r.aux ++ r.prev ++ zeros 28
  h ++ natLE 4 (crc32c h) ++ padTo r.payload (alignUp r.payload.length 64)

/-- The bytes of a retained record as the Millpond holds them. -/
def storedRec (s : State) (r : JRec) : List Byte := s.mpdBytes r.off (recSize r.payload.length)

/-- Whether a record belongs to a transaction: SEAL, CHECKPOINT, GENESIS and PAD belong to none (09 Table 9.4). -/
def JRec.inTxn (r : JRec) (n : Nat) : Bool := r.txn == n && decide (r.kind < 0x20)

/-- A record to be: no job, no transaction. -/
def JNew.bare (kind : Nat) : JNew := ⟨kind, false, 0, 0, 0, 0, 0, 0, 0, [], none, 0⟩

/-- Journal bytes in use. -/
def journalUsed (m : Mpd) : Nat := (m.tail + journalEnd - m.headOff) % journalEnd

/-- MPD_SPACE.used_blocks, and SPACE_WARN when the level is reached (09 Tables 9.7, 9.16). -/
def spaceUpdate (s : State) : State :=
  let used := journalUsed s.mpd
  let blocks := if used = 0 then 0 else (s.mpd.headOff % 65536 + used + 65535) / 65536
  let s1 := s.setFld F.mpdSpace_used_blocks 0 blocks
  let high := decide (s.fld F.mpdSpace_warn_pct 0 * journalEnd ≤ used * 100)
  let s2 := { s1 with mpd := { s1.mpd with warned := high } }
  if high && !s.mpd.warned then (s2.setFlag F.mpdStatus_space_warn 0 true).devEvent 0x0901 0 else s2

/-- A record takes the next sequence number, place and previous hash and is written, and the chain tap absorbs it (09 R303, R334, R335). -/
def placeRecord (s : State) (n : JNew) (epoch : Nat) : JRec × State :=
  let m := s.mpd
  let r : JRec :=
    { kind := n.kind, commit := n.commit, txn := n.txn, seq := s.reg .mpdSeq 0, epoch := epoch, slice := n.slice,
      queue := n.queue, tag := n.tag, obj := n.obj, addr := n.addr, aux := n.aux, payload := n.payload,
      prev := m.lastHash, off := m.tail, fate := if n.commit then some epoch else none, dead := false, applied := false }
  let b := r.bytes
  let (hash, s0) := chainTap s b
  let s1 := mpdWrite s0 m.tail b
  let s2 := (s1.setReg .mpdSeq 0 (r.seq + 1)).count ⟨0xB01, b.length, none, none, none⟩
  (r, spaceUpdate { s2 with mpd := { s2.mpd with tail := (m.tail + b.length) % journalEnd, lastHash := hash,
                                                 recs := s2.mpd.recs ++ [r] } })

/-- The open group changed. -/
def setGrp (s : State) (f : Group → Group) : State := { s with mpd := { s.mpd with grp := s.mpd.grp.map f } }

/-- Room made before the end of the journal area for a record of some bytes: a PAD fills the area to its end; a remainder
too short for a header is passed over (09 R334). -/
def padEnd (s : State) (size epoch : Nat) : State :=
  let left := journalEnd - s.mpd.tail
  if size ≤ left then s
  else if left < 128 then { s with mpd := { s.mpd with tail := 0 } }
  else
    let (_, s1) := placeRecord s { JNew.bare kPad with payload := zeros (left - 128) } epoch
    setGrp s1 (fun g => { g with count := g.count + 1 })

/-- A group opened with an epoch (09 R300). -/
def openGroup (s : State) (epoch : Nat) : State :=
  let g : Group := { epoch := epoch, opened := s.cycle, closeUs := s.fld F.mpdGroupCfg_close_us 0, size := 0, count := 0,
                     commits := [], sealRec := none, durable := false }
  ({ s with mpd := { s.mpd with grp := some g } }).setReg .mpdGroupStat 0 epoch

/-- The group after a closed one: it opens with an epoch, or no group is open. -/
def groupNext (s : State) (epoch : Nat) (reopen : Bool) : State :=
  if reopen then openGroup s epoch else { s with mpd := { s.mpd with grp := none } }

/-- A group's SEAL is placed and the group joins the closed ones. -/
def sealGroup (s : State) (g : Group) : State :=
  let n := (s.mpd.grp.map (·.count)).getD g.count
  let p := placeRecord s { JNew.bare kSeal with aux := n + 1 } g.epoch
  { p.2 with mpd := { p.2.mpd with closed := p.2.mpd.closed ++ [{ g with count := n + 1, sealRec := some p.1 }] } }.count
    ⟨0xB02, 1, none, none, none⟩

/-- The open group closes with its SEAL; the next opens in the same cycle, with the same epoch after an empty group (09
R300 to R302). -/
def closeGroup (s : State) (reopen : Bool) : State :=
  match s.mpd.grp with
  | none => s
  | some g =>
    if g.count = 0 then groupNext (s.count ⟨0xB03, 1, none, none, none⟩) g.epoch reopen
    else groupNext (sealGroup (padEnd s 128 g.epoch) g) (g.epoch + 1) reopen

/-- Whether records may join: a group is open and the power-fail sequence has not begun (09 R336). -/
def mayJoin (s : State) : Bool := s.mpd.grp.isSome && !s.flag F.mpdStatus_pwr_fail 0

/-- A record joins the open group, which closes first where the record would exceed its limit, and afterwards where it
exceeds the limit alone (09 R301). -/
def joinNow (s : State) (n : JNew) : JRec × State :=
  let size := recSize n.payload.length
  let lim := s.fld F.mpdGroupCfg_max_kib 0 * 1024
  let s1 := match s.mpd.grp with
    | some g => if 0 < g.count ∧ lim < g.size + size then closeGroup s true else s
    | none => s
  let e := (s1.mpd.grp.map (·.epoch)).getD 0
  let s2 := padEnd s1 size e
  let (r, s3) := placeRecord s2 n e
  let s4 := (setGrp s3 (fun g => { g with count := g.count + 1, size := g.size + size })).count
    ⟨0xB00, 1, some n.slice, none, none⟩
  (r, if lim < size then closeGroup s4 true else s4)

/-- The bytes passed over before the end of the journal area to place a record of some bytes at a place (09 R334). -/
def padBytes (tail size : Nat) : Nat := if size ≤ journalEnd - tail then 0 else journalEnd - tail

/-- The journal bytes that a record's joining takes: the SEAL of a group that closes before it, any PAD, and the record itself. -/
def joinBytes (s : State) (n : JNew) : Nat :=
  let size := recSize n.payload.length
  let lim := s.fld F.mpdGroupCfg_max_kib 0 * 1024
  let tail := s.mpd.tail
  let seal_ := if s.mpd.grp.any (fun g => decide (0 < g.count ∧ lim < g.size + size)) then padBytes tail 128 + 128 else 0
  seal_ + padBytes ((tail + seal_) % journalEnd) size + size

/-- Whether a record must wait for space: a SECTOR, TRIM, ROW or ROW_DELETE that would enter the last 1 MiB that is free (09 R345). -/
def mustWait (s : State) (n : JNew) : Bool :=
  decide (1 ≤ n.kind ∧ n.kind ≤ 4) && decide (journalEnd - journalUsed s.mpd < joinBytes s n + 2 ^ 20)

/-- A record waits under R345; the first wait is reported. -/
def journalWait (s : State) : State :=
  let s1 := s.setFlag F.mpdStatus_journal_wait 0 true
  if s.mpd.waited then s1 else { s1 with mpd := { s1.mpd with waited := true } }.devEvent 0x0902 0

/-- The volume table entry of a volume. -/
def State.vol (s : State) (v : Nat) : Option VolEnt := (s.vols.table.find? (fun x => x.1 == v)).map Prod.snd

/-- A volume's sector size. -/
def VolEnt.bytes (e : VolEnt) : Nat := if e.big then 4096 else 512

/-- Whether a SECTOR or TRIM record counts for its volume: the volume is valid and the record is not older than its
creation sequence (10 R374 to R376). -/
def recCounts (s : State) (r : JRec) : Bool :=
  !r.dead && (match s.vol r.obj with
    | some e => decide (e.createSeq ≤ r.seq) && !e.table
    | none => false)

/-- The sectors of a SECTOR or TRIM record. -/
def JRec.sectors (r : JRec) : List Nat :=
  if r.kind = kSector then [r.addr] else if r.kind = kTrim then (List.range r.aux).map (r.addr + ·) else []

/-- The key of a sector in the index of 10 R369. -/
def dirtyKey (v sector : Nat) : Nat := v * 2 ^ 48 + sector

/-- The dirty index's newest image of a sector: its record's sequence plus 1, or 0. -/
def dirtyAt (s : State) (v sector : Nat) : Nat := tget (fun _ => 0) s.vols.dirty (dirtyKey v sector)

/-- VOL_DIRTY.entries after a change. -/
def dirtyCount (s : State) : State := s.setFld F.volDirty_entries 0 s.vols.dirty.length

/-- Whether the image of a sector, by its record's number in the index, is being written to a drive. -/
def imageIssued (s : State) (v q : Nat) : Bool :=
  s.vols.cmds.any (fun c => c.vol == v && (match c.use with
    | .writeback seqs => seqs.contains q
    | _ => false))

/-- A published record's sectors enter the index (10 R369); an image that a newer one replaces before it is issued is
skipped (10 R367). -/
def markDirty (s : State) (r : JRec) : State :=
  if !recCounts s r then s
  else
    let old := r.sectors.countP (fun x => dirtyAt s r.obj x != 0 && !imageIssued s r.obj (dirtyAt s r.obj x))
    let d := r.sectors.foldl (fun d x => tset (fun _ => 0) d (dirtyKey r.obj x) (r.seq + 1)) s.vols.dirty
    dirtyCount ({ s with vols := { s.vols with dirty := d } }.count ⟨0xA13, old, none, none, none⟩)

/-- Whether the index of 10 R369 has no room for a record's sectors, counting those of records not yet published. -/
def dirtyFull (s : State) (n : JNew) : Bool :=
  let need := if n.kind = kSector then 1 else if n.kind = kTrim then n.aux else 0
  let pub := s.reg .mpdEpoch 0
  let owed := ((s.mpd.recs.filter (fun r => !r.dead && (match r.fate with
    | some e => decide (pub < e)
    | none => true))).map (fun r => r.sectors.length)).sum
  decide (need ≠ 0 ∧ 4194304 < s.vols.dirty.length + owed + need)

/-- Whether a committed record's images, or newer ones, are wholly on the drives (10 R368). -/
def JRec.isLanded (r : JRec) : Bool := r.sectors.all r.landed.contains

/-- F_v (10 R368). -/
def flushedEpoch (s : State) (v : Nat) : Nat :=
  let pub := s.reg .mpdEpoch 0
  (s.mpd.recs.filter (fun r => (r.kind == kSector || r.kind == kTrim) && r.obj == v && recCounts s r && !r.isLanded)).foldl
    (fun m r => match r.fate with
      | some e => min m (e - 1)
      | none => m) pub

/-- The volumes' flushed epoch (10 R368). -/
def volumesFlushed (s : State) : Nat :=
  (s.vols.table.filter (fun x => !x.2.table)).foldl (fun m x => min m (flushedEpoch s x.1)) (s.reg .mpdEpoch 0)

/-- The truncation epoch (09 R344). -/
def truncEpoch (s : State) : Nat :=
  let live := s.mpd.recs.filter (fun r => decide (r.kind < kCommit) && !r.dead && r.fate.isNone)
  live.foldl (fun m r => min m (r.epoch - 1)) (min (s.reg .mpdCkpt 0) (volumesFlushed s))

/-- Journal space freed up to the first record whose epoch exceeds T, and the anchor written (09 R344, Table 9.8). -/
def truncate (s : State) : State :=
  let t := max (truncEpoch s) (s.reg .mpdTrunc 0)
  let gone := s.mpd.recs.takeWhile (fun r => decide (r.epoch ≤ t))
  if gone.isEmpty ∧ t = s.reg .mpdTrunc 0 then s
  else
    let keep := s.mpd.recs.drop gone.length
    let hash := match gone.getLast? with
      | some r => sha256 (storedRec s r)
      | none => s.mpd.headHash
    let seq := (keep.head?.map (·.seq)).getD (s.reg .mpdSeq 0)
    let off := (keep.head?.map (·.off)).getD s.mpd.tail
    let s1 := { s with mpd := { s.mpd with recs := keep, headSeq := seq, headOff := off, headHash := hash } }
    let s2 := mpdWrite (s1.setReg .mpdTrunc 0 t) journalEnd (natLE 8 seq ++ natLE 8 off ++ natLE 8 t ++ hash ++ zeros 8)
    spaceUpdate s2

/-- Whether a job pins its read epoch (09 R326); a SNAPSHOT_OPEN holds the S it takes at handover (R324). -/
def pins (j : Job) : Bool := j.hdr.op / 256 == 1 || (j.hdr.op == 0x0602 && j.outc.isNone)

/-- The low-water epoch, which never decreases (09 R327). -/
def updateLow (s : State) : State :=
  let l := s.reg .mpdLowWater 0
  let vals := s.mpd.snaps.map Prod.snd ++ ((s.fan.jobs.filter pins).map (·.epoch)).filter (fun e => decide (l ≤ e)) ++
    s.mpd.txns.map (·.st)
  s.setReg .mpdLowWater 0 (max l (vals.foldl min (s.reg .mpdEpoch 0)))

/-- The request of the device's own work on a slice's tables. -/
def commitReq (slice : Nat) : Req := { slice := slice, agent := .journal }

/-- The request of the commit unit for a transaction: its accesses are those of the job that decides it (13 R467). -/
def txnReq (s : State) (t : Txn) : Req :=
  { commitReq t.slice with queue := t.gq % 8, tag := ((t.job.bind s.job).map (·.hdr.tag)).getD 0, job := t.job }

/-- A stamp is written. -/
def putStamp (r : Req) (v : Nat) (st : Stamp) : Op Unit := writeMem { r with slice := st.slice } st.sva (natLE 8 v)

/-- Stamps are written; those that cannot be reached are left, and answered. -/
def putStamps (r : Req) (v : Nat) : List Stamp → State → List Stamp × State
  | [], s => ([], s)
  | st :: rest, s =>
    match (putStamp r v st).exec s with
    | (.ok _, s1) => putStamps r v rest s1
    | (.error _, s1) =>
      let (left, s2) := putStamps r v rest s1
      (st :: left, s2)

/-- A transaction. -/
def State.txn (s : State) (n : Nat) : Option Txn := s.mpd.txns.find? (fun t => t.num == n)

/-- A transaction opened: its number and the state (09 R306, R310). -/
def openTxn (s : State) (slice gq st : Nat) (failed : Bool) : Nat × State :=
  let n := s.mpd.nextTxn
  let t : Txn := { num := n, slice := slice, gq := gq, st := st, failed := failed, fetched := false, members := [],
                   count := 0, job := none, begins := [], ends := [], state := .open_ }
  (n, { s with mpd := { s.mpd with txns := s.mpd.txns ++ [t], nextTxn := (n + 1) % 2 ^ 32 } })

/-- A transaction ends: it leaves the device's tables, and its uses and its pin with it (09 R315, R326). The records of one that ends with
an ABORT record are void from then on (R311, R313). -/
def endTxn (s : State) (n : Nat) : State :=
  let void : Bool := (s.txn n).any (fun t => t.state == .aborted)
  updateLow { s with mpd := { s.mpd with
    recs := if void then s.mpd.recs.map (fun (r : JRec) => if r.inTxn n then { r with dead := true } else r) else s.mpd.recs,
    txns := s.mpd.txns.filter (fun t => t.num != n), uses := s.mpd.uses.filter (fun u => u.txn != n) } }

/-- A transaction is to end with an ABORT record, which goes to join (09 R309, R319): its pending begin stamps never become current. tag is
that of the job that produces the record (Table 9.4). -/
def abortTxn (s : State) (n tag : Nat) : State :=
  match s.txn n with
  | none => s
  | some t =>
    let s1 := (putStamps (txnReq s t) stampMax t.begins s).2
    let rec_ : JNew := { JNew.bare kAbort with txn := n, slice := t.slice, queue := t.gq % 8, tag := tag }
    let s2 := { s1 with mpd := { s1.mpd with joinQ := s1.mpd.joinQ.filter (fun (r : JNew) => r.txn != n) ++ [rec_],
                                             ready := s1.mpd.ready.filter (· != n) } }
    (s2.setTxn n (fun t => { t with begins := [], ends := [], state := .aborted })).count ⟨0xB06, 1, some t.slice, none, none⟩

/-- A transaction's claim on a row: where its stamps lie (09 R321). -/
def claimPlace (t : Txn) (r : JRec) (row : Nat) : Op (Nat × Nat) := do
  let s ← get
  let q := txnReq s t
  let desc := s.fld F.mpdTableCfg_addr r.obj * 64
  let ptable ← readNum q (desc + 8) 8
  let (dir, _) ← ledgerPart q ptable (row / 2 ^ 32)
  ledgerStamps q dir (row % 2 ^ 32)

/-- How a claim ends: made, or lost to an epoch (09 R321, R322). -/
inductive Claim where
  | made
  | lost (epoch : Nat)
  deriving DecidableEq, Repr

/-- The epoch of the group that holds a transaction's COMMIT. -/
def commitEpoch (s : State) (n : Nat) : Option Nat :=
  (s.mpd.recs.reverse.find? (fun r => r.kind == kCommit && r.txn == n)).map (·.epoch)

/-- The epoch that CONFLICT reports (09 R322). -/
def conflictEpoch (s : State) (t : Txn) (b e : Nat) : Nat :=
  let other := if e ≠ stampMax ∧ 2 ^ 63 ≤ e ∧ e ≠ 2 ^ 63 + t.num then commitEpoch s (e - 2 ^ 63) else none
  if e < 2 ^ 63 then e
  else match other with
  | some x => x
  | none => if b < 2 ^ 63 ∧ t.st < b then b else 0

/-- One row claimed (09 R321). -/
def claimRow (t : Txn) (r : JRec) (row : Nat) : Op Claim := do
  let q ← ask (fun s => txnReq s t)
  let (ba, ea) ← claimPlace t r row
  let b ← readNum q ba 8
  if t.st < b then
    let e ← readNum q ea 8
    let s ← get
    pure (.lost (conflictEpoch s t b e))
  else
    let old ← atomicMem q ea 8 (fun x => if leNat x = stampMax then natLE 8 (2 ^ 63 + t.num) else x)
    if leNat old = stampMax then
      upd (fun s => s.setTxn t.num (fun t => { t with ends := t.ends ++ [⟨t.slice, ea⟩] }))
      pure .made
    else
      let s ← get
      pure (.lost (conflictEpoch s t b (leNat old)))

/-- The rows that a transaction claims, in sequence order: its records with the row each claims. -/
def claimsOf (s : State) (n : Nat) : List (JRec × Nat) :=
  (s.mpd.recs.filter (fun r => r.inTxn n && !r.dead)).filterMap (fun r =>
    if r.kind = kRowDelete then some (r, r.addr) else if r.kind = kRow ∧ r.aux < 2 ^ 63 then some (r, r.aux) else none)

/-- A transaction's claims, until one is lost. -/
def claimAll (t : Txn) : List (JRec × Nat) → Op Claim
  | [] => pure .made
  | (r, row) :: rest => do
    match ← claimRow t r row with
    | .made => claimAll t rest
    | .lost e => pure (.lost e)

/-- A job's outcome that waits until an epoch is published (09 R305, R322). -/
def outcomeAt (s : State) (job : Nat) (o : Outc) (epoch : Nat) : State :=
  if epoch ≤ s.reg .mpdEpoch 0 then finishJob s job o
  else { s with mpd := { s.mpd with outcomes := s.mpd.outcomes ++ [(job, o.status, o.detail, o.result, epoch)] } }

/-- A transaction that lost a claim: the end stamps it made are undone, and its ABORT record goes to join (09 R322). -/
def claimsUndone (s : State) (n : Nat) : State :=
  match s.txn n with
  | none => s
  | some t => abortTxn (putStamps (txnReq s t) stampMax t.ends s).2 n (txnReq s t).tag

/-- A transaction has the epoch of its COMMIT record: its records take that fate, and the group it joined lists it (09 R309). -/
def commitMade (s : State) (n e : Nat) : State :=
  let add (g : Group) : Group := if g.epoch = e then { g with commits := g.commits ++ [n] } else g
  { s with mpd := { s.mpd with
    recs := s.mpd.recs.map (fun (x : JRec) => if x.inTxn n ∧ x.dead = false then { x with fate := some e } else x),
    grp := s.mpd.grp.map add, closed := s.mpd.closed.map add } }.setTxn n (fun t => { t with state := .committed e })

/-- The result of a committing job: a COMMIT's is the epoch, a self-committing PIPE_RUN's its snapshot. -/
def commitResult (s : State) (job e : Nat) : Nat :=
  match s.job job with
  | some j => if j.hdr.op = 0x0601 then e else j.epoch
  | none => e

/-- The commit unit takes the next ready transaction: its claims, then its COMMIT record or its ABORT (09 R309, R320 to
R323, R663). -/
def commitClaims (s : State) : State :=
  match s.mpd.ready with
  | [] => s
  | n :: rest =>
    match s.txn n with
    | none => { s with mpd := { s.mpd with ready := rest } }
    | some t =>
      if !mayJoin s || s.mpd.joinQ.any (fun r => r.txn == n) then s
      else
        let s0 := { s with mpd := { s.mpd with ready := rest } }
        let job := t.job.getD 0
        match (claimAll t (claimsOf s n)).exec s0 with
        | (.error e, s1) => finishJob (claimsUndone s1 n) job e.toOutc
        | (.ok (.lost e), s1) =>
          outcomeAt ((claimsUndone s1 n).count ⟨0xB07, 1, some t.slice, none, none⟩) job ⟨0x70, 0, e⟩ e
        | (.ok .made, s1) =>
          let tag := ((s1.job job).map (·.hdr.tag)).getD 0
          let mine := (s1.mpd.recs.filter (fun r => r.inTxn n && !r.dead)).length
          let (r, s2) := joinNow s1 { JNew.bare kCommit with txn := n, slice := t.slice, queue := t.gq % 8, tag := tag, aux := mine }
          let s3 := (commitMade s2 n r.epoch).setJob job (fun j => { j with pnr := true })
          outcomeAt (s3.count ⟨0xB05, 1, some t.slice, none, none⟩) job ⟨0, 0, commitResult s3 job r.epoch⟩ r.epoch

/-- The commit group's interval ends (09 R301). -/
def groupClose (s : State) : State :=
  match s.mpd.grp with
  | none => s
  | some g => if !mayJoin s then s else closeGroup (clockTo s (g.opened + g.closeUs * 1600)) true

/-- The oldest SEAL in flight becomes durable (09 R303). -/
def sealDurable (s : State) : State :=
  match s.mpd.closed.find? (fun g => !g.durable) with
  | none => s
  | some g =>
    match g.sealRec with
    | none => s
    | some _ =>
        { s with mpd := { s.mpd with closed := s.mpd.closed.map (fun (x : Group) => if x.epoch = g.epoch then { x with durable := true } else x) } }

/-- The stamps of a transaction replaced by its epoch (06 R213, 09 R323); those that cannot be reached stay pending. -/
def replaceStamps (s : State) (e n : Nat) : State :=
  match s.txn n with
  | none => s
  | some t =>
    let (b, s1) := putStamps (txnReq s t) e t.begins s
    let (d, s2) := putStamps (txnReq s t) e t.ends s1
    (s2.setTxn n (fun t => { t with begins := b, ends := d })).count
      ⟨0xB0A, t.begins.length + t.ends.length - b.length - d.length, none, none, none⟩

/-- Whether a transaction has stamps still to be replaced. -/
def stampsOwed (s : State) (n : Nat) : Bool := (s.txn n).any (fun t => !t.begins.isEmpty || !t.ends.isEmpty)

/-- Projections of volumes with nothing left to apply up to the published epoch have applied it (09 R330). -/
def raiseApplied (s : State) : State :=
  let pub := s.reg .mpdEpoch 0
  s.vols.projs.foldl (fun s p =>
    let owed := s.mpd.recs.filter (fun r => (r.kind == kSector || r.kind == kTrim) && r.obj == p.1 && recCounts s r &&
      !r.applied && (match r.fate with
        | some e => decide (e ≤ pub)
        | none => false))
    let a := owed.foldl (fun m r => match r.fate with
      | some e => min m (e - 1)
      | none => m) pub
    s.setReg .mpdTableStat p.2.table (max a (s.reg .mpdTableStat p.2.table))) s

/-- The outcomes that waited for the published epoch. -/
def wakeOutcomes (s : State) : State :=
  let pub := s.reg .mpdEpoch 0
  let due (o : Nat × Nat × Nat × Nat × Nat) : Bool := decide (o.2.2.2.2 ≤ pub)
  let s1 := { s with mpd := { s.mpd with outcomes := s.mpd.outcomes.filter (fun o => !due o) } }
  (s.mpd.outcomes.filter due).foldl (fun s o => finishJob s o.1 ⟨o.2.1, o.2.2.1, o.2.2.2.1⟩) s1

/-- FLUSH jobs whose volume has reached the epoch they sampled complete (10 R361); the epoch stands in progress, plus 1. -/
def wakeFlushes (s : State) : State :=
  (s.fan.jobs.filter (fun j => j.hdr.op == 0x0502 && j.started && j.outc.isNone && j.progress != 0)).foldl (fun s j =>
    if j.progress ≤ flushedEpoch s (eParam0 j.first % 256) + 1 then okJob s j.id (j.progress - 1) else s) s

/-- The next epoch is published (09 R304): its stamps are replaced, then MPD_EPOCH moves, unless a stamp could not be replaced; the index of sectors to write
back, projections, outcomes, the low-water epoch and truncation follow. -/
def epochPublish (s : State) : State :=
  match s.mpd.closed with
  | [] => s
  | g :: rest =>
    if !g.durable || s.flag F.mpdStatus_pwr_fail 0 then s
    else
      let s1 := g.commits.foldl (fun s n => replaceStamps s g.epoch n) s
      if g.commits.any (stampsOwed s1) then s1
      else
      let s2 := ({ s1 with mpd := { s1.mpd with closed := rest } }.setReg .mpdEpoch 0 g.epoch).count ⟨0xB04, 1, none, none, none⟩
      let landing := s2.mpd.recs.filter (fun r => r.fate == some g.epoch)
      let s3 := landing.foldl markDirty s2
      truncate (updateLow (wakeFlushes (wakeOutcomes (raiseApplied s3))))

/-- Whether a record may not join yet: for space (09 R345), or for room in the index (10 R369). -/
def joinBlocked (s : State) (n : JNew) : Bool := mustWait s n || dirtyFull s n

/-- The first record that may join: none passes an earlier one of its transaction, and an ABORT record none waits for (09 R345). -/
def joinFirst (s : State) : List Nat → List JNew → Option JNew
  | _, [] => none
  | held, n :: rest =>
    if joinBlocked s n || held.contains n.txn then joinFirst s (n.txn :: held) rest else some n

/-- MPD_STATUS.journal_wait and VOL_DIRTY.wait say whether a record waits (09 R345, 10 R369). -/
def waitFlags (s : State) : State :=
  let s1 := if s.mpd.joinQ.any (mustWait s) then journalWait s else s.setFlag F.mpdStatus_journal_wait 0 false
  s1.setFlag F.volDirty_wait 0 (s.mpd.joinQ.any (dirtyFull s))

/-- A job's records that have not joined leave the queue: it is aborted before its point of no return (09 R312). -/
def dropJoins (s : State) (id : Nat) : State :=
  waitFlags { s with mpd := { s.mpd with joinQ := s.mpd.joinQ.filter (fun r => r.job != some id) } }

/-- A WRITE or TRIM of a RECORD volume whose task has released and whose records have all joined reaches its outcome: a member's records
are staged, another's commit (09 R308, R310, 10 R358). -/
def volumeEnd (s : State) (id : Nat) : State :=
  match s.job id with
  | none => s
  | some j =>
    let busy := s.fan.tasks.any (fun t => t.job == id && t.state != .released) || s.mpd.joinQ.any (fun r => r.job == some id)
    if j.outc.isSome || j.ntasks != some j.created || busy || s.mpd.outcomes.any (fun o => o.1 == id) then s
    else if j.txn.isSome then okJob s id 0
    else outcomeAt s id ⟨0, 0, j.sumHi⟩ j.sumHi

/-- A record has joined for its job, which is past its point of no return (09 R312); a self-committing record's job learns its epoch. -/
def joinedFor (s : State) (id : Nat) (commit : Bool) (epoch : Nat) : State :=
  let s1 := s.setJob id (fun j => { j with pnr := true, progress := j.progress + 1, sumHi := if commit then max j.sumHi epoch else j.sumHi })
  if (s1.job id).any (fun j => j.hdr.op / 256 == 5) then volumeEnd s1 id else s1

/-- The next record that may join the open group joins it (09 R301, R308, R345, 10 R369). -/
def recordJoin (s : State) : State :=
  if !mayJoin s then s
  else match joinFirst s [] s.mpd.joinQ with
  | none => waitFlags s
  | some n =>
    let (r, s1) := joinNow { s with mpd := { s.mpd with joinQ := s.mpd.joinQ.erase n } } n
    let s2 := waitFlags s1
    match n.job with
    | none => s2
    | some id => joinedFor s2 id n.commit r.epoch

/-- A CHECKPOINT (09 R343). -/
def checkpoint (s : State) (c : Nat) : State :=
  if c < s.reg .mpdCkpt 0 ∨ s.reg .mpdEpoch 0 < c ∨ !mayJoin s then s
  else
    let (_, s1) := joinNow (s.setReg .mpdCkpt 0 c) { JNew.bare kCkpt with addr := c }
    truncate s1

end Sys2Proof.Machine
end

