-- ==== Sys2Proof/Machine/Volumes.lean ====
section
/-! DEFINITION. Record volumes and storage ports: where sectors lie, volume states, READ, WRITE, TRIM and FLUSH, NVMe
commands and how they end, write-back, creating, deleting, sanitising and formatting, ports (10 R350 to R387). -/

namespace Sys2Proof.Machine

abbrev stOffline : Nat := 0x80
abbrev stMedia : Nat := 0x81

/-- A drive. -/
def State.drive (s : State) (p : Nat) : Drive := tget (fun _ => Drive.none_) s.vols.drives p

/-- A drive changed. -/
def State.setDrive (s : State) (p : Nat) (f : Drive → Drive) : State :=
  { s with vols := { s.vols with drives := tupd (fun _ => Drive.none_) s.vols.drives p f } }

/-- Whether a port is ONLINE (10 Table 10.14). -/
def portUp (s : State) (p : Nat) : Bool := s.fld F.volPortStatus_state p == 2

/-- A volume's member ports, in increasing order. -/
def VolEnt.members (e : VolEnt) : List Nat := (List.range 8).filter (fun p => bitAt e.ports p)

/-- Members in pairs. -/
def pairsOf : List Nat → List (List Nat)
  | a :: b :: rest => [a, b] :: pairsOf rest
  | [a] => [[a]]
  | [] => []

/-- A volume's stripe columns, each with the ports that hold it (10 R351). -/
def VolEnt.columns (e : VolEnt) : List (List Nat) := if e.mirror then pairsOf e.members else e.members.map (fun p => [p])

/-- The drive-LBA index of a sector and its byte offset there (10 R351). -/
def VolEnt.gOf (e : VolEnt) (sector : Nat) : Nat × Nat := (sector * e.bytes / 4096, sector * e.bytes % 4096)

/-- The column and namespace LBA of a drive-LBA index (10 R351). -/
def VolEnt.place (e : VolEnt) (g : Nat) : Nat × Nat :=
  let u := 2 ^ e.unit
  let t := g / u
  let w := e.columns.length
  (t % w, t / w * u + g % u)

/-- The ports of a drive-LBA index. -/
def VolEnt.portsOf (e : VolEnt) (g : Nat) : List Nat := e.columns.getD (e.place g).1 []

/-- LBAs of each namespace of a volume (10 R372). -/
def VolEnt.nsLbas (e : VolEnt) : Nat :=
  let u := 2 ^ e.unit
  let g := (e.cap * e.bytes + 4095) / 4096
  let w := e.columns.length * u
  (g + w - 1) / w * u

/-- Sectors of a drive LBA. -/
def VolEnt.per (e : VolEnt) : Nat := if e.big then 1 else 8

/-- The operation in progress on a volume. -/
def State.volOp (s : State) (v : Nat) : Option VolOp := (s.vols.ops.find? (fun x => x.1 == v)).map Prod.snd

/-- The operation on a volume changed or removed. -/
def State.setVolOp (s : State) (v : Nat) (o : Option VolOp) : State :=
  let rest := s.vols.ops.filter (fun x => x.1 != v)
  { s with vols := { s.vols with ops := match o with
      | some x => (v, x) :: rest
      | none => rest } }

/-- The mask of a volume's member ports that are not ONLINE (10 R356). -/
def unavailable (s : State) (e : VolEnt) : Nat :=
  (e.members.filter (fun p => !portUp s p)).foldl (fun m p => m + 2 ^ p) 0

/-- Whether some column of a volume has no port (10 R386). -/
def volLost (s : State) (e : VolEnt) : Bool := e.columns.any (fun c => c.all (fun p => !portUp s p))

/-- VOL_STATE.state (10 Table 10.11, R386, R387). -/
def volState (s : State) (v : Nat) (e : VolEnt) : Nat :=
  match s.volOp v with
  | some o =>
    if o.op = 4 then 5 else if o.op = 1 then 3 else if o.op = 2 then 4 else if volLost s e then 2 else 1
  | none => if volLost s e then 2 else if unavailable s e ≠ 0 then 1 else 0

/-- The ports of a column that a READ may use: those ONLINE, less those that a rebuild has still to fill (10 R386, R387). -/
def readable (s : State) (v : Nat) (ports : List Nat) : List Nat :=
  ports.filter (fun p => portUp s p && (match s.volOp v with
    | some o => !(o.op == 3 && o.port == p) && !o.more.contains p
    | none => true))

/-- The key of a namespace LBA in a drive's store. -/
def lbaKey (v lba : Nat) : Nat := v * 2 ^ 40 + lba

/-- What a drive holds at a namespace LBA; an LBA that is not written reads as free bytes. -/
def driveRead (s : State) (p v lba : Nat) : List Byte × State :=
  match tget (fun _ => []) (s.drive p).lbas (lbaKey v lba) with
  | [] => openBytes s 4096
  | b => (b, s)

/-- A namespace LBA written. -/
def driveWrite (s : State) (p v lba : Nat) (b : List Byte) : State :=
  s.setDrive p (fun d => { d with lbas := tset (fun _ => []) d.lbas (lbaKey v lba) b })

/-- Namespace LBAs [lo, lo + n) of a volume dropped: deallocated or zeroed, their contents undefined. -/
def driveDrop (s : State) (p v lo n : Nat) : State :=
  s.setDrive p (fun d => { d with lbas := d.lbas.filter (fun x => !(decide (lbaKey v lo ≤ x.1 ∧ x.1 < lbaKey v (lo + n)))) })

/-- The volume table written to the copy in a drive's namespace 1, with its CRC-32C (10 R350). -/
def tableCopy (s : State) (p : Nat) : State :=
  s.setDrive p (fun d => { d with table := s.vols.table, change := s.vols.change, sound := true })

/-- The volume table written to every attached drive (10 R350). -/
def tableRewrite (s : State) : State :=
  let s1 := { s with vols := { s.vols with change := s.vols.change + 1 } }
  (List.range 8).foldl (fun t p => if portUp t p then tableCopy t p else t) s1

/-- A volume table entry set or removed, and the copies rewritten. -/
def setVol (s : State) (v : Nat) (e : Option VolEnt) : State :=
  let rest := s.vols.table.filter (fun x => x.1 < v)
  let after := s.vols.table.filter (fun x => v < x.1)
  tableRewrite { s with vols := { s.vols with table := rest ++ (match e with
      | some x => [(v, x)]
      | none => []) ++ after } }

/-- A volume's entries leave the index of 10 R369. -/
def dropDirty (s : State) (v : Nat) : State :=
  waitFlags (dirtyCount { s with vols := { s.vols with dirty := s.vols.dirty.filter (fun x => x.1 / 2 ^ 48 != v) } })

/-- An NVMe command issued; where it moves data for no job, a channel is taken for it (16 R510). -/
def issueCmd (s : State) (c : DCmd) : State :=
  startTransfers { s with vols := { s.vols with cmds := s.vols.cmds ++ [{ c with id := s.vols.nextCmd }], nextCmd := s.vols.nextCmd + 1 } }

/-- A command of one namespace LBA. -/
def cmdOf (e : VolEnt) (port vol g op : Nat) (data : List Byte) (use : CmdUse) : DCmd :=
  { id := 0, port := port, vol := vol, lba := (e.place g).2, g := g, op := op, n := 1, data := data, use := use, tries := 0 }

/-- Operands of a volume job (10 Table 10.1). -/
def volOf (j : Job) : Nat := eParam0 j.first % 256
/-- The sector count. -/
def countOfJob (j : Job) : Nat := eLen0 j.first
/-- The first LBA. -/
def lbaOf (j : Job) : Nat := eParam1 j.first % 2 ^ 48

/-- Whether two volume jobs of a queue overlap (10 R365). -/
def overlaps (a b : Job) : Bool :=
  let io (j : Job) : Bool := j.hdr.op == 0x0500 || j.hdr.op == 0x0501 || j.hdr.op == 0x0503
  a.gq == b.gq && io a && io b && volOf a == volOf b && rangesMeet (lbaOf a) (countOfJob a) (lbaOf b) (countOfJob b)

/-- Whether an earlier overlapping job of the queue is not yet done (10 R365). -/
def mustFollow (s : State) (j : Job) : Bool :=
  s.fan.jobs.any (fun k => decide (k.id < j.id) && k.outc.isNone && overlaps k j)

/-- VOLUME_OFFLINE: a mask and the first LBA (10 R356). -/
def offline (mask lba : Nat) : Outc := ⟨stOffline, mask, lba⟩

/-- How a volume job's start ends at once: the volume is unavailable (R356), nothing to do or a short buffer (R357). -/
def volStart (s : State) (j : Job) (e : VolEnt) : Option Outc :=
  if volLost s e then some (offline (unavailable s e) (lbaOf j))
  else if countOfJob j = 0 ∧ j.hdr.op ≠ 0x0502 then some ⟨0, 0, 0⟩
  else if (j.hdr.op = 0x0500 ∨ j.hdr.op = 0x0501) ∧ eLen1 j.first < countOfJob j * e.bytes then
    some ⟨stShort, 1, countOfJob j * e.bytes⟩
  else none

/-- READ, WRITE or TRIM starts: it waits for earlier overlapping jobs, ends at once, or becomes a task of the storage
ports (10 R355 to R365). -/
def volumeOp (s : State) (id op : Nat) : State :=
  match startJob s id op with
  | none => s
  | some j =>
    match s.vol (volOf j) with
    | none => s
    | some e =>
      if mustFollow s j then s
      else match volStart s j e with
      | some o => finishJob s id o
      | none => setTasks s id 1

/-- FLUSH starts (10 R361): the published epoch is sampled. -/
def flushOp (s : State) (id : Nat) : State :=
  match startJob s id 0x0502 with
  | none => s
  | some j =>
    match s.vol (volOf j) with
    | none => s
    | some e =>
      match volStart s j e with
      | some o => finishJob s id o
      | none =>
        if e.table then okJob s id 0
        else wakeFlushes (s.setJob id (fun j => { j with started := true, progress := s.reg .mpdEpoch 0 + 1 }))

/-- The transactions whose staged images a READ sees (09 R313): those of its queue, opened before it was fetched and
not ended. -/
def stagedTxns (s : State) (j : Job) : List Nat :=
  (s.mpd.txns.filter (fun t => t.gq == j.gq && j.txns.contains t.num)).map (·.num)

/-- The record whose image a READ takes of a sector, where it comes from the Millpond (09 R313, 10 R359): the newest
staged by its queue's transactions, else the newest published and not yet on the drives. -/
def journalImage (s : State) (j : Job) (v sector : Nat) : Option JRec :=
  let ts := stagedTxns s j
  let covers (r : JRec) : Bool := r.obj == v && !r.dead && r.sectors.contains sector && recCounts s r
  match s.mpd.recs.reverse.find? (fun r => ts.contains r.txn && covers r) with
  | some r => some r
  | none =>
    let d := dirtyAt s v sector
    if d = 0 then none else s.mpd.recs.find? (fun r => r.seq + 1 == d)

/-- The key of a volume. -/
def volKey (s : State) (e : VolEnt) : List Byte := (tget (fun _ => KeySlot.empty) s.keys e.keySlot).key

/-- Whether a volume's key is not in key RAM: erased, or left out at boot (19 R581, R589). -/
def keyLost (s : State) (e : VolEnt) : Bool := (tget (fun _ => KeySlot.empty) s.keys e.keySlot).usage != 1

/-- The plaintext of a record's sector; a TRIM's is undefined (10 R360). -/
def plainImage (key : List Byte) (e : VolEnt) (sector : Nat) (r : JRec) : Op (List Byte) :=
  if r.kind = kSector then pure (xts true key sector r.payload) else freeBytes e.bytes

/-- The place of a sector in a volume job's buffer. -/
def bufOff (j : Job) (e : VolEnt) (sector : Nat) : Nat := (sector - lbaOf j) * e.bytes

/-- The bytes of a sector pass the tap of a volume job (12 R418). -/
def tapVolume (j : Job) (e : VolEnt) (sector : Nat) (b : List Byte) : Op Unit :=
  upd (fun s => tapSector s j.id (countOfJob j * e.bytes) (bufOff j e sector) b)

/-- The bytes of a sector of a READ stored in its buffer. -/
def storeSector (j : Job) (e : VolEnt) (port sector : Nat) (b : List Byte) : Op Unit := do
  jobWrite j.id (j.req (.port port)) (eAddr0 j.first + bufOff j e sector) b
  tapVolume j e sector b

/-- A READ's buffer from a sector on is undefined: it takes free bytes where it can be written (10 R359, R363). -/
def spoilRead (s : State) (j : Job) (from_ : Nat) : State :=
  match s.vol (volOf j) with
  | none => s
  | some e =>
    let fits (x : Nat) : Bool := decide (from_ ≤ x ∧ (x - lbaOf j + 1) * e.bytes ≤ eLen1 j.first)
    (((List.range (countOfJob j)).map (lbaOf j + ·)).filter fits).foldl (fun t x =>
      match (freeBytes e.bytes >>= jobWrite j.id (j.req (.port 0)) (eAddr0 j.first + bufOff j e x)).exec t with
      | (.ok _, t1) => t1
      | (.error _, _) => t) s

/-- A READ is dispatched (10 R359): the images in the Millpond are stored, and the drives are asked for the others, one
command per drive LBA. -/
def readDispatch (s : State) (j : Job) (e : VolEnt) : State :=
  let v := volOf j
  let key := volKey s e
  let ss := (List.range (countOfJob j)).map (lbaOf j + ·)
  let fromMpd : Op Unit := ss.forM (fun x => do
    let s ← get
    match journalImage s j v x with
    | some r => do
      let b ← plainImage key e x r
      storeSector j e 0 x b
    | none => pure ())
  let owed := ss.filter (fun x => (journalImage s j v x).isNone)
  let gs := (owed.map (fun x => (e.gOf x).1)).eraseDups
  let decrypts (x : Nat) : Bool := match journalImage s j v x with
    | some r => r.kind == kSector
    | none => true
  if keyLost s e && ss.any decrypts then failJob s j.id (offline 0 (lbaOf j))
  else match fromMpd.exec s with
  | (.error x, s1) => failJob s1 j.id x.toOutc
  | (.ok _, s1) =>
    match gs.find? (fun g => (readable s1 v (e.portsOf g)).isEmpty) with
    | some g => failJob s1 j.id (offline (unavailable s1 e) ((owed.find? (fun x => (e.gOf x).1 == g)).getD (lbaOf j)))
    | none => gs.foldl (fun t g =>
        let mask := (owed.filter (fun x => (e.gOf x).1 == g)).foldl (fun m x => m + 2 ^ ((e.gOf x).2 / e.bytes)) 0
        issueCmd t (cmdOf e ((readable t v (e.portsOf g)).headD 0) v g 0 [] (.read j.id mask none))) s1

/-- A job's next transaction number, where its record commits by itself (09 R310). -/
def takeTxn (s : State) : Nat × State :=
  (s.mpd.nextTxn, { s with mpd := { s.mpd with nextTxn := (s.mpd.nextTxn + 1) % 2 ^ 32 } })

/-- A SECTOR or TRIM record formed for a job goes to join (09 R308): a member's of its transaction, else one of its own (R310). -/
def formSector (s : State) (j : Job) (kind addr aux : Nat) (payload : List Byte) : State :=
  let (t, s1) := match j.txn with
    | some t => (t, s)
    | none => takeTxn s
  let n : JNew := { kind := kind, commit := j.txn.isNone, txn := t, slice := j.slice, queue := j.queue, tag := j.hdr.tag,
                    obj := volOf j, addr := addr, aux := aux, payload := payload, job := some j.id, part := 0 }
  { s1 with mpd := { s1.mpd with joinQ := s1.mpd.joinQ ++ [n] } }

/-- Sector i of a WRITE is read from its buffer and encrypted (10 R353): one of a RECORD volume goes to the journal, one of a TABLE volume
to every drive that holds it (R352, R358). -/
def writeSector (j : Job) (e : VolEnt) (i : Nat) : Op Unit := do
  let buf ← readMem (j.req .sluice) (eAddr0 j.first + i * e.bytes) e.bytes
  let x := lbaOf j + i
  tapVolume j e x buf
  upd (fun s =>
    let b := xts false (volKey s e) x buf
    if e.table then ((e.portsOf x).filter (portUp s)).foldl (fun t p => issueCmd t (cmdOf e p (volOf j) x 1 b (.write j.id))) s
    else formSector s j kSector x 0 b)

/-- A WRITE is dispatched (10 R358): its sectors in order, up to one whose bytes cannot be read. -/
def writeDispatch (s : State) (j : Job) (e : VolEnt) : State :=
  if keyLost s e then failJob s j.id (offline 0 (lbaOf j))
  else match ((List.range (countOfJob j)).forM (writeSector j e)).exec s with
  | (.error x, s1) => failJob s1 j.id x.toOutc
  | (.ok _, s1) => s1

/-- A TRIM is dispatched (10 R352, R360). -/
def trimDispatch (s : State) (j : Job) (e : VolEnt) : State :=
  let v := volOf j
  if e.table then
    (List.range (countOfJob j)).foldl (fun t i =>
      let x := lbaOf j + i
      ((e.portsOf x).filter (portUp t)).foldl (fun t p => issueCmd t (cmdOf e p v x 2 [] (.write j.id))) t) s
  else formSector s j kTrim (lbaOf j) (countOfJob j) []

/-- A volume task is dispatched to the storage ports. -/
def volDispatch (s : State) (j : Job) : State :=
  match s.vol (volOf j) with
  | none => s
  | some e =>
    if volLost s e then failJob s j.id (offline (unavailable s e) (lbaOf j))
    else if j.hdr.op = 0x0500 then readDispatch s j e
    else if j.hdr.op = 0x0501 then writeDispatch s j e
    else trimDispatch s j e

/-- Whether an NVMe command serves a job. -/
def DCmd.serves (c : DCmd) (job : Nat) : Bool :=
  match c.use with
  | .read k _ _ => k == job
  | .write k => k == job
  | _ => false

/-- Whether a volume task has nothing left to do: no command of it is in flight. -/
def volDrained (s : State) (job : Nat) : Bool := s.vols.cmds.all (fun c => !c.serves job)

/-- The sectors of a volume that a drive LBA holds. -/
def VolEnt.sectorsAt (e : VolEnt) (g : Nat) : List Nat := ((List.range e.per).map (fun i => g * e.per + i)).filter (fun x => decide (x < e.cap))

/-- The image of a drive LBA that write-back lands (10 R360, R367): newest committed images over the drive's contents;
none where every sector of it is trimmed. -/
def landImage (s : State) (v g : Nat) (e : VolEnt) : Option (List Byte) × State :=
  let recOf (x : Nat) : Option JRec :=
    let d := dirtyAt s v x
    if d = 0 then none else s.mpd.recs.find? (fun r => r.seq + 1 == d)
  let ss := e.sectorsAt g
  if ss.all (fun x => ((recOf x).map (·.kind)) == some kTrim) then (none, s)
  else
    let ports := readable s v (e.portsOf g)
    let (old, s1) := if e.big then (zeros 4096, s) else driveRead s (ports.headD 0) v (e.place g).2
    let step (acc : List Byte × State) (x : Nat) : List Byte × State :=
      match recOf x with
      | none => acc
      | some r =>
        if r.kind = kSector then (patch acc.1 (e.gOf x).2 r.payload, acc.2)
        else (patch acc.1 (e.gOf x).2 (openBytes acc.2 e.bytes).1, (openBytes acc.2 e.bytes).2)
    let (img, s2) := ss.foldl step (old, s1)
    (some img, s2)

/-- Whether a command writes back (10 R367). -/
def isWriteback (c : DCmd) : Bool :=
  match c.use with
  | .writeback _ => true
  | _ => false

/-- The slice of the job that a command serves. -/
def cmdSlice (s : State) (c : DCmd) : Option Nat :=
  match c.use with
  | .read job _ _ => (s.job job).map (·.slice)
  | .write job => (s.job job).map (·.slice)
  | _ => none

/-- How many images a command writes back. -/
def cmdImages (c : DCmd) : Nat :=
  match c.use with
  | .writeback seqs => seqs.length
  | _ => 0

/-- Whether a write of a drive LBA, by write-back or after a mirror read, is in flight (10 R367). -/
def lbaBusy (s : State) (v g : Nat) : Bool :=
  s.vols.cmds.any (fun c => c.vol == v && c.g == g && (isWriteback c || c.use == .rewrite))

/-- Write-back of a drive LBA of a volume (10 R367): the newest committed images go to every available drive that holds
it, once the writes of older images have completed. It goes on until phase 2 of a SANITISE or FORMAT (R375, R376). -/
def writeback (s : State) (v g : Nat) : State :=
  match s.vol v with
  | none => s
  | some e =>
    let seqs := (((e.sectorsAt g).map (dirtyAt s v)).filter (· != 0)).eraseDups
    let ports := (e.portsOf g).filter (portUp s)
    let frozen := match s.volOp v with
      | some o => o.op != 3 && o.phase == 1
      | none => false
    if e.table || seqs.isEmpty || lbaBusy s v g || ports.isEmpty || frozen || s.readOnly then s
    else
      let (img, s1) := landImage s v g e
      ports.foldl (fun t p => issueCmd t (match img with
        | some b => cmdOf e p v g 1 b (.writeback seqs)
        | none => cmdOf e p v g 2 [] (.writeback seqs))) s1

/-- Whether a committed record was published no later than another. -/
def JRec.upTo (r m : JRec) : Bool :=
  match r.fate, m.fate with
  | some a, some b => decide (a < b) || (a == b && decide (r.seq ≤ m.seq))
  | _, _ => false

/-- The images that a write of a drive LBA put on the drives: of each sector the newest that it carried, and in its place every older one
(10 R368). Their entries of the index are freed (R369). -/
def imagesLand (s : State) (v g : Nat) (e : VolEnt) (seqs : List Nat) : State :=
  let ss := e.sectorsAt g
  let carried (x : Nat) (m : JRec) : Bool := m.obj == v && seqs.contains (m.seq + 1) && m.sectors.contains x
  let done (r : JRec) (x : Nat) : Bool := r.sectors.contains x && s.mpd.recs.any (fun m => carried x m && r.upTo m)
  let recs := s.mpd.recs.map (fun (r : JRec) => if r.obj = v then { r with landed := (r.landed ++ ss.filter (done r)).eraseDups } else r)
  let d := s.vols.dirty.filter (fun x => !((ss.map (dirtyKey v)).contains x.1 && seqs.contains x.2))
  waitFlags (dirtyCount { s with vols := { s.vols with dirty := d }, mpd := { s.mpd with recs := recs } })

/-- The images of a drive LBA have landed, and what waited on them proceeds (10 R361, R368, R369, 09 R344). -/
def landed (s : State) (v g : Nat) (e : VolEnt) (seqs : List Nat) : State := truncate (wakeFlushes (imagesLand s v g e seqs))

/-- The ONLINE port that a rebuild command copies from: the column's other port (10 R387). -/
def copySource (s : State) (c : DCmd) : Option Nat :=
  match s.vol c.vol with
  | some e => (((e.columns.find? (fun (x : List Nat) => x.contains c.port)).getD []).filter (portUp s)).find? (· != c.port)
  | none => none

/-- A unit of a rebuild copied from a port (10 R387). An LBA whose newer write is still owed on that port keeps what the port under
rebuild holds. -/
def copyUnit (s : State) (c : DCmd) (q : Nat) : State :=
  let owed := (s.vols.cmds.filter (fun d => d.port == q && d.vol == c.vol && (d.op == 1 || d.op == 2) && d.use != .op)).map (·.lba)
  let copied (key : Nat) : Bool :=
    decide (lbaKey c.vol c.lba ≤ key ∧ key < lbaKey c.vol (c.lba + c.n)) && !(owed.map (lbaKey c.vol)).contains key
  let mine := (s.drive q).lbas.filter (fun x => copied x.1)
  s.setDrive c.port (fun d =>
    { d with lbas := mine.foldl (fun l x => tset (fun _ => []) l x.1 x.2) (d.lbas.filter (fun x => !copied x.1)) })

/-- A command's transfer on its drive. -/
def transfer (s : State) (c : DCmd) : State :=
  match c.op, c.use with
  | 1, .op => (copySource s c).elim s (copyUnit s c)
  | 1, _ => driveWrite s c.port c.vol c.lba c.data
  | 2, _ => driveDrop s c.port c.vol c.lba c.n
  | 3, _ => driveDrop s c.port c.vol c.lba c.n
  | _, _ => s

/-- The lowest sector that a READ's commands have still to answer, one of them counted with its own mask. -/
def firstOwed (s : State) (e : VolEnt) (c : DCmd) (job mask : Nat) : Nat :=
  let low (g m : Nat) : Nat := ((List.range e.per).find? (fun i => bitAt m i)).getD 0 + g * e.per
  (s.vols.cmds.filterMap (fun d => match d.use with
    | .read k m _ => if k = job then some (low d.g m) else none
    | _ => none)).foldl min (low c.g mask)

/-- A READ that met an unrecovered read error ends with its last command: the port and the lowest failing LBA, which stand in progress as
LBA * 8 + port + 1 (10 R359). -/
def readEnd (s : State) (job : Nat) : State :=
  match s.job job with
  | none => s
  | some j =>
    if j.progress = 0 ∨ j.outc.isSome = true ∨ volDrained s job = false then s
    else
      let x := (j.progress - 1) / 8
      failJob (spoilRead s j x) job ⟨stMedia, (j.progress - 1) % 8, x⟩

/-- The sectors of a READ that a command answers are decrypted and stored (10 R353, R359). -/
def readDone (s : State) (c : DCmd) (job mask : Nat) (failed : Option Nat) : State :=
  match s.job job, s.vol c.vol with
  | some j, some e =>
    if j.outc.isSome then s
    else if keyLost s e then failJob s job (offline 0 (firstOwed s e c job mask))
    else
      let (b, s1) := driveRead s c.port c.vol c.lba
      let key := volKey s1 e
      let sectors := ((List.range e.per).filter (fun i => bitAt mask i)).map (fun i => c.g * e.per + i)
      let s2 := match failed with
        | some p =>
          if portUp s1 p && !lbaBusy s1 c.vol c.g then issueCmd s1 { c with port := p, op := 1, data := b, use := .rewrite, tries := 0 } else s1
        | none => s1
      match (sectors.forM (fun x => storeSector j e c.port x (xts true key x (sub b (e.gOf x).2 e.bytes)))).exec s2 with
      | (.ok _, s3) => readEnd s3 job
      | (.error x, s3) => failJob s3 job x.toOutc
  | _, _ => s

/-- A READ's command ends with an unrecovered read error (10 R359): the partner is read, or the lowest such LBA is kept for the job's end. -/
def readFailed (s : State) (c : DCmd) (job mask : Nat) (failed : Option Nat) : State :=
  match s.vol c.vol with
  | none => s
  | some e =>
    let others := (readable s c.vol (e.portsOf c.g)).filter (· != c.port)
    match failed, others with
    | none, q :: _ => issueCmd s { c with port := q, use := .read job mask (some c.port) }
    | _, _ =>
      let x := ((List.range e.per).find? (fun i => bitAt mask i)).getD 0 + c.g * e.per
      let keep (j : Job) : Job := if j.progress = 0 ∨ x < (j.progress - 1) / 8 then { j with progress := x * 8 + c.port + 1 } else j
      readEnd (s.setJob job keep) job

/-- Progress of an operation recorded in the Millpond (10 R377, Table 10.4). -/
def recordProgress (s : State) (v : Nat) : State :=
  match s.volOp v with
  | some o => if o.op = 4 then s else mpdWrite s (0x7C040000 + 64 * v)
      (natLE 1 o.op ++ natLE 1 o.phase ++ natLE 1 o.code ++ natLE 1 o.port ++ zeros 4 ++
        natLE 8 o.next ++ natLE 8 o.units ++ zeros 40)
  | none => mpdWrite s (0x7C040000 + 64 * v) (zeros 64)

/-- The LBAs of a unit of 10 R375. -/
abbrev unitLbas : Nat := 262144

/-- The commands of an operation's next unit: on all member ports together, or on the port under rebuild. -/
def issueUnit (s : State) (v : Nat) : State :=
  match s.volOp v, s.vol v with
  | some o, some e =>
    if o.units ≤ o.next then s
    else
      let lo := o.next * unitLbas
      let n := min unitLbas (e.nsLbas - lo)
      let code := match o.op with
        | 1 => 3
        | 2 => 2
        | _ => 1
      let ports := if o.op = 3 then [o.port] else e.members
      (ports.filter (portUp s)).foldl (fun t p => issueCmd t
        { id := 0, port := p, vol := v, lba := lo, g := 0, op := code, n := n, data := [], use := .op, tries := 0 }) s
  | _, _ => s

/-- REBUILD begins on a port, with the ports to rebuild after it (10 R387). -/
def startRebuild (s : State) (v : Nat) (e : VolEnt) (p : Nat) (more : List Nat) : State :=
  let o : VolOp := { op := 3, job := none, waits := [], phase := 1, port := p, next := 0, units := (e.nsLbas + unitLbas - 1) / unitLbas,
                     resumed := false, more := more }
  issueUnit (recordProgress (s.setVolOp v (some o)) v) v

/-- An operation has ended (10 R375, R376, R378, R387): its record is cleared; the next port that waits for it is rebuilt. -/
def opDone (s : State) (v : Nat) (o : VolOp) : State :=
  let s1 := recordProgress (s.setVolOp v none) v
  match s1.vol v, o.more.find? (portUp s1) with
  | some e, some p => startRebuild s1 v e p (o.more.filter (· != p))
  | _, _ => s1

/-- A SANITISE or FORMAT started by a job completes with its last unit (10 R375, R376): the volume is ONLINE again. -/
def opEnd (s : State) (v : Nat) (o : VolOp) : State :=
  match o.job with
  | some job => okJob (opDone s v o) job 0
  | none => s

/-- A unit of an operation ends on its last port: progress is recorded and the next unit issued (10 R375). -/
def unitDone (s : State) (v : Nat) : State :=
  match s.volOp v with
  | none => s
  | some o =>
    if s.vols.cmds.any (fun c => c.vol == v && c.use == .op) then s
    else
      let o1 := { o with next := o.next + 1 }
      let s1 := recordProgress (s.setVolOp v (some o1)) v
      if o1.units ≤ o1.next then opEnd s1 v o1 else issueUnit s1 v

/-- What follows a command's transfer. -/
def cmdDone (s : State) (c : DCmd) : State :=
  match c.use with
  | .read job mask failed => readDone s c job mask failed
  | .write _ => s
  | .rewrite => s
  | .late slice _ => lateDiscard s slice
  | .op => unitDone s c.vol
  | .writeback seqs =>
    match s.vol c.vol with
    | none => s
    | some e =>
      let more := s.vols.cmds.any (fun d => d.vol == c.vol && d.g == c.g && d.use == c.use)
      if more || !(e.portsOf c.g).all (portUp s) then s else landed s c.vol c.g e seqs

/-- A command leaves those in flight. -/
def dropCmd (s : State) (id : Nat) : State := keepCmds s (fun c => c.id != id)

/-- What becomes of a command whose port is lost: a READ turns to the partner or ends, a TABLE WRITE without a survivor
ends, a write-back stays owed (10 R386). -/
def cmdLost (s : State) (c : DCmd) : State :=
  match c.use, s.vol c.vol with
  | .read job mask _, some e =>
    match readable s c.vol (e.portsOf c.g) with
    | q :: _ => issueCmd s { c with port := q }
    | [] => failJob s job (offline (unavailable s e)
        (((List.range e.per).find? (fun i => bitAt mask i)).getD 0 + c.g * e.per))
  | .write job, some e =>
    if (e.portsOf c.g).any (portUp s) then s else failJob s job (offline (unavailable s e) c.g)
  | _, _ => s

/-- A port that is lost waits for no rebuild; where a volume's REBUILD fills it, the next port that waits is rebuilt instead (10 R387). -/
def rebuildLost (p : Nat) (s : State) (x : Nat × VolOp) : State :=
  let more := x.2.more.filter (· != p)
  match s.vol x.1, more.find? (portUp s), decide (x.2.op = 3 ∧ x.2.port = p) with
  | some e, some q, true => startRebuild s x.1 e q (more.filter (· != q))
  | _, _, _ => s.setVolOp x.1 (some { x.2 with more := more })

/-- A port is marked OFFLINE (10 R385 to R387): its commands are lost, and a newly OFFLINE port is reported. -/
def portDown (s : State) (p : Nat) : State :=
  if s.fld F.volPortStatus_state p = 3 then s
  else
    let mine := s.vols.cmds.filter (fun c => c.port == p)
    let s1 := ((s.setFld F.volPortStatus_state p 3).setFld F.volPortStatus_reason p 0).devEvent 0x0A02 p
    let s2 := keepCmds s1 (fun c => c.port != p)
    let s3 := s2.setDrive p (fun d => { d with pairs := 0 })
    s3.vols.ops.foldl (rebuildLost p) (mine.foldl cmdLost s3)

/-- A read return or completion of a slice's old generation, or of a job that is gone (17 R543). -/
def cmdStale (s : State) (c : DCmd) : Bool :=
  match c.use with
  | .read job _ _ => (s.job job).isNone
  | .write job => (s.job job).isNone
  | .late _ _ => true
  | _ => false

/-- The command of a port that a completion names, where its queue pairs hold it: each of the pairs has a depth of 256 (10 R384), and a
command beyond them waits for a place. A rebuild's copy ends only while the port that it copies from is there. -/
def queuedCmd (s : State) (port id : Nat) : Option DCmd :=
  (((s.vols.cmds.filter (fun c => c.port == port)).take ((s.drive port).pairs * 256)).find? (fun c => c.id == id)).filter (fun c =>
    !(c.use == .op && c.op == 1) || (copySource s c).isSome)

/-- A storage port's command ends (10 R359, R367, R385). A command that fails otherwise than by an unrecovered read error is retried as
one of write-back is (DESIGN CHOICE, log 67). A transfer of no job ends only through its channel (16 R510). -/
def driveComplete (s : State) (port id : Nat) (res : DriveResult) : State :=
  let s := startTransfers s
  match (queuedCmd s port id).filter (cmdFlows s) with
  | none => s
  | some c =>
    let s1 := dropCmd s id
    let n := if c.op ≤ 1 then 4096 * c.n else 0
    let slice := cmdSlice s c
    let s2 := (((s1.count ⟨0xA00 + port, 1, slice, none, none⟩).count ⟨0xA08 + port, n, slice, none, none⟩).count
      ⟨0xA12, cmdImages c, none, none, none⟩).bwAdd (14 + port) n
    let over_ : DCmd := match c.use with
      | .late _ _ => c
      | _ => { c with use := .rewrite }
    if cmdStale s1 c then cmdDone (if res = .ok ∧ c.op ≠ 0 then transfer s2 c else s2) over_
    else match res, c.use with
    | .ok, _ => cmdDone (transfer s2 c) c
    | .mediaError, .read job mask failed => readFailed s2 c job mask failed
    | _, _ => if c.tries < 3 then issueCmd s2 { c with tries := c.tries + 1 }
      else portDown { s2 with vols := { s2.vols with cmds := s2.vols.cmds ++ [c] } } port

/-- A command passes its timeout (10 R385): Abort, a reset of the controller, one retry; a retry that fails marks the
port OFFLINE. -/
def commandTimeout (s : State) (port id : Nat) (retryOk : Bool) : State :=
  match queuedCmd s port id with
  | none => s
  | some _ =>
    let s1 := (s.count ⟨0xA10, 1, none, none, none⟩).count ⟨0xA11, 1, none, none, none⟩
    if retryOk then driveComplete s1 port id .ok else portDown s1 port

/-- The volume that a VOLUME_CREATE names (10 Table 10.3). -/
def createEnt (s : State) (j : Job) : VolEnt :=
  let p := eParam0 j.first
  let q := eParam1 j.first
  { table := bitAt p 28, mirror := bitAt p 29, big := bitAt p 30, unit := bitsAt q 60 4, cap := bitsAt q 0 48,
    ports := bitsAt p 8 8, keySlot := bitsAt p 22 6, owner := bitsAt p 16 6, createSeq := s.reg .mpdSeq 0 }

/-- The LBAs of a drive's namespaces: namespace 1 has 64 MiB (10 R350), and each volume its own. -/
def Drive.spaces (d : Drive) : Nat := (if d.meta_ then 16384 else 0) + (d.nss.map Prod.snd).sum

/-- The member ports whose drives refuse the volume's namespace: not available, or without room for it. -/
def createRefusals (s : State) (j : Job) : List Nat :=
  (createEnt s j).members.filter (fun x =>
    !portUp s x || decide ((s.drive x).cap < (s.drive x).spaces + (createEnt s j).nsLbas))

/-- The volume's namespace created on each of its drives. -/
def createSpaces (s : State) (j : Job) : State :=
  (createEnt s j).members.foldl (fun t x =>
    t.setDrive x (fun d => { d with nss := (eParam0 j.first % 256, (createEnt s j).nsLbas) :: d.nss })) s

/-- Whether what the Weir checked of a VOLUME_CREATE still holds as it acts: the volume is not valid, its key slot serves no other, its
owner exists (10 R354, R371). -/
def createStands (s : State) (j : Job) : Bool :=
  (s.vol (eParam0 j.first % 256)).isNone && s.vols.table.all (fun x => x.2.keySlot != (createEnt s j).keySlot) &&
    s.fld F.slcCfg_state (createEnt s j).owner != 0

/-- VOLUME_CREATE (10 R372). One that another command has overtaken since its fetch ends with VOLUME_OFFLINE, detail 0 (DESIGN CHOICE, log
66). -/
def volumeCreate (s : State) (id : Nat) : State :=
  match startJob s id 0x0702 with
  | none => s
  | some j =>
    let bad := createRefusals s j
    if !createStands s j then finishJob s id (offline 0 0)
    else if !bad.isEmpty then finishJob s id (offline (bad.foldl (fun m x => m + 2 ^ x) 0) 0)
    else okJob (setVol (createSpaces s j) (eParam0 j.first % 256) (some (createEnt s j))) id 0

/-- Whether an operation's job may act: the jobs it waits for have released (10 R373). -/
def opReady (s : State) (j : Job) : Bool :=
  match s.volOp (volOf j) with
  | some o => o.job == some j.id && o.waits.isEmpty
  | none => false

/-- The registrations of a volume's projections are cleared (10 R374). -/
def clearProjs (s : State) (v : Nat) : State :=
  let regs := ((s.regInsts .mpdTableCfg).map Prod.fst).filter (fun n =>
    s.flag F.mpdTableCfg_valid n && s.flag F.mpdTableCfg_projection n && s.fld F.mpdTableCfg_volume n == v)
  let s1 := regs.foldl (fun t n => t.setFlag F.mpdTableCfg_valid n false) s
  { s1 with vols := { s1.vols with projs := s1.vols.projs.filter (fun x => x.1 != v) } }

/-- A volume and all that stands for it removed: its projections, its sectors to write back, its namespaces and their data, its
commands, its entry, its operation and its progress record (10 R374). -/
def dropVolume (s : State) (v : Nat) : State :=
  let s1 := dropDirty (clearProjs s v) v
  let s2 := (List.range 8).foldl (fun t p => (driveDrop t p v 0 (2 ^ 40)).setDrive p (fun d => { d with nss := d.nss.filter (fun x => x.1 != v) })) s1
  let s3 := keepCmds s2 (fun c => c.vol != v)
  recordProgress ((setVol s3 v none).setVolOp v none) v

/-- VOLUME_DELETE (10 R374). -/
def volumeDelete (s : State) (id : Nat) : State :=
  match startJob s id 0x0703 with
  | none => s
  | some j =>
    let v := volOf j
    if !opReady s j then s else truncate (okJob (dropVolume s v) id 0)

/-- Phase 1 of SANITISE or FORMAT is done: the volume's entry, its records void, the index emptied, the phase recorded;
phase 2 begins (10 R375, R376). -/
def phaseTwo (s : State) (v : Nat) (e : VolEnt) : State :=
  let s1 := setVol (dropDirty s v) v (some { e with createSeq := s.reg .mpdSeq 0 })
  let s2 := keepCmds s1 (fun c => c.vol != v)
  match s2.volOp v with
  | none => s2
  | some o =>
    let s3 := s2.setVolOp v (some { o with phase := 1, next := 0, units := (e.nsLbas + unitLbas - 1) / unitLbas })
    issueUnit (recordProgress s3 v) v

/-- A FORMAT's new entry (10 R376). -/
def formatEnt (e : VolEnt) (big : Bool) : VolEnt := { e with big := big, cap := e.cap * e.bytes / (if big then 4096 else 512) }

/-- FORMAT (10 R376). -/
def formatOp (s : State) (id : Nat) : State :=
  match startJob s id 0x0705 with
  | none => s
  | some j =>
    let v := volOf j
    match opReady s j, s.vol v with
    | true, some e => phaseTwo (s.setJob id (fun j => { j with started := true })) v (formatEnt e (bitAt (eParam0 j.first) 8))
    | _, _ => s

/-- The event of an operation that resumed after a reset, as it ends (10 R378): its record is cleared and VOLUME_OP_DONE
written. -/
def volumeOpDone (s : State) (v : Nat) : State :=
  match s.volOp v with
  | some o =>
    if !o.resumed || o.op == 4 || o.phase != 1 || decide (o.next < o.units) || s.vols.cmds.any (fun c => c.vol == v && c.use == .op) then s
    else (opDone s v o).devEvent 0x0A01 (o.op * 256 + v)
  | none => s

/-- The copy of a rebuilt column has ended (10 R387). -/
def rebuildDone (s : State) (v : Nat) : State :=
  match s.volOp v with
  | some o =>
    if o.op != 3 || o.resumed || decide (o.next < o.units) then s
    else (opDone s v o).devEvent 0x0A04 (o.port * 256 + v)
  | none => s

/-- Why a drive that does not qualify is UNUSABLE, as Table 10.14 numbers it (10 R383); 0 for one that qualifies. Of several reasons: no link,
else the lowest (DESIGN CHOICE, log 69). -/
def unusableReason (c : DriveCaps) : Nat :=
  if c.speed = 0 ∨ c.width = 0 then 6
  else if c.format = false then 1
  else if c.management = false then 2
  else if c.cache = true then 3
  else if c.major < 2 then 4
  else if c.pairs < 8 ∨ c.depth < 256 then 5
  else 0

/-- VOL_PORT_STATUS of a port. -/
def setPort (s : State) (p state reason speed width : Nat) : State :=
  (((s.setFld F.volPortStatus_state p state).setFld F.volPortStatus_reason p reason).setFld F.volPortStatus_speed p speed).setFld
    F.volPortStatus_width p width

/-- A port attaches (10 R350, R383, R384): its link trains at the highest speed and width that both ends support, up to PCIe 5.0 x4, and its
drive is qualified; a usable one has namespace 1 from its first attach on, and 8 I/O queue pairs. -/
def qualifyPort (s : State) (p : Nat) : State :=
  let d := s.drive p
  let c := d.caps
  if !d.fitted then setPort s p 0 0 0 0
  else if unusableReason c = 6 then setPort s p 1 6 0 0
  else if unusableReason c ≠ 0 then setPort s p 1 (unusableReason c) (min c.speed 5) (min c.width 4)
  else (setPort s p 2 0 (min c.speed 5) (min c.width 4)).setDrive p (fun d => { d with meta_ := true, pairs := 8 })

/-- A volume's namespace on a port recreated, without its contents (10 R387). -/
def remakeSpace (s : State) (v : Nat) (e : VolEnt) (p : Nat) : State :=
  (driveDrop s p v 0 (2 ^ 40)).setDrive p (fun d => { d with nss := (v, e.nsLbas) :: d.nss.filter (fun y => y.1 != v) })

/-- What a port that has come ONLINE is for a volume (10 R387): in a mirror column whose other port is there it is filled again, after the
operation in progress, from its first unit on; elsewhere an operation that waits for it goes on. -/
def portReturns (p : Nat) (s : State) (x : Nat × VolEnt) : State :=
  let (v, e) := x
  let partner := ((e.columns.find? (fun c => c.contains p)).getD []).any (fun q => q != p && portUp s q)
  let stalled := (s.volOp v).isSome && s.vols.cmds.all (fun c => !(c.vol == v && c.use == .op))
  if !e.members.contains p then s
  else if !(e.mirror && partner) then (if stalled then issueUnit s v else s)
  else
    let s1 := remakeSpace s v e p
    match s1.volOp v with
    | none => startRebuild s1 v e p []
    | some o =>
      if o.op = 3 ∧ o.port = p then startRebuild s1 v e p o.more
      else
        let s2 := s1.setVolOp v (some { o with more := o.more ++ [p] })
        if stalled then issueUnit s2 v else s2

/-- A port's drive is qualified and, where it is usable, the mirror columns it belongs to are rebuilt (10 R383, R387). -/
def portAttach (s : State) (p : Nat) : State :=
  let s1 := qualifyPort s p
  if !portUp s1 p then s1
  else if portUp s p then tableCopy s1 p
  else s1.vols.table.foldl (portReturns p) (tableCopy s1 p)

/-- A port's sto_perst_n driven low or high (22 R645). -/
def drivePort (s : State) (p : Nat) (low : Bool) : State :=
  { s with boot := { s.boot with portReset := if low then s.boot.portReset ||| 2 ^ p else s.boot.portReset &&& (255 - 2 ^ p % 256) } }

/-- A write of VOL_PORT_CTL (10 Table 10.15). -/
def portCtlWrite (s : State) (p value : Nat) : State :=
  let s1 := if value % 2 ^ 16 = 0 then s else s.setFld F.volPortCtl_timeout_ms p value
  if bitAt value 30 then
    drivePort (((portDown s1 p).setFld F.volPortStatus_speed p 0).setFld F.volPortStatus_width p 0) p true
  else if bitAt value 31 then portAttach (drivePort s1 p false) p else s1

end Sys2Proof.Machine
end

