-- ==== Sys2Proof/Machine/Keys.lean ====
section
/-! DEFINITION. Key slots and the key store (19 R578 to R581), SANITISE's fresh key (10 R375). -/

namespace Sys2Proof.Machine

/-- A key slot. -/
def State.slot (s : State) (n : Nat) : KeySlot := tget (fun _ => KeySlot.empty) s.keys n

/-- A key slot set. -/
def State.setSlot (s : State) (n : Nat) (k : KeySlot) : State :=
  { s with keys := tset (fun _ => KeySlot.empty) s.keys n k }

/-- n bytes of the device's random source. -/
def randomBytes (s : State) : Nat → List Byte × State
  | 0 => ([], s)
  | n + 1 =>
    let (v, s1) := s.drawEntropy
    let (b, s2) := randomBytes s1 n
    (BitVec.ofNat 8 v :: b, s2)

/-- The key store's base and a slot's record in it (19 Table 19.3). -/
abbrev keyStore : Nat := 0x7C030000
/-- The place of a slot's record. -/
def keyRecAt (n : Nat) : Nat := keyStore + 0x400 + 128 * n

/-- The first four bytes of a slot's record. -/
def KeySlot.head (k : KeySlot) : List Byte :=
  natLE 1 (boolNat (k.usage != 0)) ++ natLE 1 k.usage ++ natLE 1 k.key.length ++ natLE 1 (k.owner + boolNat k.grant * 64)

/-- A slot's record (19 Table 19.3). -/
def keyRecord (n seq : Nat) (k : KeySlot) : List Byte :=
  let wrapped := if k.usage = 0 then [] else kwpWrap Config.wrappingKey (k.head ++ natLE 1 n ++ zeros 3 ++ k.key)
  k.head ++ zeros 4 ++ natLE 8 seq ++ padTo wrapped 112

/-- A slot's record written: the slot as the key store has it. -/
def writeKeyRec (s : State) (n : Nat) (k : KeySlot) : State :=
  mpdWrite s (keyRecAt n) (keyRecord n (s.reg .mpdSeq 0) k)

/-- The sequence of a slot's record, by which a keyed context knows its key (12 R433). -/
def keyRecSeq (s : State) (n : Nat) : Nat := leNat (s.mpdBytes (keyRecAt n + 8) 8)

/-- A slot's record unwrapped: the slot; none where it fails (19 R581). -/
def readKeyRec (s : State) (n : Nat) : Option KeySlot :=
  let b := s.mpdBytes (keyRecAt n) 128
  if leAt b 0 1 = 0 then some KeySlot.empty
  else
    let len := leAt b 2 1
    match kwpUnwrap Config.wrappingKey (sub b 16 (8 + alignUp (8 + len) 8)) (8 + len) with
    | none => none
    | some x =>
      if x.take 4 = b.take 4 ∧ leAt x 4 1 = n then
        some { usage := leAt b 1 1, owner := bitsAt (leAt b 3 1) 0 6, grant := bitAt (leAt b 3 1) 6, key := x.drop 8 }
      else none

/-- Whether a slot serves a valid volume (19 R580). -/
def slotServes (s : State) (n : Nat) : Bool := s.vols.table.any (fun x => x.2.keySlot == n)

/-- Whether a usage and length agree (19 R579). -/
def usageOk (usage len : Nat) : Bool := (usage == 1 && len == 64) || (usage == 2 && decide (1 ≤ len ∧ len ≤ 64))

/-- BRK_KEY_DATA zeroed. -/
def zeroKeyData (s : State) : State := (List.range 8).foldl (fun t i => t.setReg .brkKeyData i 0) s

/-- A key operation that R580 refuses: the error bit. -/
def keyRefused (s : State) : State := zeroKeyData (s.setFlag F.brkKeyCtl_error 0 true)

/-- A key operation accepted: it is busy until its record is durable; new says that the slot's key is erased or replaced. -/
def keyStart (s : State) (n : Nat) (k : KeySlot) (new : Bool := true) : State :=
  { s.setFlag F.brkKeyCtl_busy 0 true with keyOp := some (n, k, new) }

/-- The open contexts of a key slot, whose key is erased or replaced (12 R431, 19 R580). -/
def keyReplaced (s : State) (n : Nat) : State :=
  let f (c : TollCtx) : TollCtx := if c.keyed = some n then { c with gone := true } else c
  { s with units := { s.units with ctxs := s.units.ctxs.map (fun x => (x.1, x.2.map f)) } }

/-- The bytes of BRK_KEY_DATA. -/
def keyData (s : State) : List Byte := (List.range 8).flatMap (fun i => natLE 8 (s.reg .brkKeyData i))

/-- A slot filled with a key of a usage. An HMAC slot keeps its grant, which GRANT sets (R580; DEDUCED, log 79). -/
def KeySlot.fill (k : KeySlot) (usage : Nat) (b : List Byte) : KeySlot :=
  if usage = 2 then ⟨2, k.owner, k.grant, b⟩ else ⟨usage, 0, false, b⟩

/-- GENERATE (19 R580). -/
def keyGenerate (s : State) : State :=
  let n := s.fld F.brkKeySel_slot 0
  let usage := s.fld F.brkKeyCfg_usage n
  let len := s.fld F.brkKeyCfg_length n
  if slotServes s n || !usageOk usage len || s.flag F.brkStatus_keys_erased 0 then keyRefused s
  else
    let (b, s1) := randomBytes s len
    keyStart s1 n ((s.slot n).fill usage b)

/-- IMPORT (19 R580). -/
def keyImport (s : State) : State :=
  let n := s.fld F.brkKeySel_slot 0
  let usage := s.fld F.brkKeyCfg_usage n
  let len := s.fld F.brkKeyCfg_length n
  if slotServes s n || !usageOk usage len || s.flag F.brkStatus_keys_erased 0 then keyRefused s
  else keyStart s n ((s.slot n).fill usage ((keyData s).take len))

/-- CLEAR (19 R580). -/
def keyClear (s : State) : State :=
  let n := s.fld F.brkKeySel_slot 0
  if slotServes s n || s.flag F.brkStatus_keys_erased 0 then keyRefused s else keyStart s n KeySlot.empty

/-- GRANT (19 R580). -/
def keyGrant (s : State) : State :=
  let n := s.fld F.brkKeySel_slot 0
  let k := s.slot n
  if k.usage ≠ 2 ∨ s.flag F.brkStatus_keys_erased 0 = true then keyRefused s
  else keyStart s n { k with owner := s.fld F.brkKeyCfg_owner n, grant := s.flag F.brkKeyCfg_grant_en n } false

/-- The operation code of a key operation's command. -/
def keyCtlOp (s : State) (value op : Nat) : Bool :=
  bitAt value 31 && bitsAt value 24 3 == op && !s.flag F.brkKeyCtl_busy 0

/-- A write of BRK_KEY_CTL (19 Table 19.16). -/
def keyCtlWrite (s : State) (value : Nat) : State :=
  let s1 := if bitAt value 30 then s.setFlag F.brkKeyCtl_error 0 false else s
  let s2 := s1.setFld F.brkKeyCtl_op 0 (bitsAt value 24 3)
  if !bitAt value 31 || s.flag F.brkKeyCtl_busy 0 then s2
  else match bitsAt value 24 3 with
  | 0 => keyGenerate s2
  | 1 => keyImport s2
  | 2 => keyClear s2
  | 3 => keyGrant s2
  | _ => keyRefused s2

/-- A key operation's record becomes durable, the slot changes and busy falls (19 R581). -/
def keyOpDone (s : State) : State :=
  match s.keyOp with
  | none => s
  | some (n, k, new) =>
    let s0 := (writeKeyRec s n k).setSlot n k
    let s1 := if new then keyReplaced s0 n else s0
    zeroKeyData ({ s1 with keyOp := none }.setFlag F.brkKeyCtl_busy 0 false)

/-- Step 0x0B's reload of key RAM (19 R581): the slots, and whether every valid record unwraps. -/
def loadKeys (s : State) : Bool × State :=
  if s.flag F.brkStatus_keys_erased 0 then (true, { s with keys := [] })
  else
    let rs := (List.range 64).map (fun n => (n, readKeyRec s n))
    (rs.all (fun x => x.2.isSome),
      rs.foldl (fun t x => t.setSlot x.1 (x.2.getD KeySlot.empty)) { s with keys := [] })

/-- SANITISE (10 R375): a fresh key, its wrapped copy, then the phases it shares with FORMAT. -/
def freshKey (s : State) (n : Nat) : State :=
  let (b, s1) := randomBytes s 64
  let k : KeySlot := ⟨1, 0, false, b⟩
  writeKeyRec (s1.setSlot n k) n k

/-- SANITISE (10 R375). -/
def sanitiseOp (s : State) (id : Nat) : State :=
  match startJob s id 0x0704 with
  | none => s
  | some j =>
    let v := volOf j
    match opReady s j, s.vol v with
    | true, some e => phaseTwo (freshKey (s.setJob id (fun j => { j with started := true })) e.keySlot) v e
    | _, _ => s

end Sys2Proof.Machine
end

