-- ==== Sys2Proof/Machine/Projection.lean ====
section
/-! DEFINITION. Columnar projections: the descriptor's check, applying SECTOR and TRIM records; table registrations; replay
(09 R315, R330, R342, 10 R379 to R382). -/

namespace Sys2Proof.Machine

/-- The record number that names no row. -/
abbrev noRow : Nat := 2 ^ 64 - 1

/-- The requests of the device's own work on a slice's projections and tables. -/
def projReq (slice : Nat) : Req := commitReq slice

/-- The first condition of 10 R379 and Tables 10.5 and 8.5 that a descriptor breaks is enough: the projection, or none. -/
def readProj (s : State) (table slice vol sva : Nat) : Op (Option Proj) := do
  let r := projReq slice
  let d ← readMem r sva 80
  let c := leAt d 4 2
  if leAt d 0 4 ≠ 0x56505231 ∨ c = 0 ∨ 32 < c ∨ nonzero d 7 1 = (true, 7) ∨ leAt d 28 4 ≠ 0 ∨ leAt d 72 8 ≠ 0 ∨
      leAt d 8 8 % 16 ≠ 0 ∨ badSva (leAt d 8 8) = true ∨ leAt d 16 4 = 0 ∨ 65536 < leAt d 16 4 then pure none
  else
    let cols ← readMem r (sva + 80) (4 * c)
    let lsva := leAt d 32 8
    let h ← readMem r lsva 32
    let len := 32 + 16 * leAt h 6 1
    let body ← readMem r lsva len
    let sec : Sec := ⟨5, 0, 0, len⟩
    let l := readLayout body sec
    let kf := leAt d 6 1
    let keyOk := match l.fields[kf]? with
      | some f => (f.kind == 1 || f.kind == 2 || f.kind == 3) && f.scale == 0 && decide (1 ≤ f.digits ∧ f.digits ≤ 18)
      | none => false
    let colTag (k : Nat) : Nat × Tag := (leAt cols (4 * k) 1, tagOf (leAt cols (4 * k + 2) 2))
    let colOk (k : Nat) : Bool :=
      let (f, t) := colTag k
      leAt cols (4 * k + 1) 1 == 0 && decide (leAt cols (4 * k + 2) 2 < 2048) && t.ok && (match l.fields[f]? with
        | some fd => if fd.kind = 4 then t.typ == tChar && t.scale == 0
            else (isInt t.typ && t.scale == 0 && fd.scale == 0) ||
              ((t.typ == tDec64 || t.typ == tDec128) && decide (fd.scale ≤ t.scale))
        | none => false)
    match s.vol vol with
    | none => pure none
    | some e =>
      let lo := leAt d 56 8
      let hi := leAt d 64 8
      if (layoutCheck body [] sec).isSome ∨ l.blockLen ≠ 0 ∨ e.bytes < l.len ∨ (kf ≠ 0xFF ∧ keyOk = false) ∨
          (kf = 0xFF ∧ leAt d 40 8 ≠ 0) ∨ (List.range c).all colOk = false ∨ hi ≤ lo ∨ e.cap < hi ∨ e.table = true then pure none
      else pure (some { table := table, slice := slice, sva := sva, ptable := leAt d 8 8, keyField := kf, layout := l,
                        index := leAt d 40 8, rmap := leAt d 48 8, lo := lo, hi := hi,
                        cols := (List.range c).map colTag })

/-- A field's value under a tag: its bits, or none where it is NULL or fails to decode (10 R381); whether it failed. -/
def projField (l : Layout) (rec : List Byte) (f : Nat) (t : Tag) : Option Nat × Bool :=
  match l.fields[f]? with
  | none => (none, true)
  | some fd =>
    let bs := sub rec fd.offset fd.length
    if l.discEn && leAt rec l.discOff 1 != l.discVal then (none, false)
    else match readField l fd bs with
    | .null => (none, false)
    | .text => (some (leNat bs), false)
    | .badDigit _ => (none, true)
    | .overflow => (none, true)
    | .value v =>
      match convert v fd.scale t 0 with
      | .ok x => (some (ofSigned (if t.typ = tDec128 then 128 else 64) x), false)
      | _ => (none, true)

/-- The width at which a column's lane is stored: a CHAR column's is its field's length. -/
def projWidth (l : Layout) (f : Nat) (t : Tag) : Nat :=
  if t.typ = tChar then ((l.fields[f]?).map (·.length)).getD 0 else plainWidth t.typ

/-- Lane and validity of row n of column k of a projection's partition, as they are held. -/
def projHeldLane (r : Req) (dir k n w : Nat) (t : Tag) : Op (Nat × Bool) := do
  let (a, h) ← ledgerSeg r dir k
  let v ← (if t.typ = tBool then do
      let b ← readNum r (a + leAt h 12 4 + n / 8) 1
      pure (b / 2 ^ (n % 8) % 2)
    else readNum r (a + leAt h 12 4 + w * n) w)
  let ok ← (if leAt h 8 4 = 0 then pure true else do
    let b ← readNum r (a + leAt h 8 4 + n / 8) 1
    pure (bitAt b (n % 8)))
  pure (v, ok)

/-- Lane and validity of row n of column k written. -/
def projLane (r : Req) (dir k n w : Nat) (t : Tag) (v : Option Nat) : Op Unit := do
  let (a, h) ← ledgerSeg r dir k
  let raw ← (match v with
    | some x => pure x
    | none => freeBits (8 * w))
  if t.typ = tBool then writeBitAt r (a + leAt h 12 4) n (raw % 2 == 1)
  else writeMem r (a + leAt h 12 4 + w * n) (natLE w raw)
  if leAt h 8 4 ≠ 0 then writeBitAt r (a + leAt h 8 4) n v.isSome

/-- The place of a row identifier's stamps: its directory and row. -/
def rowStamps (r : Req) (ptable row : Nat) : Op (Nat × Nat) := do
  let (dir, _) ← ledgerPart r ptable (row / 2 ^ 32)
  ledgerStamps r dir (row % 2 ^ 32)

/-- A slot of the open partition claimed (10 R381, R382): its row identifier, or none where the partitions are
exhausted. -/
def claimSlot (p : Proj) : Op (Option Nat) := do
  let r := projReq p.slice
  let d ← readMem r (p.sva + 16) 12
  let parts := leAt d 0 4
  let opn := leAt d 4 4
  let used := leAt d 8 4
  let (_, rows) ← ledgerPart r p.ptable opn
  if used < rows then
    writeMem r (p.sva + 24) (natLE 4 (used + 1))
    pure (some (opn * 2 ^ 32 + used))
  else if opn + 1 < parts then
    let (_, next) ← ledgerPart r p.ptable (opn + 1)
    if next = 0 then pure none
    else
      writeMem r (p.sva + 20) (natLE 4 (opn + 1) ++ natLE 4 1)
      pure (some ((opn + 1) * 2 ^ 32))
  else pure none

/-- A projection's index. -/
def Proj.indexBnd (p : Proj) : Bnd := { num := 0, sva := p.index, len := 2 ^ 48, req := projReq p.slice }

/-- The index takes a key that is not NULL (10 R381); a full index takes none. -/
def indexInsert (p : Proj) (rec : List Byte) (row : Nat) : Op Unit := do
  if p.keyField ≠ 0xFF then
    match (projField p.layout rec p.keyField ⟨tInt64, 0⟩).1 with
    | none => pure ()
    | some key => do
      let b := p.indexBnd
      let x ← b.read 0 64
      let _ ← attempt (buildRow b (htOf x) key (some row))
      pure ()

/-- Whether an index entry's row version may be reclaimed: its end is an epoch no greater than the low-water epoch (09 R329). -/
def reclaimable (p : Proj) (h : HtHdr) (low j e : Nat) : Op Bool := do
  match ← payloadOf p.indexBnd h j e with
  | none => pure false
  | some row => do
    let (_, ea) ← rowStamps (projReq p.slice) p.ptable row
    let end_ ← readNum (projReq p.slice) ea 8
    pure (decide (end_ ≤ low))

/-- The versions of a projection that may be reclaimed are: their index entries are unlinked (09 R329, 10 R382). -/
def reclaimIndex (p : Proj) (low : Nat) : Op Unit := do
  if p.keyField ≠ 0xFF then
    let x ← p.indexBnd.read 0 64
    let h := htOf x
    for j in List.range (2 ^ h.k) do
      for bucket in List.range (2 ^ h.b) do
        unlinkChain p.indexBnd h j (reclaimable p h low j) (h.cap + 1) (h.sub j + 128 + 4 * bucket)

/-- Fields that fail to decode are counted (10 R381). -/
def countBad (vol n : Nat) : Op Unit := upd (fun s => s.addWrap F.volProjBad_count vol n)

/-- One record of a sector applied at epoch e (10 R381): whether it could be. -/
def applyRecord (p : Proj) (vol e n : Nat) (rec : List Byte) : Op Bool := do
  let r := projReq p.slice
  let decoded := p.cols.map (fun c => (c.1, c.2, projField p.layout rec c.1 c.2))
  let cur ← readNum r (p.rmap + 8 * n) 8
  let same ← (if cur = noRow then pure false else do
    let (dir, _) ← ledgerPart r p.ptable (cur / 2 ^ 32)
    let eqs ← ((List.range decoded.length).zip decoded).mapM (fun x => do
      let w := projWidth p.layout x.2.1 x.2.2.1
      let (v, ok) ← projHeldLane r dir (x.1 + 1) (cur % 2 ^ 32) w x.2.2.1
      pure (match x.2.2.2.1 with
        | some y => ok && v == y % 2 ^ (8 * w)
        | none => !ok))
    pure (eqs.all id))
  if same then pure true
  else
    match ← claimSlot p with
    | none => pure false
    | some row => do
      let (dir, _) ← ledgerPart r p.ptable (row / 2 ^ 32)
      projLane r dir 0 (row % 2 ^ 32) 8 ⟨tUint64, 0⟩ (some n)
      ((List.range decoded.length).zip decoded).forM (fun x =>
        projLane r dir (x.1 + 1) (row % 2 ^ 32) (projWidth p.layout x.2.1 x.2.2.1) x.2.2.1 x.2.2.2.1)
      countBad vol (decoded.countP (fun x => x.2.2.2))
      let (ba, ea) ← ledgerStamps r dir (row % 2 ^ 32)
      writeMem r ea (natLE 8 stampMax)
      writeMem r ba (natLE 8 e)
      if cur ≠ noRow then
        let (_, oe) ← rowStamps r p.ptable cur
        writeMem r oe (natLE 8 e)
      writeMem r (p.rmap + 8 * n) (natLE 8 row)
      indexInsert p rec row
      pure true

/-- A record's current version ends at epoch e and leaves the record map (10 R381, TRIM). -/
def endRecord (p : Proj) (e n : Nat) : Op Unit := do
  let r := projReq p.slice
  let cur ← readNum r (p.rmap + 8 * n) 8
  if cur ≠ noRow then
    let (_, oe) ← rowStamps r p.ptable cur
    writeMem r oe (natLE 8 e)
    writeMem r (p.rmap + 8 * n) (natLE 8 noRow)

/-- Records applied one after another until one cannot be. -/
def applyAll (f : Nat → Op Bool) : List Nat → Op Bool
  | [] => pure true
  | n :: ns => do
    if ← f n then applyAll f ns else pure false

/-- A SECTOR or TRIM record applied to a projection at its commit epoch (09 R330, 10 R380, R381): whether it could be. -/
def applyJournal (p : Proj) (e : VolEnt) (key : List Byte) (r : JRec) (epoch : Nat) : Op Bool := do
  let per := e.bytes / p.layout.len
  let inside := r.sectors.filter (fun x => decide (p.lo ≤ x ∧ x < p.hi))
  if r.kind = kSector then
    match inside with
    | [] => pure true
    | x :: _ =>
      let plain := xts true key x r.payload
      applyAll (fun j => applyRecord p r.obj epoch ((x - p.lo) * per + j) (sub plain (j * p.layout.len) p.layout.len)) (List.range per)
  else
    inside.forM (fun x => (List.range per).forM (fun j => endRecord p epoch ((x - p.lo) * per + j)))
    pure true

/-- Whether a record awaits application to its volume's projection. -/
def applyOwed (s : State) (v : Nat) (r : JRec) : Bool :=
  (r.kind == kSector || r.kind == kTrim) && r.obj == v && recCounts s r && !r.applied && (match r.fate with
    | some e => decide (e ≤ s.reg .mpdEpoch 0)
    | none => false)

/-- The record with the lowest commit epoch, and of those the lowest sequence. -/
def firstByEpoch (rs : List JRec) : Option JRec :=
  rs.foldl (fun best r => match best with
    | some b => if r.fate.getD 0 < b.fate.getD 0 then some r else some b
    | none => some r) none

/-- A record is marked applied. -/
def markApplied (s : State) (seq : Nat) : State :=
  { s with mpd := { s.mpd with recs := s.mpd.recs.map (fun r => if r.seq = seq then { r with applied := true } else r) } }

/-- The next record is applied to a volume's projection (09 R330, 10 R381, R382); an access the slice's tables refuse
leaves it owed. -/
def applyNext (s : State) (v : Nat) : State :=
  match s.vols.projs.find? (fun x => x.1 == v), s.vol v with
  | some (_, p), some e =>
    match firstByEpoch (s.mpd.recs.filter (applyOwed s v)) with
    | none => raiseApplied s
    | some r =>
      if keyLost s e then s
      else match (applyJournal p e (volKey s e) r (r.fate.getD 0)).exec s with
      | (.ok true, s1) => raiseApplied (((markApplied s1 r.seq).setFlag F.volState_proj_full v false).count ⟨0xB08, 1, none, none, none⟩)
      | (.ok false, s1) =>
        if s.flag F.volState_proj_full v then s1
        else (s1.setFlag F.volState_proj_full v true).devEvent 0x0A03 v
      | (.error _, s1) => s1
  | _, _ => s

/-- The versions of a volume's projection that the low-water epoch has passed are reclaimed (09 R329). When the device does it the spec does
not say: with each PROJECTION_APPLY (DESIGN CHOICE, log 32). -/
def reclaimNow (s : State) (v : Nat) : State :=
  match s.vols.projs.find? (fun x => x.1 == v) with
  | some (_, p) => (reclaimIndex p (s.reg .mpdLowWater 0)).quiet s
  | none => s

/-- PROJECTION_APPLY: after replay has ended (09 R329, R330, R342). -/
def projectionApply (s : State) (v : Nat) : State :=
  if s.flag F.mpdStatus_replay_done 0 && !s.halted then reclaimNow (applyNext s v) v else s

/-- Whether a job of a registration's owning slice uses its table for appends (09 R315). -/
def tableUsed (s : State) (n : Nat) : Bool := s.mpd.uses.any (fun u => u.table == n)

/-- A projection registered: records up to the checkpoint epoch count as applied; its bad fields start at 0 (10 R379). -/
def registerProj (s : State) (n v : Nat) (p : Proj) : State :=
  let c := s.reg .mpdCkpt 0
  let recs := s.mpd.recs.map (fun (r : JRec) => if r.obj = v ∧ r.fate.getD (c + 1) ≤ c then { r with applied := true } else r)
  let s1 := { s with mpd := { s.mpd with recs := recs },
                     vols := { s.vols with projs := (v, p) :: s.vols.projs.filter (fun x => x.1 != v) } }
  raiseApplied (((s1.setFld F.volProjBad_count v 0).setFlag F.volState_proj_full v false).setReg .mpdTableStat n 0)

/-- A write of MPD_TABLE_CFG (09 R315, Table 9.23, 10 R379): ignored while the table is in use for appends; a
projection's descriptor is checked as valid is set. -/
def tableCfgWrite (s : State) (n value : Nat) : State :=
  if tableUsed s n && s.flag F.mpdTableCfg_valid n then s
  else
    let v0 := value / 64 * 64
    let s0 := { s with vols := { s.vols with projs := s.vols.projs.filter (fun x => x.2.table != n) } }
    let s1 := s0.setReg .mpdTableCfg n v0
    if bitAt value 63 && bitAt value 62 then
      let v := bitsAt value 48 8
      let slice := bitsAt value 56 6
      let failed (t : State) : State := (t.setFlag F.mpdTableCfg_valid n false).setFlag F.volState_proj_error v true
      if ((s.vol v).map (·.owner)) ≠ some slice then failed s1
      else match (readProj s n slice v (bitsAt value 6 42 * 64)).exec s1 with
      | (.ok (some p), s2) => registerProj s2 n v p
      | (.ok none, s2) => failed s2
      | (.error _, s2) => failed s2
    else s1

/-- REPLAY_START (09 R342, Table 9.19). -/
def replayStart (s : State) (value : Nat) : State :=
  if !bitAt value 31 || s.flag F.mpdStatus_replay_busy 0 || s.flag F.mpdStatus_replay_done 0 then s
  else s.setFlag F.mpdStatus_replay_busy 0 true

/-- The lanes of a ROW record's payload, column by column. -/
def rowLanes : List Tag → List Byte → List Nat
  | [], _ => []
  | t :: ts, b =>
    let w := if t.typ = tDec128 then 16 else 8
    leNat (b.take w) :: rowLanes ts (b.drop w)

/-- A ROW or ROW_DELETE record replayed at its commit epoch (09 R342). -/
def replayRow (s : State) (r : JRec) (e : Nat) : Op Unit := do
  let n := r.obj
  if s.flag F.mpdTableCfg_valid n && !s.flag F.mpdTableCfg_projection n then
    let q := commitReq (s.fld F.mpdTableCfg_slice n)
    let sva := s.fld F.mpdTableCfg_addr n * 64
    let d ← readMem q sva 64
    let c := leAt d 4 2
    let tb ← readMem q (sva + 64) (2 * c)
    let tags := (List.range c).map (fun k => tagOf (leAt tb (2 * k) 2))
    let endRow (row : Nat) : Op Unit := do
      let (_, ea) ← rowStamps q (leAt d 8 8) row
      writeMem q ea (natLE 8 e)
    if r.kind = kRowDelete then endRow r.addr
    else
      let (dir, _) ← ledgerPart q (leAt d 8 8) (r.addr / 2 ^ 32)
      let u := r.addr % 2 ^ 32
      let valid := leAt r.payload 0 8
      let lanes := rowLanes tags (r.payload.drop 8)
      ((List.range c).zip (tags.zip lanes)).forM (fun x => ledgerLane q dir x.1 u x.2.1 x.2.2 (bitAt valid x.1))
      let (ba, ea) ← ledgerStamps q dir u
      writeMem q ea (natLE 8 stampMax)
      writeMem q ba (natLE 8 e)
      if r.aux < 2 ^ 63 then endRow r.aux
      if r.addr / 2 ^ 32 = leAt d 20 4 then
        let used ← readNum q (sva + 24) 4
        if used ≤ u then writeMem q (sva + 24) (natLE 4 (u + 1))

/-- A record inserted in commit-epoch order, after those of its epoch. -/
def epochInsert (r : JRec) : List JRec → List JRec
  | [] => [r]
  | x :: xs => if r.fate.getD 0 < x.fate.getD 0 then r :: x :: xs else x :: epochInsert r xs

/-- Records in commit-epoch order, and within an epoch in sequence order. -/
def byEpoch (rs : List JRec) : List JRec := rs.foldl (fun acc r => epochInsert r acc) []

/-- One projection record replayed: whether application may go on with the volume's next (10 R382). -/
def replayProj (s : State) (r : JRec) : Bool × State :=
  match s.vols.projs.find? (fun x => x.1 == r.obj), s.vol r.obj with
  | some (_, p), some ent =>
    if r.applied then (true, s)
    else if keyLost s ent then (false, s)
    else match (applyJournal p ent (volKey s ent) r (r.fate.getD 0)).exec s with
    | (.ok true, s1) => (true, markApplied s1 r.seq)
    | (.ok false, s1) => (false, (s1.setFlag F.volState_proj_full r.obj true).devEvent 0x0A03 r.obj)
    | (.error _, s1) => (false, s1)
  | _, _ => (true, s)

/-- Records replayed in order; those of a volume whose application has stopped are left to PROJECTION_APPLY. -/
def replayAll : List Nat → List JRec → State → State
  | _, [], s => s
  | held, r :: rs, s =>
    if r.kind = kRow ∨ r.kind = kRowDelete then
      let e := r.fate.getD 0
      let s1 := (replayRow s r e).quiet s
      replayAll held rs (if s.flag F.mpdTableCfg_valid r.obj && !s.flag F.mpdTableCfg_projection r.obj then s1.setReg .mpdTableStat r.obj e
        else s1)
    else if held.contains r.obj then replayAll held rs s
    else
      let (ok, s1) := replayProj s r
      replayAll (if ok then held else r.obj :: held) rs s1

/-- Replay runs to its end (09 R342): every committed ROW, ROW_DELETE and projection record above the checkpoint, in
commit-epoch order; then REPLAY_DONE. -/
def replayDone (s : State) : State :=
  if !s.flag F.mpdStatus_replay_busy 0 then s
  else
    let c := s.reg .mpdCkpt 0
    let pub := s.reg .mpdEpoch 0
    let rs := s.mpd.recs.filter (fun r => !r.dead && (r.kind == kRow || r.kind == kRowDelete || ((r.kind == kSector || r.kind == kTrim) && recCounts s r)) &&
      (match r.fate with
        | some e => decide (c < e ∧ e ≤ pub)
        | none => false))
    let s1 := raiseApplied (replayAll [] (byEpoch rs) s)
    ((s1.setFlag F.mpdStatus_replay_busy 0 false).setFlag F.mpdStatus_replay_done 0 true).devEvent 0x0904 0

end Sys2Proof.Machine
end

