-- ==== Sys2Proof/Machine/Toll.lean ====
section
/-! DEFINITION. The Toll: held contexts, DIGEST and DIGEST_KEYED, register marks, saving and restoring contexts (12
R413 to R436). -/

namespace Sys2Proof.Machine

/-- Whether a context is held between jobs or while a continuing job runs. -/
def TollCtx.isHeld (c : TollCtx) : Bool := c.held.isSome

/-- Contexts held, of a slice and in all (R426). -/
def heldBy (s : State) (slice : Option Nat) : Nat :=
  (s.units.ctxs.filter (fun x => match x.2 with
    | some c => c.held.isSome && (slice == none || slice == some c.slice)
    | none => false)).length

/-- Whether a further hold is refused (R426). -/
def holdFull (s : State) (slice : Nat) : Bool :=
  decide (s.fld F.tolCfg_hold_slice 0 ≤ heldBy s (some slice)) || decide (s.fld F.tolCfg_hold_total 0 ≤ heldBy s none)

/-- The handle of a context: an 11-bit sequence and the context (R425). -/
def handleOf (seq n : Nat) : Nat := seq % 2048 * 32 + n

/-- The next handle sequence taken. -/
def takeHold (s : State) : Nat × State :=
  (s.units.nextHold, { s with units := { s.units with nextHold := (s.units.nextHold + 1) % 2048 } })

/-- The context that a handle names for a slice (R427). -/
def ctxOfHandle (s : State) (slice h : Nat) : Option (Nat × TollCtx) :=
  match s.ctx (h % 32) with
  | some c => if c.slice == slice && c.held == some (h / 32) then some (h % 32, c) else none
  | none => none

/-- Operands of a digest (R422, Table 12.4). -/
def dgAlg (j : Job) : Nat := bitsAt (eParam0 j.first) 29 3
/-- hold. -/
def dgHold (j : Job) : Bool := bitAt (eParam0 j.first) 28
/-- cont. -/
def dgCont (j : Job) : Bool := bitAt (eParam0 j.first) 27
/-- The handle. -/
def dgHandle (j : Job) : Nat := bitsAt (eParam0 j.first) 0 16
/-- The key slot. -/
def dgSlot (j : Job) : Nat := bitsAt (eParam0 j.first) 16 6
/-- Whether a job is keyed. -/
def dgKeyed (j : Job) : Bool := j.hdr.op == 0x0401

/-- The length that the packet's mark gives (R423). -/
def packetMark (j : Job) : Option Nat :=
  let p := eParam1 j.first
  if bitAt p 63 then some (8 * bitsAt p 0 32 + bitsAt p 32 4) else none

/-- The mark that governs a context's job (R423, R429). -/
def markOf (j : Job) (c : TollCtx) : Option Nat :=
  match packetMark j with
  | some m => some m
  | none => c.mark

/-- The bytes of its message that a job absorbs (R423). -/
def dgEnd (j : Job) (c : TollCtx) : Nat :=
  match markOf j c with
  | some m => min m (eLen0 j.first)
  | none => eLen0 j.first

/-- BAD_HEADER of a handle (R427). -/
def badHandle (h : Nat) : Outc := ⟨stBadHeader, 0, h⟩

/-- The context that a job continues is freed and its handle ends, unless another job runs on it (R428). -/
def endHandle (s : State) (j : Job) : State :=
  if !dgCont j then s
  else match ctxOfHandle s j.slice (dgHandle j) with
  | some (n, c) => if c.job.isNone ∨ (c.job.map Prod.fst) = some j.id then s.setCtx n none else s
  | none => s

/-- A DIGEST fails: its context is freed (R428). -/
def failDigest (s : State) (j : Job) (o : Outc) : State := failJob (endHandle s j) j.id o

/-- DIGEST or DIGEST_KEYED starts (R424, R427, R428): a task of the Toll, or an end at once. -/
def digestOp (s : State) (id op : Nat) : State :=
  match startJob s id op with
  | none => s
  | some j =>
    if dgCont j && (ctxOfHandle s j.slice (dgHandle j)).isNone then finishJob s id (badHandle (dgHandle j))
    else if !dgHold j && decide (eLen1 j.first < algDigest (dgAlg j)) then
      finishJob (endHandle s j) id ⟨stShort, 1, algDigest (dgAlg j)⟩
    else setTasks s id 1

/-- Whether a Toll task can be granted its context now (R415, R427, R435). -/
def tollGrantable (s : State) (j : Job) : Bool :=
  let heldFree (h : Nat) : Bool := match ctxOfHandle s j.slice h with
    | some (_, c) => c.job.isNone
    | none => true
  match j.hdr.op with
  | 0x0402 => heldFree (eParam0 j.first % 65536)
  | 0x0403 => (freeCtx s).isSome
  | _ => if dgCont j then heldFree (dgHandle j) else (freeCtx s).isSome

/-- Whether the key of a keyed context was erased or replaced since it began (R431). -/
def keyGone (s : State) (c : TollCtx) : Bool := c.keyed.any (fun slot => c.gone || (s.slot slot).usage != 2)

/-- DEVICE_FAULT of class KEY_GONE (R431, 19 R589). -/
abbrev keyGoneOutc : Outc := ⟨0xF0, 0x0008, 0⟩

/-- A digest task takes its context (R415, R425, R427, R428, R431). -/
def digestDispatch (s : State) (j : Job) (part : Nat) : State :=
  if dgCont j then
    match ctxOfHandle s j.slice (dgHandle j) with
    | none => failJob s j.id (badHandle (dgHandle j))
    | some (n, c) =>
      let same := c.keyed == (if dgKeyed j then some (dgSlot j) else none) && c.hash.alg == dgAlg j
      if !same then failDigest s j (badHandle (dgHandle j))
      else if keyGone s c then failDigest s j keyGoneOutc
      else s.setCtx n (some { c with job := some (j.id, part), pos := 0, mark := none })
  else if dgKeyed j && s.flag F.brkStatus_keys_erased 0 then failJob s j.id keyGoneOutc
  else
    match freeCtx s with
    | none => s
    | some n =>
      let c : TollCtx := { hash := Hash.start (dgAlg j), slice := j.slice, job := some (j.id, part) }
      let key := (s.slot (dgSlot j)).key
      s.setCtx n (some (if dgKeyed j then
          { c with hash := c.hash.stage (hmacPad (dgAlg j) key 0x36), keyed := some (dgSlot j), outer := hmacPad (dgAlg j) key 0x5C }
        else c))

/-- A CONTEXT_SAVE takes the context that it saves, a CONTEXT_RESTORE the free one that it fills (R427, R434). -/
def contextDispatch (s : State) (j : Job) (part : Nat) : State :=
  if j.hdr.op = 0x0402 then
    match ctxOfHandle s j.slice (eParam0 j.first % 65536) with
    | some (n, c) => s.setCtx n (some { c with job := some (j.id, part) })
    | none => s
  else
    match freeCtx s with
    | some n => s.setCtx n (some { hash := ⟨0, [], [], 0⟩, slice := j.slice, job := some (j.id, part) })
    | none => s

/-- The bytes of its message that a job has still to stage. -/
def dgLeft (j : Job) (c : TollCtx) : Nat := dgEnd j c - c.pos

/-- The bytes that complete a context's next block (R416). -/
def blockNeed (c : TollCtx) : Nat := algBlock c.hash.alg - c.hash.tail.length

/-- n further bytes of a job's message read and staged (R423). -/
def stageMore (j : Job) (n k : Nat) (c : TollCtx) : Op TollCtx := do
  let b ← readMem (j.req .toll) (eAddr0 j.first + c.pos) k
  let c1 := { c with hash := c.hash.stage b, pos := c.pos + k }
  upd (fun s => s.setCtx n (some c1))
  pure c1

/-- The result of a digest that completes (R423, R425). -/
def digestResult (j : Job) (c : TollCtx) (handle : Nat) : Outc :=
  let past := match markOf j c with
    | some m => decide (eLen0 j.first < m)
    | none => false
  ⟨boolNat past, 0, handle * 2 ^ 48 + c.pos % 2 ^ 48⟩

/-- A digest that holds its message ends once its whole blocks are absorbed: the bytes left are staged in its context, which is held
(R425, R426). -/
def holdComplete (s : State) (j : Job) (n : Nat) (c : TollCtx) : Outc × State :=
  match (stageMore j n (dgLeft j c) c).exec s with
  | (.error e, s1) => (e.toOutc, s1.setCtx n none)
  | (.ok c1, s1) =>
    match c1.held with
    | some seq => (digestResult j c1 (handleOf seq n), s1.setCtx n (some { c1 with job := none }))
    | none =>
      if holdFull s1 j.slice then (⟨stFull, 0, 0⟩, s1.setCtx n none)
      else
        let (seq, s2) := takeHold s1
        (digestResult j c1 (handleOf seq n), (s2.setCtx n (some { c1 with job := none, held := some seq })).count
          ⟨0xD03, 1, some j.slice, none, none⟩)

/-- A digest task ends once its blocks are absorbed (R416, R424 to R427): its digest is written, or its context held; its job's
outcome. None while blocks are left. -/
def digestComplete (s : State) (j : Job) (part : Nat) : Option (Outc × State) :=
  match ctxOfJob s j.id part with
  | none => none
  | some (n, c) =>
    if dgHold j then
      if c.hash.full ∨ blockNeed c ≤ dgLeft j c then none else some (holdComplete s j n c)
    else if !c.done then none
    else match (jobWrite j.id (j.req .toll) (eAddr1 j.first) c.digest).exec s with
      | (.error e, s1) => some (e.toOutc, s1.setCtx n none)
      | (.ok _, s1) => some (digestResult j c 0, s1.setCtx n none)

/-- Contexts of a job freed, and a handle that it held or continued ended (R428); one that a CONTEXT_SAVE was to save stays held (R432). -/
def freeCtxs (s : State) (id : Nat) : State :=
  let saves := (s.job id).any (fun j => j.hdr.op == 0x0402)
  (s.units.ctxs.filter (fun x => x.2.any (fun c => (c.job.map Prod.fst) == some id))).foldl (fun t x =>
    if saves then onCtx t x.1 (fun c => { c with job := none }) else t.setCtx x.1 none) s

/-- A register mark (R429): the value written to TOL_VALID_BYTES with the context's TOL_LAST_WORD. -/
def registerMark (s : State) (n value : Nat) : State :=
  let v := value % 16
  if v = 0 ∨ 8 < v then s
  else
    let ignored := s.setFlag F.tolCtxState_mark_ignored n true
    match s.ctx n with
    | none => ignored
    | some c =>
      match c.job.bind (fun x => s.job x.1) with
      | none => ignored
      | some j =>
        if 2 ≤ j.hdr.op % 256 || j.hdr.op / 256 != 4 || dgHold j || (packetMark j).isSome || c.mark.isSome then ignored
        else
          let m := 8 * s.fld F.tolLastWord_last_word n + v
          if m < c.pos then s.setFlag F.tolCtxState_mark_late n true
          else s.setCtx n (some { c with mark := some m })

/-- The inner state of a blob (R433): 200 bytes. -/
def stateBytes (h : Hash) : List Byte :=
  padTo (match h.alg with
    | 1 => h.h.flatMap (natLE 4)
    | _ => h.h.flatMap (natLE 8)) 200

/-- The state words of a blob. -/
def stateWords (alg : Nat) (b : List Byte) : List Nat :=
  match alg with
  | 1 => (List.range 8).map (fun i => leAt b (4 * i) 4)
  | 4 => (List.range 25).map (fun i => leAt b (8 * i) 8)
  | _ => (List.range 8).map (fun i => leAt b (8 * i) 8)

/-- The trailer of a keyed body (R433). -/
def keyedTrailer (alg slice slot seq : Nat) : List Byte :=
  natLE 1 alg ++ natLE 1 1 ++ natLE 1 slice ++ natLE 1 slot ++ zeros 4 ++ natLE 8 seq ++ zeros 48

/-- The body of a context's blob, before any wrapping. -/
def blobBody (s : State) (c : TollCtx) : List Byte :=
  stateBytes c.hash ++ padTo c.hash.tail 136 ++ (match c.keyed with
    | some slot => keyedTrailer c.hash.alg c.slice slot (keyRecSeq s slot)
    | none => zeros 64)

/-- A context's state blob (R432, Table 12.5). -/
def blobOf (s : State) (c : TollCtx) : List Byte :=
  let head := natLE 4 0x544F4C53 ++ natLE 1 c.hash.alg ++ natLE 1 (boolNat c.keyed.isSome) ++ zeros 2 ++ natLE 8 c.hash.len
  head ++ (if c.keyed.isSome then kwpWrap Config.wrappingKey (blobBody s c) else blobBody s c)

/-- CONTEXT_SAVE starts (R432). -/
def contextSaveOp (s : State) (id : Nat) : State :=
  match startJob s id 0x0402 with
  | none => s
  | some j =>
    match ctxOfHandle s j.slice (eParam0 j.first % 65536) with
    | none => finishJob s id (badHandle (eParam0 j.first % 65536))
    | some (_, c) =>
      let need := if c.keyed.isSome then 424 else 416
      if eLen1 j.first < need then finishJob s id ⟨stShort, 1, need⟩ else setTasks s id 1

/-- A CONTEXT_SAVE task's work (R431, R432): the context stays held where its blob cannot be written. -/
def saveWork (s : State) (j : Job) : Outc × State :=
  match ctxOfHandle s j.slice (eParam0 j.first % 65536) with
  | none => (badHandle (eParam0 j.first % 65536), s)
  | some (n, c) =>
    if keyGone s c then (keyGoneOutc, s.setCtx n none)
    else match (jobWrite j.id (j.req .toll) (eAddr1 j.first) (blobOf s c)).exec s with
    | (.error e, s1) => (e.toOutc, s1)
    | (.ok _, s1) => (⟨0, 0, 0⟩, (s1.setCtx n none).count ⟨0xD04, 1, some j.slice, none, none⟩)

/-- CONTEXT_RESTORE starts (R434). -/
def contextRestoreOp (s : State) (id : Nat) : State :=
  match startJob s id 0x0403 with
  | none => s
  | some _ => setTasks s id 1

/-- The context that a blob's body makes. -/
def ctxOfBody (s : State) (alg absorbed slice : Nat) (keyed : Bool) (b : List Byte) : TollCtx :=
  let k := absorbed % algBlock alg
  { hash := ⟨alg, stateWords alg b, (sub b 200 136).take k, absorbed⟩, slice := slice, keyed := if keyed then some (leAt b 339 1) else none,
    outer := if keyed then hmacPad alg (s.slot (leAt b 339 1)).key 0x5C else [] }

/-- Whether a keyed body's trailer names this header, this slice and the key that its slot holds (R434). -/
def trailerOk (s : State) (alg slice : Nat) (b : List Byte) : Bool :=
  let slot := leAt b 339 1
  sub b 336 64 == keyedTrailer alg slice slot (keyRecSeq s slot) && (s.slot slot).usage == 2

/-- A CONTEXT_RESTORE task's work, in the context that it was granted (R434). -/
def restoreWork (s : State) (j : Job) (part : Nat) : Outc × State :=
  let r := j.req .toll
  let n := eLen0 j.first
  let mismatch : Outc := ⟨stMismatch, 0, 16⟩
  if n < 16 then (⟨stShort, 0, 416⟩, s)
  else match (readMem r (eAddr0 j.first) 16).exec s with
  | (.error e, s1) => (e.toOutc, s1)
  | (.ok h, s1) =>
    let alg := leAt h 4 1
    let kind := leAt h 5 1
    match lowest [badIf (leAt h 0 4 != 0x544F4C53) 0, badIf (alg == 0 || decide (4 < alg)) 4, badIf (2 ≤ kind) 5,
        badIf (leAt h 6 1 != 0) 6, badIf (leAt h 7 1 != 0) 7] with
    | some o => (⟨stBadHeader, 0, o⟩, s1)
    | none =>
      let need := if kind = 1 then 424 else 416
      if n < need then (⟨stShort, 0, need⟩, s1)
      else if kind = 1 ∧ s1.flag F.brkStatus_keys_erased 0 = true then (keyGoneOutc, s1)
      else match (readMem r (eAddr0 j.first + 16) (need - 16)).exec s1 with
      | (.error e, s2) => (e.toOutc, s2)
      | (.ok b, s2) =>
        let body := if kind = 1 then kwpUnwrap Config.wrappingKey b 400 else some b
        match body with
        | none => (mismatch, s2)
        | some x =>
          if kind = 1 ∧ trailerOk s2 alg j.slice x = false then (mismatch, s2)
          else if holdFull s2 j.slice then (⟨stFull, 0, 0⟩, s2)
          else match ctxOfJob s2 j.id part with
          | none => (⟨stFull, 0, 0⟩, s2)
          | some (k, _) =>
            let (seq, s3) := takeHold s2
            let c := ctxOfBody s3 alg (leAt h 8 8) j.slice (kind == 1) x
            (⟨0, 0, handleOf seq k * 2 ^ 48⟩, ((s3.setCtx k (some { c with held := some seq })).count
              ⟨0xD05, 1, some j.slice, none, none⟩).count ⟨0xD03, 1, some j.slice, none, none⟩)

/-- Whether a tap word that uses n slots is refused at fetch (R419). -/
def tapWordBad (s : State) (slice w n : Nat) : Bool :=
  w != 0 && (tapAlg w == 0 || decide (4 < tapAlg w) || bitsAt w 16 12 != 0 || !s.flag F.tolTapCfg_enable slice ||
    (n != 0 && decide (2 ^ s.fld F.tolTapCfg_depth_log2 slice < tapSlot w + n)))

/-- A volume's tap of a job's direction (R418, R421): algorithm and slot. -/
def volTap (s : State) (j : Job) : Option (Nat × Nat) :=
  let v := volOf j
  let on := if j.hdr.op = 0x0501 then s.flag F.tolVtap_wr_en v else if j.hdr.op = 0x0500 then s.flag F.tolVtap_rd_en v else false
  if on then some (s.fld F.tolVtap_alg v, s.fld F.tolVtap_slot_base v + j.hdr.tag % 2 ^ s.fld F.tolVtap_slots_log2 v) else none

/-- A write of TOL_VTAP (Table 12.13): ignored where it would enable a tap that R421 cannot serve. -/
def vtapWrite (s : State) (v value : Nat) : State :=
  let owner := ((s.vol v).map (·.owner)).getD 0
  let alg := bitsAt value 27 3
  let enables := bitAt value 31 || bitAt value 30
  let bad := alg == 0 || decide (4 < alg) || !s.flag F.tolTapCfg_enable owner ||
    decide (2 ^ s.fld F.tolTapCfg_depth_log2 owner < bitsAt value 0 16 + 2 ^ bitsAt value 16 4)
  if enables && bad then s else s.setReg .tolVtap v (value &&& 0xF80FFFFF)

/-- A write of TOL_TAP_CFG (Table 12.12). The table gives depth_log2 as 0 to 16 and no outcome for 17 to 31: the field then stays, and enable is
written (DESIGN CHOICE, log 70). -/
def tapCfgWrite (s : State) (slice value : Nat) : State :=
  let used := s.vols.table.any (fun x => x.2.owner == slice && (s.flag F.tolVtap_wr_en x.1 || s.flag F.tolVtap_rd_en x.1))
  if s.flag F.tolTapCfg_enable slice then
    (if bitAt value 31 || used then s else s.setFlag F.tolTapCfg_enable slice false)
  else
    let d := bitsAt value 0 5
    let s1 := if d ≤ 16 then s.setFld F.tolTapCfg_depth_log2 slice d else s
    s1.setFlag F.tolTapCfg_enable slice (bitAt value 31)

end Sys2Proof.Machine
end

