-- ==== Sys2Proof/Machine/Sluice.lean ====
section
/-! DEFINITION. The Sluice: channels, descriptors, movers, request lines, the register sets of MANAGER channels (16 R509 to
R531). -/

namespace Sys2Proof.Machine

/-- A descriptor's fields from 32 bytes (Table 16.1). -/
def descOf (b : List Byte) : Desc :=
  { src := leAt b 0 8, dst := leAt b 8 8, len := leAt b 16 4, tap := leAt b 20 4, barrier := bitAt (leAt b 24 2) 0,
    fill := bitAt (leAt b 24 2) 1, notify := bitAt (leAt b 24 2) 2 }

/-- Whether a descriptor breaks Table 16.1 or R419 for a slice. -/
def descBad (s : State) (slice : Nat) (d : Desc) : Bool :=
  (!d.fill && badSva d.src) || badSva d.dst || decide (16777216 < d.len) || (d.fill && d.tap != 0) ||
    tapWordBad s slice d.tap 1 || (d.tap != 0 && tapPoint d.tap == 1)

/-- The descriptors of a Sluice job (R516, Table 16.2). -/
def jobDescs (j : Job) : List Desc :=
  let e := j.first
  let tap := eParam1 e / 2 ^ 32
  let barrier := bitAt (eParam0 e) 0
  match j.hdr.op with
  | 0x0201 => [⟨eParam1 e, eAddr1 e, eLen0 e, 0, false, true, false⟩]
  | 0x0200 => [⟨eAddr0 e, eAddr1 e, eLen0 e, tap, false, false, false⟩]
  | _ => ⟨eAddr0 e, eAddr1 e, eLen0 e, tap, barrier, false, false⟩ :: (j.entries.drop 1).map (fun x => descOf (sub x 8 32))

/-- COPY, FILL or COPY_LIST starts: one task (R516). -/
def sluiceOp (s : State) (id op : Nat) : State :=
  match startJob s id op with
  | none => s
  | some _ => setTasks s id 1

/-- A POOL channel takes a task: its descriptors, its level, its tap's context (R510, R511, R514). -/
def sluiceDispatch (s : State) (j : Job) (part c : Nat) : State :=
  let ds := jobDescs j
  let s2 := (chanStart s c 1 (taskLevel s j part) j.slice).setSlu c (fun x =>
    { Chan.idle with job := some (j.id, part), descs := ds, ctx := (ctxOfJob s j.id part).map Prod.fst, unflushed := x.unflushed })
  match ds with
  | d :: _ => loadActive s2 c d
  | [] => s2

/-- n bytes of a FILL from byte i on (R513). -/
def fillBytes (pattern i n : Nat) : List Byte :=
  let p := natLE 8 pattern
  (List.range n).map (fun k => p.getD ((i + k) % 8) 0)

/-- How a channel of slice 0 reaches the registers through the REGISTER region (21 R624): a read and a write of bytes within
a slot, at an offset of the region. -/
structure RegIo where
  read : State → Nat → Nat → List Byte × State
  write : State → Nat → List Byte → State

/-- The pieces of a range within a line, one per register slot of 8 bytes: offset and length. -/
def slotPieces : Nat → Nat → Nat → List (Nat × Nat)
  | 0, _, _ => []
  | fuel + 1, a, n => if n = 0 then [] else
      let c := min n (8 - a % 8)
      (a, c) :: slotPieces fuel (a + c) (n - c)

/-- Bytes of the REGISTER region read, slot by slot. -/
def readRegion (io : RegIo) (s : State) (y n : Nat) : List Byte × State :=
  (slotPieces 9 y n).foldl (fun acc p => let (b, t) := io.read acc.2 p.1 p.2
                                         (acc.1 ++ b, t)) ([], s)

/-- Bytes of the REGISTER region written, slot by slot. -/
def writeRegion (io : RegIo) (s : State) (y : Nat) (b : List Byte) : State :=
  (slotPieces 9 y b.length).foldl (fun t p => io.write t p.1 (sub b (p.1 - y) p.2)) s

/-- n bytes read by a channel: memory, or registers (13 R445, 21 R624). -/
def chanRead (io : RegIo) (r : Req) (sva n : Nat) : Op (List Byte) := do
  let parts ← (chunks (lineFuel n) sva n).mapM (fun c => do
    let t ← translate r .read c.1
    if isRegister t.dpa then modifyGet (fun s => readRegion io s (t.dpa - regBase) c.2)
    else do
      let line ← granRead r t.attr t.dpa
      return sub line (t.dpa % 64) c.2)
  return parts.flatten

/-- Bytes written by a channel to memory or registers; whether any of them reached host memory. -/
def chanWrite (io : RegIo) (r : Req) (sva : Nat) (b : List Byte) : Op Bool := do
  let hs ← (chunks (lineFuel b.length) sva b.length).mapM (fun c => do
    let t ← translate r .write c.1
    let part := sub b (c.1 - sva) c.2
    if isRegister t.dpa then upd (fun s => writeRegion io s (t.dpa - regBase) part)
    else granWrite r t.attr t.dpa part
    return isHost t.dpa)
  return hs.any id

/-- The request of a channel's accesses: the job's, or slice 0's for a MANAGER channel (R512, R527). -/
def chanReq (s : State) (c : Nat) : Req :=
  match (s.slu c).job.bind (fun x => s.job x.1) with
  | some j => j.req .sluice
  | none => { slice := 0, agent := .sluice }

/-- A channel whose faults have no job to name them: an internal error is recorded at the SVA of the piece that it met (R530). -/
def atSva {α : Type} (managed : Bool) (sva : Nat) (o : Op α) : Op α := do
  match ← attempt o with
  | .ok a => return a
  | .error (.device c) => throw (if managed then .outc ⟨0xF0, c, sva⟩ else .device c)
  | .error e => throw e

/-- n bytes read by a channel, line by line. -/
def chanFetch (io : RegIo) (r : Req) (managed : Bool) (sva n : Nat) : Op (List Byte) := do
  let parts ← (chunks (lineFuel n) sva n).mapM (fun c => atSva managed c.1 (chanRead io r c.1 c.2))
  return parts.flatten

/-- Bytes written by a channel, line by line; whether any of them reached host memory. -/
def chanStore (io : RegIo) (r : Req) (managed : Bool) (sva : Nat) (b : List Byte) : Op Bool := do
  let hs ← (chunks (lineFuel b.length) sva b.length).mapM (fun c => atSva managed c.1 (chanWrite io r c.1 (sub b (c.1 - sva) c.2)))
  return hs.any id

/-- A channel's buffer set, SLU_CH_STATUS.buffered following. -/
def setBuf (s : State) (c : Nat) (b : List Byte) : State :=
  (s.setSlu c (fun x => { x with buf := b })).setFld F.sluChStatus_buffered c b.length

/-- The bytes that a channel writes next: a FILL's, or its buffer's, once its reads have brought them (R509, R513). -/
def nextBytes (io : RegIo) (c : Nat) (d : Desc) (n : Nat) : Op (List Byte) := do
  let s ← get
  let x := s.slu c
  if d.fill then return fillBytes d.src x.wrote n
  else
    let more ← chanFetch io (chanReq s c) x.job.isNone (d.src + x.wrote + x.buf.length) (n - x.buf.length)
    let all := x.buf ++ more
    upd (fun s => setBuf s c (all.drop n))
    return all.take n

/-- The bytes of a descriptor as they reach its destination: as read, or undefined where its ranges overlap (R513). -/
def destBytes (d : Desc) (b : List Byte) : Op (List Byte) :=
  if !d.fill && rangesMeet d.src d.len d.dst d.len then freeBytes b.length else pure b

/-- What a channel's writes leave: its progress, its host writes to flush, its tap fed, what is counted (R514, R520). -/
def noteMoved (s : State) (c : Nat) (d : Desc) (b : List Byte) (host : Bool) : State :=
  let x := s.slu c
  let n := b.length
  let s1 := s.setSlu c (fun x => { x with unflushed := x.unflushed || host, wrote := x.wrote + n, burst := x.burst - n })
  let s2 := stageTap s1 x.ctx (if d.fill then [] else b)
  let s3 := match x.job with
    | some (id, _) => if host then s2.setJob id (fun j => { j with hostWrote := true }) else s2
    | none => s2
  (s3.setFld F.sluChStatus_written c (x.wrote + n)).countReq (chanReq s c) 0xE00 n

/-- The next n bytes of a channel's descriptor moved: read, as far as the buffer does not hold them, and written. -/
def moveBytes (io : RegIo) (c : Nat) (d : Desc) (n : Nat) : Op Unit := do
  let b ← nextBytes io c d n
  let out ← destBytes d b
  let s ← get
  let x := s.slu c
  let host ← chanStore io (chanReq s c) x.job.isNone (d.dst + x.wrote) out
  upd (fun s => noteMoved s c d b host)

/-- A channel's read-ahead (R509): speculative, up to 4,096 bytes beyond the last byte written and not beyond the descriptor; where it
meets a fault it is dropped (13 R456). -/
def readAhead (io : RegIo) (s : State) (c : Nat) (d : Desc) : State :=
  let x := s.slu c
  let n := min d.len (x.wrote + 4096) - (x.wrote + x.buf.length)
  if d.fill || n = 0 then s
  else match (chanFetch io { chanReq s c with spec := true } x.job.isNone (d.src + x.wrote + x.buf.length) n).exec s with
  | (.ok b, s1) => setBuf s1 c (x.buf ++ b)
  | (.error _, s1) => s1

/-- The bytes of a descriptor still to be written. -/
def leftOf (s : State) (c : Nat) (d : Desc) : Nat := d.len - (s.slu c).wrote

/-- The rest of a channel's descriptor moved, burst by burst (R522). -/
def moveRest (io : RegIo) (c : Nat) (d : Desc) : Nat → Op Unit
  | 0 => pure ()
  | fuel + 1 => do
    let s ← get
    let n := min 512 (leftOf s c d)
    if n ≠ 0 then
      moveBytes io c d n
      moveRest io c d fuel

/-- The whole of what a channel's descriptor has left moved. -/
def moveDesc (io : RegIo) (c : Nat) (d : Desc) : Op Unit := do
  let s ← get
  moveRest io c d (leftOf s c d / 512 + 1)

/-- A channel's tap ends: its context is free. -/
def endTap (s : State) (c : Nat) : State :=
  let s1 := match (s.slu c).ctx with
    | some n => s.setCtx n none
    | none => s
  s1.setSlu c (fun x => { x with ctx := none })

/-- A fault of a MANAGER channel (R530). -/
def chanFault (s : State) (c : Nat) (o : Outc) : State :=
  let s1 := if s.flag F.sluChErr_valid c then s else
    (s.setReg .sluChErr c (2 ^ 63 + o.status * 2 ^ 32 + o.detail % 2 ^ 16 * 2 ^ 16)).setReg .sluChErrAddr c (o.result % 2 ^ 48)
  let s2 := (setBuf s1 c []).setFld F.sluChStatus_state c 6 |>.setSlu c (fun x => { x with mover := none, descs := [], moved := false, burst := 0 })
  (endTap s2 c).devEvent 0x1002 (o.status * 2 ^ 16 + c)

/-- A POOL channel's task ends on it: the channel is idle, its context free. -/
def chanRelease (s : State) (c : Nat) : State :=
  chanIdle (endTap s c) c

/-- A task ends at its boundary without completing (04 R129): it leaves the task slots. -/
def dropTask (s : State) (id part : Nat) : State := fanCounts (dropTasks s (fun t => t.job == id && t.part == part))

/-- A fault of a POOL channel's job (R530). -/
def chanJobFault (s : State) (c id part : Nat) (e : Err) : State :=
  dropTask (failJob (chanRelease s c) id e.toOutc) id part

/-- The SHADOW set as a descriptor. -/
def shadowDesc (s : State) (c : Nat) : Desc :=
  let f := s.fld F.sluShdCtrl_flags c
  { src := s.reg .sluShdSrc c, dst := s.reg .sluShdDst c, len := s.fld F.sluShdLen_length c, tap := s.fld F.sluShdTap_tap c,
    barrier := bitAt f 0, fill := bitAt f 1, notify := bitAt f 2 }

/-- Whether an armed shadow can start: the context of its tap, where it bears one, is free (12 R415, R435). -/
def shadowReady (s : State) (c : Nat) : Bool := (shadowDesc s c).tap == 0 || (freeCtx s).isSome

/-- The shadow is copied into the ACTIVE set and its descriptor starts (R527). -/
def swapShadow (s : State) (c : Nat) : State :=
  let d := shadowDesc s c
  let s1 := (chanStart s c 2 (s.fld F.sluChCfg_level c) 0).setFlag F.sluChStatus_shadow_armed c false
  let (ctx, s2) := match (if d.tap = 0 then none else grantTap s1 0 none (tapAlg d.tap) ⟨tapSlot d.tap, 4, 0⟩) with
    | some (n, t) => (some n, t)
    | none => (none, s1)
  loadActive (s2.setSlu c (fun x => { x with job := none, descs := [d], moved := false, mover := none, line := none, ctx := ctx })) c d

/-- An armed shadow starts; one whose tap finds no context free stays armed (12 R435). -/
def startShadow (s : State) (c : Nat) : State :=
  if shadowReady s c then swapShadow s c else (s.setFlag F.sluChStatus_shadow_armed c true).setFld F.sluChStatus_state c 0

/-- The armed shadows of idle MANAGER channels start where their taps' contexts have become free (12 R435). -/
def startArmed (s : State) : State :=
  ((List.range 32).filter (fun c => isManager s c && chanState s c == 0 && s.flag F.sluChStatus_shadow_armed c)).foldl startShadow s

/-- Where a MANAGER channel goes after a descriptor (R527 to R529). -/
def managerNext (s : State) (c : Nat) : State :=
  let s2 := (endTap s c).setSlu c (fun x => { x with descs := [], moved := false, mover := none })
  if chanState s2 c = 4 then s2.setFld F.sluChStatus_state c 5
  else if s2.flag F.sluChStatus_shadow_armed c then startShadow s2 c
  else (s2.setFld F.sluChStatus_state c 0).setFld F.sluChStatus_source c 0

/-- A MANAGER channel's descriptor ends once its tap is absorbed (R420, R517, R527): the tap record in slice 0's table, its event, and
what the channel does next. -/
def managerEnd (s : State) (c : Nat) (d : Desc) : State :=
  if !tapDone s (s.slu c).ctx then s
  else match (recordTap { slice := 0, agent := .toll } none 0 (s.slu c).ctx).exec s with
  | (.error e, s2) => chanFault s2 c e.toOutc
  | (.ok _, s2) => managerNext (if d.notify then s2.devEvent 0x1001 (s2.reg .sluChDone c % 2 ^ 32 * 2 ^ 32 + c) else s2) c

/-- A channel's descriptor completes (R517, R519, R521, R527): counted and reported; the next one starts, or the channel's
work ends, for a tapped one once its tap is absorbed. -/
def descDone (s : State) (c : Nat) (d : Desc) : State :=
  let s1 := ((s.addWrap F.sluChDone_count c 1).countReq (chanReq s c) 0xE01 1).setSlu c (fun x => { x with mover := none, moved := false })
  let ctx := (s1.slu c).ctx
  match (s1.slu c).job with
  | none => managerEnd ((closeTap s1 ctx).setSlu c (fun x => { x with moved := true })) c d
  | some (id, part) =>
    let s2 := s1.setJob id (fun j => { j with sumHi := j.sumHi + 1, sumLo := j.sumLo + d.len })
    let rest := (s2.slu c).descs.drop 1
    if !(s2.task id part).any (fun t => !t.stop) then dropTask (chanRelease s2 c) id part
    else match rest with
    | n :: _ => loadActive ((s2.setSlu c (fun x => { x with descs := rest })).setFld F.sluChStatus_state c 1) c n
    | [] => if ctx.isSome then closeTap (s2.setSlu c (fun x => { x with descs := [] })) ctx else chanRelease s2 c

/-- Whether a core can take a turn on a context: its next whole block is staged, or stands in memory, or its message ends (R416). -/
def ctxReady (s : State) (n : Nat) : Bool :=
  match s.ctx n with
  | none => false
  | some c =>
    c.hash.full || (match c.job with
      | some (id, part) =>
        match s.job id with
        | some j => c.tap.isNone && (j.hdr.op == 0x0400 || j.hdr.op == 0x0401) && !c.closed && j.outc.isNone &&
            (decide (blockNeed c ≤ dgLeft j c) || !dgHold j) && chanFlows s id part
        | none => false
      | none => false)

/-- The next ready context in round-robin order (R416). -/
def nextCtx (s : State) : Option Nat :=
  ((List.range 32).map (fun i => (s.units.lastCtx + 1 + i) % 32)).find? (ctxReady s)

/-- A DMA-mode job's next block staged (R416, R423): a whole one, or what is left of the message with its padding. -/
def stageBlock (j : Job) (n : Nat) (c : TollCtx) : Op TollCtx := do
  if c.hash.full then pure c
  else if blockNeed c ≤ dgLeft j c then stageMore j n (blockNeed c) c
  else return (← stageMore j n (dgLeft j c) c).close

/-- A core's turn on a context taken. A MANAGER channel's descriptor ends with the last block of its tap. -/
def ctxTurn (s : State) (n : Nat) (c : TollCtx) : State :=
  let s1 := (s.setCtx n (some c.turn)).count ⟨0xD00, 1, some c.slice, none, none⟩
  match s1.units.chans.find? (fun x => x.2.ctx == some n && x.2.job.isNone) with
  | some (k, x) => if x.moved then managerEnd s1 k (x.descs.headD ⟨0, 0, 0, 0, false, false, false⟩) else s1
  | none => s1

/-- A core absorbs one block of the next ready context (R413, R416, R423). -/
def blockAbsorb (s : State) : State :=
  match nextCtx s with
  | none => s
  | some n =>
    let s0 := { s with units := { s.units with lastCtx := n } }
    match s.ctx n with
    | none => s
    | some c =>
      match (c.job.bind (fun x => s.job x.1)).filter (fun _ => c.tap.isNone) with
      | none => ctxTurn s0 n c
      | some j =>
        match (stageBlock j n c).exec s0 with
        | (.error e, s1) => failJob (s1.setCtx n none) j.id e.toOutc
        | (.ok c1, s1) => ctxTurn s1 n c1

/-- A descriptor has been moved: a BARRIER descriptor waits for its flush read where host writes are not flushed (R520). -/
def descBarrier (s : State) (c : Nat) (d : Desc) : State :=
  if d.barrier && (s.slu c).unflushed then
    ((hostRequest (s.setSlu c (fun x => { x with flushing := true, moved := true, mover := none })) (some (chanReq s c).slice)).countReq
      (chanReq s c) 0x905 1).countReq (chanReq s c) 0xE04 1
  else descDone s c d

/-- Whether a channel serves a job of a slice that is being reset: its writes are of an old generation (17 R541). -/
def chanCut (s : State) (c : Nat) : Bool :=
  (s.slu c).job.any (fun y => (s.job y.1).any (fun j => s.fld F.slcCfg_state j.slice == 3))

/-- The next n bytes of a descriptor of an old generation: the writes are dropped, each counted as discarded (17 R543), one for each
line. -/
def cutWrites (s : State) (c : Nat) (d : Desc) (n : Nat) : State :=
  let s1 := (chunks (lineFuel n) (d.dst + (s.slu c).wrote) n).foldl (fun t _ => lateDiscard t (chanReq s c).slice) s
  s1.setSlu c (fun x => { x with wrote := x.wrote + n, burst := x.burst - n })

/-- A fault of a channel's access (R530). -/
def chanStops (s : State) (c : Nat) (e : Err) : State :=
  match (s.slu c).job with
  | some (id, part) => chanJobFault s c id part e
  | none => chanFault s c e.toOutc

/-- A burst of a channel's descriptor moved: n bytes, and its read-ahead (R509, R522). A mover whose channel has written its whole
descriptor is free. -/
def moveBurst (io : RegIo) (s : State) (c : Nat) (d : Desc) (n : Nat) : State :=
  let after (t : State) : State := if leftOf t c d = 0 then t.setSlu c (fun x => { x with mover := none }) else t
  if chanCut s c then after (cutWrites s c d n)
  else match (moveBytes io c d n).exec s with
  | (.ok _, s1) => after (readAhead io s1 c d)
  | (.error e, s1) => chanStops s1 c e

/-- A descriptor's reads have returned and its writes been accepted (R519): of a channel with a mover, of one that has written it all,
or a descriptor of no bytes. The writes of a slice's old generation are dropped, and its task ends here (17 R541). -/
def descriptorComplete (io : RegIo) (s : State) (c : Nat) : State :=
  let x := s.slu c
  match x.descs with
  | [] => s
  | d :: _ =>
    let st := chanState s c
    let n := leftOf s c d
    if x.flushing || x.moved || !(st == 1 || st == 4) || (n != 0 && x.mover.isNone) then s
    else if chanCut s c then dropTask (chanRelease (cutWrites s c d n) c) ((x.job.map Prod.fst).getD 0) ((x.job.map Prod.snd).getD 0)
    else match (moveDesc io c d).exec s with
    | (.ok _, s1) => descBarrier s1 c d
    | (.error e, s1) => chanStops s1 c e

/-- The descriptors that a reset ends at their boundary (R531): each one in progress issues what it has left. -/
def finishDescs (io : RegIo) (s : State) : State :=
  s.units.chans.foldl (fun t x => match x.2.descs with
    | d :: _ => if chanCut t x.1 then t else ((moveDesc io x.1 d).exec t).2
    | [] => t) s

/-- A channel's flush read completes (R520). -/
def chanFlushDone (s : State) (c : Nat) : State :=
  let x := s.slu c
  match x.descs with
  | d :: _ => if x.flushing then descDone (s.setSlu c (fun x => { x with flushing := false, unflushed := false })) c d else s
  | [] => s

/-- Whether a channel has a beat ready (R522): work to move, and its line asserted or its burst started (R524). -/
def beatReady (s : State) (c : Nat) : Bool :=
  let x := s.slu c
  let st := chanState s c
  (st == 1 || st == 3 || st == 4) && !x.flushing && (x.burst != 0 || lineUp s x.line) &&
    (match x.descs with
      | d :: _ => leftOf s c d != 0 && !x.moved
      | [] => x.line.isSome)

/-- The channel that holds a mover. -/
def moverOwner (s : State) (m : Nat) : Option Nat := (s.units.chans.find? (fun x => x.2.mover == some m)).map Prod.fst

/-- A channel's level in force. -/
def chanLevel (s : State) (c : Nat) : Nat := s.fld F.sluChStatus_level c

/-- The bytes of a channel's next burst: 512, or the rest of the descriptor (R522). -/
def burstOf (s : State) (c : Nat) : Nat :=
  match (s.slu c).descs with
  | d :: _ => min 512 (leftOf s c d)
  | [] => 512

/-- A mover given to a channel: it starts a burst, or goes on with the one that it was preempted in (R522, R523). -/
def giveMover (s : State) (c m : Nat) : State :=
  let n := burstOf s c
  let s1 := s.setSlu c (fun x => { x with mover := some m, burst := if x.burst = 0 then n else x.burst })
  let s2 := if chanState s1 c = 3 then s1.setFld F.sluChStatus_state c 1 else s1
  { s2 with units := { s2.units with grants := c :: s2.units.grants.filter (· != c) } }

/-- A channel loses its mover; one that is STOPPING stays so (R529). -/
def loseMover (s : State) (c st : Nat) : State :=
  (s.setSlu c (fun x => { x with mover := none })).setFld F.sluChStatus_state c (if chanState s c = 4 then 4 else st)

/-- Channels at the start of a burst, whose line is deasserted, enter WAIT_REQUEST and give up the mover (R524). -/
def sampleLines (s : State) : State :=
  (s.units.chans.filter (fun x => chanState s x.1 == 1 && x.2.burst == 0 && !lineUp s x.2.line)).foldl (fun t x => loseMover t x.1 2) s

/-- The ready channel of the highest level, ties in round-robin order after the channel granted last (R522). -/
def nextGrant (s : State) (m : Nat) : Option Nat :=
  let last := s.units.grants.headD 31
  let order := (List.range 32).map (fun i => (last + 1 + i) % 32)
  (order.filter (fun c => beatReady s c && ((s.slu c).mover.isNone || (s.slu c).mover == some m))).foldl (fun best c => match best with
    | some b => if chanLevel s b < chanLevel s c then some c else some b
    | none => some c) none

/-- The burst that a mover's channel has in progress runs to its end, whatever its line does (R522, R524). -/
def endBurst (io : RegIo) (s : State) (m : Nat) : State :=
  match moverOwner s m with
  | none => s
  | some o =>
    let x := s.slu o
    match x.descs with
    | d :: _ => if x.moved || x.flushing then s else moveBurst io s o d (min x.burst (leftOf s o d))
    | [] => s.setSlu o (fun x => { x with burst := 0 })

/-- A mover that is free, or whose channel's burst has run to its end, is granted (R522). -/
def grantNext (s : State) (m : Nat) : State :=
  match nextGrant s m with
  | none => s
  | some c =>
    match moverOwner s m with
    | some o => if o = c then giveMover s c m else giveMover (loseMover s o 3) c m
    | none => giveMover s c m

/-- MOVER_GRANT (R522): the mover's burst ends, the lines are sampled, and the mover goes to the ready channel of the highest level. -/
def moverGrant (io : RegIo) (s : State) (m : Nat) : State :=
  if 4 ≤ m then s else grantNext (sampleLines (startTransfers (startArmed (endBurst io s m)))) m

/-- The channel that a pre-empting channel takes the mover of: the lowest level below its own, and of those the one
granted most recently (R522). -/
def preemptVictim (s : State) (c : Nat) : Option (Nat × Nat) :=
  let held := s.units.grants.filterMap (fun o => ((s.slu o).mover).map (fun m => (o, m)))
  (held.filter (fun x => decide (chanLevel s x.1 < chanLevel s c))).foldl (fun best x => match best with
    | some b => if chanLevel s x.1 < chanLevel s b.1 then some x else some b
    | none => some x) none

/-- A preempted channel has written some beats of 64 bytes of the burst that it is in (R522, R523). -/
def moveBeats (io : RegIo) (s : State) (o beats : Nat) : State :=
  let x := s.slu o
  let n := min (64 * beats) x.burst
  match x.descs with
  | d :: _ => if x.moved || x.flushing || n = 0 then s else moveBurst io s o d (min n (leftOf s o d))
  | [] => s.setSlu o (fun x => { x with burst := x.burst - n })

/-- A HIGH or URGENT channel with a beat ready and no mover free takes a lower channel's at its next beat boundary (R522, R523), after
some beats. -/
def moverPreempt (io : RegIo) (s : State) (c beats : Nat) : State :=
  let free := (List.range 4).any (fun m => (moverOwner s m).isNone)
  if free || !beatReady s c || (s.slu c).mover.isSome || decide (chanLevel s c < 2) then s
  else match preemptVictim s c with
  | none => s
  | some (o, m) =>
    let s1 := moveBeats io s o beats
    if (s1.slu o).mover = some m then (giveMover (loseMover s1 o 3) c m).countReq (chanReq s c) 0xE02 1 else giveMover s1 c m

/-- A request line changes level; a channel that waits for a rising line runs again (R524, R525). -/
def requestLine (s : State) (l : Nat) (up : Bool) : State :=
  let s1 := { s with units := { s.units with lines := tset (fun _ => true) s.units.lines l up } }
  if up then
    (s1.units.chans.filter (fun x => x.2.line == some l && chanState s1 x.1 == 2)).foldl (fun t x => t.setFld F.sluChStatus_state x.1 1) s1
  else s1

/-- The error bit of a channel. -/
def chanError (s : State) (c : Nat) : State := s.setFlag F.sluChStatus_error c true

/-- arm (R527). -/
def armChannel (s : State) (c : Nat) : State :=
  if !isManager s c || descBad s 0 (shadowDesc s c) || decide (16777216 < s.fld F.sluShdLen_length c) then chanError s c
  else if chanState s c = 0 then startShadow s c
  else s.setFlag F.sluChStatus_shadow_armed c true

/-- stop (R529). -/
def stopChannel (s : State) (c : Nat) : State :=
  if !isManager s c then chanError s c
  else match chanState s c with
  | 1 => s.setFld F.sluChStatus_state c 4
  | 0 => s.setFld F.sluChStatus_state c 5
  | 3 => s.setFld F.sluChStatus_state c 4
  | _ => chanError s c

/-- resume (R529). -/
def resumeChannel (s : State) (c : Nat) : State :=
  if !isManager s c then chanError s c
  else match chanState s c with
  | 5 | 6 => if s.flag F.sluChStatus_shadow_armed c then startShadow s c
      else (s.setFld F.sluChStatus_state c 0).setFld F.sluChStatus_source c 0
  | _ => chanError s c

/-- A write of SLU_CH_CTL (Table 16.7). -/
def sluCtlWrite (s : State) (c v : Nat) : State :=
  let s1 := if bitAt v 30 then s.setFlag F.sluChStatus_shadow_armed c false else if bitAt v 31 then armChannel s c else s
  let s2 := if bitAt v 29 then stopChannel s1 c else s1
  if bitAt v 28 then resumeChannel s2 c else s2

/-- A write of SLU_CH_CFG (R526). -/
def sluCfgWrite (s : State) (c v : Nat) : State :=
  if chanState s c = 0 ∧ s.flag F.sluChStatus_shadow_armed c = false then
    (s.setFlag F.sluChCfg_manager c (bitAt v 31)).setFld F.sluChCfg_level c v
  else chanError s c

/-- A write of a SHADOW register (R526). -/
def shadowWrite (s : State) (r : Reg) (c v : Nat) : State :=
  if s.flag F.sluChStatus_shadow_armed c then chanError s c else s.setReg r c v

/-- SLU_BUSY (Table 16.12). -/
def sluBusy (s : State) : Nat :=
  (List.range 32).foldl (fun m c => m + boolNat (chanState s c != 0 && chanState s c != 5) * 2 ^ c) 0

end Sys2Proof.Machine
end

