-- ==== Sys2Proof/Machine/Quern.lean ====
section
/-! DEFINITION. The Querns: the Alkiush block format, COMPRESS and DECOMPRESS (11 R389 to R411). -/

namespace Sys2Proof.Machine

/-- Why a block is refused: its status and the offset from its first header byte (Table 11.4). -/
abbrev BlockErr := Nat × Nat

abbrev stDistance : Nat := 0x42

/-- The bits of a payload, least significant bit of each byte first (R391). -/
def blockBits (b : List Byte) : List Bool := b.flatMap (fun x => (List.range 8).map (fun i => bitAt x.toNat i))

/-- The number that a list of bits spells, least significant first. -/
def bitsNat : List Bool → Nat
  | [] => 0
  | b :: bs => boolNat b + 2 * bitsNat bs

/-- Code lengths, 4 bits each (R392). -/
def codeLens : Nat → List Bool → List Nat
  | 0, _ => []
  | n + 1, bs => bitsNat (bs.take 4) :: codeLens n (bs.drop 4)

/-- Whether a set of code lengths is a single code of length 1 (R394). -/
def singleCode (ls : List Nat) : Bool := ls.filter (· != 0) == [1]

/-- Whether a set of code lengths is valid (R394). -/
def lensValid (ls : List Nat) : Bool :=
  singleCode ls || ((ls.filter (· != 0)).map (fun l => 2 ^ (15 - l))).sum == 2 ^ 15

/-- The symbols of a length, in increasing order. -/
def symbolsOf (ls : List Nat) (len : Nat) : List Nat :=
  (((List.range ls.length).zip ls).filter (fun x => x.2 == len)).map Prod.fst

/-- How the reading of a code ends. -/
inductive CodeRead where
  | symbol (s used : Nat)
  | nothing
  | out
  deriving DecidableEq, Repr

/-- A canonical code read bit by bit (R391, R393): code the bits read so far, first the first code of the length. -/
def readCode (ls : List Nat) : Nat → Nat → Nat → Nat → List Bool → CodeRead
  | 0, _, _, _, _ => .nothing
  | _ + 1, _, _, _, [] => .out
  | fuel + 1, len, code, first, b :: bs =>
    let code1 := 2 * code + boolNat b
    let ss := symbolsOf ls len
    if code1 < first + ss.length ∧ first ≤ code1 then .symbol (ss.getD (code1 - first) 0) len
    else if singleCode ls then .nothing
    else readCode ls fuel (len + 1) code1 (2 * (first + ss.length)) bs

/-- A code of an alphabet at the front of the bits. -/
def nextCode (ls : List Nat) (bs : List Bool) : CodeRead := readCode ls 15 1 0 0 bs

/-- A length symbol's extra bits and base (Table 11.2). -/
def lenBase (c : Nat) : Nat × Nat := if c < 16 then (0, 4 + c) else (c - 12, 4 + 2 ^ (c - 12))

/-- A distance symbol's extra bits and base (Table 11.2). -/
def distBase (d : Nat) : Nat × Nat := if d < 4 then (0, 1 + d) else (d - 2, 1 + 2 ^ (d - 2))

/-- A copy of n bytes from a distance, byte by byte, onto an output held last byte first (R395). -/
def copyBack : Nat → Nat → List Byte → List Byte
  | 0, _, out => out
  | n + 1, dist, out => copyBack n dist (out.getD (dist - 1) 0 :: out)

/-- The check of a payload's end (R392, Table 11.4): the bits after END up to its byte's end are 0, and no byte follows. -/
def padCheck (pos : Nat) (bs : List Bool) : Option BlockErr :=
  let k := (8 - pos % 8) % 8
  if (bs.take k).any id then some (stBadCode, 16 + pos / 8)
  else if (bs.drop k).isEmpty then none else some (stBadCode, 16 + (pos + k) / 8)

/-- The symbols of a payload (R395, R407): pos the bits read, out the output, last byte first. -/
def decodeSymbols (ll dl : List Nat) (orig comp : Nat) : Nat → Nat → List Bool → List Byte → Except BlockErr (List Byte)
  | 0, _, _, _ => .error (stTruncated, 16 + comp)
  | fuel + 1, pos, bs, out =>
    let here := 16 + pos / 8
    match nextCode ll bs with
    | .out => .error (stTruncated, 16 + comp)
    | .nothing => .error (stBadCode, here)
    | .symbol s used =>
      let bs1 := bs.drop used
      if s < 256 then
        if orig ≤ out.length then .error (stOverrun, here)
        else decodeSymbols ll dl orig comp fuel (pos + used) bs1 (BitVec.ofNat 8 s :: out)
      else if s = 256 then
        if out.length < orig then .error (stTruncated, here)
        else match padCheck (pos + used) bs1 with
        | some e => .error e
        | none => .ok out.reverse
      else
        let (xb, base) := lenBase (s - 257)
        if dl.all (· == 0) then .error (stBadCode, here)
        else if bs1.length < xb then .error (stTruncated, 16 + comp)
        else
          let n := base + bitsNat (bs1.take xb)
          let bs2 := bs1.drop xb
          let dpos := pos + used + xb
          match nextCode dl bs2 with
          | .out => .error (stTruncated, 16 + comp)
          | .nothing => .error (stBadCode, 16 + dpos / 8)
          | .symbol d usedD =>
            let bs3 := bs2.drop usedD
            let (yb, dbase) := distBase d
            if bs3.length < yb then .error (stTruncated, 16 + comp)
            else
              let dist := dbase + bitsNat (bs3.take yb)
              if out.length < dist then .error (stDistance, 16 + dpos / 8)
              else if orig < out.length + n then .error (stOverrun, here)
              else decodeSymbols ll dl orig comp fuel (dpos + usedD + yb) (bs3.drop yb) (copyBack n dist out)

/-- A CODED payload decoded (R392 to R395). -/
def decodePayload (orig : Nat) (p : List Byte) : Except BlockErr (List Byte) :=
  let bs := blockBits p
  if bs.length < 1228 then .error (stTruncated, 16 + p.length)
  else
    let ll := codeLens 287 bs
    let dl := codeLens 20 (bs.drop 1148)
    if !lensValid ll || ll.getD 256 0 == 0 || !(lensValid dl || dl.all (· == 0)) then .error (stBadCode, 16)
    else decodeSymbols ll dl orig p.length bs.length 1228 (bs.drop 1228) []

/-- A block's header checked (R389, Table 11.4): the first offending field. -/
def blockHead (h : List Byte) : Option Nat :=
  let mode := leAt h 2 1
  let orig := leAt h 4 4
  let comp := leAt h 8 4
  if leAt h 0 2 ≠ 0x4B41 then some 0
  else if leAt h 3 1 ≠ 1 then some 3
  else if 2 ≤ mode then some 2
  else if orig = 0 ∨ 262144 < orig then some 4
  else if (mode = 0 ∧ comp ≠ orig) ∨ (mode = 1 ∧ (comp = 0 ∨ orig ≤ comp)) then some 8
  else none

/-- A block's original bytes from its header and payload (R390, R407, R408). -/
def decodeBlock (h p : List Byte) : Except BlockErr (List Byte) :=
  let orig := leAt h 4 4
  let out := if leAt h 2 1 = 0 then .ok p else decodePayload orig p
  match out with
  | .error e => .error e
  | .ok b => if crc32c b = leAt h 12 4 then .ok b else .error (stMismatch, 12)

/-- A block's header bytes. -/
def blockHeader (mode : Nat) (orig : List Byte) (comp : Nat) : List Byte :=
  natLE 2 0x4B41 ++ natLE 1 mode ++ natLE 1 1 ++ natLE 4 orig.length ++ natLE 4 comp ++ natLE 4 (crc32c orig)

/-- The block that the device writes for original bytes (R399, R402): CODED where its compressor's payload obeys the format
and is shorter, else STORED; whether it is CODED. -/
def encodeBlock (orig : List Byte) : List Byte × Bool :=
  let p := Config.codePayload orig
  let good := decide (0 < p.length ∧ p.length < orig.length) && (match decodePayload orig.length p with
    | .ok b => b == orig
    | .error _ => false)
  if good then (blockHeader 1 orig p.length ++ p, true) else (blockHeader 0 orig orig.length ++ orig, false)

/-- refuse. -/
def qRefuse (j : Job) : Bool := bitAt (eParam0 j.first) 9

/-- A Quern. -/
def State.quern (s : State) (q : Nat) : Option Quern := tget (fun _ => none) s.units.querns q

/-- A Quern set. -/
def State.setQuern (s : State) (q : Nat) (x : Option Quern) : State :=
  { s with units := { s.units with querns := tset (fun _ => none) s.units.querns q x } }

/-- A tap of no bytes is recorded at once; a SLOTTED job of no blocks uses no slot (R397, R398, 12 R419, R420). -/
def emptyTap (s : State) (j : Job) : State :=
  match tapAsk j 0, qSlotted j with
  | some (alg, t), false =>
    match (writeTap (j.req .toll) (some j.id) (digestOf alg []) 0 alg j.hdr.tag t).exec s with
    | (.ok _, s1) => okJob s1 j.id 0
    | (.error e, s1) => failJob s1 j.id e.toOutc
  | _, _ => okJob s j.id 0

/-- COMPRESS starts (R397, R398, R400). -/
def compressOp (s : State) (id : Nat) : State :=
  match startJob s id 0x0300 with
  | none => s
  | some j =>
    if eLen0 j.first = 0 then emptyTap s j
    else if !qSlotted j then setTasks s id 1
    else if eLen1 j.first < qCount j * qSlot j then finishJob s id ⟨stShort, 1, qCount j * qSlot j⟩
    else setTasks s id (qCount j)

/-- DECOMPRESS starts (R403, R404). -/
def decompressOp (s : State) (id : Nat) : State :=
  match startJob s id 0x0301 with
  | none => s
  | some j =>
    let n := eLen0 j.first
    if n = 0 then emptyTap s j
    else if n < 16 then finishJob s id ⟨stShort, 0, 16⟩
    else setTasks s id (if qSlotted j then qCount j else 1)

/-- A Quern is freed. -/
def freeQuern (s : State) (q : Nat) : State :=
  match s.quern q with
  | none => s
  | some x =>
    let s1 := match x.ctx with
      | some n => s.setCtx n none
      | none => s
    freeEngineChan (s1.setQuern q none) x.job x.part

/-- A block's totals join the job's (R401, R406). -/
def addTotals (s : State) (id n : Nat) : State := s.setJob id (fun j => { j with sumHi := j.sumHi + 1, sumLo := j.sumLo + n })

/-- A block's failure as an outcome (R407): the block's index and the offset. -/
def blockFail (idx : Nat) (e : BlockErr) : Outc := ⟨e.1, 0, idx * 2 ^ 32 + e.2⟩

/-- The bytes of a block that a job's tap takes, by its point (12 Table 12.2): its input or its output. -/
def tapBytes (j : Job) (inp out : List Byte) : List Byte := if tapPoint (qTap j) = 0 then inp else out

/-- A block coded into a staging buffer (R397, R399, R410, R411). -/
def codeBlock (j : Job) (q : Nat) (x : Quern) : Op Staged := do
  let r := j.req (.quern q)
  let off := x.next * qBlock j
  let n := min (qBlock j) (eLen0 j.first - off)
  let orig ← readMem r (eAddr0 j.first + off) n
  let (blk, coded) := encodeBlock orig
  upd (fun s => (s.countReq r 0xC04 n).countReq r (if coded then 0xC00 else if qRefuse j then 0xC02 else 0xC01) 1)
  if !coded && qRefuse j then throw (.outc ⟨0x32, 0, 0⟩)
  pure { out := blk, tapped := tapBytes j orig blk, used := n, fault := none }

/-- A block decoded into a staging buffer (R404 to R408, R411). -/
def unblock (j : Job) (q : Nat) (x : Quern) : Op Staged := do
  let r := j.req (.quern q)
  let src := if qSlotted j then x.next * qSlot j else x.src
  let within := eLen0 j.first - src
  let avail := if qSlotted j then min within (qSlot j) else within
  let fail (e : BlockErr) : Op Unit := throw (.outc (blockFail x.next e))
  if avail < 16 then fail (stTruncated, avail)
  let h ← readMem r (eAddr0 j.first + src) 16
  match blockHead h with
  | some o => fail (stBadHeader, o)
  | none => pure ()
  let orig := leAt h 4 4
  let last := decide (qCount j ≤ x.next + 1)
  if qSlotted j && (if last then decide (qBlock j < orig) else orig != qBlock j) then fail (stBadHeader, 4)
  let comp := leAt h 8 4
  if avail < 16 + comp then fail (stTruncated, avail)
  let p ← readMem r (eAddr0 j.first + src + 16) comp
  match decodeBlock h p with
  | .error e => throw (.outc (blockFail x.next e))
  | .ok out => do
    upd (fun s => (s.countReq r 0xC03 1).countReq r 0xC04 (16 + comp))
    pure { out := out, tapped := tapBytes j (h ++ p) out, used := 16 + comp, fault := none }

/-- Whether a task has a further block to stage (R397, R398, R404): none follows a block that fails. -/
def moreBlocks (j : Job) (x : Quern) : Bool :=
  x.bufs.all (fun b => b.fault.isNone) && (if qSlotted j then x.next == x.part
    else if j.hdr.op = 0x0301 then decide (x.src < eLen0 j.first) else decide (x.next < qCount j))

/-- The next block fills a staging buffer that is free (R411). -/
def fillStaging (s : State) (q : Nat) : State :=
  match s.quern q with
  | none => s
  | some x =>
    match s.job x.job with
    | none => s
    | some j =>
      if 2 ≤ x.bufs.length || !moreBlocks j x then s
      else
        let (b, s1) := match (if j.hdr.op = 0x0301 then unblock j q x else codeBlock j q x).exec s with
          | (.ok b, s1) => (b, s1)
          | (.error e, s1) => ({ out := [], tapped := [], used := 0, fault := some (e.toOutc.status, e.toOutc.detail, e.toOutc.result) }, s1)
        s1.setQuern q (some { x with next := x.next + 1, src := x.src + b.used, bufs := x.bufs ++ [b] })

/-- A Quern takes a task of its mill, and fills its first staging buffer (R411). -/
def quernDispatch (s : State) (j : Job) (part q : Nat) : State :=
  match takeEngineChan s j part q .quern with
  | none => s
  | some s1 =>
    let i := if qSlotted j then part else 0
    fillStaging (s1.setQuern q (some { job := j.id, part := part, block := i, next := i, src := 0, dst := 0, bufs := [],
                                       ctx := (ctxOfJob s1 j.id part).map Prod.fst, ended := false })) q

/-- A staged block's output written (R398, R400, R404, R405). -/
def writeStaged (j : Job) (q : Nat) (x : Quern) (b : Staged) : Op Unit := do
  let stride := if j.hdr.op = 0x0301 then qBlock j else qSlot j
  let dst := if qSlotted j then x.block * stride else x.dst
  if eLen1 j.first < dst + b.out.length then throw (.outc ⟨stFull, 0, 0⟩)
  jobWrite j.id (j.req (.quern q)) (eAddr1 j.first + dst) b.out
  upd (fun s => s.countReq (j.req (.quern q)) 0xC05 b.out.length)

/-- QRN_ERR and QRN_ERR_CTX take a decompression error (R409). -/
def quernError (s : State) (q : Nat) (j : Job) (o : Outc) : State :=
  let s1 := s.countReq (j.req (.quern q)) 0xC06 1
  if s.flag F.qrnErr_valid q then s1
  else (s1.setReg .qrnErr q (2 ^ 63 + o.status * 2 ^ 32 + o.result % 2 ^ 32)).setReg .qrnErrCtx q
    (j.slice * 2 ^ 58 + j.hdr.tag * 2 ^ 32 + o.result / 2 ^ 32 % 2 ^ 32)

/-- Whether an outcome is one of Table 11.4's. -/
def isBlockErr (o : Outc) : Bool := decide (0x40 ≤ o.status ∧ o.status ≤ 0x45)

/-- A staged block's work (R411, R418): its output is written and its tap fed; the stream ends with the last block. -/
def stagedWork (j : Job) (q : Nat) (x : Quern) (b : Staged) (rest : List Staged) : Op Unit := do
  match b.fault with
  | some f => throw (.outc ⟨f.1, f.2.1, f.2.2⟩)
  | none => pure ()
  writeStaged j q x b
  let x1 := { x with block := x.block + 1, dst := x.dst + b.out.length, bufs := rest, ended := rest.isEmpty }
  upd (fun s =>
    let s1 := stageTap (addTotals (s.setQuern q (some x1)) j.id b.out.length) x.ctx b.tapped
    if rest.isEmpty then closeTap s1 x.ctx else s1)

/-- A Quern has a whole block in a staging buffer (R411): the next block fills the other, and the block's output is written, or the job
fails. -/
def blockStaged (s : State) (q : Nat) : State :=
  match s.quern q with
  | none => s
  | some x =>
    match s.job x.job, s.task x.job x.part with
    | some j, some t =>
      if t.stop then dropTask (freeQuern s q) x.job x.part
      else if x.ended || !chanFlows s x.job x.part then s
      else
        let s0 := fillStaging s q
        let y := (s0.quern q).getD x
        match y.bufs with
        | [] => s0
        | blk :: rest =>
          match (stagedWork j q y blk rest).exec s0 with
          | (.ok _, s1) => s1
          | (.error e, s1) =>
            let o := e.toOutc
            let s2 := if j.hdr.op = 0x0301 && isBlockErr o then quernError s1 q j o else s1
            dropTask (freeQuern (failJob s2 x.job o) q) x.job x.part
    | _, _ => freeQuern s q

/-- QRN_STATE of a Quern (Table 11.6). -/
def qrnState (s : State) (q : Nat) : Nat :=
  match s.quern q with
  | none => 0
  | some x =>
    match s.job x.job with
    | none => 0
    | some j => 2 ^ 63 + boolNat (j.hdr.op == 0x0301) * 2 ^ 62 + j.slice * 2 ^ 56 + j.hdr.tag * 2 ^ 32 + x.next % 2 ^ 32

end Sys2Proof.Machine
end

