-- ==== Sys2Proof/Machine/Txns.lean ====
section
/-! DEFINITION. Transactions and snapshots as opcodes, the power-fail sequence, recovery of the journal (09 R306 to R313,
R324, R325, R336 to R341). -/

namespace Sys2Proof.Machine

/-- Whether a FIRST entry's job is a member of its queue's open transaction by its opcode, or may be (09 R307, 10 R352). -/
def memberOp (s : State) (j : Job) : Bool :=
  (j.hdr.op == 0x0501 || j.hdr.op == 0x0503) && ((s.vol (volOf j)).map (·.table)) == some false || j.hdr.op == 0x0100

/-- Whether a job produces journal records by its opcode (09 R342, R346); a PIPE_RUN shows once it is loaded. -/
def journals (s : State) (j : Job) : Bool :=
  (j.hdr.op == 0x0501 || j.hdr.op == 0x0503) && ((s.vol (volOf j)).map (·.table)) == some false || j.hdr.op == 0x0601

/-- BEGIN is fetched: its queue's transaction opens (02 R56, 09 R306). -/
def beginFetched (s : State) (j : Job) : State :=
  let st := j.epoch
  let low := s.reg .mpdLowWater 0
  let (n, s1) := openTxn s j.slice j.gq st (decide (st < low))
  ((s1.setQueue j.gq (fun q => { q with txn := some n })).setFlag F.wqState_txn_open j.gq true).setJob j.id
    (fun j => { j with sumHi := low, txn := some n, pnr := true })

/-- COMMIT is fetched: the queue's transaction closes (02 R56, 09 R309). -/
def commitFetched (s : State) (j : Job) : State :=
  let s1 := (s.setQueue j.gq (fun q => { q with txn := none })).setFlag F.wqState_txn_open j.gq false
  match j.txn with
  | some n => s1.setTxn n (fun t => { t with fetched := true, job := some j.id })
  | none => s1

/-- A job fetched while its queue's transaction is open becomes a member, or has no part in it (09 R307). -/
def memberFetched (s : State) (j : Job) : State :=
  match j.txn with
  | none => s
  | some n =>
    if memberOp s j then s.setTxn n (fun t => { t with members := t.members ++ [j.id], count := t.count + 1 })
    else s.setJob j.id (fun j => { j with txn := none })

/-- BEGIN (09 R306). -/
def beginOp (s : State) (id : Nat) : State :=
  match startJob s id 0x0600 with
  | none => s
  | some j =>
    let failed := match j.txn.bind s.txn with
      | some t => t.failed
      | none => false
    finishJob s id (if failed then ⟨0x71, 0, j.sumHi⟩ else ⟨0, 0, j.epoch⟩)

/-- Whether a job that journals must wait for replay to end (09 R342). -/
def replayHolds (s : State) : Bool := !s.flag F.mpdStatus_replay_done 0 && !s.readOnly

/-- COMMIT (09 R309): once every member has released, the transaction ends in an ABORT record or joins the commit unit's
queue. -/
def commitOp (s : State) (id : Nat) : State :=
  match startJob s id 0x0601 with
  | none => s
  | some j =>
    match j.txn.bind s.txn with
    | none => s
    | some t =>
      if !t.members.isEmpty || replayHolds s then s
      else if t.failed then finishJob (abortTxn s t.num j.hdr.tag) id ⟨0x20, 0, 0⟩
      else
        let s1 := { s with mpd := { s.mpd with ready := s.mpd.ready ++ [t.num] } }
        (s1.setTxn t.num (fun t => { t with state := .ready })).setJob id (fun j => { j with started := true })

/-- SNAPSHOT_OPEN (09 R324). -/
def snapshotOpen (s : State) (id : Nat) : State :=
  match startJob s id 0x0602 with
  | none => s
  | some j =>
    if 4096 ≤ s.mpd.snaps.length then finishJob s id ⟨0x31, 0, 0⟩
    else updateLow (okJob ({ s with mpd := { s.mpd with snaps := s.mpd.snaps ++ [(j.slice, j.epoch)] } }.setJob id (fun j => { j with pnr := true })) id j.epoch)

/-- SNAPSHOT_CLOSE (09 R325). -/
def snapshotClose (s : State) (id : Nat) : State :=
  match startJob s id 0x0603 with
  | none => s
  | some j =>
    let p := (j.slice, j.hdr.epoch)
    if s.mpd.snaps.contains p then updateLow (okJob ({ s with mpd := { s.mpd with snaps := s.mpd.snaps.erase p } }.setJob id (fun j => { j with pnr := true })) id 1)
    else okJob s id 0

/-- A member's release reaches its transaction (09 R309). A PIPE_RUN that ends before it is loaded is a member where its program holds
TAPPEND (R307). -/
def memberReleased (s : State) (j : Job) (o : Outc) : State :=
  match j.txn with
  | none => s
  | some n =>
    let fails := o.status != 0 && (j.hdr.op != 0x0100 || holdsAppend s j)
    s.setTxn n (fun t =>
      if t.members.contains j.id then { t with members := t.members.filter (· != j.id), failed := t.failed || fails } else t)

/-- Whether a COMMIT's release must wait: a member of its transaction has not released. -/
def commitWaits (s : State) (j : Job) : Bool :=
  j.hdr.op == 0x0601 && (match j.txn.bind s.txn with
    | some t => !t.members.isEmpty
    | none => false)

/-- The transaction whose outcome a releasing job decides ends (09 R309, R310, R315, R326): with an ABORT record where
nothing else has ended it. -/
def txnReleased (s : State) (j : Job) : State :=
  match j.txn.bind s.txn with
  | none => s
  | some t =>
    if t.job ≠ some j.id then s
    else match t.state with
    | .open_ | .ready => endTxn (abortTxn s t.num j.hdr.tag) t.num
    | _ => endTxn s t.num

/-- The open group closes, and every joined record and SEAL becomes durable (09 Table 9.6, steps 2 to 4). -/
def sealAll (s : State) : State :=
  let s1 := closeGroup s false
  let s2 := (List.range s1.mpd.closed.length).foldl (fun t _ => sealDurable t) s1
  { s2 with mpd := { s2.mpd with grp := none } }

/-- The power-fail sequence (09 R336, R337): nothing more is fetched, joined, published or written to the slices; the
open group closes, and every joined record and SEAL becomes durable. -/
def powerFail (s : State) : State :=
  if s.flag F.mpdStatus_pwr_fail 0 then s
  else { sealAll (s.setFlag F.mpdStatus_pwr_fail 0 true) with halted := true }

/-- The header of a journal record read back (09 Table 9.4), with its payload. -/
def readRec (s : State) (off : Nat) : List Byte × JRec :=
  let h := s.mpdBytes off 128
  let n := leAt h 8 4
  (h, { kind := leAt h 4 1, commit := bitAt (leAt h 5 1) 0, txn := leAt h 12 4, seq := leAt h 16 8, epoch := leAt h 24 8,
        slice := leAt h 32 1, queue := leAt h 33 1, tag := leAt h 34 2, obj := leAt h 40 8, addr := leAt h 48 8,
        aux := leAt h 56 8, payload := if n ≤ journalEnd then s.mpdBytes (off + 128) n else [], prev := sub h 64 32,
        off := off, fate := none, dead := false, applied := false })

/-- Whether a record's own fields pass: magic, hdr_crc, a length that fits the area. -/
def recSound (off : Nat) (x : List Byte × JRec) : Bool :=
  leAt x.1 0 4 == 0x4A524E4C && leAt x.1 124 4 == crc32c (x.1.take 124) &&
    decide (off + recSize x.2.payload.length ≤ journalEnd) && decide (leAt x.1 8 4 ≤ journalEnd)

/-- The records of the journal from a place on, up to the first that fails a check (09 R339). -/
def readJournal (s : State) : Nat → Nat → Nat → List Byte → List JRec
  | 0, _, _, _ => []
  | fuel + 1, off0, seq, hash =>
    let off := if journalEnd < off0 + 128 then 0 else off0
    let x := readRec s off
    if recSound off x && x.2.seq == seq && x.2.prev == hash then
      x.2 :: readJournal s fuel ((off + recSize x.2.payload.length) % journalEnd) (seq + 1) (sha256 (storedRec s x.2))
    else []

/-- A Millpond format: the GENESIS record and the anchor (09 R335, Table 9.8). -/
def formatMpd (s : State) : State :=
  let r : JRec := { kind := kGenesis, commit := false, txn := 0, seq := 0, epoch := 0, slice := 0, queue := 0, tag := 0,
                    obj := 0, addr := 0, aux := 0, payload := [], prev := zeros 32, off := 0, fate := none, dead := false,
                    applied := false }
  let s1 := mpdWrite s 0 r.bytes
  mpdWrite s1 journalEnd (zeros 64)

/-- The records up to and including the last SEAL. -/
def upToSeal (rs : List JRec) : List JRec := (rs.reverse.dropWhile (fun r => r.kind != kSeal)).reverse

/-- Whether a SEAL that passes its own hdr_crc lies beyond a break (09 R340): one of a later sequence. -/
def sealBeyond (s : State) (seq : Nat) : Bool :=
  s.mpd.cells.any (fun c => c.1 % 64 == 0 && decide (c.1 + 128 ≤ journalEnd) && c.2 == 0x4C &&
    (let x := readRec s c.1
     recSound c.1 x && x.2.kind == kSeal && decide (seq < x.2.seq)))

/-- What becomes of a retained record (09 R311, R339): committed at the epoch of its COMMIT, or by itself; else void. -/
def settleRec (rs : List JRec) (r : JRec) : JRec :=
  if kSeal ≤ r.kind then r
  else if r.commit then { r with fate := some r.epoch }
  else match rs.find? (fun c => c.kind == kCommit && c.txn == r.txn) with
  | some c => { r with fate := some c.epoch }
  | none => { r with dead := true }

/-- The images of a drive LBA put on its available drives at once, before the volume is served (09 R341). -/
def landNow (s : State) (v g : Nat) : State :=
  match s.vol v with
  | none => s
  | some e =>
    let seqs := ((e.sectorsAt g).map (dirtyAt s v)).filter (· != 0)
    let ports := (e.portsOf g).filter (portUp s)
    if seqs.isEmpty || ports.isEmpty then s
    else
      let (img, s1) := landImage s v g e
      let s2 := ports.foldl (fun t p => match img with
        | some b => driveWrite t p v (e.place g).2 b
        | none => driveDrop t p v (e.place g).2 1) s1
      if (e.portsOf g).all (portUp s) then imagesLand s2 v g e seqs else s2

/-- Every image that the drives lack is put on them (09 R341). -/
def landAll (s : State) : State :=
  let places := (s.vols.dirty.map (fun x =>
    let v := x.1 / 2 ^ 48
    (v, match s.vol v with
      | some e => (e.gOf (x.1 % 2 ^ 48)).1
      | none => 0))).eraseDups
  places.foldl (fun t p => landNow t p.1 p.2) s

/-- Recovery (09 R339, R340): the journal is read from the anchor to the last SEAL, which sets the published epoch; the
next group opens. -/
def recoverJournal (s : State) : State :=
  let a := s.mpdBytes journalEnd 64
  let seq0 := leAt a 0 8
  let hash0 := sub a 24 32
  let all := readJournal s (s.mpd.cells.length + 1) (leAt a 8 8) seq0 hash0
  let sealed_ := upToSeal all
  let rs := sealed_.map (settleRec sealed_)
  let next := seq0 + sealed_.length
  -- a Millpond that has no SEAL keeps the record before the first group: GENESIS
  let genesis := if sealed_.isEmpty then (all.take 1).filter (fun r => r.kind == kGenesis) else []
  let keep := if sealed_.isEmpty then genesis else rs
  let nextSeq := if sealed_.isEmpty then seq0 + genesis.length else next
  let epoch := (keep.getLast?.map (·.epoch)).getD (leAt a 16 8)
  let tail := match keep.getLast? with
    | some r => (r.off + recSize r.payload.length) % journalEnd
    | none => leAt a 8 8
  let last := match keep.getLast? with
    | some r => sha256 (storedRec s r)
    | none => hash0
  let broken := sealBeyond s (seq0 + all.length)
  let ck := ((keep.reverse.find? (fun r => r.kind == kCkpt)).map (·.addr)).getD 0
  let m := { s.mpd with recs := keep, grp := none, closed := [], tail := tail, lastHash := last, headSeq := seq0,
                        headOff := leAt a 8 8, headHash := hash0, txns := [], snaps := [], joinQ := [], ready := [],
                        nextTxn := (keep.foldl (fun m r => max m r.txn) 0 + 1) % 2 ^ 32, outcomes := [], uses := [],
                        waited := false, warned := false }
  let s1 := { s with mpd := m }
  let s2 := (((((s1.setReg .mpdEpoch 0 epoch).setReg .mpdRecovery 0 epoch).setReg .mpdSeq 0 nextSeq).setReg .mpdCkpt 0 ck).setReg
    .mpdTrunc 0 (leAt a 16 8)).setReg .mpdLowWater 0 epoch
  let s3 := if broken then
      ((s2.setFlag F.mpdStatus_chain_break 0 true).setReg .mpdBreakSeq 0 (seq0 + all.length)).devEvent 0x0903 0
    else s2
  spaceUpdate (openGroup s3 (epoch + 1))

/-- Committed records go to the drives (09 R341); under read-only replay the drives are not written (R346). -/
def recoverVolumes (s : State) : State :=
  let rs := s.mpd.recs.filter (fun r => !r.dead && r.fate.isSome)
  let ordered := rs.foldl (fun acc r => (acc.takeWhile (fun x => x.fate.getD 0 ≤ r.fate.getD 0)) ++ [r] ++
    (acc.dropWhile (fun x => x.fate.getD 0 ≤ r.fate.getD 0))) []
  let s1 := ordered.foldl markDirty (dirtyCount { s with vols := { s.vols with dirty := [] } })
  if s.readOnly then s1 else landAll s1

end Sys2Proof.Machine
end

