-- ==== Sys2Proof/Machine/Operands.lean ====
section
/-! DEFINITION. The operand rules of every packet opcode: what makes an entry malformed with reason OPERAND_RANGE (02
Table 2.9, reason 0x0D), and the offset that R655 gives it. -/

namespace Sys2Proof.Machine

/-- The operand fields of a FIRST entry (02 Table 2.1) but for the flow and epoch: offset and bytes. -/
def operandFields : List (Nat × Nat) := [(20, 4), (24, 8), (32, 8), (40, 8), (48, 4), (52, 4), (56, 8)]

/-- Every operand field but those that start at an offset of keep holds 0. -/
def zeroBut (keep : List Nat) (e : List Byte) : List (Bool × Nat) :=
  (operandFields.filter (fun f => !keep.contains f.1)).map (fun f => nonzero e f.1 f.2)

/-- Bits [lo + w - 1 : lo] of the field at offset o hold 0; the byte of the first bit (R655). -/
def zeroBits (v o lo w : Nat) : Bool × Nat := (bitsAt v lo w != 0, o + lo / 8)

/-- A snapshot epoch that R211 refuses. -/
def epochBad (s : State) (e : List Byte) : Bool × Nat :=
  badIf (bitAt (eHeader e) 22 && decide (s.reg .mpdEpoch 0 < eEpoch e)) 8

/-- ABORT and QUERY (02 R59). -/
def formTarget (e : List Byte) : Option Nat := lowest (zeroBits (eParam0 e) 20 3 13 :: zeroBut [20] e)

/-- PIPE_RUN (05 Table 5.4, 06 R211). -/
def formPipeRun (s : State) (e : List Byte) : Option Nat :=
  let p := eParam0 e
  lowest [epochBad s e, badIf (decide (65536 < p)) 20, badIf (eLen1 e == 0 && eAddr1 e != 0) 32,
    badIf (eAddr2 e % 16 != 0 || (p == 0 && eAddr2 e != 0)) 40, badIf (decide (1048576 < eLen0 e)) 48,
    badIf (eLen1 e % 8 != 0 || decide (256 < eLen1 e)) 52]

/-- The entries of an open chain. -/
def chainEntries (s : State) (x : EntryCtx) : List (List Byte) :=
  ((x.chain.bind (fun c => s.job c.job)).map (·.entries)).getD []

/-- PIPE_ARGS (05 R163, Table 5.6). -/
def formPipeArgs (s : State) (x : EntryCtx) : Option Nat :=
  let e := x.e
  let b := leAt e 8 1
  let n := leAt e 9 1
  let taken := (bindsOf (chainEntries s x)).map Prod.fst
  let place (i : Nat) : List (Bool × Nat) :=
    let o := 16 + 16 * i
    if i < n then [badIf (badSva (leAt e o 8)) o, badIf (badSva (leAt e (o + 8) 8)) (o + 8)]
    else [nonzero e o 8, nonzero e (o + 8) 8]
  lowest ([badIf (decide (64 < b + n) || (List.range (min n 3)).any (fun i => taken.contains (b + i))) 8,
    badIf (n == 0 || decide (3 < n)) 9, nonzero e 10 6] ++ (List.range 3).flatMap place)

/-- INDEX_LOOKUP (07 Table 7.8, 06 R211). -/
def formLookup (s : State) (e : List Byte) : Option Nat :=
  lowest [epochBad s e, badIf (decide (2048 < eParam0 e)) 20, nonzero e 56 8]

/-- ROW_FETCH (07 R259). -/
def formRowFetch (s : State) (x : EntryCtx) : Option Nat :=
  let e := x.e
  let before := chainEntries s x
  let m := leAt e 20 1
  let f := (fetchCols before).length
  let head : List (Bool × Nat) :=
    if (rowFetches before).isEmpty then
      [badIf (badSva (leAt e 8 8)) 8, badIf (leAt e 16 4 == 0 || decide (65536 < leAt e 16 4)) 16]
    else [nonzero e 8 8, nonzero e 16 4]
  lowest (head ++ [badIf (m == 0 || decide (32 < m) || decide (32 < f + m)) 20, nonzero e 21 3, nonzero e 56 8] ++
    ((List.range 32).filter (fun i => decide (m ≤ i))).map (fun i => nonzero e (24 + i) 1))

/-- The largest length of a Sluice descriptor (16 R515). -/
abbrev sluiceMax : Nat := 16777216

/-- A Sluice tap word (16 R515, 12 R419). -/
def sluiceTap (s : State) (slice w : Nat) : Bool := tapWordBad s slice w 1 || (w != 0 && tapPoint w == 1)

/-- COPY, FILL and the FIRST entry of COPY_LIST (16 R515, Table 16.2). -/
def formSluice (s : State) (x : EntryCtx) (op : Nat) : Option Nat :=
  let e := x.e
  let q := eParam1 e
  let v1 := eVersion e == 1
  let long := badIf (decide (sluiceMax < eLen0 e)) 48
  if op = 0x0201 then lowest [long, nonzero e 20 4, nonzero e 52 4]
  else
    let p := if op = 0x0202 then zeroBits (eParam0 e) 20 1 31 else nonzero e 20 4
    lowest [long, p, nonzero e 52 4, zeroBits q 56 0 32,
      badIf (sluiceTap s x.slice (q / 2 ^ 32) || (v1 && q / 2 ^ 32 != 0)) (if v1 then 56 else 60)]

/-- A COPY_LIST follower (16 R515, Tables 16.1 and 16.2). -/
def formDescriptor (e : List Byte) : Option Nat :=
  let f := leAt e 32 2
  let fill := bitAt f 1
  lowest [badIf (!fill && badSva (leAt e 8 8)) 8, badIf (badSva (leAt e 16 8)) 16,
    badIf (decide (sluiceMax < leAt e 24 4)) 24, nonzero e 28 4, zeroBits f 32 2 14, nonzero e 34 6,
    badIf ((List.range 24).any (fun i => leAt e (40 + i) 1 != 0)) 40]

/-- COMPRESS and DECOMPRESS (11 Table 11.3, R403, 12 R419). -/
def formQuern (s : State) (x : EntryCtx) (op : Nat) : Option Nat :=
  let e := x.e
  let p := eParam0 e
  let kib := p % 512
  let slotted := bitAt p 10
  let n := eLen0 e
  let w := eParam1 e / 2 ^ 32
  let b := kib * 1024
  let packed := op == 0x0301 && !slotted
  let kibBad := if packed then kib != 0 else decide (kib < 4 ∨ 256 < kib)
  let refuseBad := if op = 0x0301 then bitAt p 9 else bitAt p 9 && decide (b < n)
  let unit := if op = 0x0301 then alignUp (b + 16) 64 else b
  let count := if slotted then (n + unit - 1) / max unit 1 else 1
  lowest [zeroBits p 20 11 21, badIf refuseBad 21, badIf kibBad 20,
    badIf ((!packed && decide (2 ^ 31 < n)) || (slotted && !kibBad && decide (65536 < count))) 48, zeroBits (eParam1 e) 56 0 32,
    badIf (tapWordBad s x.slice w (if slotted then count else 1)) 60]

/-- DIGEST and DIGEST_KEYED (12 Table 12.4, R422, R431). -/
def formDigest (s : State) (x : EntryCtx) (op : Nat) : Option Nat :=
  let e := x.e
  let p := eParam0 e
  let q := eParam1 e
  let alg := bitsAt p 29 3
  let hold := bitAt p 28
  let cont := bitAt p 27
  let slot := bitsAt p 16 6
  let k := s.slot slot
  let v1 := eVersion e == 1
  let mark := bitAt q 63
  let valid := bitsAt q 32 4
  let slotBad := if op = 0x0401 then !(k.usage == 2 && k.grant && k.owner == x.slice) && !s.flag F.brkStatus_keys_erased 0 else slot != 0
  lowest [badIf (alg == 0 || decide ((if v1 then 3 else 4) < alg) || (v1 && (hold || cont))) 23,
    zeroBits p 20 22 5, badIf slotBad 22, badIf (!cont && p % 65536 != 0) 20,
    badIf (hold && eAddr1 e != 0) 32, badIf (hold && eLen1 e != 0) 52,
    badIf (mark && hold) 63, zeroBits q 56 36 27, badIf (if mark then decide (valid = 0 ∨ 8 < valid) else valid != 0) 60,
    badIf (!mark && q % 2 ^ 32 != 0) 56]

/-- CONTEXT_SAVE (12 R432). -/
def formSave (e : List Byte) : Option Nat := lowest (zeroBits (eParam0 e) 20 16 16 :: zeroBut [20, 32, 52] e)

/-- CONTEXT_RESTORE (12 R434). -/
def formRestore (e : List Byte) : Option Nat := lowest (zeroBut [24, 48] e)

/-- READ, WRITE, TRIM and FLUSH (10 Table 10.1, R356). -/
def formVolume (s : State) (x : EntryCtx) (op : Nat) : Option Nat :=
  let e := x.e
  let v := eParam0 e % 256
  let vol := match s.vol v with
    | some t => if t.owner = x.slice then some t else none
    | none => none
  let cap := (vol.map (·.cap)).getD 0
  let n := eLen0 e
  let lba := eParam1 e % 2 ^ 48
  let common := [badIf vol.isNone 20, zeroBits (eParam0 e) 20 8 24]
  if op = 0x0502 then lowest (common ++ zeroBut [20, 24] e)
  else
    lowest (common ++ [badIf (decide (256 < n)) 48, zeroBits (eParam1 e) 56 48 16,
      badIf (vol.isSome && decide (cap < lba + n)) 56, badIf (op == 0x0503 && eLen1 e != 0) 52])

/-- The slices, vectors and PASIDs that are taken: those of slices outside ABSENT and of unreleased SLICE_CREATE jobs (17
R535, R539): slice, first vector, vectors, PASID. -/
def sliceClaims (s : State) : List (Nat × Nat × Nat × Option Nat) :=
  ((List.range 64).filter (fun n => s.fld F.slcCfg_state n != 0)).map (fun n =>
    (n, s.fld F.slcCfg_vector_base n, s.fld F.slcCfg_vectors_m1 n + 1,
      if s.flag F.slcPasid_enable n then some (s.fld F.slcPasid_pasid n) else none)) ++
  (s.fan.jobs.filter (fun j => j.hdr.op == 0x0700)).map (fun j =>
    let p := eParam0 j.first
    let q := eParam1 j.first
    (p / 2 ^ 26, bitsAt p 0 11, bitsAt p 13 5 + 1, if bitAt q 20 then some (bitsAt q 0 20) else none))

/-- SLICE_CREATE's FIRST entry (17 Table 17.2). -/
def formCreate (s : State) (e : List Byte) : Option Nat :=
  let p := eParam0 e
  let q := eParam1 e
  let claims := sliceClaims s
  let n := p / 2 ^ 26
  let v := bitsAt p 0 11
  let c := bitsAt p 13 5 + 1
  let depth := bitsAt p 18 5
  let pasid := bitsAt q 0 20
  let depthBad := depth != 0 && decide (depth < 4 ∨ 16 < depth)
  lowest [badIf (n == 0 || claims.any (fun x => x.1 == n)) 23, badIf (bitsAt p 23 2 == 1 || depthBad) 22, zeroBits p 20 11 2,
    badIf (decide (v < 32 ∨ 2048 < v + c) || claims.any (fun x => rangesMeet v c x.2.1 x.2.2.1)) 20,
    badIf (eAddr0 e % 4096 != 0) 24, badIf (eAddr1 e % 4096 != 0 || (depth == 0 && eAddr1 e != 0)) 32,
    badIf (decide (6144 < eLen0 e)) 48,
    badIf (if eLen0 e = 0 then eLen1 e != 0 else decide (eLen1 e = 0 ∨ 65535 < eLen1 e)) 52,
    zeroBits q 56 21 43, badIf (if bitAt q 20 then claims.any (fun x => x.2.2.2 == some pasid) else pasid != 0) 56]

/-- A SLICE_CREATE follower (17 Table 17.3). -/
def formCreateQueue (s : State) (x : EntryCtx) : Option Nat :=
  let e := x.e
  let named := (chainEntries s x).drop 1
  let addr (o align : Nat) : Bool × Nat := badIf (badSva (leAt e o 8) || leAt e o 8 % align != 0) o
  let q := leAt e 32 1
  let d := leAt e 33 1
  lowest [addr 8 4096, addr 16 4096, addr 24 8, badIf (decide (7 < q) || named.any (fun f => leAt f 32 1 == q)) 32,
    badIf (decide (d < 4 ∨ 16 < d)) 33, badIf (decide (2 ≤ leAt e 34 1)) 34, badIf (decide (63 < leAt e 36 1)) 36, nonzero e 37 1,
    badIf (decide (8191 < leAt e 40 2)) 40, badIf ((List.range 22).any (fun i => leAt e (42 + i) 1 != 0)) 42]

/-- SLICE_RESET (17 R541). -/
def formReset (s : State) (e : List Byte) : Option Nat :=
  let p := eParam0 e
  let n := p / 2 ^ 26
  lowest ([badIf (n == 0 || s.fld F.slcCfg_state n == 0) 23, zeroBits p 20 0 24] ++ zeroBut [20] e)

/-- VOLUME_CREATE (10 Table 10.3, 19 R579). -/
def formVolumeCreate (s : State) (e : List Byte) : Option Nat :=
  let p := eParam0 e
  let q := eParam1 e
  let ports := bitsAt p 8 8
  let mirror := bitAt p 29
  let key := bitsAt p 22 6
  lowest ([zeroBits p 20 31 1, badIf (bitAt p 28 && !bitAt p 30) 23,
    badIf (slotServes s key || (s.slot key).usage != 1) 22, badIf (s.fld F.slcCfg_state (bitsAt p 16 6) == 0) 22,
    badIf (ports == 0 || (mirror && popCount 8 ports % 2 == 1)) 21, badIf (s.vol (p % 256)).isSome 20,
    badIf (decide (8 < bitsAt q 60 4)) 63, zeroBits q 56 48 12, badIf (bitsAt q 0 48 == 0) 56] ++ zeroBut [20, 56] e)

/-- Whether a valid registration names a volume as a projection (10 R373). -/
def volProjected (s : State) (v : Nat) : Bool :=
  ((s.regInsts .mpdTableCfg).map Prod.fst).any (fun n =>
    s.flag F.mpdTableCfg_valid n && s.flag F.mpdTableCfg_projection n && s.fld F.mpdTableCfg_volume n == v)

/-- VOLUME_DELETE, SANITISE and FORMAT (10 R373). -/
def formVolumeOp (s : State) (e : List Byte) (op : Nat) : Option Nat :=
  let p := eParam0 e
  let v := p % 256
  let table := ((s.vol v).map (·.table)).getD false
  let format := op == 0x0705
  lowest ([badIf ((s.vol v).isNone || (op != 0x0703 && volProjected s v)) 20,
    if format then zeroBits p 20 9 23 else zeroBits p 20 8 24,
    badIf (format && table && !bitAt p 8) 21] ++ zeroBut [20] e)

/-- DUMP_READ (18 R570). -/
def formDump (e : List Byte) : Option Nat :=
  lowest ([zeroBits (eParam0 e) 20 1 31, badIf (eParam1 e % 65536 != 0 || decide (268500992 < eParam1 e)) 56] ++
    zeroBut [20, 24, 48, 56] e)

/-- What an invalidation's fields break (13 R460): the offset of the field. -/
def invalProblem (s : State) (q : InvalReq) : List (Bool × Nat) :=
  match q.op with
  | 0 => [badIf (q.stage1 == q.stage2) 23, badIf (s.fld F.slcCfg_state q.slice == 0) 22,
      badIf (q.addr % 4096 != 0 || decide (2 ^ 48 < q.addr + 4096 * q.pages)) 24]
  | 1 => [badIf (!q.stage1 && !q.stage2) 23, badIf (s.fld F.slcCfg_state q.slice == 0) 22]
  | _ => [badIf (q.stage1 || q.stage2) 23, badIf (q.slice != 0) 22]

/-- The invalidation that an entry asks for (13 Table 13.5). -/
def invalOf (e : List Byte) (op : Nat) : InvalReq :=
  let p := eParam0 e
  { op := op % 256, stage1 := bitAt p 30, stage2 := bitAt p 31, slice := bitsAt p 16 6, addr := eAddr0 e, pages := eLen0 e }

/-- TLB_INVAL_ADDR, TLB_INVAL_TAG and TLB_INVAL_ALL (13 R460, Table 13.5). -/
def formInval (s : State) (e : List Byte) (op : Nat) : Option Nat :=
  let p := eParam0 e
  lowest (invalProblem s (invalOf e op) ++ [zeroBits p 20 22 8, zeroBits p 20 0 16] ++
    zeroBut (if op = 0x0800 then [20, 24, 48] else [20]) e)

/-- OPERAND_RANGE (02 reason 0x0D): the lowest offset of a breach of the opcode's own operand rules. -/
def operandForm (s : State) (x : EntryCtx) (row : OpRow) : Option Nat :=
  let e := x.e
  match row.op with
  | 0x0001 | 0x0002 | 0x0601 | 0x0602 | 0x0603 => lowest (zeroBut [] e)
  | 0x0003 | 0x0004 => formTarget e
  | 0x0100 => formPipeRun s e
  | 0x0101 => formPipeArgs s x
  | 0x0110 => formLookup s e
  | 0x0111 => formRowFetch s x
  | 0x0200 | 0x0201 => formSluice s x row.op
  | 0x0202 => if eFirst e then formSluice s x row.op else formDescriptor e
  | 0x0300 | 0x0301 => formQuern s x row.op
  | 0x0400 | 0x0401 => formDigest s x row.op
  | 0x0402 => formSave e
  | 0x0403 => formRestore e
  | 0x0500 | 0x0501 | 0x0502 | 0x0503 => formVolume s x row.op
  | 0x0600 => lowest (epochBad s e :: zeroBut [] e)
  | 0x0700 => if eFirst e then formCreate s e else formCreateQueue s x
  | 0x0701 => formReset s e
  | 0x0702 => formVolumeCreate s e
  | 0x0703 | 0x0704 | 0x0705 => formVolumeOp s e row.op
  | 0x0706 => formDump e
  | 0x0800 | 0x0801 | 0x0802 => formInval s e row.op
  | _ => none

end Sys2Proof.Machine
end

