-- ==== Sys2Proof/Machine/Queues.lean ====
section
/-! DEFINITION. The work queues and the Weir: enabling, doorbells, polls, passes and rounds, entries as they are fetched
and checked, chains, handover (02 R69 to R73, 03 R74 to R101, 04 R116 to R122). -/

namespace Sys2Proof.Machine

/-- The ring depth exponent of a queue. -/
def depthLog (s : State) (gq : Nat) : Nat := s.fld F.wqCfg_depth_log2 gq

/-- The SVA of a ring slot (03 R74). -/
def slotAddr (s : State) (gq index : Nat) : Nat :=
  s.fld F.wqRingBase_base gq * 4096 + 64 * (index % 2 ^ depthLog s gq)

/-- Whether a queue's slice is ABSENT, HALTED or RESETTING, or the device has halted. -/
def sliceStopped (s : State) (slice : Nat) : Bool := s.halted || s.fld F.slcCfg_state slice != 1

/-- The queue is enabled by the value of WQ_CFG being written (03 R76, R77), with no credit until the next round (04 R118);
enable stays 0 while the queue is not idle, and where the depth is out of range. -/
def queueEnable (s : State) (gq value : Nat) : State :=
  let n := bitsAt value 16 5
  let s1 := s.setReg .wqCfg gq (value &&& 0x401FFFFF)
  if !s.flag F.wqState_idle gq then s1
  else if n < 4 ∨ 16 < n then s1.setFlag F.wqState_cfg_error gq true
  else
    let s2 := ((s1.setReg .slcWqHead gq 0).setReg .wqDoorbell gq 0).setFld F.wqState_fetch gq 0
    ((s2.setFld F.weirQstat_credit gq 0).setQueue gq (fun q => { q with stale := false, polled := [], timer := none })).setFlag F.wqCfg_enable gq true

/-- A ring read of a queue's next entry, sampled as it is issued (03 R83, R87). A poisoned DRAM line that it meets halts the slice as a bus
error of the read does (03 R114; 15 R504 speaks of a job's reads: DESIGN CHOICE, log 72). -/
def sampleSlot (s : State) (gq index : Nat) : RingRead × State :=
  let slice := gq / 8
  let r : Req := { ringReq gq with agent := .weir }
  let gen := s.fld F.slcGen_generation slice
  let a := slotAddr s gq index
  let op : Op (List Byte) :=
    match (s.queue gq).polled.find? (fun p => p.1 == index) with
    | some p => do
      let rest ← readMem r (a + 8) 56
      return p.2 ++ rest
    | none => readMem r a 64
  match op.exec s with
  | (.ok b, s1) => (⟨gq, index, gen, b, none⟩, s1)
  | (.error e, s1) =>
    let code := match e with
      | .walk s2 _ c _ _ _ => c + boolNat s2 * 8
      | _ => causeBus
    (⟨gq, index, gen, [], some code⟩, s1)

/-- The read of a queue's next entry is issued and the fetch index advances. -/
def issueRead (s : State) (gq : Nat) : State :=
  let i := s.fld F.wqState_fetch gq
  let (rd, s1) := sampleSlot s gq i
  let s2 := (s1.setFld F.wqState_fetch gq (i + 1)).setQueue gq (fun q =>
    { q with polled := q.polled.filter (fun p => p.1 != i) })
  queueFlags { s2 with issued := s2.issued ++ [rd] } gq

/-- Whether a disabled queue goes on fetching its open chain (03 R77). -/
def drainChain (s : State) (gq : Nat) : State :=
  if !s.flag F.wqCfg_enable gq && (s.queue gq).chain.isSome && s.fld F.wqState_fetch gq != s.tailOf gq &&
      s.issued.all (fun r => r.gq != gq) && !sliceStopped s (gq / 8) then issueRead s gq
  else s

/-- The queue is disabled (03 R77). -/
def queueDisable (s : State) (gq value : Nat) : State :=
  let keep := s.reg .wqCfg gq &&& 0x401F0000
  let s1 := s.setReg .wqCfg gq (keep + value % 2 ^ 16)
  timerCheck (drainChain s1 gq) gq

/-- A write of WQ_CFG (03 Table 3.6): what is ignored while enable is 1, and what enabling and disabling do. -/
def wqCfgWrite (s : State) (gq value : Nat) : State :=
  match s.flag F.wqCfg_enable gq, bitAt value 31 with
  | false, true => queueEnable s gq value
  | true, false => queueDisable s gq value
  | true, true => s.setFld F.wqCfg_poll_interval gq value
  | false, false => s.setReg .wqCfg gq (value &&& 0x401FFFFF)

/-- A doorbell write of value d to queue gq (03 R80 to R82): ignored, refused, or TAIL becomes d, a host sync point
(14 R473). -/
def doorbell (s : State) (gq d : Nat) : State :=
  let slice := gq / 8
  let ignored := (s.setFlag F.wqState_db_ignored gq true).count ⟨0x105, 1, some slice, none, none⟩
  if !s.flag F.wqCfg_enable gq || s.flag F.wqCfg_poll gq || s.flag F.slcStatus_halted slice ||
      s.fld F.slcCfg_state slice == 3 then ignored
  else
    let h := s.head gq
    if 2 ^ depthLog s gq < sub32 d h then
      (haltSlice s slice (gq % 8) d 0 0x0E 0).count ⟨0x108, 1, some slice, none, none⟩
    else if sub32 d h < sub32 (s.tailOf gq) h then ignored
    else
      let s1 := s.setReg .wqDoorbell gq d
      let s2 := if d = s.tailOf gq then s1 else timerStop (hostSync s1) gq
      s2.count ⟨0x104, 1, some slice, none, none⟩

/-- A poll of the slot at TAIL of a poll-mode queue (03 R87): a matching phase advances TAIL, a host sync point; a fault
halts the slice. A match that moves TAIL past HEAD + 2^n is not checked for DOORBELL_RANGE (DESIGN CHOICE, log 58). -/
def poll (s : State) (gq : Nat) : State :=
  let slice := gq / 8
  let q := s.queue gq
  if !s.flag F.wqCfg_enable gq || !s.flag F.wqCfg_poll gq || sliceStopped s slice ||
      (q.stale && s.fld F.wqCfg_poll_interval gq == 0) then s
  else
    let i := s.tailOf gq
    match (readMem { ringReq gq with agent := .weir } (slotAddr s gq i) 8).exec s with
    | (.error e, s1) => ringFault s1 slice (gq % 8) i 0 e
    | (.ok b, s1) =>
      if bitsAt (leNat b) 23 1 = phaseOf i (depthLog s gq) then
        let s2 := (hostSync (s1.setReg .wqDoorbell gq ((i + 1) % 2 ^ 32))).setQueue gq (fun q =>
          { q with stale := false, polled := q.polled ++ [(i, b)] })
        (timerStop s2 gq).count ⟨0x107, 1, some slice, none, none⟩
      else
        let s2 := (s1.setQueue gq (fun q => { q with stale := true })).count ⟨0x106, 1, some slice, none, none⟩
        timerCheck s2 gq

/-- Entries posted, known and not yet fetched (04 R116). -/
def available (s : State) (gq : Nat) : Nat := sub32 (s.tailOf gq) (s.fld F.wqState_fetch gq)

/-- Jobs of a queue fetched and unreleased, those in flight among them (04 R116, R117). -/
def queueJobs (s : State) (gq : Nat) : Nat :=
  s.fld F.weirQstat_jobs gq + (s.issued.filter (fun r => r.gq == gq && eFirst r.data)).length

/-- Whether the job table is full, the jobs in flight among its jobs (04 R120, R123). -/
def tableFull (s : State) : Bool :=
  decide (8192 ≤ s.fld F.fanStatus_jobs 0 + (s.issued.filter (fun r => eFirst r.data)).length)

/-- Whether a queue would be eligible but for its credit (04 R116, R118). -/
def eligibleButCredit (s : State) (gq : Nat) : Bool :=
  let jm := s.fld F.weirQcfg_jobs_max gq
  s.flag F.wqCfg_enable gq && !sliceStopped s (gq / 8) && s.fld F.weirQstat_weight_active gq != 0 &&
    0 < available s gq && (jm == 0 || decide (queueJobs s gq < jm))

/-- A turn's reads, one entry after another, within jobs_max and the job table (04 R117, R120). -/
def turnReads : Nat → State → Nat → State
  | 0, s, _ => s
  | k + 1, s, gq =>
    let jm := s.fld F.weirQcfg_jobs_max gq
    let (rd, _) := sampleSlot s gq (s.fld F.wqState_fetch gq)
    if eFirst rd.data && ((jm != 0 && decide (jm ≤ queueJobs s gq)) || tableFull s) then s
    else turnReads k ((issueRead s gq).subFld F.weirQstat_credit gq 1) gq

/-- Where a pass has stopped (04 R120). -/
def passStop (s : State) (p : Option (Nat × Bool)) : State := { s with fan := { s.fan with passAt := p } }

/-- A queue's visit in a pass: its turn, if it is eligible; whether the pass has granted one (04 R116, R117). A pass that finds the
job table full stops at the queue it would visit next (04 R120). -/
def visit (acc : State × Bool) (gq : Nat) : State × Bool :=
  let s := acc.1
  if s.fan.passAt.isSome then acc
  else if tableFull s then (passStop s (some (gq, acc.2)), acc.2)
  else if eligibleButCredit s gq && s.fld F.weirQstat_credit gq != 0 then
    let k := min (min (s.fld F.weirQstat_burst_active_m1 gq + 1) (s.fld F.weirQstat_credit gq)) (available s gq)
    let s1 := turnReads k s gq
    ((s1.count ⟨0x103, 1, some (gq / 8), none, none⟩).count
      ⟨0x100, sub32 (s1.fld F.wqState_fetch gq) (s.fld F.wqState_fetch gq), some (gq / 8), none, none⟩, true)
  else acc

/-- The queues that a pass can meet: those with a configured ring, in increasing number (a queue at its reset value is
disabled, 04 R117). -/
def knownQueues (s : State) : List Nat := (s.regInsts .wqCfg).map Prod.fst

/-- The boundary of a round (04 R118): WEIR_ROUND advances, every queue's pending weight and burst become active, its credit
refills. -/
def roundEnd (s : State) : State :=
  let s1 := (s.addWrap F.weirRound_round 0 1).count ⟨0x102, 1, none, none, none⟩
  (List.range 512).foldl (fun t q =>
    let w := t.fld F.weirQcfg_weight q
    ((t.setFld F.weirQstat_weight_active q w).setFld F.weirQstat_burst_active_m1 q (t.fld F.weirQcfg_burst_m1 q)).setFld
      F.weirQstat_credit q w) s1

/-- Whether the Weir runs a pass (04 R118, R120). -/
def passRuns (s : State) : Bool :=
  !s.halted && !s.flag F.weirCtl_hold 0 && !tableFull s &&
    (knownQueues s).any (eligibleButCredit s)

/-- The queues that a pass has still to visit, and whether it has granted a turn: all of them, or those from the queue at which it
stopped (04 R120). -/
def passRest (s : State) : List Nat × Bool :=
  match s.fan.passAt with
  | none => (knownQueues s, false)
  | some (q, any) => ((knownQueues s).filter (fun k => decide (q ≤ k)), any)

/-- One pass of the Weir over the queues, from where the last stopped; a pass that ends without having granted a turn ends the round
(04 R117, R118, R120). -/
def weirPass (s : State) : State :=
  if !passRuns s then s
  else
    let rest := passRest s
    let (s1, any) := rest.1.foldl visit (passStop s none, rest.2)
    if any || s1.fan.passAt.isSome then s1 else roundEnd s1

/-- The entry of a returned read, as the Weir checks it. -/
def entryCtx (s : State) (rd : RingRead) : EntryCtx :=
  let ver := bitsAt (leAt rd.data 3 1) 0 4
  let q := s.queue rd.gq
  { slice := rd.gq / 8, queue := rd.gq % 8, index := rd.index, raw := rd.data,
    e := if ver = 1 then fromV1 rd.data else rd.data, chain := q.chain,
    head := q.chain.bind (fun c => (s.job c.job).map (·.hdr)) }

/-- A malformed entry (02 R70 to R72): its status slot, SLC_FAULT, the halt; a malformed follower ends its chain. -/
def malformed (s : State) (x : EntryCtx) (reason : Reason) : State :=
  let place := if eFirst x.e then 0 else (x.chain.map (·.count)).getD 0
  let (_, s1) := writeStatus s x.gq x.index place (eTag x.e) ⟨0x10, reason.1, reason.2⟩
  let s2 := if eFirst x.e then s1 else closeChain s1 x.gq
  (haltSlice s2 x.slice x.queue x.index 0 reason.1 0).count ⟨0x108, 1, some x.slice, none, none⟩

/-- The earlier jobs whose release a new job waits for (02 R38, R58, 04 R126). -/
def awaitsOf (s : State) (x : EntryCtx) (h : Hdr) : List Nat :=
  let mine := s.fan.jobs.filter (fun j => j.gq == x.gq)
  if h.op = 2 then (s.fan.jobs.filter (fun j => j.slice == x.slice)).map (·.id)
  else if h.ordered || h.fence then mine.map (·.id)
  else (mine.filter (fun j => j.hdr.ordered)).map (·.id)

/-- A checked FIRST entry is handed over (04 R119, R123): its job enters the table, reading under its own epoch or the
latest published one (02 R39), or joins a delay list (04 R143). -/
def handover (s : State) (x : EntryCtx) (notBefore : EntryCtx → Nat) : State :=
  let h := hdrOf x.e
  let id := s.fan.nextJob
  let t := notBefore x
  let list := if s.flag F.slcCfg_class x.slice then 0 else 1
  let delayed := decide (s.reg .fanTick 0 < t)
  let aw := awaitsOf s x h
  let j : Job := { id := id, slice := x.slice, queue := x.queue, gen := s.fld F.slcGen_generation x.slice, index := x.index,
                   hdr := h, epoch := if h.snapshot then h.epoch else s.reg .mpdEpoch 0, entries := [x.e],
                   lastFetched := eLast x.e, started := false, awaits := aw,
                   counter := if aw.isEmpty then none else freeCounter s, delay := if delayed then some (list, t) else none, ntasks := none,
                   created := 0, outc := none, pnr := false, hostWrote := false, flushing := false, flushed := false,
                   evReserved := false, evHeld := false, txn := (s.queue x.gq).txn,
                   txns := (s.mpd.txns.filter (fun t => t.gq == x.gq)).map (·.num), pipe := none, rows := [], sumHi := 0,
                   sumLo := 0, progress := 0 }
  let s1 := { s with fan := { s.fan with jobs := s.fan.jobs ++ [j], nextJob := id + 1 } }
  let s2 := s1.setQueue x.gq (fun q => { q with
    ents := q.ents ++ [⟨x.index, id, false⟩],
    chain := if eLast x.e then none else some ⟨id, x.index, 1⟩ })
  let s3 := if delayed then (s2.addWrap (delayFld list) 0 1).count ⟨0x207, 1, some x.slice, none, none⟩ else s2
  let s4 := (s3.trace (j.traceOf s3 1)).count ⟨0x101, 1, some x.slice, none, none⟩
  queueFlags (fanCounts (if delayed then s4.trace (j.traceOf s4 9) else s4)) x.gq

/-- A checked follower joins its chain's job (02 R50, R52). -/
def follow (s : State) (x : EntryCtx) (c : Chain) : State :=
  let s1 := s.setJob c.job (fun j => { j with entries := j.entries ++ [x.e], lastFetched := eLast x.e })
  let s2 := s1.setQueue x.gq (fun q => { q with
    ents := q.ents ++ [⟨x.index, c.job, false⟩],
    chain := if eLast x.e then none else some { c with count := c.count + 1 } })
  queueFlags s2 x.gq

/-- The oldest ring read returns and the Weir checks its entry (02 R69, 03 R114, 17 R543). operands is the opcodes' own
rule (reason 0x0D), notBefore their not-before operand, onFirst what a FIRST entry opens at its fetch. -/
def entryFetch (operands : State → EntryCtx → OpRow → Option Nat) (notBefore : EntryCtx → Nat)
    (onFetch : State → EntryCtx → State) (s : State) : State :=
  match s.issued with
  | [] => s
  | rd :: rest =>
    let s1 := queueFlags { s with issued := rest } rd.gq
    let slice := rd.gq / 8
    if rd.gen ≠ s.fld F.slcGen_generation slice ∨ s.fld F.slcCfg_state slice = 3 then lateDiscard s1 slice
    else if sliceStopped s slice then s1
    else match rd.fault with
    | some code => haltSlice s1 slice (rd.gq % 8) rd.index 1 code 0
    | none =>
      let x := entryCtx s1 rd
      match entryReason operands s1 x with
      | some reason => malformed s1 x reason
      | none =>
        let s2 := match eFirst x.e, x.chain with
          | false, some c => follow s1 x c
          | _, _ => handover s1 x notBefore
        let s3 := onFetch s2 x
        timerCheck (drainChain s3 rd.gq) rd.gq

end Sys2Proof.Machine
end

