-- ==== Sys2Proof/Machine/Jobs.lean ====
section
/-! DEFINITION. Jobs from fetch to release: what a fetched FIRST entry opens, the control opcodes, PIPE_RUN and
INDEX_LOOKUP as they start, placing tasks on engines, how tasks and jobs end, release (02 R57 to R61, 03 R95 to R101, 04
R123 to R145, 05 R161, 07 R258, 13 R460 to R462). -/

namespace Sys2Proof.Machine

/-- The not-before tick of an entry (04 R143, 05 Table 5.4). -/
def notBeforeOf (x : EntryCtx) : Nat := if eOpcode x.e = 0x0100 then eParam1 x.e else 0

/-- Whether an opcode names a volume (10). -/
def volOpcode (op : Nat) : Bool := decide (0x0500 ≤ op ∧ op ≤ 0x0503) || decide (0x0702 ≤ op ∧ op ≤ 0x0705)

/-- Whether a volume is busy with a SANITISE, FORMAT or VOLUME_DELETE (10 R356, R373). -/
def volBusy (s : State) (v : Nat) : Bool :=
  match s.volOp v with
  | some o => o.op != 3
  | none => false

/-- The operation code of VOL_STATE and Table 10.4 for an opcode (10 R373). -/
def volOpCode (op : Nat) : Nat := if op = 0x0704 then 1 else if op = 0x0705 then 2 else 4

/-- VOLUME_DELETE, SANITISE or FORMAT at handover (10 R373): the volume's state changes, recorded for a SANITISE or FORMAT (R377), and the
job waits for the earlier jobs that name the volume. A REBUILD in progress ends; its port is rebuilt afterwards. -/
def volOpFetched (s : State) (j : Job) : State :=
  let v := volOf j
  let waits := (s.fan.jobs.filter (fun k => decide (k.id < j.id) && volOpcode k.hdr.op && volOf k == v)).map (·.id)
  let s1 := keepCmds s (fun c => !(c.vol == v && c.use == CmdUse.op))
  let more := match s.volOp v with
    | some o => o.port :: o.more
    | none => []
  let o : VolOp := { op := volOpCode j.hdr.op, job := some j.id, waits := waits, phase := 0, port := 0, next := 0, units := 0, resumed := false,
                     code := if j.hdr.op = 0x0705 then bitsAt (eParam0 j.first) 8 1 else 0, more := more }
  (recordProgress (s1.setVolOp v (some o)) v).setJob j.id (fun j => { j with pnr := true })

/-- A job of a volume that is busy ends with VOLUME_OFFLINE, detail 0 (10 R356, R373). -/
def volFetched (s : State) (j : Job) : State :=
  let v := volOf j
  let named := j.hdr.op != 0x0702 && volOpcode j.hdr.op
  if named && volBusy s v then
    fixJob s j.id (offline 0 (if decide (j.hdr.op ≤ 0x0503) then lbaOf j else 0))
  else if decide (0x0703 ≤ j.hdr.op ∧ j.hdr.op ≤ 0x0705) then volOpFetched s j
  else if j.hdr.op = 0x0702 then s.setJob j.id (fun j => { j with pnr := true })
  else s

/-- A job of group 0x01xx whose read epoch lies below the low-water epoch ends with SNAPSHOT_EXPIRED (09 R328). -/
def epochFetched (s : State) (j : Job) : State :=
  let low := s.reg .mpdLowWater 0
  if j.hdr.op / 256 = 1 ∧ j.epoch < low then fixJob s j.id ⟨0x71, 0, low⟩ else s

/-- The tap of a volume job's direction, as it stands at handover (12 R418, R421, Table 12.13). -/
def vtapFetched (s : State) (j : Job) : State :=
  if j.hdr.op / 256 = 5 then s.setJob j.id (fun j => { j with vtap := volTap s j }) else s

/-- What a job does as its FIRST entry is handed over (02 R56, 09 R306 to R309, R328, 10 R373, 17 R541). -/
def firstFetched (s : State) (x : EntryCtx) : State :=
  if !eFirst x.e then s
  else match s.fan.jobs.getLast? with
  | none => s
  | some j =>
    if j.hdr.op = 0x0600 then beginFetched s j
    else if j.hdr.op = 0x0601 then commitFetched s j
    else
      let s1 := memberFetched s j
      if j.hdr.op = 0x0701 then s1.setJob j.id (fun j => { j with pnr := true })
      else if volOpcode j.hdr.op then volFetched (vtapFetched s1 j) j
      else epochFetched s1 j

/-- The oldest ring read returns (02 R69). -/
def fetchEntry (s : State) : State := entryFetch operandForm notBeforeOf firstFetched s

/-- NOP (02 R57). -/
def nopOp (s : State) (id : Nat) : State :=
  match startJob s id 1 with
  | some _ => okJob s id 0
  | none => s

/-- FENCE (02 R58): it waits for every job it awaits. -/
def fenceOp (s : State) (id : Nat) : State :=
  match startJob s id 2 with
  | some _ => okJob s id 0
  | none => s

/-- The target of an ABORT or QUERY (02 R42, R59): the earliest unreleased job of the target queue with the tag, but for
the job itself. -/
def targetOf (s : State) (j : Job) : Option Job :=
  let p := eParam0 j.first
  s.fan.jobs.find? (fun k => k.gq == j.slice * 8 + p % 8 && k.hdr.tag == p / 65536 && k.id != j.id)

/-- The tasks of a job that are not yet complete (02 R61). -/
def tasksLeft (s : State) (j : Job) : Nat :=
  let live := s.fan.tasks.countP (fun t => t.job == j.id && !t.ended)
  if j.outc.isSome then live else live + (taskCount j - j.created)

/-- The result word of a QUERY (02 R61). -/
def queryWord (s : State) (t : Option Job) : Nat :=
  match t with
  | none => 0
  | some t => (if !t.lastFetched then 3 else if t.started then 2 else 1) + min (tasksLeft s t) 0xFFFF * 2 ^ 32

/-- QUERY (02 R61). -/
def queryOp (s : State) (id : Nat) : State :=
  match startJob s id 4 with
  | some j => okJob s id (queryWord s (targetOf s j))
  | none => s

/-- A message that an aborted DIGEST holds open or continues ends (12 R428). -/
def dropHeld (s : State) (t : Job) : State :=
  if t.hdr.op ≠ 0x0400 ∧ t.hdr.op ≠ 0x0401 then s
  else if dgHold t = true ∧ (s.task t.id 0).any Task.ended = true then
    match ctxOfHandle s t.slice (t.sumLo / 2 ^ 48) with
    | some (n, _) => s.setCtx n none
    | none => s
  else endHandle s t

/-- A job is ABORTED (02 R60, R73, 03 R98, R99). Its output is undefined: it is what the job's writes have left (R99, and R95 for a chain
that timed out; DESIGN CHOICE, log 61), but for a READ's buffer (10 R363). -/
def abortTarget (s : State) (t : Job) : State :=
  let mine := match (s.queue t.gq).chain with
    | some c => c.job == t.id
    | none => false
  let s1 := if mine then closeChain s t.gq else s
  let s2 := { s1 with mpd := { s1.mpd with ready := s1.mpd.ready.filter (fun n => t.txn != some n) } }
  let s3 := if t.hdr.op = 0x0500 then spoilRead s2 t (lbaOf t) else s2
  failJob ((dropHeld (dropJoins s3 t.id) t).setJob t.id (fun j => { j with outc := none })) t.id ⟨0x20, 0, 0⟩

/-- ABORT (03 R98 to R101). A job that waits for a tailrace slot or for its flush read has not begun its release, which is the write of
its last status slot (03, before R98). -/
def abortOp (s : State) (id : Nat) : State :=
  match startJob s id 3 with
  | none => s
  | some j =>
    match targetOf s j with
    | none => finishJob s id ⟨0x22, 0, 0⟩
    | some t =>
      if t.pnr then s.setJob id (fun j => { j with started := true, progress := t.id + 1 })
      else finishJob (abortTarget s t) id ⟨0x20, 0, 0⟩

/-- A job has no part in its queue's transaction (09 R307). -/
def leaveTxn (s : State) (j : Job) : State :=
  match j.txn with
  | none => s
  | some n => (s.setTxn n (fun t => { t with members := t.members.filter (· != j.id) })).setJob j.id (fun j => { j with txn := none })

/-- A PIPE_RUN of a program with TAPPEND outside a transaction commits by itself (09 R310): its transaction. -/
def ownTxn (s : State) (j : Job) : State :=
  let (n, s1) := openTxn s j.slice j.gq j.epoch false
  (s1.setTxn n (fun t => { t with fetched := true, job := some j.id })).setJob j.id (fun j => { j with txn := some n })

/-- A job whose tasks have all released reaches its outcome (02 Table 2.8, 09 R310, 10 R358 to R360, 11 R401, R406, 16
R517). A journalling WRITE or TRIM reaches it once its records have joined too. -/
def jobEnd (s : State) (id : Nat) : State :=
  match s.job id with
  | none => s
  | some j =>
    if j.outc.isSome || j.ntasks != some j.created || s.fan.tasks.any (fun t => t.job == id && t.state != .released) then s
    else
      let own : Option Txn := match j.txn.bind s.txn with
        | some t => if t.job = some id then some t else none
        | none => none
      match j.hdr.op / 256, own with
      | 1, some t =>
        { s with mpd := { s.mpd with ready := s.mpd.ready ++ [t.num] } }.setTxn t.num (fun t => { t with state := .ready })
      | 1, none => okJob s id j.epoch
      | 2, _ => okJob s id (j.sumHi % 2 ^ 16 * 2 ^ 48 + j.sumLo % 2 ^ 48)
      | 3, _ => okJob s id (j.sumHi % 2 ^ 32 * 2 ^ 32 + j.sumLo % 2 ^ 32)
      | 4, _ => finishJob s id ⟨j.sumHi, 0, j.sumLo⟩
      | _, _ => if journals s j then volumeEnd s id else okJob s id 0

/-- Whether the loader has a handed-over PIPE_RUN's container to check (05 R658). -/
def loadDue (s : State) (j : Job) : Bool :=
  j.hdr.op == 0x0100 && j.pipe.isNone && j.outc.isNone && !s.halted && s.fld F.slcCfg_state j.slice == 1

/-- The loader's checks of a handed-over PIPE_RUN (05 R658, 09 R307): a refused one has its outcome, and a program without
TAPPEND has no part in its queue's transaction. -/
def pipeLoad (s : State) (j : Job) : State :=
  match (loadProgram j).exec s with
  | (.error e, s1) => fixJob (if holdsAppend s j then s1 else leaveTxn s1 j) j.id e.toOutc
  | (.ok (key, p), s1) =>
    (if p.appends then s1 else leaveTxn s1 j).setJob j.id (fun k => { k with pipe := some (pipeJobOf k key p) })

/-- A loaded PIPE_RUN starts (05 R161, 09 R310, R342, R346): its tasks are numbered. -/
def pipeStart (s : State) (j : Job) (p : Prog) : State :=
  let n := eParam0 j.first
  if p.appends && s.readOnly then finishJob s j.id (offline 0 0)
  else if p.appends && replayHolds s then s
  else
    let s1 := if p.appends && j.txn.isNone then ownTxn s j else s
    let s2 := setTasks (s1.setJob j.id (fun k => { k with pipe := k.pipe.map (fun pj => { pj with binds := bindsOf k.entries }) })) j.id n
    if n = 0 then jobEnd s2 j.id else s2

/-- PIPE_RUN (05 R161, R658): its container is checked, at its handover or later, and it starts once it may. -/
def pipeRunOp (s : State) (id : Nat) : State :=
  match s.job id with
  | none => s
  | some j =>
    let s1 := if loadDue s j then pipeLoad s j else s
    match startJob s1 id 0x0100 with
    | none => s1
    | some k =>
      match k.pipe with
      | some pj => pipeStart s1 k pj.prog
      | none => s1

/-- PIPE_ARGS (05 R163): the bindings that its chain's PIPE_ARGS entries supply become the job's. -/
def pipeArgsOp (s : State) (id : Nat) : State :=
  s.setJob id (fun j => { j with pipe := j.pipe.map (fun pj => { pj with binds := bindsOf j.entries }) })

/-- INDEX_LOOKUP starts (07 R258, R261). -/
def lookupOp (s : State) (id : Nat) : State :=
  match startJob s id 0x0110 with
  | none => s
  | some j =>
    let n := eParam0 j.first
    let need := lookupLen n (fetchCols j.entries).length
    if n = 0 then okJob s id j.epoch
    else if eLen1 j.first < need then finishJob s id ⟨stShort, 1, need⟩
    else setTasks s id 1

/-- ROW_FETCH (07 R259, R260): the running task of an INDEX_LOOKUP whose chain holds ROW_FETCH tests its candidates,
fetches the named columns and writes its records. -/
def rowFetchOp (s : State) (id : Nat) : State :=
  match stoneOf s id 0 with
  | none => s
  | some (n, r) =>
    match s.job id with
    | none => s
    | some j =>
      if j.hdr.op ≠ 0x0110 ∨ r.total ≤ r.next ∨ runStops s r = true then s
      else stoneOp s id (do
        lookupOps (lookupOf j n)
        upd (fun s => s.setRun n (fun r => { r with next := r.total })))

/-- Whether a volume job would produce a journal record: its start does not end it at once (10 R356, R357). -/
def makesRecord (s : State) (j : Job) : Bool :=
  journals s j && (s.vol (volOf j)).any (fun e => (volStart s j e).isNone)

/-- READ, WRITE and TRIM start (10 R355 to R365): one that would journal waits for replay, or ends under read-only replay
(09 R342, R346). -/
def volumeJob (s : State) (id op : Nat) : State :=
  match startJob s id op with
  | none => s
  | some j =>
    if makesRecord s j && s.readOnly then finishJob s id (offline 0 0)
    else if makesRecord s j && replayHolds s then s
    else volumeOp s id op

/-- COMMIT (09 R309, R346). -/
def commitJob (s : State) (id : Nat) : State :=
  match startJob s id 0x0601 with
  | none => s
  | some j =>
    let left := match j.txn.bind s.txn with
      | some t => !t.members.isEmpty
      | none => false
    if s.readOnly && !left then
      finishJob (match j.txn with
        | some n => s.setTxn n (fun t => { t with state := .aborted })
        | none => s) id (offline 0 0)
    else commitOp s id

/-- TLB_INVAL_ADDR, TLB_INVAL_TAG and TLB_INVAL_ALL (13 R461, R462): the caches are purged; the job ends once the accesses
that used what was purged have completed. -/
def invalOp (s : State) (id op : Nat) : State :=
  match startJob s id op with
  | none => s
  | some j =>
    let q := invalOf j.first op
    if op = 0x0800 ∧ q.pages = 0 then okJob s id 0
    else (xltPurge s q).setJob id (fun j => { j with started := true, pnr := true })

/-- The guarantee of an invalidation holds (13 R462, R464). -/
def invalComplete (s : State) (job : Option Nat) : State :=
  match job with
  | none => s.setFlag F.xltInval_busy 0 false
  | some id =>
    match s.job id with
    | some j => if j.hdr.op / 256 = 8 ∧ j.started = true ∧ j.outc = none then okJob s id 0 else s
    | none => s

/-- Whether a job stands before another on its delay list: by due tick, then by the order in which they joined (04 R142). -/
def delayBefore (a b : Job) : Bool :=
  match a.delay, b.delay with
  | some (l, t), some (m, u) => l == m && (decide (t < u) || (t == u && decide (a.id < b.id)))
  | _, _ => false

/-- The job at the head of its delay list reaches its not-before tick (04 R142, R143). -/
def delayOut (s : State) (id : Nat) : State :=
  match s.job id with
  | none => s
  | some j =>
    match j.delay with
    | none => s
    | some (_, t) =>
      if s.fan.jobs.any (fun k => delayBefore k j) then s
      else
      let now := s.reg .fanTick 0
      leaveDelay (clockTo s ((s.cycle / 1600 + (t - now)) * 1600)) id

/-- The open chain's timer, first on delay list 2, expires (03 R94, R95, R97, 04 R142, R145). -/
def chainTimeout (s : State) (gq : Nat) : State :=
  match (s.queue gq).timer with
  | none => s
  | some t0 =>
    if s.fan.timers.head?.any (· != gq) then s
    else
    let now := s.reg .fanTick 0
    let due := t0 + s.fld F.wqChainTimeout_ticks 0
    let s1 := clockTo s ((s.cycle / 1600 + (due - now)) * 1600)
    if timerDue s1 gq then chainFail s1 gq else timerStop s1 gq

/-- Whether an LBA that a job writes is being rewritten after a mirror read (10 R359): the newer write waits for the older. -/
def rewriteAhead (s : State) (j : Job) : Bool :=
  j.hdr.op != 0x0500 && s.vols.cmds.any (fun c => c.use == .rewrite && c.vol == volOf j && decide (lbaOf j ≤ c.g ∧ c.g < lbaOf j + countOfJob j))

/-- Whether a volume task can be placed: a channel is idle (16 R510), and no rewrite of an LBA that it writes directly is in flight. -/
def storageGrantable (s : State) (j : Job) : Bool :=
  !((s.vol (volOf j)).any (·.table) && rewriteAhead s j) && !(poolIdle s).isEmpty

/-- A volume task is placed (16 R510). -/
def storageDispatch (s : State) (j : Job) (part : Nat) : State :=
  match takeEngineChan s j part 0 .storage with
  | none => s
  | some s1 => volDispatch s1 j

/-- The resources of a task of an engine other than a stone are given back. -/
def freeEngine (s : State) (id part : Nat) : State := freeEngineChan (freeCtxs s id) id part

/-- Whether a task of an engine list can be placed now. -/
def engineGrantable (s : State) (e : Engine) (t : Task) : Bool :=
  match s.job t.job with
  | none => false
  | some j =>
    match e with
    | .quern => !(poolIdle s).isEmpty
    | .toll => if t.tapWait then (freeCtx s).isSome else tollGrantable s j && !(poolIdle s).isEmpty
    | .storage => storageGrantable s j
    | _ => true

/-- A Toll task takes a channel and its context (12 R415, 16 R510). -/
def tollDispatch (s : State) (j : Job) (part : Nat) : State :=
  match takeEngineChan s j part 0 .toll with
  | none => s
  | some s1 => if j.hdr.op = 0x0400 ∨ j.hdr.op = 0x0401 then digestDispatch s1 j part else contextDispatch s1 j part

/-- The task of a tapped job takes its tap's context, and joins its own engine's list (12 R415, R435). -/
def tapGrant (s : State) (j : Job) (t : Task) : State :=
  match tapAsk j t.part with
  | none => s
  | some (alg, tap) =>
    match grantTap s j.slice (some (j.id, t.part)) alg tap with
    | none => s
    | some (_, s1) => s1.setTask t.job t.part (fun t => { t with tapWait := false })

/-- An idle engine takes the highest-ranked task of its list that it can be granted (04 R125, R133). -/
def dispatchEngine (s : State) (e : Engine) (unit : Nat) : State :=
  let idle := match e with
    | .quern => decide (unit < 16) && (s.quern unit).isNone
    | .sluice => (poolIdle s).contains unit
    | _ => true
  let ts := (readyList s e unit).filter (engineGrantable s e)
  if !idle || s.halted then s
  else match topTask ts with
  | none => s
  | some t =>
    match s.job t.job with
    | none => s
    | some j =>
      let s1 := s.setTask t.job t.part (fun t => { t with state := .placed unit })
      if t.tapWait then tapGrant s j t
      else match e with
      | .quern => quernDispatch s1 j t.part unit
      | .toll => tollDispatch s1 j t.part
      | .sluice => sluiceDispatch s1 j t.part unit
      | .storage => storageDispatch s1 j t.part
      | _ => s

/-- An idle stone or engine takes the highest-ranked task of its own list (04 R133). -/
def dispatchHome (s : State) (e : Engine) (unit : Nat) : State :=
  match e with
  | .stone => dispatchStone s unit
  | _ => dispatchEngine s e unit

/-- A task ends: it completes, and its job with its last. -/
def endTask (s : State) (id part : Nat) : State := jobEnd (completeTask s id part) id

/-- A stone's task ends: its EPILOGUEs, or an INDEX_LOOKUP's work, then the stone is free (05 R184). -/
def completeStone (s : State) (id part : Nat) : State :=
  match stoneOf s id part, s.job id with
  | some (n, r), some j =>
    if !mayStep s n r || !r.drained || !r.merged then s
    else
      let work : Op Unit := match ctxOf s n r 1 2 0 with
        | some c => runAll c 2
        | none => if j.hdr.op = 0x0110 ∧ r.total = 0 then lookupOps (lookupOf j n) else pure ()
      match work.exec s with
      | (.error e, s1) => stoneError s1 id e
      | (.ok _, s1) => endTask (freeStone s1 n) id part
  | _, _ => s

/-- The outcome of a Toll task, once it has one: a digest's, or the work of CONTEXT_SAVE and CONTEXT_RESTORE. -/
def tollWork (s : State) (j : Job) (part : Nat) : Option (Outc × State) :=
  match j.hdr.op with
  | 0x0402 => some (saveWork s j)
  | 0x0403 => some (restoreWork s j part)
  | _ => digestComplete s j part

/-- A Toll task ends (12 R423 to R434). A CONTEXT_SAVE or CONTEXT_RESTORE that changed a context is past its point of no
return (03 R100). -/
def completeToll (s : State) (j : Job) (part : Nat) : State :=
  if !chanFlows s j.id part then s
  else match tollWork s j part with
  | none => s
  | some (o, s1) =>
    let s2 := freeEngineChan s1 j.id part
    if 2 ≤ o.status then dropTask (failJob (freeCtxs s2 j.id) j.id o) j.id part
    else endTask (s2.setJob j.id (fun k => { k with sumHi := o.status, sumLo := o.result, pnr := decide (0x0402 ≤ j.hdr.op) })) j.id part

/-- The context of a task's tap. -/
def tapCtx (s : State) (id part : Nat) : Option Nat := (ctxOfJob s id part).map Prod.fst

/-- A volume task ends: its commands have ended; its tap record is written (12 R420). -/
def completeStorage (s : State) (j : Job) (part : Nat) : State :=
  if !volDrained s j.id || !chanFlows s j.id part || !tapDone s (tapCtx s j.id part) then s
  else match (recordTap (j.req .toll) (some j.id) j.hdr.tag (tapCtx s j.id part)).exec s with
  | (.error e, s1) => dropTask (failJob (freeEngine s1 j.id part) j.id e.toOutc) j.id part
  | (.ok _, s1) => endTask (freeEngine s1 j.id part) j.id part

/-- The Quern that runs a task. -/
def quernOf (s : State) (id part : Nat) : Option (Nat × Quern) :=
  s.units.querns.findSome? (fun x => match x.2 with
    | some q => if q.job = id ∧ q.part = part then some (x.1, q) else none
    | none => none)

/-- A Quern's task ends once its last block is written and its tap absorbed: the tap's record is written (11 R411, 12 R420). -/
def completeQuern (s : State) (j : Job) (part : Nat) : State :=
  match quernOf s j.id part with
  | none => s
  | some (q, x) =>
    if !x.ended || !tapDone s x.ctx then s
    else match (recordTap (j.req .toll) (some j.id) j.hdr.tag x.ctx).exec s with
    | (.error e, s1) => dropTask (freeQuern (failJob s1 j.id e.toOutc) q) j.id part
    | (.ok _, s1) => endTask (freeQuern s1 q) j.id part

/-- A Sluice task ends: its channel is done with its descriptors, and its tap is absorbed: the tap's record is written (12 R420, 16 R519). -/
def completeSluice (s : State) (j : Job) (part : Nat) : State :=
  match engineChan s j.id part with
  | none => endTask s j.id part
  | some c =>
    if !(s.slu c).descs.isEmpty || !tapDone s (s.slu c).ctx then s
    else match (recordTap (j.req .toll) (some j.id) j.hdr.tag (s.slu c).ctx).exec s with
    | (.error e, s1) => chanJobFault s1 c j.id part e
    | (.ok _, s1) => endTask (chanRelease s1 c) j.id part

/-- A task that is to stop ends without completing, at its engine's boundary (04 R129, 11, 12 R428, 16 R518). -/
def stopEngineTask (s : State) (t : Task) : State :=
  match t.engine with
  | .sluice => match engineChan s t.job t.part with
    | some c => if (s.slu c).descs.isEmpty then dropTask (chanRelease s c) t.job t.part else s
    | none => dropTask s t.job t.part
  | .quern => match quernOf s t.job t.part with
    | some (q, _) => dropTask (freeQuern s q) t.job t.part
    | none => dropTask s t.job t.part
  | .storage => if volDrained s t.job then dropTask (freeEngine s t.job t.part) t.job t.part else s
  | _ => dropTask (freeEngine s t.job t.part) t.job t.part

/-- A task reports completion to the Fantail (05 R184, 04 R127). -/
def taskComplete (s : State) (id part : Nat) : State :=
  match s.job id, s.task id part with
  | some j, some t =>
    match t.state, t.engine with
    | .placed _, .stone => completeStone s id part
    | .placed _, e =>
      if t.stop || j.outc.isSome then stopEngineTask s t
      else match e with
      | .quern => completeQuern s j part
      | .toll => completeToll s j part
      | .sluice => completeSluice s j part
      | .storage => completeStorage s j part
      | _ => s
    | _, _ => s
  | _, _ => s

/-- A held task of a flow is released in its turn (04 R138). -/
def flowRelease (s : State) (id part : Nat) : State :=
  match s.job id, s.task id part with
  | some j, some t =>
    if t.state == .complete && flowTurn s j part then
      jobEnd (releaseTask (s.trace { (j.traceOf s 7) with part := part, counter := 0, mill := t.home }) id part) id
    else s
  | _, _ => s

/-- Volume operations that waited for a job (10 R373). -/
def volWaiters (s : State) (id : Nat) : State :=
  { s with vols := { s.vols with ops := s.vols.ops.map (fun x => (x.1, { x.2 with waits := x.2.waits.filter (· != id) })) } }

/-- What follows a job's release: its transaction, the volume operations and the pins that it held (09 R309, R326, R344, 10
R373). -/
def afterRelease (s : State) (j : Job) (o : Outc) : State :=
  truncate (updateLow (volWaiters (txnReleased (memberReleased (freeCtxs s j.id) j o) j) j.id))

/-- A job releases, as far as it may go now (01 R25, 03 R88 to R92). -/
def jobRelease (s : State) (id : Nat) : State :=
  match s.job id with
  | none => s
  | some j =>
    match j.outc with
    | none => s
    | some o =>
      if commitWaits s j then s
      else
        let s1 := tryRelease s id
        if (s1.job id).isSome then s1 else afterRelease s1 j o

/-- The zero-length read that BARRIER waits for completes (02 R41, 16 R520). -/
def flushReadDone (s : State) (t : FlushTarget) : State :=
  match t with
  | .job id =>
    match s.job id with
    | some j => if j.flushing then
        jobRelease (s.setJob id (fun j => { j with flushing := false, flushed := true })) id
      else s
    | none => s
  | .channel c => chanFlushDone s c

/-- The stage whose instruction is in turn on a stone: one that runs a step, else one that holds a batch whose step is not done. -/
def busyStage (r : Run) : Option (Nat × Stage) :=
  match r.stages.find? (fun x => x.2.running) with
  | some x => some x
  | none => r.stages.find? (fun x => x.2.batch.isSome && !x.2.stepped)

/-- STN_FAULT of the stone that runs a job's task, where an error is met by a read made for the job (05 R191). -/
def stoneReadFault (s : State) (id : Nat) (e : Err) : State :=
  match s.pipe.stones.findSome? (fun x => x.2.run.bind (fun r => if r.job = id then some (x.1, r) else none)) with
  | none => s
  | some (stone, r) =>
    match busyStage r with
    | none => s
    | some (k, st) =>
      match ctxOf s stone r k 1 0 with
      | none => s
      | some c =>
        let s1 := recordStnFault s { c with num := (stageTurn c st).1 } e
        s1.setRun stone (fun r => r.setStage k (fun st => { st with running := false }))

/-- A read made for a job meets an error (05 R191, 09 R663, 14 R485, 15 R504): the job fails; a transaction whose claims are being made
ends as for a failed claim. -/
def accessFault (s : State) (id cls : Nat) : State :=
  let o := (Err.device cls).toOutc
  match (s.job id).bind (fun j => j.txn.bind s.txn) with
  | some t => if t.job = some id ∧ t.state = .ready ∧ s.mpd.ready.contains t.num then finishJob (claimsUndone s t.num) id o
              else failJob (stoneReadFault s id (.device cls)) id o
  | none => failJob (stoneReadFault s id (.device cls)) id o

/-- A completion for a read of host memory arrives (05 R191, 16 R530, 18 Table 18.5). Success changes nothing: the data came with the
access. An error of a job's read fails the job with DEVICE_FAULT class HOST_COMPLETION; an error of a line's is what the next read or
AtomicOp of the line meets (log 62). -/
def hostCompletion (s : State) (r : HostRead) (error : Bool) : State :=
  match r, error with
  | _, false => s
  | .job id, true =>
    if (s.job id).isNone then s else accessFault (s.count ⟨0x906, 1, (s.job id).map (·.slice), none, none⟩) id 6
  | .line l, true =>
    if isHost (l * 64) && !s.gran.hostErr.contains l then { s with gran := { s.gran with hostErr := s.gran.hostErr ++ [l] } } else s

end Sys2Proof.Machine
end

