-- ==== Sys2Proof/Machine/Slices.lean ====
section
/-! DEFINITION. Slices: SLICE_CREATE, SLICE_RESET and the end of its waits, the manager's writes to the slice window, the
MSI-X table's reset (17 R532 to R552, R664). -/

namespace Sys2Proof.Machine

/-- The queues of a slice. -/
def sliceQueues (n : Nat) : List Nat := (List.range 8).map (fun q => n * 8 + q)

/-- A slice's bucket filled to its size (17 R540, R549). -/
def bucketFill (s : State) (n : Nat) : State := s.setFld F.slcBwStat_tokens n (bucketSize s n)

/-- A queue configured by a SLICE_CREATE follower (17 Table 17.3, R540). -/
def createQueue (s : State) (n : Nat) (f : List Byte) : State :=
  let gq := n * 8 + leAt f 32 1 % 8
  let weight := leAt f 35 1
  let burst := leAt f 36 1
  let s1 := ((s.setReg .wqRingBase gq (leAt f 8 8)).setReg .wqStatusBase gq (leAt f 16 8)).setReg .wqHeadAddr gq (leAt f 24 8)
  let s2 := ((s1.setFld F.weirQcfg_weight gq weight).setFld F.weirQcfg_burst_m1 gq burst).setFld F.weirQcfg_jobs_max gq (leAt f 40 2)
  let s3 := ((s2.setFld F.weirQstat_weight_active gq weight).setFld F.weirQstat_burst_active_m1 gq burst).setFld F.weirQstat_credit gq 0
  queueEnable s3 gq (2 ^ 31 + leAt f 34 1 % 2 * 2 ^ 30 + leAt f 33 1 * 2 ^ 16 + leAt f 38 2)

/-- The registers that SLICE_CREATE's FIRST entry gives a slice (17 Table 17.2, R540). -/
def sliceConfig (s : State) (n : Nat) (e : List Byte) : State :=
  let p := eParam0 e
  let mode := bitsAt p 23 2
  let depth := bitsAt p 18 5
  let lossless := if mode = 0 then s.flag F.devCfg_ev_lossless 0 else mode == 3
  let s1 := (((s.setReg .slcCfg n 0).setFld F.slcCfg_vectors_m1 n (bitsAt p 13 5)).setFld F.slcCfg_vector_base n (bitsAt p 0 11)).setFlag
    F.slcCfg_class n (bitAt p 25)
  let s2 := (s1.setFlag F.slcPasid_enable n (bitAt (eParam1 e) 20)).setFld F.slcPasid_pasid n (eParam1 e)
  let s3 := bucketFill (((s2.setFld F.slcBwCfg_rate n (eLen0 e)).setFld F.slcBwCfg_burst_kib n (eLen1 e)).setLimit n (eLen0 e, eLen1 e)) n
  let s4 := (s3.setFld F.slcS1Root_root n (eAddr0 e / 4096)).setFlag F.slcS1Root_enable n (eAddr0 e != 0)
  let s5 := ((s4.setFld F.slcEvBase_base n (eAddr1 e / 4096)).setFld F.slcEvCfg_depth_log2 n depth).setFlag F.slcEvCfg_lossless n lossless
  ((s5.setFlag F.slcEvCfg_enable n (depth != 0)).setReg .slcEvHead n 0).setReg .slcEvTail n 0

/-- SLICE_CREATE (17 R539, R540): the slice configured in one step. -/
def sliceCreate (s : State) (id : Nat) : State :=
  match startJob s id 0x0700 with
  | none => s
  | some j =>
    let n := eParam0 j.first / 2 ^ 26
    let s7 := (j.entries.drop 1).foldl (fun t f => createQueue t n f) (sliceConfig s n j.first)
    okJob ((s7.setFld F.slcCfg_state n 1).setJob id (fun k => { k with pnr := true })) id (s7.fld F.slcGen_generation n)

/-- The pending bits of a slice's vectors are cleared and their messages cancelled (17 R541 step 5). -/
def clearSlicePending (s : State) (n : Nat) : State :=
  let v := s.fld F.slcCfg_vector_base n
  (List.range (s.fld F.slcCfg_vectors_m1 n + 1)).foldl (fun t k =>
    t.setVector (v + k) { t.vector (v + k) with pending := false }) s

/-- A job of a slice that is reset: what has not passed its point of no return ends (17 R541 steps 3 and 4, R545); a BEGIN
has its outcome at handover (09 R306). -/
def resetJob (s : State) (old : Nat) (k : Job) : State :=
  let s1 := (leaveDelay s k.id).setJob k.id (fun j => { j with lastFetched := true })
  if k.outc.isSome then s1
  else if k.hdr.op = 0x0600 then finishJob s1 k.id ⟨0, 0, k.epoch⟩
  else if k.pnr then s1
  else failJob (dropJoins s1 k.id) k.id ⟨0xA0, 0, old⟩

/-- The transactions of a slice that no COMMIT has carried past its point of no return end in ABORT records (17 R545). -/
def resetTxns (s : State) (n : Nat) : State :=
  let mine := s.mpd.txns.filter (fun t => t.slice == n && (t.state == .open_ || t.state == .ready))
  mine.foldl (fun s t => endTxn (abortTxn s t.num (txnReq s t).tag) t.num) s

/-- The drive reads of a slice's jobs are of its old generation: what they return is discarded (17 R543). -/
def resetReads (s : State) (n : Nat) : State :=
  let mine (job : Nat) : Bool := (s.job job).any (fun j => j.slice == n)
  { s with vols := { s.vols with cmds := s.vols.cmds.map (fun c => match c.use with
      | .read job _ _ => if mine job then { c with use := .late n (s.fld F.slcGen_generation n) } else c
      | _ => c) } }

/-- The Toll contexts that a slice holds are freed (17 R541 step 3, 12 R428). -/
def freeHeld (s : State) (n : Nat) : State :=
  s.units.ctxs.foldl (fun t x => match x.2 with
    | some c => if c.slice = n ∧ c.isHeld = true ∧ c.job = none then t.setCtx x.1 none else t
    | none => t) s

/-- The accesses of a slice that its bucket holds are dropped, each counted as discarded (17 R541 step 2, R543). -/
def dropHolds (s : State) (n : Nat) : State :=
  let mine := s.gran.holds.filter (fun a => a.slice == n)
  mine.foldl (fun t _ => lateDiscard t n) { s with gran := { s.gran with holds := s.gran.holds.filter (fun a => a.slice != n) } }

/-- Steps 1 to 5 of a slice reset (17 R541). -/
def resetBegin (s : State) (id n : Nat) (destroy report : Bool) : State :=
  let old := s.fld F.slcGen_generation n
  let jobs := s.fan.jobs.filter (fun k => k.slice == n)
  let r : SliceReset := { slice := n, job := id, begun := true, oldGen := old, count := jobs.length, destroy := destroy, report := report }
  let s1 := (sliceQueues n).foldl closeChain (s.setFld F.slcCfg_state n 3)
  let s2 := (resetReads s1 n).setFld F.slcGen_generation n (old + 1)
  let s3 := dropHolds s2 n
  let s4 := jobs.foldl (fun t k => resetJob t old k) s3
  let s5 := dropTasks s4 (fun t => taskSlice s4 t == n && !t.started && !t.ended)
  let s6 := fanCounts (stopTasks s5 (fun t => taskSlice s5 t == n))
  let s7 := freeHeld { s6 with mpd := { s6.mpd with snaps := s6.mpd.snaps.filter (fun p => p.1 != n) } } n
  let s8 := clearSlicePending (updateLow (resetTxns s7 n)) n
  { s8 with resets := s8.resets ++ [r] }.setJob id (fun k => { k with started := true })

/-- Whether a SLICE_RESET must wait: another reset of the slice runs, or a tag of its new generation is still held (17 R544). -/
def resetWaits (s : State) (n : Nat) : Bool :=
  let new := (s.fld F.slcGen_generation n + 1) % 2 ^ 16
  s.resets.any (fun r => r.slice == n) || s.issued.any (fun r => r.gq / 8 == n && r.gen == new) ||
    s.vols.cmds.any (fun c => c.use == .late n new) ||
    s.fan.jobs.any (fun k => k.slice == n && k.gen == new)

/-- SLICE_RESET (17 R541, R544): it waits while another reset of the slice runs, and where a tag of its new generation is
still held; a slice that the first reset destroyed needs nothing. -/
def sliceReset (s : State) (id : Nat) : State :=
  match startJob s id 0x0701 with
  | none => s
  | some j =>
    let p := eParam0 j.first
    let n := p / 2 ^ 26
    if resetWaits s n then s
    else if s.fld F.slcCfg_state n = 0 then okJob s id (2 ^ 64 - 1)
    else resetBegin s id n (bitAt p 25) (bitAt p 24)

/-- Whether steps 6 and 7 of a slice reset have nothing left to wait for (17 R541): every job past its point of no return has
its outcome, no task of the slice is on a stone or an engine, no drive write of it is in flight. -/
def resetDone (s : State) (n : Nat) : Bool :=
  s.fan.jobs.all (fun k => k.slice != n || k.outc.isSome) &&
    s.fan.tasks.all (fun t => taskSlice s t != n || !t.started) &&
    s.vols.cmds.all (fun c => match c.use with
      | .write job => !((s.job job).any (fun j => j.slice == n))
      | _ => true) &&
    s.mpd.joinQ.all (fun r => match r.job with
      | some job => !((s.job job).any (fun j => j.slice == n))
      | none => true)

/-- The place of an entry in its job's chain, as its status slot shows it. -/
def entryPlace (q : Queue) (x : QEnt) : Nat := ((q.ents.takeWhile (fun y => y.index != x.index)).filter (fun y => y.job == x.job)).length

/-- SLICE_RESET_DISCARD written into the status slots of a queue's unreleased entries, in ring order; whether every write
was made (17 R541 step 8). -/
def reportSlots (gq old : Nat) : List (Nat × Nat × Nat) → State → Bool × State
  | [], s => (true, s)
  | (index, place, tag) :: rest, s =>
    match writeStatus s gq index place tag ⟨0xA0, 0, old⟩ with
    | (.ok _, s1) => reportSlots gq old rest s1
    | (.error _, s1) => (false, s1)

/-- Step 8 of a slice reset for one queue (17 R541). -/
def reportQueue (s : State) (gq old : Nat) : State :=
  let q := s.queue gq
  if q.ents.isEmpty then s
  else
    let todo := (q.ents.filter (fun x => !x.released)).map (fun x =>
      (x.index, entryPlace q x, ((s.job x.job).map (·.hdr.tag)).getD 0))
    match reportSlots gq old todo s with
    | (false, s1) => s1
    | (true, s1) =>
      let h := (s1.head gq + q.ents.length) % 2 ^ 32
      let word := natLE 8 (h + s1.fld F.slcGen_generation (gq / 8) * 2 ^ 32)
      ((writeMem (ringReq gq) (s1.fld F.wqHeadAddr_addr gq * 8) word).exec s1).2

/-- A slice's programs leave the check cache and every program cache (05 R183). -/
def purgePrograms (s : State) (n : Nat) : State :=
  { s with pipe := { checked := s.pipe.checked.filter (fun x => x.1.slice != n),
                     stones := s.pipe.stones.map (fun x => (x.1, { x.2 with programs := x.2.programs.filter (fun p => p.key.slice != n) })) } }

/-- The last-stone records of a slice's flows are cleared (04 R141). -/
def clearFlows (s : State) (n : Nat) : State :=
  ((s.regInsts .fanFlowCfg).map Prod.fst).foldl (fun t f =>
    if t.fld F.fanFlowCfg_owner f = n then (t.setFlag F.fanFlowCfg_last_valid f false).setFld F.fanFlowCfg_last_stone f 0 else t) s

/-- The registers of a slice's page that a reset returns to their reset values (17 R541 step 10). -/
def pageRegs : List RegRow := regRowsPage.filter (fun r => r.reg != .slcS1Root && r.reg != .slcLateDiscards)

/-- The window registers of a slice's queues that a reset returns to their reset values. -/
def queueRegs : List Reg := [.wqCfg, .wqRingBase, .wqStatusBase, .wqHeadAddr, .wqState, .weirQcfg, .weirQstat]

/-- The registers of a slice that a reset returns to their reset values. -/
def sliceRegs : List Reg := [.slcEvBase, .slcEvCfg, .xltFault, .xltFaultSva, .xltFaultSpa, .slcBwStat]

/-- A slice's registers return to their reset values (17 R541 step 10). -/
def resetSliceRegs (s : State) (n : Nat) : State :=
  let qs := sliceQueues n
  let s1 := pageRegs.foldl (fun t r =>
    if r.insts = 512 then qs.foldl (fun t q => t.resetReg r.reg q) t else t.resetReg r.reg n) s
  let s2 := queueRegs.foldl (fun t r => qs.foldl (fun t q => t.resetReg r q) t) s1
  let s3 := sliceRegs.foldl (fun t r => t.resetReg r n) s2
  { s3 with queues := tclear (fun _ => Queue.empty) s3.queues qs, tails := tset (fun _ => Tail.empty) s3.tails n Tail.empty }

/-- The jobs of a slice leave the job table; what waited for them goes on (17 R541, 10 R373). -/
def dropSliceJobs (s : State) (n : Nat) : State :=
  let jobs := s.fan.jobs.filter (fun k => k.slice == n)
  let txns := s.mpd.txns.filter (fun t => t.slice == n)
  let s1 := freeHeld (jobs.foldl (fun t k => volWaiters (freeCtxs t k.id) k.id) s) n
  let s2 := { s1 with fan := { s1.fan with jobs := s1.fan.jobs.filter (fun k => k.slice != n),
                                           tasks := s1.fan.tasks.filter (fun t => taskSlice s1 t != n) } }
  updateLow (fanCounts (txns.foldl (fun t x => endTxn t x.num) s2))

/-- Steps 8 to 11 of a slice reset, once steps 6 and 7 have nothing to wait for (17 R541, R549, R552). -/
def resetDrained (s : State) (n : Nat) : State :=
  match s.resets.find? (fun r => r.slice == n) with
  | none => s
  | some r =>
    if s.halted || !resetDone s n then s
    else
      let s1 := if r.report then (sliceQueues n).foldl (fun t q => reportQueue t q r.oldGen) s else s
      let s2 := truncate (dropSliceJobs s1 n)
      let s3 := xltPurge s2 { op := 1, stage1 := true, stage2 := true, slice := n, addr := 0, pages := 0 }
      let s4 := resetSliceRegs (clearFlows (purgePrograms s3 n) n) n
      let s5 := if r.destroy then (((s4.resetReg .slcCfg n).resetReg .slcPasid n).resetReg .slcBwCfg n).setLimit n (0, 0)
        else bucketFill (s4.setFld F.slcCfg_state n 1) n
      let s6 := (s5.addWrap F.slcGen_resets n 1).count ⟨0xF01, 1, some n, none, none⟩
      okJob { s6 with resets := s6.resets.filter (fun x => x.slice != n) } r.job
        (s6.fld F.slcGen_generation n + r.count % 2 ^ 32 * 2 ^ 16)

/-- A write of SLC_CFG (17 R546, R552): the class, of a slice that is neither ABSENT nor RESETTING. -/
def slcCfgWrite (s : State) (n value : Nat) : State :=
  let st := s.fld F.slcCfg_state n
  if st = 0 ∨ st = 3 then s else s.setFlag F.slcCfg_class n (bitAt value 29)

/-- A write of SLC_PASID (17 Table 17.8, R535): slice 0's alone. -/
def slcPasidWrite (s : State) (n value : Nat) : State :=
  let taken := (sliceClaims s).any (fun x => x.1 != 0 && x.2.2.2 == some (bitsAt value 0 20))
  if n ≠ 0 ∨ (bitAt value 31 = true ∧ taken = true) then s
  else (s.setFlag F.slcPasid_enable n (bitAt value 31)).setFld F.slcPasid_pasid n value

/-- A write of SLC_BW_CFG (17 Table 17.10, R549, R552): it applies from the next tick. -/
def slcBwWrite (s : State) (n value : Nat) : State :=
  let rate := bitsAt value 16 13
  let kib := bitsAt value 0 16
  if s.fld F.slcCfg_state n = 3 ∨ 6144 < rate ∨ (rate ≠ 0 ∧ kib = 0) then s
  else (s.setFld F.slcBwCfg_rate n rate).setFld F.slcBwCfg_burst_kib n kib

/-- The MSI-X table and the messages held pending after a reset (17 R664). -/
def msixReset (s : State) : State := { s with msix := { s.msix with table := [] } }

end Sys2Proof.Machine
end

