-- ==== Sys2Proof/Machine/MemEvents.lean ====
section
/-! DEFINITION. The Granary's and the DRAM controller's own events: fills, maintenance, switching the Granary off, reads and
their ECC checks, refresh, temperature bands, the patrol, self-refresh (14 R475 to R485, 15 R490 to R507, 17 R548). -/

namespace Sys2Proof.Machine

/-- The job a memory error fails (14 R485, 15 R504). -/
def failAccess (s : State) (job : Option Nat) (cls : Nat) : State :=
  match job with
  | none => s
  | some id => accessFault s id cls

/-- GRN_ERR takes an uncorrectable error where valid is 0, and its device event (14 R485). -/
def granError (s : State) (line : Nat) (dirty : Bool) : State :=
  let b := granBank (line * 64)
  let at_ := line * 64 + b * 2 ^ 52
  let s1 := if s.flag F.grnErr_valid 0 then s else s.setReg .grnErr 0 (2 ^ 63 + boolNat dirty * 2 ^ 62 + at_)
  s1.devEvent (if dirty then 0x0E01 else 0x0E02) at_

/-- The request of a line access. -/
def lineReq (a : LineAccess) (s : State) : Req :=
  let j := a.job.bind s.job
  { slice := a.slice, agent := .stone a.stone, queue := (j.map (·.queue)).getD 0, tag := (j.map (·.hdr.tag)).getD 0 }

/-- The access itself (14 Table 14.1): an allocating read, or a write. -/
def lineOp (s : State) (a : LineAccess) : Op Unit :=
  let attr := if a.writeBack then attrWB else attrWT
  match a.write with
  | none => do
    let _ ← granRead (lineReq a s) attr a.dpa
    pure ()
  | some b => granWrite (lineReq a s) attr a.dpa (b.take (64 - a.dpa % 64))

/-- The access made; an error of DRAM fails its job (15 R504). -/
def lineDo (s : State) (a : LineAccess) : State :=
  match (lineOp s a).exec s with
  | (.ok _, s1) => s1
  | (.error e, s1) => match a.job with
    | some id => failJob s1 id e.toOutc
    | none => s1

/-- Whether an access must wait for its slice's bucket: it misses and its line lies in DRAM (17 R548). -/
def lineHeld (s : State) (a : LineAccess) : Bool :=
  (granFind s a.dpa).isNone && isLocal s a.dpa && (s.limit a.slice).1 != 0 &&
    decide (s.fld F.slcBwStat_tokens a.slice < 64)

/-- A line access: made, or held at its bank until the bucket can pay (17 R548). -/
def lineStart (s : State) (a : LineAccess) : State :=
  if lineHeld s a then
    ({ s with gran := { s.gran with holds := s.gran.holds ++ [a] } }.addSat F.slcBwStat_waits a.slice 1).count
      ⟨0xF02, 1, some a.slice, none, none⟩
  else lineDo s a

/-- Every line dropped (14 R482, R484). -/
def granDropAll (s : State) : State :=
  { s with gran := { s.gran with ways := [], plru := [] } }.setFld F.grnStatus_dirty_lines 0 0

/-- No dirty line is left while DRAINING: every line is dropped and the state becomes DISABLED (14 R482). -/
def granDrained (s : State) : State :=
  if s.fld F.grnStatus_state 0 = granDraining ∧ s.fld F.grnStatus_dirty_lines 0 = 0 then
    (granDropAll s).setFld F.grnStatus_state 0 granDisabled
  else s

/-- LINE_FILL (14 R475, R476, R485): the arrays' check of a held line, then the access. -/
def lineFill (s : State) (a : LineAccess) : State :=
  if !(isLocal s a.dpa || isHost a.dpa) || 64 ≤ a.slice then s
  else match granFind s a.dpa, a.check with
  | some _, .corrected => lineStart ((s.addSat F.grnErrCnt_corrected 0 1).count ⟨0x60B, 1, none, none, none⟩) a
  | some (k, l), .uncorrectable =>
    let s1 := s.setWay k none
    if l.dirty then
      let (v, s2) := s1.drawFree
      failAccess (granDrained (granError (dramWrite s2 noSlice l.line (natLE 64 v) true) l.line true)) a.job 4
    else lineStart (granError s1 l.line false) a
  | _, _ => lineStart s a

/-- Held accesses whose bucket can now pay are made, oldest first (17 R548). -/
def releaseHolds (s : State) : State :=
  let hs := s.gran.holds
  hs.foldl lineRelease { s with gran := { s.gran with holds := [] } }
where
  /-- One held access made, or held on. -/
  lineRelease (t : State) (a : LineAccess) : State :=
    if lineHeld t a then { t with gran := { t.gran with holds := t.gran.holds ++ [a] } } else lineDo t a

/-- A tick of 1 µs passes (04 Table 4.13): the buckets refill and held transfers go (17 R548). -/
def tick (s : State) : State := releaseHolds (nextTick s)

/-- The ways that hold lines, as they are held. -/
def heldWays (s : State) : List (Nat × GLine) :=
  s.gran.ways.filterMap (fun x => x.2.map (fun l => (x.1, l)))

/-- A dirty line written back; it stays held, clean (14 Table 14.2). -/
def granClean (s : State) (k : Nat) (l : GLine) : State :=
  if l.dirty then (dramWrite s noSlice l.line l.data false).setWay k (some { l with dirty := false }) else s

/-- The bytes of a line that a range covers: the first offset and the number. -/
def covered (base len line : Nat) : Nat × Nat :=
  let lo := max base (line * 64)
  let hi := min (base + len) (line * 64 + 64)
  (lo - line * 64, hi - lo)

/-- Operations 0 to 2 on a held line of the range (14 Table 14.2). -/
def maintLine (op base len : Nat) (s : State) (x : Nat × GLine) : State :=
  let (_, n) := covered base len x.2.line
  if n = 0 then s
  else
    let s1 := s.count ⟨0x607, 1, none, none, none⟩
    if op = 0 then granClean s1 x.1 x.2
    else if op = 1 ∧ n = 64 then s1.setWay x.1 none
    else (granClean s1 x.1 x.2).setWay x.1 none

/-- Zeros written to memory, line by line, at a DPA. -/
def zeroMemory (s : State) (a n : Nat) : State :=
  if isHost a then hostWrite s noSlice a (zeros n) else dramMerge s noSlice a (zeros n)

/-- ZERO on one line of the range (14 Table 14.2). -/
def zeroLine (base len : Nat) (s : State) (line : Nat) : State :=
  let (o, n) := covered base len line
  let s1 := s.count ⟨0x607, 1, none, none, none⟩
  match granFind s1 (line * 64) with
  | none => zeroMemory s1 (line * 64 + o) n
  | some (k, l) =>
    if n = 64 then zeroMemory (s1.setWay k none) (line * 64) 64
    else
      let l1 : GLine := { l with data := patch l.data o (zeros n) }
      let s2 := s1.setWay k (some l1)
      if l.dirty then s2 else zeroMemory s2 (line * 64 + o) n

/-- The lines of a range. -/
def rangeLines (base len : Nat) : List Nat :=
  (List.range ((base + len + 63) / 64 - base / 64)).map (fun i => base / 64 + i)

/-- Whether a maintenance range may be used (14 R478). -/
def maintRangeOk (s : State) (base len : Nat) : Bool :=
  len == 0 || decide (base + len ≤ s.capacity) || decide (hostBase ≤ base ∧ base + len ≤ 2 ^ 52)

/-- A go write of GRN_MAINT_CTL (14 R478): error, an operation that completes at once, or one that runs. -/
def maintGo (s : State) (op : Nat) : State :=
  let s1 := s.setFld F.grnMaintCtl_op 0 op
  let base := s.fld F.grnMaintBase_base 0
  let len := s.fld F.grnMaintLen_len 0
  if s.flag F.grnMaintBusy_busy 0 || s.fld F.grnStatus_state 0 == granDraining || !maintRangeOk s base len then
    s1.setFlag F.grnMaintCtl_error 0 true
  else if len = 0 ∨ (s.fld F.grnStatus_state 0 = granDisabled ∧ op ≠ 3) then s1.addWrap F.grnMaintBusy_completed 0 1
  else { s1 with gran := { s1.gran with maint := some ⟨op, base, len⟩ } }.setFlag F.grnMaintBusy_busy 0 true

/-- A write of GRN_MAINT_CTL (14 Table 14.7). -/
def maintWrite (s : State) (value : Nat) : State :=
  let s1 := if bitAt value 30 then s.setFlag F.grnMaintCtl_error 0 false else s
  if bitAt value 31 then maintGo s1 (bitsAt value 0 2) else s1.setFld F.grnMaintCtl_op 0 value

/-- The engine passes the whole range and the guarantee of 14 R480 holds: completed increments and busy falls (R479). -/
def maintComplete (s : State) : State :=
  match s.gran.maint with
  | none => s
  | some m =>
    let s1 := if m.op = 3 then (rangeLines m.base m.len).foldl (zeroLine m.base m.len) s
      else (heldWays s).foldl (maintLine m.op m.base m.len) s
    granDrained (({ s1 with gran := { s1.gran with maint := none } }.setFlag F.grnMaintBusy_busy 0 false).addWrap
      F.grnMaintBusy_completed 0 1)

/-- GRN_CTL.enable is cleared (14 R482). -/
def granDisable (s : State) : State :=
  let s1 := s.setFlag F.grnCtl_enable 0 false
  if s.fld F.grnStatus_state 0 ≠ granEnabled then s1
  else granDrained (s1.setFld F.grnStatus_state 0 granDraining)

/-- GRN_CTL.enable is written 1 (14 R483). -/
def granEnable (s : State) : State := (s.setFlag F.grnCtl_enable 0 true).setFld F.grnStatus_state 0 granEnabled

/-- A write of GRN_CTL (14 Table 14.4). -/
def grnCtlWrite (s : State) (value : Nat) : State :=
  let s1 := if bitAt value 30 then hostSync s else s
  if bitAt value 31 then granEnable s1 else granDisable s1

/-- The drain has written every dirty line back: every line is dropped and the state becomes DISABLED (14 R482). -/
def drainComplete (s : State) : State :=
  if s.fld F.grnStatus_state 0 ≠ granDraining then s
  else granDrained ((heldWays s).foldl (fun t x => granClean t x.1 x.2) s)

/-- A corrected error met by a demand read (15 R503). -/
def correctedDemand (s : State) (dpa : Nat) : State :=
  let c := dramChannel dpa
  let line := dpa / 64
  let s1 := if lineQueued s line then s else dramWrite s noSlice line (dramLine s line) false
  let s2 := (s1.addSat F.dmcCeCnt_corrected c 1).count ⟨0x71E, 1, none, none, some dpa⟩
  let lim := s2.fld F.dmcErrCfg_ce_event 0
  if lim = 0 ∨ (s2.chan c).ceSent = true ∨ s2.fld F.dmcCeCnt_corrected c < lim then s2
  else (s2.setChan c (fun d => { d with ceSent := true })).devEvent 0x0F03 0

/-- DMC_CE_CNT of a channel is read: CE_THRESHOLD may be written again (15 R503). -/
def ceRead (s : State) (c : Nat) : State := s.setChan c (fun d => { d with ceSent := false })

/-- The address that a line's ECC lanes carry (15 R502): the CRC-32C of its channel, subchannel and CA[51:6]. How these bits form bytes
the spec does not say: CA[51:6], the subchannel and the channel, from the top of a little-endian number (DESIGN CHOICE, log 64). -/
def addressCheck (dpa : Nat) : Nat :=
  let ca := dramCA dpa
  crc32c (natLE 7 (bitsAt ca 6 46 * 32 + bitsAt ca 6 1 * 16 + dramChannel dpa))

/-- The words of a burst with two changed bits, as a mask: those that the SEC-DED code cannot correct (15 R502). -/
def doubleMask (b : Burst) : Nat :=
  ((List.range 8).map (fun w => if 2 ≤ (b.flips.filter (fun x => x.1 == w)).length then 2 ^ w else 0)).sum

/-- The line that answers a read. -/
def burstAnswers (b : Burst) (dpa : Nat) : Nat := b.origin.getD dpa

/-- What a burst's check finds for good: kind and the mask of the words (15 R502, Table 15.14). Where the address check fails too, the kind
is ADDRESS (DESIGN CHOICE, log 64). -/
def eccBad (b : Burst) (dpa : Nat) : Option (Nat × Nat) :=
  if addressCheck (burstAnswers b dpa) ≠ addressCheck dpa then some (1, 0)
  else if doubleMask b ≠ 0 then some (0, doubleMask b) else none

/-- Whether a burst's check corrects a bit. -/
def eccCorrected (b : Burst) (dpa : Nat) : Bool := (eccBad b dpa).isNone && !b.flips.isEmpty

/-- A line's data as read (15 R502, R504): of the line that answers, single-bit errors corrected. -/
def burstData (s : State) (b : Burst) (dpa : Nat) : List Byte :=
  let l := dramLine s (burstAnswers b dpa / 64)
  (List.range 64).map (fun i =>
    let wrong := b.flips.filter (fun x => x.1 == i / 8 && bitAt (doubleMask b) (i / 8) && x.2 / 8 == i % 8)
    wrong.foldl (fun y x => y ^^^ BitVec.ofNat 8 (2 ^ (x.2 % 8))) (l.getD i 0))

/-- An uncorrectable error of a read (15 R504): recorded, written back with the poison mark and its data as read, reported. -/
def dramUncorrectable (s : State) (dpa kind source mask : Nat) (data : List Byte) : State :=
  (dramWrite (dmcRecord s dpa kind source mask) noSlice (dpa / 64) data true).devEvent 0x0F01 0

/-- The attributes of a read's events: the slice of its job (20 Table 20.1). -/
def readOcc (s : State) (a : DramAccess) : Occ := { noSlice with slice := (a.job.bind s.job).map (·.slice) }

/-- DRAM_READ (15 R496, R502 to R505): a line read returns and is checked; a read whose line waits in the write queue is
served from there. -/
def dramReadEvent (s : State) (a : DramAccess) : State :=
  let who := readOcc s a
  let line := a.dpa / 64
  if !isLocal s a.dpa then s
  else match a.merge with
  | some b =>
    let bytes := b.take (64 - a.dpa % 64)
    if lineQueued s line || bytes.length == 64 then dramMerge s who a.dpa bytes
    else match eccBad a.burst a.dpa with
    | some (kind, mask) =>
      let s1 := (dramFetch s who a.dpa).count (dramOcc who a.dpa 0x71D 1)
      let s2 := (dmcRecord s1 a.dpa kind 3 mask).devEvent 0x0F01 0
      failAccess (dramWrite s2 who line (patch (burstData s1 a.burst a.dpa) (a.dpa % 64) bytes) true) a.job 5
    | none =>
      let s1 := dramMerge s who a.dpa bytes
      if eccCorrected a.burst a.dpa then correctedDemand s1 a.dpa else s1
  | none =>
    let s1 := dramFetch s who a.dpa
    if lineQueued s line && !poisoned s line then s1
    else
      let source := boolNat a.speculative
      let fail (t : State) : State := if a.speculative then t else failAccess t a.job 5
      match eccBad a.burst a.dpa with
      | some (kind, mask) => fail (dramUncorrectable s1 a.dpa kind source mask (burstData s1 a.burst a.dpa))
      | none =>
        if poisoned s line then fail ((dmcRecord s1 a.dpa 2 source 0).devEvent 0x0F02 0)
        else if eccCorrected a.burst a.dpa ∧ a.speculative = false then correctedDemand s1 a.dpa
        else s1

/-- WRITE_DRAIN (15 R496): the queue holds 48 entries. -/
def writeDrain (s : State) (c : Nat) : State := if 48 ≤ (s.chan c).writes.length then dramDrain s c else s

/-- PAGE_IDLE_CLOSE (15 R495). -/
def pageClose (s : State) (c bank : Nat) : State :=
  s.setChan c (fun d => { d with rows := tset (fun _ => 0) d.rows bank 0 })

/-- Whether the DRAM is initialised and a channel exists. -/
def chanReady (s : State) (c : Nat) : Bool := decide (c < 12) && s.flag F.dmcStatus_init_done 0

/-- A DIMM's thermal sensor in degrees. -/
def dimmTemp (s : State) (c : Nat) : Int := toSigned 8 (s.fld F.dmcChStatus_dimm_temp c)

/-- REFRESH (15 R495, R498): an all-bank refresh of every rank closes every row of the channel; the interval of every channel
halves while any DIMM's sensor reads above 85 degrees. -/
def refresh (s : State) (c : Nat) (temp : Int) : State :=
  if !chanReady s c || (s.chan c).selfRefresh then s
  else
    let s1 := (s.setFld F.dmcChStatus_dimm_temp c (ofSigned 8 temp)).setFld F.dmcChStatus_owed c 0
    let hot := (List.range 12).any (fun k => decide (85 < dimmTemp s1 k))
    let s2 := (List.range 12).foldl (fun t k => t.setFlag F.dmcChStatus_fast_refresh k hot) s1
    (s2.setChan c (fun d => { d with rows := [] })).count ⟨0x71A, s2.fld F.dmcChStatus_ranks c, none, none, none⟩

/-- ZQ_CALIBRATION (15 R499): within a refresh, so that it closes nothing more. -/
def zqCalibrate (s : State) (c : Nat) : State :=
  if !chanReady s c || (s.chan c).selfRefresh then s else s.setChan c (fun d => { d with zqDone := d.zqDone + 1 })

/-- The delay set of a band at the speed in force (15 R490, R491). -/
def delaySet (s : State) (band : Nat) : Option DelaySet :=
  s.dram.store.find? (fun d => d.speed == s.fld F.dmcStatus_speed 0 && d.band == band)

/-- The band a temperature selects (15 R492). -/
def bandOf (low high temp : Int) : Nat := if temp < low then 0 else if high < temp then 2 else 1

/-- The band after a temperature: a change needs the limit between the bands passed by 3 degrees (15 R492). -/
def bandNext (low high temp : Int) (band : Nat) : Nat :=
  let want := bandOf low high temp
  if want = band then band
  else if want < band then (if temp + 3 ≤ (if want = 0 then low else high) then want else band)
  else (if (if want = 2 then high else low) + 3 ≤ temp then want else band)

/-- The channels switch to a band, one after another (15 Table 15.4, R493): each closes its rows. -/
def bandSwitch (s : State) (band : Nat) : State :=
  ((List.range 12).foldl (fun t c => t.setChan c (fun d => { d with rows := [] })) (s.setFld F.dmcStatus_band 0 band)).devEvent 0x0F04 0

/-- TEMP_POLL (15 R492). -/
def tempPoll (s : State) (temp : Int) : State :=
  match delaySet s 1 with
  | none => s
  | some d =>
    let b := bandNext d.low d.high temp (s.fld F.dmcStatus_band 0)
    if !s.flag F.dmcStatus_init_done 0 || b == s.fld F.dmcStatus_band 0 then s else bandSwitch s b

/-- DMC_DLY (15 Table 15.8): the delay in force of a channel, subchannel and entry. -/
def delayInForce (s : State) (c sub entry : Nat) : Nat :=
  match delaySet s (s.fld F.dmcStatus_band 0) with
  | some d => if s.flag F.dmcStatus_init_done 0 then tget (fun _ => 0) d.delays ((c * 2 + sub) * 104 + entry) else 0
  | none => 0

/-- The patrol's write-back of a line it corrected is issued (15 R507). -/
def scrubIssue (s : State) : State :=
  match s.dram.scrubHeld with
  | none => s
  | some (line, b) => dramWrite { s with dram := { s.dram with scrubHeld := none } } noSlice line b false

/-- PATROL_READ (15 R506, R507): the write-back held from the read before goes out, and the next line is read. -/
def patrolRead (s : State) (b : Burst) : State :=
  let pos := s.reg .dmcScrubPos 0
  if !s.flag F.dmcScrub_enable 0 || !s.flag F.dmcStatus_init_done 0 || (s.chan (dramChannel pos)).selfRefresh || !isLocal s pos then s
  else
    let s1 := dramFetch ((scrubIssue s).count ⟨0x71F, 1, none, none, some pos⟩) noSlice pos
    let s2 := s1.setReg .dmcScrubPos 0 (if pos + 64 < s.capacity then pos + 64 else 0)
    if poisoned s1 (pos / 64) || lineQueued s1 (pos / 64) then s2
    else match eccBad b pos with
    | some (kind, mask) => dramUncorrectable s2 pos kind 2 mask (burstData s2 b pos)
    | none =>
      if eccCorrected b pos then ({ s2 with dram := { s2.dram with scrubHeld := some (pos / 64, dramLine s2 (pos / 64)) } }).count
        ⟨0x71E, 1, none, none, some pos⟩
      else s2

/-- A channel that holds no access enters self-refresh: its queue is drained and its rows are closed (15 R495, R500). -/
def chanSleep (s : State) (c : Nat) : State :=
  let s1 := (dramDrain s c).setChan c (fun d => { d with selfRefresh := true, rows := [] })
  s1.setFlag F.dmcStatus_self_refresh 0 ((List.range 12).all (fun k => (s1.chan k).selfRefresh))

/-- SR_REENTRY (15 R500): a channel idle for 10 µs under sr_req. -/
def srReentry (s : State) (c : Nat) : State :=
  if chanReady s c && s.flag F.dmcPwr_sr_req 0 && !(s.chan c).selfRefresh then chanSleep s c else s

/-- A write of 1 to DMC_PWR.sr_req (15 R500). -/
def srRequest (s : State) : State :=
  if s.fld F.grnStatus_state 0 ≠ granDisabled then s.setFlag F.dmcPwr_error 0 true
  else (List.range 12).foldl chanSleep (scrubIssue (s.setFlag F.dmcPwr_sr_req 0 true))

/-- A write of 0 to DMC_PWR.sr_req (15 R500). -/
def srRelease (s : State) : State :=
  ((List.range 12).foldl (fun t c => t.setChan c (fun d => { d with selfRefresh := false }))
    (s.setFlag F.dmcPwr_sr_req 0 false)).setFlag F.dmcStatus_self_refresh 0 false

/-- A write of DMC_PWR (15 Table 15.11). -/
def dmcPwrWrite (s : State) (value : Nat) : State :=
  let s1 := if bitAt value 30 then s.setFlag F.dmcPwr_error 0 false else s
  if bitAt value 31 then srRequest s1 else srRelease s1

end Sys2Proof.Machine
end

