-- ==== Sys2Proof/Machine/Otp.lean ====
section
/-! DEFINITION. The OTP array: generation words, the settings loaded at boot, programming (19 R572 to R577). -/

namespace Sys2Proof.Machine

/-- A generation word of a group (19 R572). -/
def otpWord (s : State) (g k : Nat) : Nat := tget (fun _ => 0) s.otp (g * 4 + k)

/-- The check of a generation word (19 R573). -/
def otpCheck (g k w : Nat) : Nat :=
  let x := (List.range 6).foldl (fun a i => a ^^^ bitsAt w (8 * i) 8) (g ^^^ (k + 128 * bitsAt w 63 1))
  255 - x % 256

/-- Whether a generation's check passes. -/
def otpPasses (g k w : Nat) : Bool := bitsAt w 48 8 == otpCheck g k w

/-- The word that programs a value with a lock bit (19 Table 19.1, R573). -/
def otpMake (g k lock value : Nat) : Nat :=
  let w := lock % 2 * 2 ^ 63 + value % 2 ^ 48
  w + otpCheck g k w * 2 ^ 48

/-- The valid generation of a group: the highest whose check passes (19 R574). -/
def otpValid (s : State) (g : Nat) : Option Nat := [3, 2, 1, 0].find? (fun k => otpPasses g k (otpWord s g k))

/-- Whether Table 19.2 lists a group. -/
def otpListed (g : Nat) : Bool := decide (g ≤ 4) || decide (8 ≤ g ∧ g ≤ 31)

/-- The word that a group's settings were loaded from at the last power-on (19 R574, R575). -/
def settingWord (s : State) (g : Nat) : Option Nat := ((s.boot.settings.getD []).find? (fun x => x.1 == g)).map Prod.snd

/-- A group's value; 0 is the default of every group but 0 and 2 (19 Table 19.2). -/
def setting (s : State) (g : Nat) : Nat := ((settingWord s g).map (· % 2 ^ 48)).getD 0

/-- Whether a group's fields are locked for good: the generation in force has its lock bit (00 R16, 19 R575). -/
def settingLocked (s : State) (g : Nat) : Bool := ((settingWord s g).map (fun w => bitAt w 63)).getD false

/-- A key hash of eight groups from g, complete or none (19 R577). -/
def keyHash (s : State) (g : Nat) : Option (List Byte) :=
  if (List.range 8).all (fun i => (settingWord s (g + i)).isSome) then
    some ((List.range 8).flatMap (fun i => natLE 6 (setting s (g + i))))
  else none

/-- The row of Table 1.6 for a profile, as DEV_CFG holds it (01 R28). -/
def profileCfg (p : Nat) : Nat :=
  match p with
  | 0 => 0x03
  | 1 => 0x14
  | _ => 0x28

/-- The profile that group 0 gives, and DEV_CFG with it (01 R28). A valid generation whose profile is 0b11, which Table 1.8 does not name,
gives BALANCED, as an invalid one does (DESIGN CHOICE, log 71). -/
def loadProfile (s : State) : State :=
  let v := setting s 0
  let p := if (settingWord s 0).isSome && v % 4 != 3 then v % 4 else 1
  ((s.setReg .devProfile 0 0).setFld F.devProfile_profile 0 p).setReg .devCfg 0 (profileCfg p)

/-- DEV_PROFILE.lock where group 0's profile_lock is set (01 R28, 19 Table 19.2). -/
def loadLock (s : State) : State := if bitAt (setting s 0) 2 then s.setFlag F.devProfile_lock 0 true else s

/-- BRK_RESP as group 1 gives it (19 R588). -/
def loadResponses (s : State) : State := s.setReg .brkResp 0 (setting s 1 % 2 ^ 12)

/-- Step 0x03 after a power-on reset: the settings and the damaged generations counted (19 R574). -/
def otpLoad (s : State) : State :=
  let valid := (List.range 64).filterMap (fun g => (otpValid s g).map (fun k => (g, otpWord s g k)))
  let bad := s.otp.countP (fun x => x.2 != 0 && !otpPasses (x.1 / 4) (x.1 % 4) x.2)
  let s1 := { s with boot := { s.boot with settings := some valid } }
  loadProfile (s1.setFld F.otpStatus_bad_generations 0 bad)

/-- OTP_GROUP of a group (19 Table 19.10). -/
def otpGroupView (s : State) (g : Nat) : Nat :=
  let k := (otpValid s g).getD 0
  let spares := ([0, 1, 2, 3].filter (fun i => decide (k < i) && otpWord s g i == 0)).length
  let w := otpWord s g k
  match otpValid s g with
  | some _ => 2 ^ 63 + bitsAt w 63 1 * 2 ^ 62 + k * 2 ^ 60 + spares * 2 ^ 56 + w % 2 ^ 48
  | none => spares * 2 ^ 56

/-- The result of a programming and its device event (19 R576, Table 19.8). -/
def otpResult (s : State) (g k code : Nat) : State :=
  let s1 := s.setFld F.otpStatus_result 0 code
  if code = 5 then s1 else s1.devEvent 0x1304 (g % 64 + k % 4 * 2 ^ 6 + code * 2 ^ 8)

/-- The generation that a programming takes (19 R576 step 2). -/
def otpNext (s : State) (g : Nat) : Option Nat :=
  let above (k : Nat) : Bool := match otpValid s g with
    | some v => decide (v < k)
    | none => true
  [0, 1, 2, 3].find? (fun k => above k && otpWord s g k == 0)

/-- A confirmed go write: refused, or programming starts (19 R576). -/
def otpStart (s : State) (g : Nat) : State :=
  let s1 := s.setFld F.otpProgCtl_group 0 g
  if !otpListed g then otpResult s1 g 0 5
  else
    let k := (otpValid s g).getD 0
    if (otpValid s g).isSome && bitAt (otpWord s g k) 63 then otpResult s1 g k 3
    else match otpNext s g with
    | none => otpResult s1 g k 4
    | some n =>
      let w := otpMake g n (s.fld F.otpProgValue_lock 0) (s.fld F.otpProgValue_value 0)
      { s1.setFlag F.otpStatus_busy 0 true with otpOp := some ⟨g, n, w⟩ }

/-- A write of OTP_PROG_CTL (19 R576, Table 19.11). -/
def otpCtlWrite (s : State) (value : Nat) : State :=
  if !bitAt value 31 then s.setFld F.otpProgCtl_group 0 (bitsAt value 8 6)
  else if bitsAt value 0 8 ≠ 0xA5 ∨ s.flag F.otpStatus_busy 0 = true then s
  else otpStart s (bitsAt value 8 6)

/-- The word that a programming leaves: of its bits, those in lost did not take (19 R576). -/
def otpSettle (s : State) (o : OtpOp) (lost : Nat) : State :=
  { s with otp := tset (fun _ => 0) s.otp (o.group * 4 + o.gen) (o.word - (o.word &&& lost)), otpOp := none }

/-- Programming and its read-back end (19 R576 step 3). -/
def otpProgrammed (s : State) (lost : Nat) : State :=
  match s.otpOp with
  | none => s
  | some o =>
    let s1 := (otpSettle s o lost).setFlag F.otpStatus_busy 0 false
    otpResult s1 o.group o.gen (if otpPasses o.group o.gen (otpWord s1 o.group o.gen) then 1 else 2)

/-- Power is lost while a generation is programmed: a subset of its bits has taken (19, "When power fails while a generation
is programmed"). -/
def otpCut (s : State) : State :=
  match s.otpOp with
  | none => s
  | some o =>
    let (v, s1) := s.drawFree
    otpSettle s1 o v

end Sys2Proof.Machine
end

