-- ==== Sys2Proof/Machine/Brake.lean ====
section
/-! DEFINITION. The Brake alarm: trips, responses, the erasure of keys, and the restore under external authority (19 R586 to
R593). -/

namespace Sys2Proof.Machine

/-- The sensors watched: MESH and LID only where enabled (19 R586). -/
def brakeWatched (s : State) : Nat :=
  7 + boolNat (s.flag F.brkResp_mesh_en 0) * 8 + boolNat (s.flag F.brkResp_lid_en 0) * 16

/-- The response of a sensor; code 3 is treated as ERASE_KEYS (19 Table 19.6). -/
def brakeResponse (s : State) (i : Nat) : Nat := min 2 (bitsAt (s.fld F.brkResp_responses 0) (2 * i) 2)

/-- The sensors of a mask. -/
def sensorsOf (mask : Nat) : List Nat := (List.range 5).filter (fun i => bitAt mask i)

/-- Bytes of the key store's header set, with its magic (19 Table 19.3). -/
def keyHeader (s : State) (erased : Bool) (erases restores : Nat) : State :=
  mpdWrite s keyStore (natLE 4 0x4B535431 ++ natLE 1 (boolNat erased) ++ zeros 3 ++ natLE 4 erases ++ natLE 4 restores)

/-- The erase count. -/
def eraseCount (s : State) : Nat := leNat (s.mpdBytes (keyStore + 8) 4)
/-- The restore count. -/
def restoreCount (s : State) : Nat := leNat (s.mpdBytes (keyStore + 12) 4)

/-- The outstanding challenge, or zeros. -/
def challengeBytes (s : State) : List Byte := s.mpdBytes (keyStore + 0x40) 64

/-- The challenge consumed (19 R593). -/
def consumeChallenge (s : State) : State := mpdWrite s (keyStore + 0x40) (zeros 64)

/-- A keyed context zeroed: its job ends with KEY_GONE, and a held one never matches its key again (19 R589). -/
def eraseCtx (s : State) (x : Nat × Option TollCtx) : State :=
  match x.2 with
  | none => s
  | some c =>
    if c.keyed.isNone then s
    else
      let gone : TollCtx := { c with hash := ⟨c.hash.alg, (algInit c.hash.alg).map (fun _ => 0), zeros c.hash.tail.length, c.hash.len⟩,
                                     gone := true, outer := [] }
      let s1 := s.setCtx x.1 (some gone)
      match c.job with
      | some (id, _) => failJob s1 id keyGoneOutc
      | none => s1

/-- ERASE_KEYS (19 R589): key RAM and keyed contexts are zeroed; a key operation in progress ends with error (19 "When a key
operation meets an erasure"); keys_erased and the count become durable; the event follows. -/
def eraseKeys (s : State) : State :=
  let s1 := if s.keyOp.isSome then
      keyRefused ({ s with keyOp := none }.setFlag F.brkKeyCtl_busy 0 false) else s
  let s2 := s1.units.ctxs.foldl eraseCtx { s1 with keys := [] }
  let s3 := keyHeader s2 true ((eraseCount s + 1) % 2 ^ 32) (restoreCount s)
  (s3.setFlag F.brkStatus_keys_erased 0 true).devEvent 0x1302 (eraseCount s3)

/-- A trip during a restore abandons it (19 R593). -/
def abandonRestore (s : State) : State :=
  if s.flag F.brkRestoreCtl_busy 0 then consumeChallenge (s.setFlag F.brkRestoreCtl_busy 0 false) else s

/-- BRK_LOG takes a trip where valid is 0 (19 Tables 19.6, 19.14). -/
def brakeLog (s : State) (mask strongest : Nat) : State :=
  if s.flag F.brkLog_valid 0 then s
  else s.setReg .brkLog 0 (2 ^ 63 + mask * 2 ^ 58 + strongest * 2 ^ 56 + s.reg .fanTick 0 % 2 ^ 48)

/-- The sensors that trip in one cycle (19 R586 to R590): their responses but for HALT's halt, every erasure applied; whether a
HALT response applies. -/
def brakeApply (s : State) (sensors : Nat) : Bool × State :=
  let mask := sensors &&& brakeWatched s
  if mask = 0 then (false, s)
  else
    let codes := (sensorsOf mask).map (brakeResponse s)
    let strongest := codes.foldl max 0
    let s1 := abandonRestore (s.setFld F.brkStatus_tripped 0 (s.fld F.brkStatus_tripped 0 ||| mask))
    let s2 := (brakeLog s1 mask strongest).devEvent 0x1301 (mask + strongest * 2 ^ 8)
    (codes.contains 1, if codes.contains 2 then eraseKeys s2 else s2)

/-- A write of BRK_RESP (19 R588): a response is only raised, an enable bit that OTP set is never cleared, and nothing where
group 1 is locked. -/
def brkRespWrite (s : State) (value : Nat) : State :=
  if settingLocked s 1 then s
  else
    let raise (t : State) (i : Nat) : State :=
      let f : Fld := ⟨.brkResp, 2 * i, 2⟩
      if t.fld f 0 ≤ bitsAt value (2 * i) 2 then t.setFld f 0 (bitsAt value (2 * i) 2) else t
    let enable (t : State) (i : Nat) : State :=
      let f : Fld := ⟨.brkResp, i, 1⟩
      if !bitAt value i && bitAt (setting s 1) i then t else t.setFlag f 0 (bitAt value i)
    [10, 11].foldl enable ((List.range 5).foldl raise s)

/-- The challenge of 19 R591: erase count, device identifier, nonce, MPD_SEQ.next. -/
def restoreChallenge (s : State) : State :=
  if !s.flag F.brkStatus_keys_erased 0 then s.setFlag F.brkRestoreCtl_error 0 true
  else
    let (nonce, s1) := randomBytes s 32
    let b := natLE 4 0x52535431 ++ natLE 4 (eraseCount s) ++ natLE 8 Config.deviceId ++ nonce ++ natLE 8 (s.reg .mpdSeq 0) ++ zeros 8
    { (mpdWrite s1 (keyStore + 0x40) b).setFld F.brkRestoreCtl_words 0 0 with restoreBuf := [] }

/-- A write of BRK_RESTORE_DATA (19 R592): the next 8 bytes; a 26th write is ignored. -/
def restoreData (s : State) (value : Nat) : State :=
  let n := s.fld F.brkRestoreCtl_words 0
  if 25 ≤ n then s
  else { s.setFld F.brkRestoreCtl_words 0 (n + 1) with restoreBuf := s.restoreBuf ++ natLE 8 value }

/-- A write of verify (19 R592, R593): it starts unless 8 verifications have failed since power-on. -/
def restoreVerify (s : State) : State :=
  if s.flag F.brkStatus_restore_locked 0 then s.setFlag F.brkRestoreCtl_error 0 true else s.setFlag F.brkRestoreCtl_busy 0 true

/-- A write of BRK_RESTORE_CTL (19 Table 19.17). -/
def restoreCtlWrite (s : State) (value : Nat) : State :=
  let s1 := if bitAt value 28 then s.setFlag F.brkRestoreCtl_error 0 false else s
  if s.flag F.brkRestoreCtl_busy 0 then s1
  else
    let s2 := if bitAt value 31 then restoreChallenge s1 else s1
    if bitAt value 30 then restoreVerify s2 else s2

/-- The checks of 19 R592. -/
def restoreOk (s : State) : Bool :=
  let key := s.restoreBuf.take 97
  let sig := sub s.restoreBuf 104 96
  s.flag F.brkStatus_keys_erased 0 && challengeBytes s != zeros 64 && s.fld F.brkRestoreCtl_words 0 == 25 &&
    keyHash s 24 == some (digestOf 2 key) && Config.signatureValid key (digestOf 2 (challengeBytes s)) sig

/-- The valid records unwrapped into their slots: how many were and were not (19 R593). -/
def unwrapAll (s : State) : Nat × Nat × State :=
  (List.range 64).foldl (fun (acc : Nat × Nat × State) n =>
    match readKeyRec s n with
    | some k => if k.usage = 0 then acc else (acc.1 + 1, acc.2.1, acc.2.2.setSlot n k)
    | none => (acc.1, acc.2.1 + 1, acc.2.2)) (0, 0, s)

/-- A verify ends (19 R593): the keys are restored, or the failure consumes the challenge. -/
def keysRestored (s : State) : State :=
  if !s.flag F.brkRestoreCtl_busy 0 then s
  else
    let s1 := s.setFlag F.brkRestoreCtl_busy 0 false
    if restoreOk s then
      let (good, bad, s2) := unwrapAll s1
      let s3 := keyHeader (consumeChallenge s2) false (eraseCount s) ((restoreCount s + 1) % 2 ^ 32)
      (s3.setFlag F.brkStatus_keys_erased 0 false).devEvent 0x1303 (good + bad * 2 ^ 8)
    else
      let s2 := consumeChallenge (s1.setFlag F.brkRestoreCtl_error 0 true)
      let n := s.fld F.brkStatus_restore_failures 0 + 1
      (s2.setFld F.brkStatus_restore_failures 0 n).setFlag F.brkStatus_restore_locked 0 (decide (8 ≤ n))

end Sys2Proof.Machine
end

