-- ==== Sys2Proof/Machine/Resets.lean ====
section
/-! DEFINITION. What a reset clears and keeps: power-on, warm, function-level and boot-restart resets (18 R553, R554, 14 R484,
15 R501, R508, 17 R664, 19 R594). -/

namespace Sys2Proof.Machine

/-- Why the device was reset last (18 Table 18.9). -/
abbrev resetPowerOn : Nat := 0
abbrev resetPerst : Nat := 1
abbrev resetHot : Nat := 2
abbrev resetFlr : Nat := 3
abbrev resetRestart : Nat := 4

/-- The registers that a warm reset keeps, whole or in part (01 Tables 1.8, 1.9, 09, 14 R486, 15 R508, 19 R594). -/
def keptRegs : List Reg := [.devId, .devProfile, .devCfg, .mpdGroupCfg, .grnErrCnt, .dmcStatus, .dmcChStatus, .dmcErr,
  .dmcErrDpa, .dmcScrubPos, .dmcPwr, .dmcCeCnt, .otpStatus, .brkStatus, .brkLog, .brkRestoreCtl]

/-- The registers after a warm reset; of those kept in part, the RW and W1C fields are back at reset. -/
def warmRegs (s : State) : State :=
  let s1 := s.resetRegs (fun r => !keptRegs.contains r)
  let s2 := (s1.setFlag F.dmcErr_valid 0 false).setReg .dmcPwr 0 (s1.fld F.dmcPwr_exits 0)
  let s3 := (s2.setFlag F.brkLog_valid 0 false).setReg .brkRestoreCtl 0 (s2.fld F.brkRestoreCtl_words 0)
  s3.setFlag F.otpStatus_busy 0 false

/-- The Granary drained into DRAM and empty, every channel's queue drained and in self-refresh (14 R484, 15 R501). -/
def memorySettle (s : State) : State :=
  let s1 := granDropAll ((heldWays s).foldl (fun t x => granClean t x.1 x.2) s)
  let s2 := (List.range 12).foldl chanSleep { s1 with dram := { s1.dram with scrubHeld := none } }
  { s2 with gran := Granary.empty }

/-- The state that no reset keeps, cleared. -/
def clearVolatile (s : State) : State :=
  { s with xlt := Xlt.empty, gran := Granary.empty, msix := { s.msix with table := [] }, queues := [], issued := [], tails := [],
           fan := Fan.empty, pipe := Pipe.empty, units := { Units.empty with lines := s.units.lines }, keys := [], keyOp := none,
           resets := [], halted := false, haltMsgs := [], traceLog := [], fatal := none, readOnly := false, sckOwed := [],
           events := [], bw := ⟨[], 0, false, 0⟩, cycle := 0,
           mpd := { Mpd.empty with cells := s.mpd.cells, writes := s.mpd.writes, moved := s.mpd.moved },
           vols := { Vols.empty with drives := s.vols.drives } }

/-- A restore or a challenge's use under way at a reset ends; the words written stay (19 R594). -/
def settleRestore (s : State) : State := if s.flag F.brkRestoreCtl_busy 0 then consumeChallenge s else s

/-- The registers as a transfer that a reset ends sees them: they are about to be reset, and it reads none (16 R531). -/
def noRegisters : RegIo := ⟨fun s _ n => (zeros n, s), fun s _ _ => s⟩

/-- A reset that keeps DRAM (18 R553, R554): every transfer ends at its descriptor's boundary (16 R531), the journal is sealed, an OTP programming runs to its end, memory settles; the
rest is cleared. No status, record or message is written for an outstanding job. -/
def warmClear (s : State) : State :=
  let s1 := memorySettle (sealAll (settleRestore (otpProgrammed (finishDescs noRegisters s) 0)))
  loadLock (loadResponses (warmRegs (clearVolatile s1)))

/-- Memory cells that power-on keeps: the host's (15 R501). -/
def hostCells (s : State) : List Host.Cell := s.mem.filter (fun c => isHost c.1)

/-- The device in power-on reset (22 R639): what lasts without power, and the free values drawn. -/
def powerOff (s : State) : State :=
  let s1 := otpCut s
  { State.reset with pending := s1.pending, mem := hostCells s1, otp := s1.otp, free := s1.free,
                     msix := { Msix.empty with sent := s1.msix.sent, enabled := s1.msix.enabled, funcMask := s1.msix.funcMask },
                     answers := s1.answers, units := { Units.empty with lines := s1.units.lines },
                     boot := { Boot.off with board := s1.boot.board },
                     mpd := { Mpd.empty with cells := s1.mpd.cells, writes := s1.mpd.writes, moved := s1.mpd.moved },
                     vols := { Vols.empty with drives := s1.vols.drives } }

end Sys2Proof.Machine
end

