-- ==== Sys2Proof/Machine/Boot.lean ====
section
/-! DEFINITION. Start-up (18 R555 to R564): step records, the failure policy, boot restarts, the steps and their work, secure
boot (19 R582 to R585), DRAM initialisation (15 R487 to R491), the volume table (10 R350). -/

namespace Sys2Proof.Machine

/-- The region of the boot records (18 R557). -/
abbrev bootRegion : Nat := 0x7C010000

/-- States of a step record (18 Table 18.3). -/
abbrev recNever : Nat := 0
abbrev recRunning : Nat := 1
abbrev recOk : Nat := 2
abbrev recFailed : Nat := 3
abbrev recExhausted : Nat := 4

/-- Outcomes of a step (18 Table 18.3). -/
abbrev outTimeout : Nat := 1
abbrev outLost : Nat := 2
abbrev outCheck : Nat := 3
abbrev outHw : Nat := 4
abbrev outAbsent : Nat := 5

/-- A step's record (18 Table 18.3). -/
structure StepRec where
  state : Nat
  way : Nat
  fails : Nat
  outcome : Nat
  attempts : Nat
  boot : Nat
  detail : Nat
  deriving DecidableEq, Repr

/-- The place of a step's record. -/
def stepRecAt (k : Nat) : Nat := bootRegion + 32 * k

/-- The 32 bytes of a step's record. -/
def stepRecBytes (s : State) (k : Nat) : List Byte := s.mpdBytes (stepRecAt k) 32

/-- A step's record. -/
def stepRec (s : State) (k : Nat) : StepRec :=
  let b := stepRecBytes s k
  ⟨leAt b 1 1, leAt b 2 1, leAt b 3 1, leAt b 4 1, leAt b 8 8, leAt b 16 8, leAt b 24 8⟩

/-- A step's record written (18 R557). -/
def setStepRec (s : State) (k : Nat) (r : StepRec) : State :=
  mpdWrite s (stepRecAt k) (natLE 1 k ++ natLE 1 r.state ++ natLE 1 r.way ++ natLE 1 r.fails ++ natLE 1 r.outcome ++ zeros 3 ++
    natLE 8 r.attempts ++ natLE 8 r.boot ++ natLE 8 r.detail)

/-- The header of the boot records (18 R557). -/
def bootPreferred (s : State) : Nat := leNat (s.mpdBytes (bootRegion + 4) 1) % 2
/-- The boot count. -/
def bootCount (s : State) : Nat := leNat (s.mpdBytes (bootRegion + 8) 8)
/-- The power-on count. -/
def powerOnCount (s : State) : Nat := leNat (s.mpdBytes (bootRegion + 16) 8)

/-- The header written. -/
def setBootHeader (s : State) (preferred boots powers : Nat) : State :=
  mpdWrite s bootRegion (natLE 4 0x42535431 ++ natLE 1 preferred ++ zeros 3 ++ natLE 8 boots ++ natLE 8 powers ++ zeros 8)

/-- The steps that run, in their order (18 Table 18.2). -/
def bootSteps : List Nat := (List.range 15).map (· + 1) ++ (List.range 11).map (· + 0x10) ++ [0x1E, 0x1F]

/-- The port steps, which run together (18 R555). -/
def portSteps : List Nat := (List.range 8).map (· + 0x10)

/-- The last way of a step (18 Table 18.2). -/
def lastWay (k : Nat) : Nat :=
  if 7 ≤ k ∧ k ≤ 9 then 1
  else if k = 0x0A ∨ k = 0x0C then 2
  else if k = 0x0B ∨ k = 0x0D ∨ (0x10 ≤ k ∧ k ≤ 0x17) ∨ k = 0x19 ∨ k = 0x1A then 1
  else 0

/-- Whether any record is on an alternate way (18 R559). -/
def bootDegraded (s : State) : Bool := bootSteps.any (fun k => (stepRec s k).way != 0)

/-- Records cleared, their attempts kept (18 R562); bit k names step k. -/
def clearSteps (s : State) (mask : Nat) : State :=
  (((List.range 32).drop 1).filter (fun k => bitAt mask k)).foldl (fun t k =>
    setStepRec t k { stepRec t k with state := recNever, way := 0, fails := 0, outcome := 0 }) s

/-- A failure recorded (18 R558): fails, the way, exhaustion. The three image steps share their way (R556). -/
def recordFailure (s : State) (k outcome detail : Nat) : State :=
  let r := { stepRec s k with outcome := outcome, detail := detail }
  let s1 := s.setFld F.bootStatus_outcome 0 outcome
  if r.fails = 0 then setStepRec s1 k { r with state := recFailed, fails := 1 }
  else if r.way < lastWay k then
    let s2 := setStepRec s1 k { r with state := recFailed, fails := 0, way := r.way + 1 }
    if 7 ≤ k ∧ k ≤ 9 then
      ([7, 8, 9].filter (· != k)).foldl (fun t i => setStepRec t i { stepRec t i with way := r.way + 1, fails := 0 }) s2
    else s2
  else setStepRec s1 k { r with state := recExhausted, fails := 0 }

/-- The boot stops at a step (18 R560, R561). -/
def bootStop (s : State) (k : Nat) (limit : Bool) : State :=
  { ((s.setFlag F.bootStatus_halted 0 true).setFlag F.bootStatus_restart_limit 0 limit).setFld F.bootStatus_step 0 k with
    boot := { s.boot with running := [] } }

/-- A record made RUNNING before its step starts (18 R557). -/
def markRunning (s : State) (k : Nat) : State :=
  let r := stepRec s k
  setStepRec s k { r with state := recRunning, attempts := r.attempts + 1, boot := bootCount s }

/-- A step starts, the port steps together, or the boot stops there (18 R555, R557, R560). -/
def startStep (s : State) (k : Nat) : State :=
  let ks := if k = 0x10 then portSteps else [k]
  match ks.find? (fun i => decide (5 ≤ i) && (stepRec s i).state == recExhausted) with
  | some i => bootStop s i false
  | none =>
    if 16 ≤ s.fld F.bootStatus_restarts 0 then bootStop s k true
    else
      let s1 := if 5 ≤ k then ks.foldl markRunning s else s
      { s1.setFld F.bootStatus_step 0 k with boot := { s1.boot with running := ks } }

/-- A boot begins: it is counted, and step 0x01 starts (18 R555, R557). -/
def startBoot (s : State) (powered : Bool) : State :=
  startStep (setBootHeader s (bootPreferred s) (bootCount s + 1) (powerOnCount s + boolNat powered)) 1

/-- A reset that keeps DRAM, and the boot that follows (18 R553, R555, R563). -/
def reboot (s : State) (cause restarts : Nat) (keepLink : Bool) : State :=
  let outcome := s.fld F.bootStatus_outcome 0
  let s1 := warmClear s
  let s2 := ((s1.setReg .bootStatus 0 0).setFld F.bootStatus_last_reset 0 cause).setFld F.bootStatus_restarts 0 restarts
  let s3 := if cause = resetRestart then s2.setFld F.bootStatus_outcome 0 outcome else s2
  startBoot { s3 with boot := { s3.boot with link := s3.boot.link && keepLink, armed := false, section_ := [], portReset := 255,
                                             perst := s3.boot.perst && cause != resetPerst },
                      bar4 := if keepLink then s3.bar4 else 36 } false

/-- A boot restart (18 R558 item 3): a link that was up drops. -/
def bootRestart (s : State) : State := reboot s resetRestart (s.fld F.bootStatus_restarts 0 + 1) false

/-- A warm or function-level reset (18 R553, R560, R564). -/
def warmReset (s : State) (cause : Nat) : State := if s.boot.on then reboot s cause 0 (cause == resetFlr) else s

/-- Running steps that failed: recorded, then a boot restart (18 R558). Before step 0x04 completes only the restart is
counted (R560). -/
def failSteps (s : State) (fs : List (Nat × Nat × Nat)) : State :=
  bootRestart (fs.foldl (fun t f =>
    if f.1 ≤ 4 then t.setFld F.bootStatus_outcome 0 f.2.1 else recordFailure t f.1 f.2.1 f.2.2) s)

/-- How a step's work ends: none where it succeeds, else the outcome and the detail. -/
abbrev StepEnd := Option (Nat × Nat)

/-- The board's failure of a step in its way, if any. -/
def boardFault (s : State) (k : Nat) : StepEnd :=
  (s.boot.board.faults.find? (fun f => f.step == k && f.way == (stepRec s k).way)).map (fun f => (f.outcome, f.detail))

/-- Step 0x03: settings are read after a power-on reset and kept after any other (18 Table 18.2, 19 R574). -/
def workOtp (s : State) : State :=
  loadLock (loadResponses (if s.boot.settings.isSome then s else otpLoad s))

/-- Whether the Millpond was never formatted: nothing stands where GENESIS and the anchor go (DESIGN CHOICE, log 20). -/
def mpdBlank (s : State) : Bool :=
  s.mpd.cells.all (fun c => decide (128 ≤ c.1) && !(decide (journalEnd ≤ c.1 ∧ c.1 < journalEnd + 64)))

/-- A Millpond that was never formatted is formatted: the key store's magic, GENESIS and the anchor. -/
def openMillpond (s : State) : State :=
  let s1 := if leNat (s.mpdBytes keyStore 4) = 0x4B535431 then s else keyHeader s false 0 0
  let s2 := if mpdBlank s1 then formatMpd s1 else s1
  s2.setFlag F.brkStatus_keys_erased 0 (bitAt (leNat (s2.mpdBytes (keyStore + 4) 1)) 0)

/-- Step 0x04 completes (18 R557, R558): the records of steps 0x01 to 0x04 are written; a record still RUNNING from an earlier boot
counts as LOST. -/
def openRecords (s : State) : State × List Nat :=
  let s1 := [1, 2, 3, 4].foldl (fun t k =>
    let r := stepRec t k
    setStepRec t k { r with state := recOk, fails := 0, outcome := 0, attempts := r.attempts + 1, boot := bootCount t }) (openMillpond s)
  (s1, bootSteps.filter (fun k => decide (5 ≤ k) && (stepRec s1 k).state == recRunning))

/-- The image slot of a way (18 R556): 0 A, 1 B. -/
def imageSlot (s : State) (k : Nat) : Nat := (bootPreferred s + (stepRec s k).way) % 2

/-- The image of a slot, at most 16 MiB (19 R582). -/
def imageOf (s : State) (slot : Nat) : List Byte :=
  (if slot = 0 then s.boot.board.slotA else s.boot.board.slotB).take 0x1000000

/-- The boot image tap on context 0: the signed message absorbed (12 R415, R418, 19 R582, R583). -/
def imageTap (b : List Byte) : TollCtx :=
  { hash := Hash.whole 2 (b.take (512 + leAt b 8 4 + leAt b 12 4)), slice := 0, closed := true }

/-- The checks of an image (19 R583). -/
def imageOk (s : State) (b : List Byte) : Bool :=
  let fw := leAt b 8 4
  let n := 512 + fw + leAt b 12 4
  let policy := setting s 3
  let key := sub b 64 97
  let hash := digestOf 2 key
  let named (g bit : Nat) : Bool := keyHash s g == some hash && !bitAt policy bit
  leAt b 0 4 == 0x45424931 && leAt b 6 2 == 1 && fw % 16 == 0 && decide (16 ≤ fw ∧ fw ≤ 8388608) && leAt b 64 1 == 4 &&
    decide (n + 96 ≤ b.length) && (!bitAt policy 0 || named 8 2 || named 16 3) && decide (setting s 4 % 65536 ≤ leAt b 4 2) &&
    Config.signatureValid key (imageTap b).digest (sub b n 96)

/-- Step 0x07 (19 R583, R584): the board section is kept from the bytes verified. -/
def workImage (s : State) : State × StepEnd :=
  let slot := imageSlot s 7
  let b := imageOf s slot
  let s1 := (s.setFlag F.otpStatus_unsecured 0 (!bitAt (setting s 3) 0)).setCtx 0 (some (imageTap b))
  if !imageOk s b then (s1, some (outCheck, slot))
  else
    let s2 := (s1.setFlag F.bootImage_running 0 (slot == 1)).setFld F.bootImage_version 0 (leAt b 4 2)
    ({ s2 with boot := { s2.boot with section_ := sub b (512 + leAt b 8 4) (leAt b 12 4) } }, none)

/-- The delay sets of a board section, in their order (15 R490, 19 R585): offset, speed and band of each. -/
def sectionSets (b : List Byte) : List (Nat × Nat × Nat) :=
  let speeds := [0, 1, 2].filter (fun v => bitAt (leAt b 4 1) v)
  let pairs := speeds.flatMap (fun v => [0, 1, 2].map (fun k => (v, k)))
  ((List.range pairs.length).zip pairs).map (fun x => (64 + 4928 * x.1, x.2.1, x.2.2))

/-- A set's band limits. -/
def setLimits (b : List Byte) (o : Nat) : Int × Int := (toSigned 8 (leAt b (o + 2) 1), toSigned 8 (leAt b (o + 3) 1))

/-- The checks of step 0x09 (19 R585). -/
def sectionOk (b : List Byte) : Bool :=
  let sets := sectionSets b
  leAt b 0 4 == 0x42445331 && leAt b 4 1 != 0 && decide (leAt b 4 1 < 8) && (sub b 5 59).all (· == 0) && b.length == 64 + 4928 * sets.length &&
    sets.all (fun x => leAt b x.1 1 == x.2.1 && leAt b (x.1 + 1) 1 == x.2.2 &&
      (x.2.2 != 1 || decide ((setLimits b x.1).1 < (setLimits b x.1).2)))

/-- A delay set as the store holds it: channel entries at both subchannels' places (15 Table 15.3). -/
def loadSet (b : List Byte) (x : Nat × Nat × Nat) : DelaySet :=
  let at_ (c sub_ e : Nat) : Nat := x.1 + 32 + 408 * c + (if e < 4 then 2 * e else 8 + 200 * sub_ + 2 * (e - 4))
  let all := (List.range 12).flatMap (fun c => [0, 1].flatMap (fun v => (List.range 104).map (fun e =>
    ((c * 2 + v) * 104 + e, leAt b (at_ c v e) 2))))
  { speed := x.2.1, band := x.2.2, low := (setLimits b x.1).1, high := (setLimits b x.1).2,
    delays := all.filter (fun (d : Nat × Nat) => d.2 != 0) }

/-- Whether a set breaks R491: an entry above 1,023, or a strobe entry that ×8 devices do not use (15 R490). -/
def setBad (width4 : Bool) (d : DelaySet) : Bool :=
  d.delays.any (fun x => decide (1023 < x.2) || (!width4 && decide ((89 ≤ x.1 % 104 ∧ x.1 % 104 < 94) ∨ 99 ≤ x.1 % 104)))

/-- A DIMM's organisation, as Table 15.1 lists them: capacity, density, width, ranks. -/
def dimmOrg (d : Dimm) : Nat × Bool × Bool × Nat := (d.capacityGib, d.density32, d.width4, d.ranks)

/-- The organisations of 15 Table 15.1. -/
def dimmOrgs : List (Nat × Bool × Bool × Nat) :=
  [(16, false, false, 1), (32, false, false, 2), (32, false, true, 1), (32, true, false, 1), (64, false, true, 2),
   (64, true, false, 2), (64, true, true, 1), (128, true, true, 2)]

/-- The channels that fail R487 at a speed, and how. -/
def dimmFaults (s : State) (speed : Nat) : StepEnd :=
  let ds := s.boot.board.dimms
  let mask (p : Option Dimm → Bool) : Nat := (List.range 12).foldl (fun m c => if p ds[c]? then m + 2 ^ c else m) 0
  let absent := mask (fun d => match d with
    | some x => !x.present
    | none => true)
  let bad := mask (fun d => match d with
    | some x => !x.ec8Rdimm || x.needsRfm || decide (x.ratedSpeed < speed) || !dimmOrgs.contains (dimmOrg x) ||
        (ds.head?.map dimmOrg) != some (dimmOrg x)
    | none => true)
  if absent ≠ 0 then some (outAbsent, absent) else if bad ≠ 0 then some (outCheck, bad) else none

/-- The speed of a way of step 0x0C (18 Table 18.2). -/
def waySpeed (way : Nat) : Nat := 2 - way

/-- The DRAM initialised at a speed (15 R487 to R491): its contents are undefined. -/
def dramInit (s : State) (speed : Nat) : State :=
  let board := s.boot.board
  let d := board.dimms.headD ⟨false, false, 0, false, false, 0, false, 0⟩
  let sets := ((sectionSets s.boot.section_).filter (fun x => x.2.1 == speed)).map (loadSet s.boot.section_)
  let chanInit (t : State) (c : Nat) : State := t.setReg .dmcChStatus c
    (ofSigned 8 board.dimmTemp * 2 ^ 24 + boolNat (decide (85 < board.dimmTemp)) * 2 ^ 23 + d.ranks * 2 ^ 14 +
      boolNat d.width4 * 2 ^ 13 + boolNat d.density32 * 2 ^ 12)
  let band := match sets.find? (fun x => x.band == 1) with
    | some x => bandOf x.low x.high board.phyTemp
    | none => 0
  let s1 := { s with dram := { s.dram with poison := [], store := sets, scrubHeld := none }, mem := hostCells s }
  let s2 := s1.setReg .dmcStatus 0 (2 ^ 31 + band * 2 ^ 24 + speed * 2 ^ 22 + 12 * d.capacityGib)
  (List.range 12).foldl (fun t c => (chanInit t c).setChan c (fun d => { DChan.empty with ceSent := d.ceSent, zqDone := d.zqDone + 1 })) s2

/-- The channels leave self-refresh under the speed and delays in force (15 R501). -/
def dramWake (s : State) : State :=
  ((List.range 12).foldl (fun t c => t.setChan c (fun d => { d with selfRefresh := false })) s).setFlag F.dmcStatus_self_refresh 0 false

/-- Step 0x0C (15 R487, R491, R501): after a reset that kept DRAM, the channels only wake, under the speed in force. -/
def workDram (s : State) : State × StepEnd :=
  let speed := waySpeed (stepRec s 0x0C).way
  if s.flag F.dmcStatus_init_done 0 then (dramWake s, none)
  else
    let d := s.boot.board.dimms.headD ⟨false, false, 0, false, false, 0, false, 0⟩
    let sets := (sectionSets s.boot.section_).filter (fun x => x.2.1 == speed)
    match dimmFaults s speed with
    | some e => (s, some e)
    | none =>
      if sets.length < 3 ∨ (sets.any (fun x => setBad d.width4 (loadSet s.boot.section_ x))) = true then (s, some (outCheck, 0))
      else (dramInit s speed, none)

/-- Step 0x0B (19 R581). -/
def workKeys (s : State) : State × StepEnd :=
  if (stepRec s 0x0B).way = 1 then ({ s with keys := [] }, none)
  else match loadKeys s with
  | (true, s1) => (s1, none)
  | (false, s1) => (s1, some (outCheck, 0))

/-- A port step (10 R383, 18 Table 18.2): the drive qualifies; a port without a drive is empty; a skipped port is OFFLINE. -/
def workPort (s : State) (p : Nat) : State × StepEnd :=
  let s1 := qualifyPort (drivePort s p false) p
  if (stepRec s (0x10 + p)).way = 1 then (setPort s p 3 0 0 0, none)
  else if s1.fld F.volPortStatus_state p = 1 then (s1, some (outCheck, 0))
  else (s1, none)

/-- A progress record of the Millpond that names an operation (10 R377, R378). -/
def readProgress (s : State) (v : Nat) : Option VolOp :=
  let b := s.mpdBytes (0x7C040000 + 64 * v) 24
  let op := leAt b 0 1
  if op = 0 then none
  else some { op := op, job := none, waits := [], phase := leAt b 1 1, port := leAt b 3 1, next := leAt b 8 8, units := leAt b 16 8,
              resumed := true, code := leAt b 2 1 }

/-- Step 0x18 (10 R350, R378): the copy with the highest change count whose CRC-32C passes, written to every attached drive; the volumes whose progress
record names an operation are busy. -/
def workTable (s : State) : State :=
  let ports := (List.range 8).filter (portUp s)
  let best := (ports.filter (fun p => (s.drive p).sound)).foldl (fun (b : Option Drive) p => match b with
    | some d => if d.change < (s.drive p).change then some (s.drive p) else some d
    | none => some (s.drive p)) none
  let (table, change) := match best with
    | some d => (d.table, d.change)
    | none => ([], 0)
  let ops := table.filterMap (fun x => (readProgress s x.1).map (fun o => (x.1, o)))
  let s1 := { s with vols := { s.vols with table := table, change := change, ops := ops } }
  ports.foldl tableCopy s1

/-- Step 0x19 (09 R341, R346). -/
def workWriteback (s : State) : State :=
  let ro := (stepRec s 0x19).way == 1
  recoverVolumes ({ s with readOnly := ro }.setFlag F.mpdStatus_read_only 0 ro)

/-- An operation resumes after a reset (10 R378): a phase 1 that is not recorded as done is done whole, with a fresh key for a SANITISE; else the
next unit is issued. -/
def resumeOp (s : State) (v : Nat) (o : VolOp) : State :=
  match s.vol v with
  | none => s
  | some e =>
    if o.phase ≠ 0 then issueUnit s v
    else if o.op = 1 then phaseTwo (freshKey s e.keySlot) v e
    else phaseTwo s v (formatEnt e (o.code == 1))

/-- Step 0x1A (10 R378, 18 Table 18.2). -/
def workResume (s : State) : State :=
  if (stepRec s 0x1A).way = 1 then s else s.vols.ops.foldl (fun t x => resumeOp t x.1 x.2) s

/-- Step 0x1F completes: ready rises (18 R563). Context 0 is the journal's from here on (12 R415). -/
def workReady (s : State) : State :=
  let s := if (s.ctx 0).any (fun c => c.hash.alg == 2) then s.setCtx 0 none else s
  let s1 := { s.setFlag F.bootStatus_ready 0 true with boot := { s.boot with running := [] } }
  if s1.msix.enabled && !s1.msix.funcMask && !(s1.vector 0).masked then msixSend s1 0 else s1

/-- The work of a step that is not the boot's own (18 Table 18.2). dump is step 0x0D's. -/
def stepWork (dump : State → State) (s : State) (k : Nat) : State × StepEnd :=
  match boardFault s k with
  | some e => (s, some e)
  | none =>
    if k = 0x03 then (workOtp s, none)
    else if k = 0x06 ∧ s.boot.board.flashMode = false then (s, some (outAbsent, 0))
    else if k = 0x07 then workImage s
    else if k = 0x09 then (if sectionOk s.boot.section_ then (s, none) else (s, some (outCheck, imageSlot s 9)))
    else if k = 0x0A then ({ s with boot := { s.boot with link := true } }, none)
    else if k = 0x0B then workKeys s
    else if k = 0x0C then workDram s
    else if k = 0x0D then (dump s, none)
    else if k = 0x0F then (recoverJournal s, none)
    else if 0x10 ≤ k ∧ k ≤ 0x17 then workPort s (k - 0x10)
    else if k = 0x18 then (workTable s, none)
    else if k = 0x19 then (workWriteback s, none)
    else if k = 0x1A then (workResume s, none)
    else (s, none)

/-- The link's speed in a way of step 0x0A (18 Table 18.2): its generation. -/
def linkSpeed (s : State) : Nat := min s.boot.board.linkSpeed (6 - (stepRec s 0x0A).way)

/-- The detail of a step that ends well (18 Table 18.3). -/
def okDetail (s : State) (k : Nat) : Nat :=
  if 7 ≤ k ∧ k ≤ 9 then imageSlot s k else if k = 0x0A then linkSpeed s else 0

/-- A step's record after it ends well (18 R558). -/
def recordOk (s : State) (k : Nat) : State :=
  if k ≤ 4 then s else setStepRec s k { stepRec s k with state := recOk, fails := 0, outcome := 0, detail := okDetail s k }

/-- The step after one, in Table 18.2's order. -/
def stepAfter (k : Nat) : Option Nat := bootSteps.find? (fun i => decide (k < i))

/-- The work of the running steps, one after another: the state, and those that failed. -/
def runSteps (dump : State → State) (ks : List Nat) (s : State) : State × List (Nat × Nat × Nat) :=
  ks.foldl (fun acc k =>
    match stepWork dump acc.1 k with
    | (t, none) => (recordOk t k, acc.2)
    | (t, some e) => (t, acc.2 ++ [(k, e)])) (s, [])

/-- The Brake's HALT response before step 0x1F completes: the running steps fail (19 Table 19.6). -/
def brakeBoot (s : State) : State :=
  if s.boot.running.isEmpty then s else failSteps s (s.boot.running.map (fun k => (k, outHw, 0)))

/-- The sensors' levels, as BRK_STATUS shows them. -/
def sensorsLive (s : State) (live : Nat) : State :=
  let t := s.setFld F.brkStatus_live 0 live
  { t with boot := { t.boot with board := { t.boot.board with sensors := live % 32 } } }

/-- Sensors trip, or their conditions hold at step 0x05 (19 R586, R587, R590). -/
def brakeTrip (s : State) (sensors live : Nat) : State :=
  if !s.boot.on || !s.boot.armed then s
  else
    let (halt, s1) := brakeApply (sensorsLive s live) (sensors % 32 &&& (31 - s.fld F.brkStatus_tripped 0))
    if !halt then s1
    else if s.flag F.bootStatus_ready 0 then deviceHalt s1 0x106
    else brakeBoot s1

/-- What follows the running steps' good end: what the last of them completes, and the next step. -/
def afterSteps (s : State) (k : Nat) : State :=
  if k = 0x04 then
    let (s1, lost) := openRecords s
    if lost.isEmpty then startStep s1 5 else failSteps s1 (lost.map (fun i => (i, outLost, (stepRec s1 i).detail)))
  else if k = 0x1F then workReady s
  else match stepAfter k with
  | some n => startStep s n
  | none => s

/-- Step 0x05 arms the sensors; a condition that holds trips at once, its bit set or not, and HALT fails the step (19 R586,
R590). -/
def armBrake (s : State) : State :=
  let (halt, s1) := brakeApply { s with boot := { s.boot with armed := true } } s.boot.board.sensors
  if halt then brakeBoot s1 else s1

/-- The running boot steps end (18 R555, R558). -/
def bootAdvance (dump : State → State) (s : State) : State :=
  match s.boot.running.getLast? with
  | none => s
  | some k =>
    let s0 := if k = 0x05 then armBrake s else s
    if s0.boot.running ≠ s.boot.running then s0
    else
      let (s1, failed) := runSteps dump s0.boot.running s0
      if failed.isEmpty then afterSteps s1 k else failSteps s1 failed

/-- Whether the running step waits for perst_n: host link training (18 R555, 22 R644). -/
def bootWaits (s : State) : Bool := s.boot.running == [0x0A] && !s.boot.perst && !s.boot.link

/-- BOOT_STEP_TIMEOUT (18 R555): a running step passes its limit; the others of its group end as they would. -/
def stepTimeout (dump : State → State) (s : State) (k : Nat) : State :=
  if !s.boot.running.contains k || bootWaits s then s
  else
    let (s1, failed) := runSteps dump (s.boot.running.filter (· != k)) s
    failSteps s1 (failed ++ [(k, outTimeout, 0)])

/-- A drive as the board describes it: a fresh one holds nothing. -/
def fitDrive (d : Drive) (x : DriveDesc) : Drive :=
  let base := if x.fresh then Drive.none_ else d
  { base with fitted := x.fitted, cap := x.lbas, caps := x.caps, pairs := 0, sound := base.sound && !x.damaged }

/-- The eight ports' drives of a board; a port that it does not describe is empty. -/
def fitDrives (s : State) (board : Board) : State :=
  (List.range 8).foldl (fun t p => t.setDrive p (fun d => fitDrive d (board.drives.getD p { lbas := d.cap }))) s

/-- A board whose pwr_good has risen boots, unless its test pin holds it (22 R634). -/
def bringUp (s : State) (board : Board) : State :=
  if board.testEn then s
  else
    let t := fitDrives s board
    startBoot { t with boot := { t.boot with on := true, perst := board.perstN } } true

/-- POWER_ON (22 R634, R638, 18 R553): pwr_good rises with a board. -/
def powerOn (s : State) (board : Board) : State :=
  if s.boot.on then s else bringUp (powerOff { s with boot := { s.boot with board := board } }) board

/-- PERST_N_RISE (22 R644). -/
def perstRise (s : State) : State := if s.boot.on then { s with boot := { s.boot with perst := true } } else s

/-- PWR_FAIL (09 R336, 22 R640, R642): the sequence, and a running boot step that keeps its RUNNING record. -/
def pwrFailPin (s : State) : State :=
  if !s.boot.on then s
  else
    let t := powerFail s
    { t with boot := { t.boot with running := [] } }

end Sys2Proof.Machine
end

