-- ==== Sys2Proof/Machine/Views.lean ====
section
/-! DEFINITION. What a read of each register returns, with no side effect: the registers that show a unit's state are
computed from it here, the rest are read from the register file (04, 05, 09 to 12, 18, 19, 21). -/

namespace Sys2Proof.Machine

/-- STN_STATE of a stone (05 Table 5.19). -/
def viewStnState (s : State) (i : Nat) : Nat :=
  let st := s.stone i
  match st.run with
  | none => 0
  | some r =>
    let j := s.job r.job
    2 ^ 63 + boolNat st.parked.isSome * 2 ^ 62 + boolNat r.interactive * 2 ^ 61 + ((j.map (·.slice)).getD 0) * 2 ^ 55 +
      ((j.map (·.hdr.tag)).getD 0) * 2 ^ 32 + r.part % 2 ^ 17

/-- STN_STAGE of a stone (05 Table 5.20). -/
def viewStnStage (s : State) (i : Nat) : Nat :=
  let st := s.stone i
  match st.run with
  | none => 0
  | some r => r.frames % 16 * 2 ^ 28 + r.inFlight.length % 16 * 2 ^ 24 +
      ([1, 2, 3, 4, 5, 6].map (fun k => stageCode s st r k * 16 ^ (k - 1))).sum

/-- STN_PCACHE of a stone (05 Table 5.22). -/
def viewStnPcache (s : State) (i : Nat) : Nat :=
  (s.stone i).programs.length % 256 * 2 ^ 24 + pcacheBytes (s.stone i) % 2 ^ 17

/-- Whether a stone's running or parked task has runs in its mill's merge unit. -/
def holdsRuns (st : Stone) : Bool := [st.run, st.parked].any (fun o => match o.bind (·.merge) with
  | some m => !m.runs.isEmpty && !m.ended
  | none => false)

/-- MILL_STATUS of a mill (05 Table 5.23). -/
def viewMill (s : State) (i : Nat) : Nat :=
  let mask (p : Stone → Bool) : Nat := ((List.range 8).map (fun k => boolNat (p (s.stone (8 * i + k))) * 2 ^ k)).sum
  (readyList s .stone i).length % 2 ^ 16 * 2 ^ 48 + mask (·.parked.isSome) * 2 ^ 32 + mask (·.run.isSome) * 2 ^ 24 +
    boolNat ((millStones i).any (fun k => holdsRuns (s.stone k)))

/-- TOL_STATUS (12 Table 12.7). -/
def viewTolStatus (s : State) : Nat :=
  (readyList s .toll 0).length % 2 ^ 16 * 2 ^ 16 + heldBy s none * 2 ^ 8 + s.units.ctxs.countP (fun x => x.2.isSome)

/-- TOL_CTX_STATE of a context (12 Table 12.9). -/
def viewTolCtx (s : State) (i : Nat) : Nat :=
  let marks := s.reg .tolCtxState i
  match s.ctx i with
  | none => marks
  | some c =>
    let j := c.job.bind (fun x => s.job x.1)
    let own := if c.keyed.isSome then algBlock c.hash.alg else 0
    let waiting := if c.closed then 0 else c.hash.tail.length / algBlock c.hash.alg * algBlock c.hash.alg
    let governed := match j with
      | some jb => jb.hdr.op / 2 == 0x200 && (markOf jb c).isSome
      | none => false
    marks + 2 ^ 63 + boolNat (c.isHeld && c.job.isNone) * 2 ^ 62 + boolNat c.keyed.isSome * 2 ^ 61 + c.hash.alg % 8 * 2 ^ 58 +
      boolNat governed * 2 ^ 57 + c.slice % 64 * 2 ^ 49 + ((j.map (·.hdr.tag)).getD 0) * 2 ^ 32 + (c.hash.len - own - waiting) % 2 ^ 32

/-- VOL_CFG of a volume (10 Table 10.9). -/
def viewVolCfg (s : State) (v : Nat) : Nat :=
  match s.vol v with
  | none => 0
  | some e => 2 ^ 31 + boolNat e.table * 2 ^ 30 + boolNat e.mirror * 2 ^ 29 + boolNat e.big * 2 ^ 28 + e.unit % 16 * 2 ^ 24 +
      e.owner % 64 * 2 ^ 18 + e.keySlot % 64 * 2 ^ 12 + e.ports % 256

/-- VOL_STATE of a volume (10 Table 10.11). -/
def viewVolState (s : State) (v : Nat) : Nat :=
  let kept := s.reg .volState v
  match s.vol v with
  | none => kept
  | some e => kept + volState s v e * 2 ^ 28 + (e.members.filter (fun p =>
      s.fld F.volPortStatus_state p == 1 || s.fld F.volPortStatus_state p == 3)).foldl (fun m p => m + 2 ^ p) 0

/-- VOL_PROGRESS of a volume (10 Table 10.12). -/
def viewVolProgress (s : State) (v : Nat) : Nat :=
  match s.volOp v with
  | none => 0
  | some o => o.next % 2 ^ 32 * 2 ^ 32 + o.units % 2 ^ 32

/-- MPD_SNAP_STAT (09 Table 9.14). -/
def viewSnapStat (s : State) : Nat :=
  s.mpd.txns.countP (fun t => !t.fetched) % 1024 * 2 ^ 16 + s.mpd.snaps.length % 8192

/-- MPD_WEAR (09 Table 9.25). -/
def viewWear (s : State) : Nat :=
  let counts := s.mpd.writes.map Prod.snd
  counts.foldl max 0 % 2 ^ 32 * 2 ^ 32 + counts.sum / 32768 % 2 ^ 32

/-- Whether a flow has a task that is not released (04 Table 4.12). -/
def flowBusy (s : State) (f : Nat) : Bool :=
  s.fan.jobs.any (fun j => j.hdr.flow == some f && taskPending s j)

/-- The header of the Spillway dump in the Millpond (18 Table 18.6). -/
abbrev dumpHeader : Nat := 0x7C020000

/-- Whether a dump is held (18 R568). -/
def dumpHeld (s : State) : Bool := bitAt (leNat (s.mpdBytes (dumpHeader + 4) 1)) 2
/-- Whether the held dump's part in DRAM is valid (18 R569). -/
def dumpValid (s : State) : Bool := bitAt (leNat (s.mpdBytes (dumpHeader + 4) 1)) 1
/-- The number of the last dump (18 Table 18.6). -/
def dumpSequence (s : State) : Nat := leNat (s.mpdBytes (dumpHeader + 8) 8)
/-- Fatal errors that were not dumped (18 Table 18.6). -/
def dumpLost (s : State) : Nat := leNat (s.mpdBytes (dumpHeader + 56) 4)

/-- BOOT_DUMP (18 Table 18.13). -/
def viewBootDump (s : State) : Nat :=
  boolNat (dumpHeld s) * 2 ^ 62 + boolNat (dumpValid s) * 2 ^ 61 + min (dumpLost s) 0xFFFF * 2 ^ 32 + dumpSequence s % 2 ^ 32

/-- BOOT_STATUS (18 Table 18.9). -/
def viewBootStatus (s : State) : Nat :=
  s.reg .bootStatus 0 + boolNat (bootDegraded s) * 2 ^ 60 + boolNat (dumpHeld s) * 2 ^ 59

/-- BOOT_STEP of a step (18 Table 18.10). -/
def viewBootStep (s : State) (k : Nat) : Nat :=
  let r := stepRec s k
  r.attempts % 2 ^ 32 * 2 ^ 32 + r.outcome * 2 ^ 24 + r.fails * 2 ^ 16 + r.way * 2 ^ 8 + r.state

/-- BRK_KEY_CFG of a slot (19 Table 19.15). -/
def viewKeyCfg (s : State) (n : Nat) : Nat :=
  s.reg .brkKeyCfg n + boolNat ((s.slot n).usage != 0) * 2 ^ 31 + boolNat (slotServes s n) * 2 ^ 30

/-- DEV_PROFILE, whose custom bit compares DEV_CFG with the profile's row (01 Table 1.8). -/
def viewProfile (s : State) : Nat :=
  putBits (s.reg .devProfile 0) 2 1 (boolNat (s.reg .devCfg 0 != profileCfg (s.fld F.devProfile_profile 0)))

/-- The value of instance i of a register as a read returns it, but for its WO fields. -/
def regView (s : State) (r : Reg) (i : Nat) : Nat :=
  match r with
  | .devId => putBits (s.reg .devId 0) 4 4 (if Config.gradeE then 2 else 1)
  | .devProfile => viewProfile s
  | .slcStatus => putBits (s.reg .slcStatus i) 0 1 (s.fld F.slcEvCfg_lossless i)
  | .fanFlowCfg => putBits (s.reg .fanFlowCfg i) 30 1 (boolNat (flowBusy s i))
  | .stnCheckCtl => s.pipe.checked.length
  | .stnState => viewStnState s i
  | .stnStage => viewStnStage s i
  | .stnPcache => viewStnPcache s i
  | .millStatus => viewMill s i
  | .dmcDly => delayInForce s (i / 208) (i / 104 % 2) (i % 104)
  | .sluBusy => sluBusy s
  | .qrnState => qrnState s i
  | .tolStatus => viewTolStatus s
  | .tolCtxState => viewTolCtx s i
  | .volCfg => viewVolCfg s i
  | .volCap => ((s.vol i).map (·.cap)).getD 0 % 2 ^ 48
  | .volState => viewVolState s i
  | .volFlushed => if (s.vol i).isSome then flushedEpoch s i else 0
  | .volProgress => viewVolProgress s i
  | .mpdSnapStat => viewSnapStat s
  | .mpdWear => viewWear s
  | .otpStatus => putBits (s.reg .otpStatus 0) 29 1 (setting s 3 / 2)
  | .otpGroup => otpGroupView s i
  | .brkKeyCfg => viewKeyCfg s i
  | .sckStatus => putBits (putBits (s.reg .sckStatus 0) 31 1 (s.fld F.sckCtl_freeze 0)) 30 1 1
  | .bootStatus => viewBootStatus s
  | .bootStep => viewBootStep s i
  | .bootImage => putBits (s.reg .bootImage 0) 31 1 (bootPreferred s)
  | .bootDump => viewBootDump s
  | r => s.reg r i

/-- The row of a register in chapter 21's tables. -/
def rowOf (r : Reg) : RegRow :=
  (regRows.find? (fun x => x.reg == r)).getD ⟨r, false, 0, 0, 1, false, none, .none, []⟩

/-- The bits of a row's fields of one access code. -/
def RegRow.mask (w : RegRow) (p : Acc → Bool) : Nat :=
  (w.flds.map (fun f => if p f.acc then (2 ^ f.fld.width - 1) * 2 ^ f.fld.lo else 0)).sum

/-- The value that a read of instance i of a register returns: WO fields read 0 (00 Table 0.4). -/
def regRead (s : State) (r : Reg) (i : Nat) : Nat :=
  let w := rowOf r
  (regView s r i &&& w.mask (· != .wo)) % 2 ^ (if w.wide then 64 else 32)

/-- The instance that a window's selector names (21 R617). -/
def selected (s : State) (c : Sel) : Nat :=
  match c with
  | .none => 0
  | .wqSel => s.fld F.wqSel_queue 0
  | .wqSlice => s.fld F.wqSel_queue 0 / 8
  | .flowSel => s.fld F.fanFlowSel_flow 0
  | .stnSel => s.fld F.stnSel_stone 0
  | .millSel => s.fld F.millSel_mill 0
  | .dmcCh => s.fld F.dmcChSel_channel 0
  | .dmcDly => (s.fld F.dmcChSel_channel 0 * 2 + s.fld F.dmcDlySel_sub 0) * 104 + s.fld F.dmcDlySel_entry 0
  | .sluCh => s.fld F.sluChSel_channel 0
  | .qrnSel => s.fld F.qrnSel_quern 0
  | .tolCtx => s.fld F.tolCtxSel_context 0
  | .tolTap => s.fld F.tolTapSel_slice 0
  | .volSel => s.fld F.volSel_volume 0
  | .xltSlice => s.fld F.xltSliceSel_slice 0
  | .slcSel => s.fld F.slcSel_slice 0
  | .volPort => s.fld F.volPortSel_port 0
  | .mpdTable => s.fld F.mpdTableSel_table 0
  | .otpGroup => s.fld F.otpGroupSel_group 0
  | .brkKey => s.fld F.brkKeySel_slot 0
  | .sckSel => s.fld F.sckSel_counter 0
  | .sckBw => s.fld F.sckBwSel_port 0
  | .bootStep => s.fld F.bootStepSel_step 0

end Sys2Proof.Machine
end

