-- ==== Sys2Proof/Machine/Spillway.lean ====
section
/-! DEFINITION. The Spillway dump (18 R567 to R570): its header, its sections, step 0x0D's check, DUMP_READ. -/

namespace Sys2Proof.Machine

/-- The counted addresses of a row of chapter 21: each element of an array, or the slot of a window or single register with
the instance that its selector names (21 R619, R620). -/
def countedOf (s : State) (w : RegRow) : List (Nat × Reg × Nat) :=
  if w.stride = 0 then [(w.off, w.reg, selected s w.sel)]
  else (List.range w.insts).map (fun i => (w.off + w.stride * i, w.reg, i))

/-- The global registers in Register Map order (21 R620). -/
def globalOrder (s : State) : List (Reg × Nat) :=
  (((regRows.filter (fun w => !w.bar2)).flatMap (countedOf s)).mergeSort (fun a b => decide (a.1 ≤ b.1))).map Prod.snd

/-- The registers of a slice page in Register Map order (21 R622). -/
def pageOrder (n : Nat) : List (Reg × Nat) :=
  regRowsPage.flatMap (fun w => if w.stride = 0 then [(w.reg, n)] else (List.range 8).map (fun q => (w.reg, n * 8 + q)))

/-- Registers as the dump records them: 8 bytes each, as a read would return them, with no side effect (21 R620). -/
def regImage (s : State) (rs : List (Reg × Nat)) : List Byte := rs.flatMap (fun x => natLE 8 (regRead s x.1 x.2))

/-- The QUEUES section (18 Table 18.7). -/
def queueImage (s : State) : List Byte :=
  (List.range 512).flatMap (fun g => [s.reg .wqCfg g, regRead s .wqState g, s.reg .weirQcfg g, regRead s .weirQstat g, s.head g,
    s.tailOf g].flatMap (natLE 8) ++ zeros 16)

/-- The JOBS section: the job table in handover order. -/
def jobImage (s : State) : List Byte :=
  s.fan.jobs.flatMap (fun j => [j.slice, j.queue, j.hdr.tag, j.gen, j.index, j.hdr.op, tasksLeft s j,
    (j.outc.map (·.status)).getD 0].flatMap (natLE 8))

/-- The dependence counters in use, each with its value (04 R126). -/
def counters (s : State) : List (Nat × Nat) :=
  s.fan.jobs.filterMap (fun j => j.counter.map (fun i => (i, j.awaits.length))) ++
    s.fan.tasks.filterMap (fun t => t.counter.map (fun i => (i, t.producers.length)))

/-- The TASKS section: the task slots in the order of their creation. -/
def taskImage (s : State) : List Byte :=
  s.fan.tasks.flatMap (fun t =>
    let stone := match t.engine, t.state with
      | .stone, .placed u => u
      | _, _ => 0
    let entry := s.fan.jobs.findIdx (fun j => j.id == t.job)
    [entry, t.part, stone, t.counter.getD 0].flatMap (natLE 8))

/-- The dependence counters by their numbers, those not in use 0. -/
def counterImage (s : State) : List Byte :=
  (List.range (((counters s).map Prod.fst).foldl max 0 + 1)).flatMap (fun i =>
    natLE 2 ((((counters s).find? (fun x => x.1 == i)).map Prod.snd).getD 0))

/-- The nine sections in table order, each with its offset in the region, its length, and its bytes as of the error (18 Table
18.7). The firmware's log and the hoppers hold what the spec does not give. -/
def dumpSections (s : State) : List (Nat × Nat × List Byte) × State :=
  let (log, s1) := openBytes s 0x100000
  let (hop, s2) := openBytes s1 0x8000000
  let pages := (List.range 64).flatMap pageOrder
  let sack := (List.range 128).flatMap (fun c => natLE 8 (s.reg .sckCnt c))
  ([(0x000000, 0x10000, regImage s (globalOrder s ++ pages)), (0x010000, 0x10000, queueImage s),
    (0x020000, 0x80000, jobImage s), (0x0A0000, 0x100000, taskImage s), (0x1A0000, 0x20000, counterImage s),
    (0x1C0000, 0x10000, sack), (0x1D0000, 0x200000, s.traceLog.flatten), (0x3D0000, 0x100000, log),
    (0x1000000, 0x8000000, hop)].map (fun x => (x.1, x.2.1, padTo x.2.2 x.2.1)), s2)

/-- The places and lengths of the sections. -/
def sectionPlaces : List (Nat × Nat) :=
  [(0x000000, 0x10000), (0x010000, 0x10000), (0x020000, 0x80000), (0x0A0000, 0x100000), (0x1A0000, 0x20000), (0x1C0000, 0x10000),
   (0x1D0000, 0x200000), (0x3D0000, 0x100000), (0x1000000, 0x8000000)]

/-- The base of the Spillway region (18 R567). -/
def spillBase (s : State) : Nat := s.capacity - 0x10000000

/-- Whether a DPA lies in the Spillway region. -/
def inSpill (s : State) (dpa : Nat) : Bool := decide (spillBase s ≤ dpa ∧ dpa < s.capacity)

/-- Bytes written from a line's start to DRAM, UNCACHED (18 R567, 14 R471). -/
def spillWrite (s : State) (dpa : Nat) (b : List Byte) : State :=
  (List.range (b.length / 64)).foldl (fun t i =>
    (granWrite (ownReq 0) attrUC (dpa + 64 * i) (sub b (64 * i) 64)).quiet t) s

/-- Millpond header words of a dump (18 Table 18.6): flags 1 complete, 2 dram_valid, 4 held. -/
def setDumpFlags (s : State) (f : Nat) : State := mpdWrite s (dumpHeader + 4) (natLE 1 f)

/-- The header's flags. -/
def dumpFlags (s : State) : Nat := leNat (s.mpdBytes (dumpHeader + 4) 1)

/-- The header's first 64 bytes, of a fatal error of a class (18 Table 18.6): the dump is held and not complete. -/
def dumpHead (s : State) (cls : Nat) : List Byte :=
  let slice := (List.range 64).find? (fun n => s.flag F.slcFault_device n)
  let faulted := if cls = 0x101 then slice else none
  let at_ (f : Fld) : Nat := (faulted.map (s.fld f)).getD 0
  natLE 4 0x53504C31 ++ natLE 1 4 ++ zeros 3 ++ natLE 8 (dumpSequence s + 1) ++ natLE 2 cls ++ natLE 1 (faulted.getD 0) ++
    natLE 1 (at_ F.slcFault_queue) ++ natLE 4 (at_ F.slcFault_index) ++ natLE 8 (s.reg .fanTick 0) ++ natLE 8 (s.reg .mpdEpoch 0) ++
    natLE 8 (bootCount s) ++ natLE 8 (powerOnCount s) ++ natLE 4 (dumpLost s) ++ zeros 4

/-- The dump of a fatal error (18 R568): a held dump only counts the error as lost. -/
def writeDump (s : State) (cls : Nat) : State :=
  if dumpHeld s then mpdWrite s (dumpHeader + 56) (natLE 4 (dumpLost s + 1))
  else
    let (secs, s1) := dumpSections s
    let trace := padTo ((s.traceLog.drop (s.traceLog.length - 512)).flatten) 16384
    let s2 := mpdWrite s1 dumpHeader (dumpHead s cls)
    if s.capacity = 0 then s2
    else
      let s3 := secs.foldl (fun t x => spillWrite t (spillBase s + x.1) x.2.2) s2
      let summary := secs.flatMap (fun x => digestOf 1 x.2.2) ++ zeros 3744 ++ regImage s (globalOrder s) ++ zeros 1248 ++ trace ++
        zeros 32768
      setDumpFlags (mpdWrite s3 (dumpHeader + 64) summary) 5

/-- A fatal error whose dump is owed is carried out (18 R568): the open group is closed and sealed, a boot in progress ends, the dump
is written. -/
def fatalSettle (s : State) : State :=
  match s.fatal with
  | none => s
  | some cls =>
    let s1 := sealAll { s with fatal := none, boot := { s.boot with running := [] } }
    writeDump s1 cls

/-- Whether the held dump's part in DRAM still stands (18 R569). -/
def dumpStands (s : State) : Bool :=
  bitAt (dumpFlags s) 0 && leNat (s.mpdBytes (dumpHeader + 48) 8) == powerOnCount s && s.capacity != 0 &&
    ((List.range 9).zip sectionPlaces).all (fun x =>
      digestOf 1 (s.bytes (spillBase s + x.2.1) x.2.2) == s.mpdBytes (dumpHeader + 64 + 32 * x.1) 32)

/-- Step 0x0D (18 R569, Table 18.2): the held dump is checked; in way 1 it is treated as lost. -/
def workDump (s : State) : State :=
  if !dumpHeld s then s
  else if (stepRec s 0x0D).way = 1 then setDumpFlags s (dumpFlags s % 2)
  else setDumpFlags s (dumpFlags s % 2 + 4 + boolNat (dumpStands s) * 2)

/-- Whether an offset of the region lies in a section (18 Table 18.7). -/
def inSection (off : Nat) : Bool := sectionPlaces.any (fun x => decide (x.1 ≤ off ∧ off < x.1 + x.2))

/-- n bytes of the region from an offset, read as UNCACHED accesses (14 R471): those of no section read 0 (18 Table 18.7). -/
def regionBytes (r : Req) (base off n : Nat) : Op (List Byte) := do
  let parts ← (chunks (lineFuel n) (base + off) n).mapM (fun c => do
    let at_ := c.1 - base
    if (List.range c.2).any (fun i => inSection (at_ + i)) then do
      let line ← granRead r attrUC c.1
      return (List.range c.2).map (fun i => if inSection (at_ + i) then line.getD (c.1 % 64 + i) 0 else 0)
    else return zeros c.2)
  return parts.flatten

/-- The image that DUMP_READ reads from an offset: the header, then the region (18 R570). -/
def dumpBytes (r : Req) (off n : Nat) : Op (List Byte) := do
  let s ← get
  let head := min n (65536 - off)
  let region ← regionBytes { r with own := true } (spillBase s) (off + head - 65536) (n - head)
  return s.mpdBytes (dumpHeader + off) head ++ region

/-- DUMP_READ (18 R570). -/
def dumpReadOp (s : State) (id : Nat) : State :=
  match startJob s id 0x0706 with
  | none => s
  | some j =>
    let len := eLen0 j.first
    let off := eParam1 j.first
    let size := if dumpValid s then 268500992 else 65536
    let seq := dumpSequence s % 2 ^ 32 * 2 ^ 32
    if len < 65536 then finishJob s id ⟨stShort, 0, 65536⟩
    else if !dumpHeld s then okJob s id 0
    else if size ≤ off then okJob s id seq
    else
      let n := min len (size - off)
      match (do
          let b ← dumpBytes (j.req .fantail) off n
          jobWrite id (j.req .fantail) (eAddr0 j.first) b : Op Unit).exec s with
      | (.error e, s1) => finishJob s1 id e.toOutc
      | (.ok _, s1) =>
        if bitAt (eParam0 j.first) 0 && off + n == size then
          okJob ((setDumpFlags s1 (dumpFlags s1 % 4)).setJob id (fun j => { j with pnr := true })) id (seq + n)
        else okJob s1 id (seq + n)

end Sys2Proof.Machine
end

