-- ==== Sys2Proof/Machine/Writes.lean ====
section
/-! DEFINITION. What writes of registers do beyond their access codes: tailraces (03), profile and mode bits (01), flows and
the trace ring (04), stones (05), invalidation (13), the sack counters (20), boot and dump registers (18). -/

namespace Sys2Proof.Machine

/-- A fatal error of a class (18 R566, R568): the device halts, and a dump is owed. After the power-fail sequence nothing more is
written (09 R336). -/
def fatalError (s : State) (cls : Nat) : State :=
  if !s.boot.on || s.flag F.mpdStatus_pwr_fail 0 then s
  else stopTasks { s with halted := true, fatal := some cls } (fun _ => true)

/-- Held releases of a tailrace that may now go, in the order in which they became ready (03 R106). -/
def releaseInOrder (s : State) (n : Nat) : State := (s.tail n).held.foldl jobRelease s

/-- Every held release of a tailrace goes: the ring is lossy or disabled (03 R110, Table 3.12). -/
def releaseHeld (s : State) (n : Nat) : State :=
  let ids := (s.tail n).held
  ids.foldl jobRelease ((s.setTail n (fun t => { t with held := [] })).setFlag F.slcStatus_ev_held n false)

/-- A write of SLC_EV_HEAD (03 R104): past the tail or backwards it sets ev_head_bad; else slots are free, and pending records
and held releases take them. -/
def evHeadWrite (s : State) (n value : Nat) : State :=
  let v := value % 2 ^ 32
  let h := s.reg .slcEvHead n
  if sub32 (s.reg .slcEvTail n) h < sub32 v h then s.setFlag F.slcStatus_ev_head_bad n true
  else releaseInOrder (tailDrain (s.setReg .slcEvHead n v) n) n

/-- SLC_EV_CFG's mode and, while disabled, its depth, as a write gives them (03 Table 3.12). -/
def evCfgFields (s : State) (n value : Nat) : State :=
  let s1 := s.setFlag F.slcEvCfg_lossless n (bitAt value 30)
  if s.flag F.slcEvCfg_enable n then s1 else s1.setFld F.slcEvCfg_depth_log2 n (bitsAt value 0 5)

/-- A tailrace is enabled: its indices are 0, and its pending records are written (03 Table 3.12, R656). -/
def evEnable (s : State) (n : Nat) : State :=
  let m := s.fld F.slcEvCfg_depth_log2 n
  if m < 4 ∨ 16 < m then s
  else tailDrain (((s.setFlag F.slcEvCfg_enable n true).setReg .slcEvHead n 0).setReg .slcEvTail n 0) n

/-- A write of SLC_EV_CFG (03 Table 3.12, R110, R656). -/
def evCfgWrite (s : State) (n value : Nat) : State :=
  let was := s.flag F.slcEvCfg_enable n
  let s1 := evCfgFields s n value
  let s2 := if bitAt value 31 then (if was then s1 else evEnable s1 n) else s1.setFlag F.slcEvCfg_enable n false
  if tailOn s2 n && s2.flag F.slcEvCfg_lossless n then s2 else releaseHeld s2 n

/-- Whether DEV_PROFILE.profile and DEV_CFG are locked: by DEV_PROFILE.lock, or by OTP group 0's lock (01 Tables 1.8, 1.9, 00
R16). -/
def profileLocked (s : State) : Bool := s.flag F.devProfile_lock 0 || settingLocked s 0

/-- A write of DEV_PROFILE (01 R28, Table 1.8): a defined profile loads DEV_CFG with its row in the same access. -/
def profileWrite (s : State) (value : Nat) : State :=
  let p := value % 4
  let s1 := if profileLocked s || p == 3 then s else (s.setFld F.devProfile_profile 0 p).setReg .devCfg 0 (profileCfg p)
  if bitAt value 31 then s1.setFlag F.devProfile_lock 0 true else s1

/-- A write of DEV_CFG (01 Table 1.9): 0b11 leaves wba_scope and acts on the other fields. -/
def devCfgWrite (s : State) (value : Nat) : State :=
  if profileLocked s then s
  else
    let w := if bitsAt value 2 2 = 3 then s.fld F.devCfg_wba_scope 0 else bitsAt value 2 2
    s.setReg .devCfg 0 (putBits (value % 64) 2 2 w)

/-- A write of FAN_FLOW_CFG (04 R140, R141, Table 4.12): a change is ignored while the flow is busy, and a change of owner clears
the last stone. -/
def flowCfgWrite (s : State) (f value : Nat) : State :=
  if flowBusy s f then s
  else
    let o := bitsAt value 8 6
    let s1 := (s.setFlag F.fanFlowCfg_valid f (bitAt value 31)).setFld F.fanFlowCfg_owner f o
    if o = s.fld F.fanFlowCfg_owner f then s1 else (s1.setFlag F.fanFlowCfg_last_valid f false).setFld F.fanFlowCfg_last_stone f 0

/-- A write of FAN_TRACE_CFG (04 R146, Table 4.14). -/
def traceCfgWrite (s : State) (value : Nat) : State :=
  let was := s.flag F.fanTraceCfg_enable 0
  let depth := if was then s.fld F.fanTraceCfg_depth_log2 0 else bitsAt value 16 5
  let s1 := s.setReg .fanTraceCfg 0 (putBits (putBits (value &&& 0x7F1F1FFE) 16 5 depth) 31 1 (boolNat (was && bitAt value 31)))
  if was || !bitAt value 31 || decide (depth < 4 ∨ 16 < depth) then s1
  else (s1.setFlag F.fanTraceCfg_enable 0 true).setReg .fanTraceTail 0 0

/-- preempt_cols takes effect while no job is in the job table (05 R193). -/
def preemptApply (s : State) : State :=
  if s.fld F.fanStatus_jobs 0 = 0 then s.setFld F.stnCfg_preempt_active 0 (s.fld F.stnCfg_preempt_cols 0) else s

/-- A write of STN_CFG (05 R193). -/
def stnCfgWrite (s : State) (value : Nat) : State :=
  if value % 4 = 3 then s else preemptApply (s.setFld F.stnCfg_preempt_cols 0 value)

/-- A write of STN_CHECK_CTL (05 R183). -/
def checkCtlWrite (s : State) (value : Nat) : State :=
  if bitAt value 31 then { s with pipe := { s.pipe with checked := [] } } else s

/-- A and D updates in HOST entries: host_ad_active follows its two enables (13 R451, Table 13.9). -/
def hostAdUpdate (s : State) : State :=
  s.setFlag F.xltCfg_host_ad_active 0 (s.flag F.xltCfg_host_ad 0 && s.flag F.xltCfg_atomic_req 0)

/-- A write of XLT_CFG (13 Table 13.9). -/
def xltCfgWrite (s : State) (value : Nat) : State := hostAdUpdate (s.setFlag F.xltCfg_host_ad 0 (bitAt value 0))

/-- AtomicOp Requester Enable changes (13 R451, Table 13.9). -/
def atomicEnable (s : State) (b : Bool) : State := hostAdUpdate (s.setFlag F.xltCfg_atomic_req 0 b)

/-- The invalidation that XLT_INVAL and its address registers ask for (13 R464). -/
def invalRegReq (s : State) (value : Nat) : InvalReq :=
  { op := bitsAt value 27 2, stage1 := bitAt value 25, stage2 := bitAt value 26, slice := bitsAt value 16 6,
    addr := s.reg .xltInvalAddr 0, pages := s.reg .xltInvalPages 0 }

/-- A write of XLT_INVAL (13 R464, Table 13.14), a host sync point where go is 1 (14 R473): a start while busy, or with fields that R460 refuses, only sets error; one of op ADDR with no pages does
nothing (Table 13.15). -/
def xltInvalWrite (s : State) (value : Nat) : State :=
  let go := bitAt value 31
  let sync := if go then hostSync s else s
  let s0 := if bitAt value 30 then sync.setFlag F.xltInval_error 0 false else sync
  if go && s.flag F.xltInval_busy 0 then s0.setFlag F.xltInval_error 0 true
  else
    let s1 := s0.setReg .xltInval 0 (s0.reg .xltInval 0 &&& 0x60000000 ||| value &&& 0x1E3F0000)
    let q := invalRegReq s1 value
    if !go then s1
    else if q.op = 3 ∨ (lowest (invalProblem s1 q)).isSome = true then s1.setFlag F.xltInval_error 0 true
    else if q.op = 0 ∧ q.pages = 0 then s1
    else (xltPurge s1 q).setFlag F.xltInval_busy 0 true

/-- A write of MPD_GROUP_CFG (09 Table 9.12): each field only within its range. -/
def groupCfgWrite (s : State) (value : Nat) : State :=
  let us := bitsAt value 16 5
  let kib := bitsAt value 0 9
  let s1 := if 1 ≤ us ∧ us ≤ 20 then s.setFld F.mpdGroupCfg_close_us 0 us else s
  if 8 ≤ kib ∧ kib ≤ 256 then s1.setFld F.mpdGroupCfg_max_kib 0 kib else s1

/-- A write of MPD_SPACE (09 Table 9.16). -/
def spaceWrite (s : State) (value : Nat) : State :=
  let p := bitsAt value 24 8
  if 1 ≤ p ∧ p ≤ 100 then spaceUpdate (s.setFld F.mpdSpace_warn_pct 0 p) else s

/-- The event codes of 20 Table 20.1. -/
def sckCodeOk (code : Nat) : Bool :=
  let last := [0x01, 0x0C, 0x0B, 0x1E, 0x08, 0x0A, 0x0B, 0x20, 0x0F, 0x07, 0x13, 0x0A, 0x06, 0x06, 0x04, 0x05]
  decide (code < 4096) && decide (code % 256 ≤ last.getD (code / 256) 0)

/-- A write of SCK_EVT (20 R612). -/
def sckEvtWrite (s : State) (c value : Nat) : State :=
  if sckCodeOk (bitsAt value 0 12) then s.setReg .sckEvt c (value &&& 0x8FF00FFF) else s.setFlag F.sckStatus_bad_write 0 true

/-- Every counter and both overflow registers zeroed (20 R606). -/
def sckClear (s : State) : State :=
  ((s.resetRegs (· == .sckCnt)).setReg .sckOvf0 0 0).setReg .sckOvf1 0 0

/-- A write of SCK_CTL: clear first, then freeze (20 R605, R606). -/
def sckCtlWrite (s : State) (value : Nat) : State :=
  (if bitAt value 30 then sckClear s else s).setReg .sckCtl 0 (value &&& 0xA000FFFF)

/-- A write of SCK_CNT (20 R603). -/
def sckCntWrite (s : State) (c value : Nat) : State := s.setFld F.sckCnt_count c value

/-- A wrap's event, once it is owed (20 R608). -/
def sckOverflow (s : State) (c : Nat) : State :=
  if s.sckOwed.contains c then { s with sckOwed := s.sckOwed.erase c }.devEvent 0x1401 c else s

/-- Every peak zeroed. -/
def zeroPeaks (s : State) : State := s.resetRegs (· == .sckBwPeak)

/-- A write of SCK_BW_CFG (20 R611): the next window starts at the next tick edge. -/
def bwCfgWrite (s : State) (value : Nat) : State :=
  let w := bitsAt value 0 20
  if w = 0 ∨ 1000000 < w then s
  else
    let s1 := zeroPeaks (s.setFld F.sckBwCfg_window_us 0 w)
    { s1 with bw := { s1.bw with bytes := [], start := (s.cycle + 1599) / 1600, seq := 0 } }

/-- A write of SCK_BW_CTL (20 R611). -/
def bwCtlWrite (s : State) (value : Nat) : State :=
  if bitAt value 31 then { s with bw := { s.bw with clearPeak := true } } else s

/-- A window's bytes of a port, at its end (20 R610). -/
def windowPort (s : State) (p : Nat) : State :=
  let b := tget (fun _ => 0) s.bw.bytes p % 2 ^ 40
  let v := s.bw.seq % 2 ^ 24 * 2 ^ 40 + b
  let s1 := s.setReg .sckBwLast p v
  if s.fld F.sckBwPeak_bytes p < b then s1.setReg .sckBwPeak p v else s1

/-- A bandwidth window ends (20 R610, R611). -/
def windowEnd (s : State) : State :=
  let stop := s.bw.start + s.fld F.sckBwCfg_window_us 0
  let s1 := clockTo s (1600 * stop)
  let s2 := if s1.bw.clearPeak then zeroPeaks s1 else s1
  let s3 := (List.range 22).foldl windowPort s2
  { s3 with bw := { s3.bw with bytes := [], start := stop, clearPeak := false, seq := (s3.bw.seq + 1) % 2 ^ 24 } }

/-- A write of BOOT_IMAGE: preferred is written durably to the record header (18 Table 18.12). -/
def bootImageWrite (s : State) (value : Nat) : State :=
  setBootHeader s (boolNat (bitAt value 31)) (bootCount s) (powerOnCount s)

/-- A write of BOOT_DUMP (18 Table 18.13). -/
def bootDumpWrite (s : State) (value : Nat) : State := if bitAt value 63 then fatalError s 0x108 else s

end Sys2Proof.Machine
end

