-- ==== Sys2Proof/Machine/HostAccess.lean ====
section
/-! DEFINITION. How an access reaches the registers (21 R613 to R624): offsets, sizes, halves, access codes, windows; the MSI-X
table, the Millpond window, BAR4. -/

namespace Sys2Proof.Machine

/-- All 64 bits. -/
abbrev allOnes : Nat := 2 ^ 64 - 1

/-- The value that a write gives a whole register: written bits as written, other bits of the fields that it may set as they
stand, and other action bits 0 (21 R615). -/
def regWhole (s : State) (w : RegRow) (i v wm : Nat) : Nat :=
  let keep := w.mask (fun a => a == .rw || a == .rwl || (a == .wo && w.reg == .brkKeyData))
  (s.reg w.reg i &&& keep &&& (allOnes ^^^ wm)) ||| (v &&& wm)

/-- A write under its fields' access codes alone (00 Table 0.4, R14, R17). -/
def regPlain (s : State) (w : RegRow) (i e : Nat) : State :=
  let old := s.reg w.reg i
  s.setReg w.reg i ((old &&& w.mask (fun a => a == .ro || a == .rc)) ||| (e &&& w.mask (fun a => a == .rw || a == .rwl || a == .wo)) |||
    ((old &&& (allOnes ^^^ e)) &&& w.mask (· == .w1c)) ||| ((old ||| e) &&& w.mask (· == .w1s)))

/-- A write of a register instance: what the register's chapter makes of the value, else its access codes. -/
def writeReg (s : State) (w : RegRow) (i v wm : Nat) : State :=
  let e := regWhole s w i v wm
  match w.reg with
  | .devProfile => profileWrite s e
  | .devCfg => devCfgWrite s e
  | .wqCfg => wqCfgWrite s i e
  | .wqRingBase | .wqStatusBase | .wqHeadAddr => if s.flag F.wqCfg_enable i then s else regPlain s w i e
  | .slcEvBase => if s.flag F.slcEvCfg_enable i then s else regPlain s w i e
  | .slcEvCfg => evCfgWrite s i e
  | .fanFlowCfg => flowCfgWrite s i e
  | .fanTraceBase => if s.flag F.fanTraceCfg_enable 0 then s else regPlain s w i e
  | .fanTraceCfg => traceCfgWrite s e
  | .stnCfg => stnCfgWrite s e
  | .stnCheckCtl => checkCtlWrite s e
  | .grnCtl => grnCtlWrite s e
  | .grnMaintCtl => maintWrite s e
  | .dmcChSel => if 11 < bitsAt e 0 4 then s else regPlain s w i e
  | .dmcDlySel => regPlain s w i (if 103 < bitsAt e 0 8 then putBits e 0 8 (s.fld F.dmcDlySel_entry 0) else e)
  | .dmcPageCfg => if bitsAt e 0 10 < 8 then s else regPlain s w i e
  | .dmcPwr => dmcPwrWrite s e
  | .dmcScrub => regPlain s w i (if bitsAt e 0 8 = 0 then putBits e 0 8 (s.fld F.dmcScrub_period_h 0) else e)
  | .sluChCfg => sluCfgWrite s i e
  | .sluChCtl => sluCtlWrite s i e
  | .sluShdSrc | .sluShdDst | .sluShdLen | .sluShdCtrl | .sluShdTap => shadowWrite s w.reg i (e &&& w.mask (· == .rw))
  | .tolCfg => regPlain s w i (if 30 < bitsAt e 8 5 then putBits e 8 5 (s.fld F.tolCfg_hold_total 0) else e)
  | .tolValidBytes => registerMark s i e
  | .tolTapBase => if s.flag F.tolTapCfg_enable i then s else regPlain s w i e
  | .tolTapCfg => tapCfgWrite s i e
  | .tolVtap => vtapWrite s i e
  | .xltCfg => xltCfgWrite s e
  | .xltInval => xltInvalWrite s e
  | .slcCfg => slcCfgWrite s i e
  | .slcPasid => slcPasidWrite s i (v &&& wm ||| (s.reg .slcPasid i &&& (allOnes ^^^ wm)))
  | .slcBwCfg => slcBwWrite s i e
  | .volPortCtl => portCtlWrite s i e
  | .mpdGroupCfg => groupCfgWrite s e
  | .mpdSpace => spaceWrite s e
  | .mpdCkpt => checkpoint s e
  | .mpdReplay => replayStart s e
  | .mpdTableCfg => tableCfgWrite s i e
  | .otpProgCtl => otpCtlWrite s e
  | .brkResp => brkRespWrite s e
  | .brkKeyCtl => keyCtlWrite s e
  | .brkRestoreCtl => restoreCtlWrite s e
  | .brkRestoreData => restoreData s e
  | .sckCtl => sckCtlWrite s e
  | .sckEvt => sckEvtWrite s i e
  | .sckBwCfg => bwCfgWrite s e
  | .sckBwCtl => bwCtlWrite s e
  | .sckBwSel => if 21 < bitsAt e 0 5 then s else regPlain s w i e
  | .sckCnt => sckCntWrite s i e
  | .bootStepSel => if bitsAt e 0 5 = 0 then s else regPlain s w i e
  | .bootClear => clearSteps s e
  | .bootImage => bootImageWrite s e
  | .bootDump => bootDumpWrite s e
  | .wqDoorbell => doorbell s i (e % 2 ^ 32)
  | .slcEvHead => evHeadWrite s i e
  | _ => regPlain s w i e

/-- A field of a register lies in the bytes from o on (21 R615). -/
def fldInBytes (f : Fld) (o n : Nat) : Bool := rangesMeet (f.lo / 8) ((f.lo + f.width - 1) / 8 - f.lo / 8 + 1) o n

/-- The RC fields that a read of n bytes from byte o of a register reaches are cleared (00 R15, 15 R503). -/
def clearRead (s : State) (w : RegRow) (i o n : Nat) : State :=
  w.flds.foldl (fun t f =>
    if f.acc == .rc && fldInBytes f.fld o n then
      let t1 := t.setFld f.fld i 0
      if w.reg = .dmcCeCnt then ceRead t1 i else t1
    else t) s

/-- The register at a slot of BAR0 or BAR2, with its instance (21 R614, R617, R618, R621, R622). -/
def slotReg (s : State) (bar2 : Bool) (slot : Nat) : Option (RegRow × Nat) :=
  let page := slot / 65536
  let off := if bar2 then slot % 65536 else slot
  let here (w : RegRow) : Option (RegRow × Nat) :=
    if w.bar2 != bar2 then none
    else if w.stride ≠ 0 ∧ w.off ≤ off ∧ (off - w.off) % w.stride = 0 ∧ (off - w.off) / w.stride < (if bar2 then 8 else w.insts) then
      some (w, (off - w.off) / w.stride + (if bar2 then 8 * page else 0))
    else if w.stride = 0 ∧ w.off = off then some (w, if bar2 then page else selected s w.sel)
    else if w.win = some off then some (w, selected s w.sel)
    else none
  regRows.findSome? here

/-- Whether the device serves an access (18 R561, R563, 17 R536): before ready, only DEV_ID, the BOOT_ registers, MPD_WIN_BASE and
its window; never the page of an ABSENT slice. -/
def served (s : State) (bar2 : Bool) (off : Nat) : Bool :=
  if !s.boot.on then false
  else if bar2 then s.flag F.bootStatus_ready 0 && s.fld F.slcCfg_state (off / 65536) != 0
  else s.flag F.bootStatus_ready 0 || off / 8 == 0 || off / 65536 == 0x12 || off / 8 == 0xE0088 / 8 || off / 0x100000 == 0xE

/-- A byte of the Millpond window (09 Tables 9.8, 9.26): the spare blocks read 0. -/
def windowByte (s : State) (off : Nat) : Byte :=
  let a := s.fld F.mpdWinBase_base 0 * 0x100000 + off
  if 0x7C050000 ≤ a then 0 else (s.mpdBytes a 1).headD 0

/-- The 16 bytes of an MSI-X table entry (17 R537). -/
def entryBytes (e : MsixEntry) : List Byte := natLE 8 e.addr ++ natLE 4 e.data ++ natLE 4 (boolNat e.masked)

/-- A byte of the Pending Bit Array (17 R537). -/
def pendingByte (s : State) (k : Nat) : Byte :=
  BitVec.ofNat 8 (((List.range 8).map (fun b => boolNat (s.vector (8 * k + b)).pending * 2 ^ b)).sum)

/-- A byte of BAR0 outside the registers (21 Table 21.2); image: as the REGISTER region shows it (21 R624). -/
def otherByte (s : State) (image : Bool) (off : Nat) : Byte :=
  if image then 0
  else if off / 0x100000 = 0xE then windowByte s (off % 0x100000)
  else if 0xF00000 ≤ off ∧ off < 0xF08000 then
    (entryBytes (s.vector ((off - 0xF00000) / 16))).getD (off % 16) 0
  else if 0xF08000 ≤ off ∧ off < 0xF08100 then pendingByte s (off - 0xF08000)
  else 0

/-- A read of n bytes within a slot, with its side effects (21 R615, R616). -/
def slotRead (image : Bool) (bar2 : Bool) (s : State) (off n : Nat) : List Byte × State :=
  if !served s bar2 off then (zeros n, s)
  else match slotReg s bar2 (off / 8 * 8) with
  | some (w, i) => (sub (natLE 8 (regRead s w.reg i)) (off % 8) n, clearRead s w i (off % 8) n)
  | none => (if bar2 then zeros n else (List.range n).map (fun k => otherByte s image (off + k)), s)

/-- A read of BAR0 or BAR2, slot by slot. -/
def busRead (image : Bool) (bar2 : Bool) (s : State) (off n : Nat) : List Byte × State :=
  (slotPieces (n / 8 + 2) off n).foldl (fun acc p => let (b, t) := slotRead image bar2 acc.2 p.1 p.2
                                                     (acc.1 ++ b, t)) ([], s)

/-- A write of 4 or 8 bytes of the MSI-X table (17 R537, R538): unmasking sends a held message. -/
def msixWrite (s : State) (off : Nat) (b : List Byte) : State :=
  let v := (off - 0xF00000) / 16
  let x := patch (entryBytes (s.vector v)) (off % 16) b
  let mask := bitAt (leAt x 12 4) 0
  let s1 := s.setVector v { s.vector v with addr := leAt x 0 8, data := leAt x 8 4, masked := (s.vector v).masked || mask }
  if mask then s1 else msixUnmask s1 v

/-- A write of a register through a slot (21 R615): aligned, of 4 or 8 bytes, and for a doorbell of 4 (03 R80). -/
def slotWrite (bar2 : Bool) (s : State) (off : Nat) (b : List Byte) : State :=
  match slotReg s bar2 (off / 8 * 8) with
  | none => s
  | some (w, i) =>
    let lo := 8 * (off % 8)
    let all := if w.wide then allOnes else 2 ^ 32 - 1
    let wm := ((2 ^ (8 * b.length) - 1) * 2 ^ lo) &&& all
    if wm = 0 ∨ (w.reg = .wqDoorbell ∧ b.length = 8) then s else writeReg s w i (leNat b * 2 ^ lo) wm

/-- A write of BAR0 or BAR2 (21 R615, R616): any other size or alignment is ignored. -/
def busWrite (image : Bool) (bar2 : Bool) (s : State) (off : Nat) (b : List Byte) : State :=
  let n := b.length
  if !(n == 4 || n == 8) || off % n != 0 || !served s bar2 off then s
  else if !bar2 && decide (0xF00000 ≤ off ∧ off < 0xF08000) then (if image then s else msixWrite s off b)
  else slotWrite bar2 s off b

/-- The registers as a Sluice channel reaches them (21 R624). -/
def registerIo : RegIo where
  read := fun s y n => if y < 0x1000000 then busRead true false s y n
    else if y < 0x1400000 then busRead true true s (y - 0x1000000) n else (zeros n, s)
  write := fun s y b => if y < 0x1000000 then busWrite true false s y b
    else if y < 0x1400000 then busWrite true true s (y - 0x1000000) b else s

/-- Payload that the host link receives from the host (20 R609, Table 20.1). -/
def hostIn (s : State) (n : Nat) : State := (s.bwAdd 12 n).count ⟨0x900, n, none, some 0x92, none⟩

/-- Payload that the host link sends to the host. -/
def hostOut (s : State) (n : Nat) : State := (s.bwAdd 13 n).count ⟨0x901, n, none, some 0x92, none⟩

/-- A host write of a named register's instance, of its whole width (21 R615), as far as the device serves it (18 R561, R563, 17
R536). -/
def hostSet (s : State) (r : Reg) (i v : Nat) : State :=
  let w := rowOf r
  let off := if w.bar2 then i / (if w.stride = 0 then 1 else 8) * 65536 else w.off
  if !served s w.bar2 off || w.insts ≤ i then s
  else writeReg (hostIn s (if w.wide then 8 else 4)) w i v (if w.wide then allOnes else 2 ^ 32 - 1)

/-- REGISTER_WRITE (00 R14, 21 R615). -/
def hostWriteReg (s : State) (a : RegWrite) : State :=
  let b := natLE a.size a.value
  if !s.boot.on then s else busWrite false a.bar2 (hostIn s a.size) a.off b

/-- RC_READ (00 R15, 21 R615): the bytes are answered to the host. -/
def hostReadReg (s : State) (a : RegRead) : State :=
  if !s.boot.on then s
  else
    let (b, s1) := busRead false a.bar2 s a.off a.size
    { hostOut s1 a.size with answers := { s1.answers with host := b } }

/-- Whether BAR4 reaches a DPA (21 R623): installed, outside the device-private region (10 R370), and outside the Spillway region
while a dump is held. -/
def bar4Reaches (s : State) (dpa : Nat) : Bool :=
  isLocal s dpa && !devPrivate s dpa && !(dumpHeld s && inSpill s dpa)

/-- The host's request. -/
def hostReq : Req := { slice := 0, agent := .host, own := true }

/-- Bytes within a line read through BAR4 (21 R623); those of a poisoned line are not given (15 R504). -/
def bar4Line (s : State) (dpa n : Nat) : List Byte × State :=
  if !bar4Reaches s dpa then (zeros n, s)
  else match (granRead hostReq attrUC dpa).exec s with
  | (.ok l, s1) => (sub l (dpa % 64) n, s1)
  | (.error _, s1) => openBytes s1 n

/-- Bytes read through BAR4, line by line. -/
def bar4Read (s : State) (off n : Nat) : List Byte × State :=
  (chunks (lineFuel n) off n).foldl (fun acc p => (acc.1 ++ (bar4Line acc.2 p.1 p.2).1, (bar4Line acc.2 p.1 p.2).2)) ([], s)

/-- Bytes written through BAR4, line by line. -/
def bar4Write (s : State) (off : Nat) (b : List Byte) : State :=
  (chunks (lineFuel b.length) off b.length).foldl (fun t p =>
    if bar4Reaches t p.1 then (granWrite hostReq attrUC p.1 (sub b (p.1 - off) p.2)).quiet t else t) (hostIn s b.length)

/-- Bytes sent to the host as the answer of its read. -/
def answerHost (x : List Byte × State) (n : Nat) : State :=
  { hostOut x.2 n with answers := { x.2.answers with host := x.1 } }

/-- The bytes that a host access covers. -/
def barBytes (a : BarAccess) : Nat :=
  match a.write with
  | some b => b.length
  | none => a.size

/-- A host access through BAR4 (21 R623, 14 R471): UNCACHED, answered or written line by line; none beyond the BAR. -/
def bar4Access (s : State) (a : BarAccess) : State :=
  if !s.boot.on || decide (2 ^ s.bar4 < a.off + barBytes a) then s
  else match a.write with
  | some b => if !s.flag F.bootStatus_ready 0 then s else bar4Write s a.off b
  | none => answerHost (if s.flag F.bootStatus_ready 0 then bar4Read s a.off a.size else (zeros a.size, s)) a.size

/-- A write of the Resizable BAR capability (21 R623, Table 21.1): 1 GiB to 2 TiB. -/
def bar4Resize (s : State) (log2 : Nat) : State :=
  if s.boot.on && decide (30 ≤ log2 ∧ log2 ≤ 41) then { s with bar4 := log2 } else s

end Sys2Proof.Machine
end

