-- ==== Sys2Proof/Machine/Outside.lean ====
section
/-! DEFINITION. The outside interfaces beside the host link: the SMBus port (18 R565, 22 R647), the alert, thermal and storage
reset pins (22 R645, R647, R652), the JTAG identification (22 R649). -/

namespace Sys2Proof.Machine

/-- The 7-bit SMBus address: 0b10110 followed by the straps sampled when pwr_good rose (22 R647). -/
def smbusAddress (s : State) : Nat := 0x58 + s.boot.board.smbAddr % 4

/-- Whether the port answers a transaction: the device has power, the address is its own and the PEC passes (18 R565). It
answers during every boot step and every stop. -/
def smbusAnswers (s : State) (q : SmbusReq) : Bool := s.boot.on && q.addr == smbusAddress s && q.pecOk

/-- A reply's data bytes. -/
def smbusReply (s : State) (b : List Byte) : State := { s with answers := { s.answers with smbus := b } }

/-- STATUS: a block read of BOOT_STATUS (18 Table 18.4). -/
def smbusStatus (s : State) (q : SmbusReq) : State :=
  if smbusAnswers s q then smbusReply s (natLE 8 (regView s .bootStatus 0)) else s

/-- TEMP: the hottest junction sensor, signed, in 1/16 degrees (18 Table 18.4). -/
def smbusTemp (s : State) (q : SmbusReq) : State :=
  if smbusAnswers s q then smbusReply s (natLE 2 (ofSigned 16 q.temp)) else s

/-- DUMP_TRIGGER: 0xD5 is a fatal error of class SMBUS_TRIGGER; other values are ignored (18 Table 18.4). -/
def smbusDumpTrigger (s : State) (q : SmbusReq) : State :=
  if smbusAnswers s q && q.data == [0xD5] then fatalError s 0x107 else s

/-- CLEAR_BOOT: the layout of BOOT_CLEAR in 4 bytes (18 R562, Table 18.4). -/
def smbusClearBoot (s : State) (q : SmbusReq) : State :=
  if smbusAnswers s q && q.data.length == 4 then clearSteps s (leNat (q.data.map (fun x => BitVec.ofNat 8 x))) else s

/-- STEP: the record of step k (18 Table 18.4); the spec gives no record for a number that no step has. -/
def smbusStep (s : State) (q : SmbusReq) : State :=
  if !smbusAnswers s q then s
  else match q.data with
  | [k] =>
    if 1 ≤ k ∧ k ≤ 31 then smbusReply s (stepRecBytes s k)
    else
      let (b, s1) := openBytes s 32
      smbusReply s1 b
  | _ => s

/-- THERM_TRIP (22 R652): therm_trip_n is asserted at 130 degrees or more, independently of firmware. -/
def thermTrip (s : State) (temp : Int) : State :=
  if s.boot.on && decide (130 ≤ temp) then { s with boot := { s.boot with therm := true } } else s

/-- FATAL_ERROR (18 R566, R568): a class that Table 18.5 marks fatal is raised. -/
def fatalEvent (s : State) (cls : Nat) : State := if 0x101 ≤ cls ∧ cls ≤ 0x108 then fatalError s cls else s

/-- Whether smb_alert_n is asserted (22 R647). -/
def smbAlert (s : State) : Bool := s.boot.on && (s.flag F.bootStatus_halted 0 || s.boot.therm)

/-- Whether a port's sto_perst_n is low (22 R645): until its attach, and while it is detached or skipped. -/
def stoPerst (s : State) (p : Nat) : Bool := bitAt s.boot.portReset p

/-- Whether the SPI outputs of the boot flash are in high impedance (18 R555): once step 0x09 has completed, until the next reset. -/
def spiHighZ (s : State) : Bool := s.boot.on && decide (0x0A ≤ s.fld F.bootStatus_step 0)

/-- The value the JTAG instruction IDCODE reads (22 R649). -/
def jtagIdcode : Nat := 0x10128A6B

end Sys2Proof.Machine
end

