-- ==== Sys2Proof/Machine/Settle.lean ====
section
/-! DEFINITION. What every command ends with: the effects owed by what it did. -/

namespace Sys2Proof.Machine

/-- What a command's meaning answers. -/
abbrev Out := Host.Outcome State Fault Refusal

/-- A requested preempt_cols takes effect once no job stands in the job table (05 R193). -/
def preemptSettle (s : State) : State :=
  if s.fan.jobs.isEmpty && s.fld F.stnCfg_preempt_active 0 != s.fld F.stnCfg_preempt_cols 0 then
    s.setFld F.stnCfg_preempt_active 0 (s.fld F.stnCfg_preempt_cols 0)
  else s

/-- Whether a fatal error's dump, a device event or a halt's message is owed. -/
def owes (s : State) : Bool := s.fatal.isSome || !s.events.isEmpty || !s.haltMsgs.isEmpty

/-- The dump of a fatal error (18 R568), the records and messages of device events and halts (03 R108, R113); what these owe in turn (a
halt by a ring write that faults, 03 R111, R114) follows. Each further round halts a slice or the device, so that 130 rounds leave
nothing owed. -/
def settleRounds : Nat → State → State
  | 0, s => { s with fatal := none, events := [], haltMsgs := [] }
  | n + 1, s => if owes s then settleRounds n (settleEvents (fatalSettle s)) else s

/-- The effects owed, and a requested preempt_cols (05 R193). -/
def settle (s : State) : State := preemptSettle (settleRounds 130 s)

/-- A command's next state. -/
def done (s : State) : Out := .next (settle s)

/-- MSIX_UNMASK (17 R538): the host clears a vector's mask bit. -/
def hostUnmask (s : State) (v : Nat) : State :=
  if !served s false 0xF00000 || 2048 ≤ v then s else msixUnmask (hostIn s 4) v

/-- NEG (08 R266). -/
def opNeg (c : Ctx) (f : Insn) : Op Unit := opUnary (fun x => -x) 0 c f

/-- ABS (08 R266). -/
def opAbs (c : Ctx) (f : Insn) : Op Unit := opUnary (fun x => (x.natAbs : Int)) 0 c f

/-- CVT (08 R272). -/
def opCvt (c : Ctx) (f : Insn) : Op Unit := opUnary id f.mod c f

end Sys2Proof.Machine
end

