-- ==== Sys2Proof/Machine/CmdBoot.lean ====
section
/-! DEFINITION. The SMBus commands, the pins, resets, fatal errors and the Brake (18, 19, 22). -/

namespace Sys2Proof.Machine

/-- STATUS (R565). -/
def execStatusCmd (req : SmbusReq) (s : State) : Out := done (smbusStatus s req)

/-- TEMP (R565). -/
def execTempCmd (req : SmbusReq) (s : State) : Out := done (smbusTemp s req)

/-- DUMP_TRIGGER (R565). -/
def execDumpTriggerCmd (req : SmbusReq) (s : State) : Out := done (smbusDumpTrigger s req)

/-- CLEAR_BOOT (R562). -/
def execClearBootCmd (req : SmbusReq) (s : State) : Out := done (smbusClearBoot s req)

/-- STEP (R565). -/
def execStepCmd (req : SmbusReq) (s : State) : Out := done (smbusStep s req)

/-- POWER_ON (R638). -/
def execPowerOn (board : Board) (s : State) : Out := done (powerOn s board)

/-- PWR_GOOD_FALL (R639). -/
def execPwrGoodFall (s : State) : Out := done (powerOff s)

/-- PWR_FAIL (R336). -/
def execPwrFail (s : State) : Out := done (pwrFailPin s)

/-- WARM_RESET (R553). -/
def execWarmReset (cause : WarmCause) (s : State) : Out :=
  done (warmReset s (match cause with | .perst => resetPerst | .hotReset => resetHot))

/-- FUNCTION_LEVEL_RESET (R564). -/
def execFunctionLevelReset (s : State) : Out := done (warmReset s resetFlr)

/-- BOOT_STEP_TIMEOUT (R555). -/
def execBootStepTimeout (step : Nat) (s : State) : Out := done (stepTimeout workDump s step)

/-- MILLER_WATCHDOG (R566). -/
def execMillerWatchdog (s : State) : Out := done (fatalError s 0x105)

/-- FATAL_ERROR (R568). -/
def execFatalError (cls : Nat) (s : State) : Out := done (fatalEvent s cls)

/-- BRAKE_TRIP (R587). -/
def execBrakeTrip (sensors live : Nat) (s : State) : Out := done (brakeTrip s sensors live)

/-- THERM_TRIP (R652). -/
def execThermTrip (temp : Int) (s : State) : Out := done (thermTrip s temp)

/-- PERST_N_RISE (R644). -/
def execPerstNRise (s : State) : Out := done (perstRise s)

end Sys2Proof.Machine
end

