-- ==== Sys2Proof/Machine/CmdEvents.lean ====
section
/-! DEFINITION. The device's own events: scheduling, stones, storage, the Millpond, the Sluice, the Toll, memory (03 to 17, 19, 20). -/

namespace Sys2Proof.Machine

/-- DOORBELL (R81). -/
def execDoorbell (slice queue value : Nat) (s : State) : Out := done (hostSet s .wqDoorbell (slice * 8 + queue) value)

/-- POLL (R87). -/
def execPoll (gq : Nat) (s : State) : Out := done (poll s gq)

/-- WEIR_PASS (R117). -/
def execWeirPass (s : State) : Out := done (weirPass s)

/-- ENTRY_FETCH (R69). -/
def execEntryFetch (s : State) : Out := done (fetchEntry s)

/-- CHAIN_TIMEOUT (R95). -/
def execChainTimeout (gq : Nat) (s : State) : Out := done (chainTimeout s gq)

/-- TASK_CREATE (R125). -/
def execTaskCreate (s : State) : Out := done (taskCreate s)

/-- TASK_READY (R127). -/
def execTaskReady (job part : Nat) (s : State) : Out := done (taskReady s job part)

/-- DELAY_OUT (R143). -/
def execDelayOut (job : Nat) (s : State) : Out := done (delayOut s job)

/-- DISPATCH_HOME (R133). -/
def execDispatchHome (engine : Engine) (unit : Nat) (s : State) : Out := done (dispatchHome s engine unit)

/-- DISPATCH_AFFINITY (R134). -/
def execDispatchAffinity (job part : Nat) (s : State) : Out := done (dispatchAffinity s job part)

/-- AFFINITY_WINDOW_END (R134). -/
def execAffinityWindowEnd (job part : Nat) (s : State) : Out := done (affinityEnd s job part)

/-- STEAL (R135). -/
def execSteal (stone : Nat) (s : State) : Out := done (steal s stone)

/-- BATCH_ADMIT (R156). -/
def execBatchAdmit (stone : Nat) (s : State) : Out := done (batchAdmit s stone)

/-- STAGE_STEP (R156). -/
def execStageStep (stone : Nat) (stage : StageRun) (s : State) : Out := done (stageStep s stone stage.no stage.check)

/-- TASK_COMPLETE (R184). -/
def execTaskComplete (job part : Nat) (s : State) : Out := done (taskComplete s job part)

/-- FLOW_RELEASE (R138). -/
def execFlowRelease (job part : Nat) (s : State) : Out := done (flowRelease s job part)

/-- JOB_RELEASE (R25). -/
def execJobRelease (job : Nat) (s : State) : Out := done (jobRelease s job)

/-- BARRIER_FLUSH_DONE (R41). -/
def execBarrierFlushDone (target : FlushTarget) (s : State) : Out := done (flushReadDone s target)

/-- PREEMPT (R547). -/
def execPreempt (mill : Nat) (s : State) : Out := done (preempt s mill)

/-- PARK (R189). -/
def execPark (stone : Nat) (s : State) : Out := done (park s stone)

/-- TASK_STOP (R186). -/
def execTaskStop (stone : Nat) (s : State) : Out := done (taskStop s stone)

/-- SORT_RUN (R247). -/
def execSortRun (job part : Nat) (s : State) : Out := done (mergeWork s job part 1 sortRun)

/-- COMBINE (R248). -/
def execCombine (job part : Nat) (s : State) : Out := done (mergeWork s job part 2 combineRuns)

/-- MERGE_UPDATE (R254). -/
def execMergeUpdate (job part : Nat) (s : State) : Out := done (mergeWork s job part 3 mergeUpdate)

/-- RECORD_JOIN (R308). -/
def execRecordJoin (s : State) : Out := done (recordJoin s)

/-- COMMIT_CLAIMS (R321). -/
def execCommitClaims (s : State) : Out := done (commitClaims s)

/-- GROUP_CLOSE (R301). -/
def execGroupClose (s : State) : Out := done (groupClose s)

/-- SEAL_DURABLE (R303). -/
def execSealDurable (s : State) : Out := done (sealDurable s)

/-- EPOCH_PUBLISH (R304). -/
def execEpochPublish (s : State) : Out := done (epochPublish s)

/-- PROJECTION_APPLY (R381). -/
def execProjectionApply (volume : Nat) (s : State) : Out := done (projectionApply s volume)

/-- WRITEBACK (R367). -/
def execWriteback (volume lba : Nat) (s : State) : Out := done (writeback s volume lba)

/-- DRIVE_COMPLETE (R359). -/
def execDriveComplete (port cmd : Nat) (result : DriveResult) (s : State) : Out := done (driveComplete s port cmd result)

/-- COMMAND_TIMEOUT (R385). -/
def execCommandTimeout (port cmd : Nat) (retryOk : Bool) (s : State) : Out := done (commandTimeout s port cmd retryOk)

/-- REBUILD_DONE (R387). -/
def execRebuildDone (volume : Nat) (s : State) : Out := done (rebuildDone s volume)

/-- VOLUME_OP_DONE (R378). -/
def execVolumeOpDone (volume : Nat) (s : State) : Out := done (volumeOpDone s volume)

/-- REPLAY_DONE (R342). -/
def execReplayDone (s : State) : Out := done (replayDone s)

/-- DESCRIPTOR_COMPLETE (R519). -/
def execDescriptorComplete (channel : Nat) (s : State) : Out := done (descriptorComplete registerIo s channel)

/-- MOVER_GRANT (R522). -/
def execMoverGrant (mover : Nat) (s : State) : Out := done (moverGrant registerIo s mover)

/-- MOVER_PREEMPT (R523). -/
def execMoverPreempt (channel : Preemption) (s : State) : Out := done (moverPreempt registerIo s channel.channel channel.beats)

/-- REQUEST_LINE (R525). -/
def execRequestLine (line : Nat) (level : Bool) (s : State) : Out := done (requestLine s line level)

/-- BLOCK_ABSORB (R416). -/
def execBlockAbsorb (core : Nat) (s : State) : Out := done (if core < 8 then blockAbsorb s else s)

/-- LINE_FILL (R475). -/
def execLineFill (access : LineAccess) (s : State) : Out := done (lineFill s access)

/-- DRAM_READ (R502). -/
def execDramRead (access : DramAccess) (s : State) : Out := done (dramReadEvent s access)

/-- WRITE_DRAIN (R496). -/
def execWriteDrain (channel : Nat) (s : State) : Out := done (writeDrain s channel)

/-- PAGE_IDLE_CLOSE (R495). -/
def execPageIdleClose (channel bank : Nat) (s : State) : Out := done (pageClose s channel bank)

/-- REFRESH (R498). -/
def execRefresh (channel : Nat) (temp : Int) (s : State) : Out := done (refresh s channel temp)

/-- ZQ_CALIBRATION (R499). -/
def execZqCalibration (channel : Nat) (s : State) : Out := done (zqCalibrate s channel)

/-- TEMP_POLL (R492). -/
def execTempPoll (temp : Int) (s : State) : Out := done (tempPoll s temp)

/-- PATROL_READ (R506). -/
def execPatrolRead (burst : Burst) (s : State) : Out := done (patrolRead s burst)

/-- SR_REENTRY (R500). -/
def execSrReentry (channel : Nat) (s : State) : Out := done (srReentry s channel)

/-- PREEMPT_COLS_APPLY (R193). -/
def execPreemptColsApply (s : State) : Out := done (preemptApply s)

/-- INVAL_COMPLETE (R462). -/
def execInvalComplete (job : Option Nat) (s : State) : Out := done (invalComplete s job)

/-- DRAIN_COMPLETE (R482). -/
def execDrainComplete (s : State) : Out := done (drainComplete s)

/-- MAINT_COMPLETE (R479). -/
def execMaintComplete (s : State) : Out := done (maintComplete s)

/-- RESET_DRAINED (R541). -/
def execResetDrained (slice : Nat) (s : State) : Out := done (resetDrained s slice)

/-- OTP_PROGRAMMED (R576). -/
def execOtpProgrammed (lost : Nat) (s : State) : Out := done (otpProgrammed s lost)

/-- KEY_OP_DONE (R581). -/
def execKeyOpDone (s : State) : Out := done (keyOpDone s)

/-- KEYS_RESTORED (R593). -/
def execKeysRestored (s : State) : Out := done (keysRestored s)

/-- SCK_OVERFLOW (R608). -/
def execSckOverflow (counter : Nat) (s : State) : Out := done (sckOverflow s counter)

/-- WINDOW_END (R610). -/
def execWindowEnd (s : State) : Out := done (windowEnd s)

/-- BUCKET_REFILL (R548). -/
def execBucketRefill (s : State) : Out := done (tick s)

/-- HOST_READ_COMPLETION (R191). -/
def execHostReadCompletion (read : HostRead) (error : Bool) (s : State) : Out := done (hostCompletion s read error)

/-- BLOCK_STAGED (R411). -/
def execBlockStaged (quern : Nat) (s : State) : Out := done (blockStaged s quern)

/-- ATOMICOP_REQUESTER_ENABLE (R451). -/
def execAtomicopRequesterEnable (value : Bool) (s : State) : Out := done (atomicEnable s value)

end Sys2Proof.Machine
end

