-- ==== Sys2Proof/Machine/CmdInsns.lean ====
section
/-! DEFINITION. The pipeline instructions' commands: a stage of a stone issues the instruction in its BODY (05 Table 5.12). -/

namespace Sys2Proof.Machine

/-- END (R176). -/
def execEndPart (stone stage : Nat) (f : Insn) (s : State) : Out := done (insnStep s stone stage 0x01 (fun _ _ => pure ()) f)

/-- INSTR_NOP (R173). -/
def execInstrNop (stone stage : Nat) (f : Insn) (s : State) : Out := done (insnStep s stone stage 0x00 (fun _ _ => pure ()) f)

/-- BR (R657). -/
def execBr (stone stage : Nat) (f : Insn) (s : State) : Out := done (insnStep s stone stage 0x03 (fun _ _ => pure ()) f)

/-- LOOP (R176). -/
def execLoop (stone stage : Nat) (f : Insn) (s : State) : Out := done (insnStep s stone stage 0x04 (fun _ _ => pure ()) f)

/-- ENDLOOP (R176). -/
def execEndloop (stone stage : Nat) (f : Insn) (s : State) : Out := done (insnStep s stone stage 0x05 (fun _ _ => pure ()) f)

/-- MOVS (R657). -/
def execMovs (stone stage : Nat) (f : Insn) (s : State) : Out := done (insnStep s stone stage 0x06 opMovs f)

/-- SALU (R657). -/
def execSalu (stone stage : Nat) (f : Insn) (s : State) : Out := done (insnStep s stone stage 0x07 opSalu f)

/-- DCOL (R203). -/
def execDcol (stone stage : Nat) (f : Insn) (s : State) : Out := done (insnStep s stone stage 0x10 opDcol f)

/-- DREC (R293). -/
def execDrec (stone stage : Nat) (f : Insn) (s : State) : Out := done (insnStep s stone stage 0x11 opDrec f)

/-- DROWID (R204). -/
def execDrowid (stone stage : Nat) (f : Insn) (s : State) : Out := done (insnStep s stone stage 0x12 opDrowid f)

/-- CMP (R214). -/
def execCmp (stone stage : Nat) (f : Insn) (s : State) : Out := done (insnStep s stone stage 0x20 opCmp f)

/-- TCMP (R216). -/
def execTcmp (stone stage : Nat) (f : Insn) (s : State) : Out := done (insnStep s stone stage 0x21 opTcmp f)

/-- INSET (R217). -/
def execInset (stone stage : Nat) (f : Insn) (s : State) : Out := done (insnStep s stone stage 0x22 opInset f)

/-- ISNULL (R218). -/
def execIsnull (stone stage : Nat) (f : Insn) (s : State) : Out := done (insnStep s stone stage 0x23 opIsnull f)

/-- MAND (R219). -/
def execMand (stone stage : Nat) (f : Insn) (s : State) : Out := done (insnStep s stone stage 0x24 (opLogic and3) f)

/-- MOR (R219). -/
def execMor (stone stage : Nat) (f : Insn) (s : State) : Out := done (insnStep s stone stage 0x25 (opLogic or3) f)

/-- MNOT (R219). -/
def execMnot (stone stage : Nat) (f : Insn) (s : State) : Out := done (insnStep s stone stage 0x26 opMnot f)

/-- SEL (R220). -/
def execSel (stone stage : Nat) (f : Insn) (s : State) : Out := done (insnStep s stone stage 0x27 opSel f)

/-- ADD (R266). -/
def execAdd (stone stage : Nat) (f : Insn) (s : State) : Out := done (insnStep s stone stage 0x30 (opArith 0x30) f)

/-- SUB (R266). -/
def execSub (stone stage : Nat) (f : Insn) (s : State) : Out := done (insnStep s stone stage 0x31 (opArith 0x31) f)

/-- MUL (R266). -/
def execMul (stone stage : Nat) (f : Insn) (s : State) : Out := done (insnStep s stone stage 0x32 (opArith 0x32) f)

/-- DIV (R267). -/
def execDiv (stone stage : Nat) (f : Insn) (s : State) : Out := done (insnStep s stone stage 0x33 (opArith 0x33) f)

/-- REM (R268). -/
def execRem (stone stage : Nat) (f : Insn) (s : State) : Out := done (insnStep s stone stage 0x34 (opArith 0x34) f)

/-- NEG (R266). -/
def execNeg (stone stage : Nat) (f : Insn) (s : State) : Out := done (insnStep s stone stage 0x35 opNeg f)

/-- ABS (R266). -/
def execAbs (stone stage : Nat) (f : Insn) (s : State) : Out := done (insnStep s stone stage 0x36 opAbs f)

/-- MIN (R266). -/
def execMin (stone stage : Nat) (f : Insn) (s : State) : Out := done (insnStep s stone stage 0x37 (opArith 0x37) f)

/-- MAX (R266). -/
def execMax (stone stage : Nat) (f : Insn) (s : State) : Out := done (insnStep s stone stage 0x38 (opArith 0x38) f)

/-- CVT (R272). -/
def execCvt (stone stage : Nat) (f : Insn) (s : State) : Out := done (insnStep s stone stage 0x39 opCvt f)

/-- MOV (R266). -/
def execMov (stone stage : Nat) (f : Insn) (s : State) : Out := done (insnStep s stone stage 0x3A opMov f)

/-- CSEL (R266). -/
def execCsel (stone stage : Nat) (f : Insn) (s : State) : Out := done (insnStep s stone stage 0x3B opCsel f)

/-- COALESCE (R266). -/
def execCoalesce (stone stage : Nat) (f : Insn) (s : State) : Out := done (insnStep s stone stage 0x3C opCoalesce f)

/-- DPART (R173). -/
def execDpart (stone stage : Nat) (f : Insn) (s : State) : Out := done (insnStep s stone stage 0x3D opDpart f)

/-- DADD (R173). -/
def execDadd (stone stage : Nat) (f : Insn) (s : State) : Out := done (insnStep s stone stage 0x3E opDadd f)

/-- HASHK (R224). -/
def execHashk (stone stage : Nat) (f : Insn) (s : State) : Out := done (insnStep s stone stage 0x40 opHashk f)

/-- BUILD (R231). -/
def execBuild (stone stage : Nat) (f : Insn) (s : State) : Out := done (insnStep s stone stage 0x41 opBuild f)

/-- PROBE (R232). -/
def execProbe (stone stage : Nat) (f : Insn) (s : State) : Out := done (insnStep s stone stage 0x42 opProbe f)

/-- PART (R226). -/
def execPart (stone stage : Nat) (f : Insn) (s : State) : Out := done (insnStep s stone stage 0x43 opPart f)

/-- AGG (R239). -/
def execAgg (stone stage : Nat) (f : Insn) (s : State) : Out := done (insnStep s stone stage 0x50 opAgg f)

/-- GAGG (R240). -/
def execGagg (stone stage : Nat) (f : Insn) (s : State) : Out := done (insnStep s stone stage 0x51 opGagg f)

/-- AFIN (R239). -/
def execAfin (stone stage : Nat) (f : Insn) (s : State) : Out := done (insnStep s stone stage 0x52 opAfin f)

/-- STCOL (R174). -/
def execStcol (stone stage : Nat) (f : Insn) (s : State) : Out := done (insnStep s stone stage 0x60 opStcol f)

/-- STREC (R297). -/
def execStrec (stone stage : Nat) (f : Insn) (s : State) : Out := done (insnStep s stone stage 0x61 opStrec f)

/-- STSCL (R174). -/
def execStscl (stone stage : Nat) (f : Insn) (s : State) : Out := done (insnStep s stone stage 0x62 opStscl f)

/-- MERGE (R244). -/
def execMerge (stone stage : Nat) (f : Insn) (s : State) : Out := done (insnStep s stone stage 0x63 opMerge f)

/-- TAPPEND (R318). -/
def execTappend (stone stage : Nat) (f : Insn) (s : State) : Out := done (insnStep s stone stage 0x64 opTappend f)

end Sys2Proof.Machine
end

