-- ==== Sys2Proof/Machine/CmdPackets.lean ====
section
/-! DEFINITION. The packet opcodes' commands: each performs its opcode's work for the job that holds its entries (02 Table 2.5). -/

namespace Sys2Proof.Machine

/-- NOP (R57). -/
def execNop (job : Nat) (s : State) : Out := done (nopOp s job)

/-- FENCE (R58). -/
def execFence (job : Nat) (s : State) : Out := done (fenceOp s job)

/-- ABORT (R98). -/
def execAbort (job : Nat) (s : State) : Out := done (abortOp s job)

/-- QUERY (R61). -/
def execQuery (job : Nat) (s : State) : Out := done (queryOp s job)

/-- PIPE_RUN (R161). -/
def execPipeRun (job : Nat) (s : State) : Out := done (pipeRunOp s job)

/-- PIPE_ARGS (R163). -/
def execPipeArgs (job : Nat) (s : State) : Out := done (pipeArgsOp s job)

/-- INDEX_LOOKUP (R258). -/
def execIndexLookup (job : Nat) (s : State) : Out := done (lookupOp s job)

/-- ROW_FETCH (R260). -/
def execRowFetch (job : Nat) (s : State) : Out := done (rowFetchOp s job)

/-- COPY (R516). -/
def execCopy (job : Nat) (s : State) : Out := done (sluiceOp s job 0x0200)

/-- FILL (R516). -/
def execFill (job : Nat) (s : State) : Out := done (sluiceOp s job 0x0201)

/-- COPY_LIST (R516). -/
def execCopyList (job : Nat) (s : State) : Out := done (sluiceOp s job 0x0202)

/-- COMPRESS (R399). -/
def execCompress (job : Nat) (s : State) : Out := done (compressOp s job)

/-- DECOMPRESS (R404). -/
def execDecompress (job : Nat) (s : State) : Out := done (decompressOp s job)

/-- DIGEST (R423). -/
def execDigest (job : Nat) (s : State) : Out := done (digestOp s job 0x0400)

/-- DIGEST_KEYED (R431). -/
def execDigestKeyed (job : Nat) (s : State) : Out := done (digestOp s job 0x0401)

/-- CONTEXT_SAVE (R432). -/
def execContextSave (job : Nat) (s : State) : Out := done (contextSaveOp s job)

/-- CONTEXT_RESTORE (R434). -/
def execContextRestore (job : Nat) (s : State) : Out := done (contextRestoreOp s job)

/-- READ (R359). -/
def execRead (job : Nat) (s : State) : Out := done (volumeJob s job 0x0500)

/-- WRITE (R358). -/
def execWrite (job : Nat) (s : State) : Out := done (volumeJob s job 0x0501)

/-- FLUSH (R361). -/
def execFlush (job : Nat) (s : State) : Out := done (flushOp s job)

/-- TRIM (R360). -/
def execTrim (job : Nat) (s : State) : Out := done (volumeJob s job 0x0503)

/-- BEGIN (R306). -/
def execBegin (job : Nat) (s : State) : Out := done (beginOp s job)

/-- COMMIT (R309). -/
def execCommit (job : Nat) (s : State) : Out := done (commitJob s job)

/-- SNAPSHOT_OPEN (R324). -/
def execSnapshotOpen (job : Nat) (s : State) : Out := done (snapshotOpen s job)

/-- SNAPSHOT_CLOSE (R325). -/
def execSnapshotClose (job : Nat) (s : State) : Out := done (snapshotClose s job)

/-- SLICE_CREATE (R540). -/
def execSliceCreate (job : Nat) (s : State) : Out := done (sliceCreate s job)

/-- SLICE_RESET (R541). -/
def execSliceReset (job : Nat) (s : State) : Out := done (sliceReset s job)

/-- VOLUME_CREATE (R372). -/
def execVolumeCreate (job : Nat) (s : State) : Out := done (volumeCreate s job)

/-- VOLUME_DELETE (R374). -/
def execVolumeDelete (job : Nat) (s : State) : Out := done (volumeDelete s job)

/-- SANITISE (R375). -/
def execSanitise (job : Nat) (s : State) : Out := done (sanitiseOp s job)

/-- FORMAT (R376). -/
def execFormat (job : Nat) (s : State) : Out := done (formatOp s job)

/-- DUMP_READ (R570). -/
def execDumpRead (job : Nat) (s : State) : Out := done (dumpReadOp s job)

/-- TLB_INVAL_ADDR (R461). -/
def execTlbInvalAddr (job : Nat) (s : State) : Out := done (invalOp s job 0x0800)

/-- TLB_INVAL_TAG (R461). -/
def execTlbInvalTag (job : Nat) (s : State) : Out := done (invalOp s job 0x0801)

/-- TLB_INVAL_ALL (R461). -/
def execTlbInvalAll (job : Nat) (s : State) : Out := done (invalOp s job 0x0802)

end Sys2Proof.Machine
end

