-- ==== Sys2Proof/Machine/CmdRegisters.lean ====
section
/-! DEFINITION. The host's commands: writes of registers with behaviour of their own, each with the bits that define it, register and memory accesses (03 to 21). -/

namespace Sys2Proof.Machine

/-- QUEUE_ENABLE (R76). -/
def execQueueEnable (gq value : Nat) (s : State) : Out := done (hostSet s .wqCfg gq (putBits value 31 1 1))

/-- QUEUE_DISABLE (R77). -/
def execQueueDisable (gq value : Nat) (s : State) : Out := done (hostSet s .wqCfg gq (putBits value 31 1 0))

/-- EV_HEAD_WRITE (R104). -/
def execEvHeadWrite (slice value : Nat) (s : State) : Out := done (hostSet s .slcEvHead slice value)

/-- TAILRACE_ENABLE (R656). -/
def execTailraceEnable (slice value : Nat) (s : State) : Out := done (hostSet s .slcEvCfg slice (putBits value 31 1 1))

/-- EV_MODE_CHANGE (R110). -/
def execEvModeChange (slice value : Nat) (s : State) : Out := done (hostSet s .slcEvCfg slice value)

/-- PROFILE_WRITE (R28). -/
def execProfileWrite (value : Nat) (s : State) : Out := done (hostSet s .devProfile 0 value)

/-- PROFILE_LOCK (R32). -/
def execProfileLock (value : Nat) (s : State) : Out := done (hostSet s .devProfile 0 (putBits value 31 1 1))

/-- TRACE_ENABLE (R146). -/
def execTraceEnable (value : Nat) (s : State) : Out := done (hostSet s .fanTraceCfg 0 (putBits value 31 1 1))

/-- CHECK_CACHE_FLUSH (R183). -/
def execCheckCacheFlush (value : Nat) (s : State) : Out := done (hostSet s .stnCheckCtl 0 (putBits value 31 1 1))

/-- CHECKPOINT (R343). -/
def execCheckpoint (value : Nat) (s : State) : Out := done (hostSet s .mpdCkpt 0 value)

/-- REPLAY_START (R342). -/
def execReplayStart (value : Nat) (s : State) : Out := done (hostSet s .mpdReplay 0 (putBits value 31 1 1))

/-- TABLE_REGISTER (R379). -/
def execTableRegister (table value : Nat) (s : State) : Out := done (hostSet s .mpdTableCfg table (putBits value 63 1 1))

/-- PORT_ATTACH (R387). -/
def execPortAttach (port value : Nat) (s : State) : Out := done (hostSet s .volPortCtl port (putBits (putBits value 31 1 1) 30 1 0))

/-- PORT_DETACH (R387). -/
def execPortDetach (port value : Nat) (s : State) : Out := done (hostSet s .volPortCtl port (putBits value 30 1 1))

/-- REGISTER_MARK (R429). -/
def execRegisterMark (context value : Nat) (s : State) : Out := done (hostSet s .tolValidBytes context value)

/-- INVAL_OP_ADDR (R464). -/
def execInvalOpAddr (value : Nat) (s : State) : Out := done (hostSet s .xltInval 0 (putBits (putBits value 31 1 1) 27 2 0))

/-- INVAL_OP_TAG (R464). -/
def execInvalOpTag (value : Nat) (s : State) : Out := done (hostSet s .xltInval 0 (putBits (putBits value 31 1 1) 27 2 1))

/-- INVAL_OP_ALL (R464). -/
def execInvalOpAll (value : Nat) (s : State) : Out := done (hostSet s .xltInval 0 (putBits (putBits value 31 1 1) 27 2 2))

/-- HOST_SYNC (R473). -/
def execHostSync (value : Nat) (s : State) : Out := done (hostSet s .grnCtl 0 (putBits value 30 1 1))

/-- GRANARY_DISABLE (R482). -/
def execGranaryDisable (value : Nat) (s : State) : Out := done (hostSet s .grnCtl 0 (putBits value 31 1 0))

/-- GRANARY_ENABLE (R483). -/
def execGranaryEnable (value : Nat) (s : State) : Out := done (hostSet s .grnCtl 0 (putBits value 31 1 1))

/-- CLEAN (R477). -/
def execGranClean (value : Nat) (s : State) : Out := done (hostSet s .grnMaintCtl 0 (putBits (putBits value 31 1 1) 0 2 0))

/-- INVALIDATE (R477). -/
def execGranInvalidate (value : Nat) (s : State) : Out := done (hostSet s .grnMaintCtl 0 (putBits (putBits value 31 1 1) 0 2 1))

/-- CLEAN_INVALIDATE (R477). -/
def execGranCleanInvalidate (value : Nat) (s : State) : Out := done (hostSet s .grnMaintCtl 0 (putBits (putBits value 31 1 1) 0 2 2))

/-- ZERO (R477). -/
def execGranZero (value : Nat) (s : State) : Out := done (hostSet s .grnMaintCtl 0 (putBits (putBits value 31 1 1) 0 2 3))

/-- SR_REQ_SET (R500). -/
def execSrReqSet (value : Nat) (s : State) : Out := done (hostSet s .dmcPwr 0 (putBits value 31 1 1))

/-- SR_REQ_CLEAR (R500). -/
def execSrReqClear (value : Nat) (s : State) : Out := done (hostSet s .dmcPwr 0 (putBits value 31 1 0))

/-- ARM (R527). -/
def execArm (channel value : Nat) (s : State) : Out := done (hostSet s .sluChCtl channel (putBits value 31 1 1))

/-- DISARM (R527). -/
def execDisarm (channel value : Nat) (s : State) : Out := done (hostSet s .sluChCtl channel (putBits value 30 1 1))

/-- STOP (R529). -/
def execStopChannel (channel value : Nat) (s : State) : Out := done (hostSet s .sluChCtl channel (putBits value 29 1 1))

/-- RESUME (R529). -/
def execResumeChannel (channel value : Nat) (s : State) : Out := done (hostSet s .sluChCtl channel (putBits value 28 1 1))

/-- MSIX_UNMASK (R538). -/
def execMsixUnmask (vector : Nat) (s : State) : Out := done (hostUnmask s vector)

/-- BAR4_ACCESS (R623). -/
def execBar4Access (access : BarAccess) (s : State) : Out := done (bar4Access s access)

/-- BAR4_RESIZE (R623). -/
def execBar4Resize (log2 : Nat) (s : State) : Out := done (bar4Resize s log2)

/-- RC_READ (R15). -/
def execRcRead (access : RegRead) (s : State) : Out := done (hostReadReg s access)

/-- REGISTER_WRITE (R14). -/
def execRegisterWrite (access : RegWrite) (s : State) : Out := done (hostWriteReg s access)

/-- BOOT_CLEAR (R562). -/
def execBootClear (value : Nat) (s : State) : Out := done (hostSet s .bootClear 0 value)

/-- MANUAL_TRIGGER (R568). -/
def execManualTrigger (value : Nat) (s : State) : Out := done (hostSet s .bootDump 0 (putBits value 63 1 1))

/-- OTP_PROGRAM (R576). -/
def execOtpProgram (value : Nat) (s : State) : Out := done (hostSet s .otpProgCtl 0 (putBits value 31 1 1))

/-- GENERATE (R580). -/
def execGenerateKey (value : Nat) (s : State) : Out := done (hostSet s .brkKeyCtl 0 (putBits (putBits value 31 1 1) 24 3 0))

/-- IMPORT (R580). -/
def execImportKey (value : Nat) (s : State) : Out := done (hostSet s .brkKeyCtl 0 (putBits (putBits value 31 1 1) 24 3 1))

/-- CLEAR (R580). -/
def execClearKey (value : Nat) (s : State) : Out := done (hostSet s .brkKeyCtl 0 (putBits (putBits value 31 1 1) 24 3 2))

/-- GRANT (R580). -/
def execGrantKey (value : Nat) (s : State) : Out := done (hostSet s .brkKeyCtl 0 (putBits (putBits value 31 1 1) 24 3 3))

/-- CHALLENGE (R591). -/
def execChallenge (value : Nat) (s : State) : Out := done (hostSet s .brkRestoreCtl 0 (putBits value 31 1 1))

/-- RESTORE_DATA_WRITE (R592). -/
def execRestoreDataWrite (value : Nat) (s : State) : Out := done (hostSet s .brkRestoreData 0 value)

/-- VERIFY (R592). -/
def execVerify (value : Nat) (s : State) : Out := done (hostSet s .brkRestoreCtl 0 (putBits value 30 1 1))

/-- COUNTER_FREEZE (R605). -/
def execCounterFreeze (value : Nat) (s : State) : Out := done (hostSet s .sckCtl 0 (putBits value 31 1 1))

/-- COUNTER_UNFREEZE (R605). -/
def execCounterUnfreeze (value : Nat) (s : State) : Out := done (hostSet s .sckCtl 0 (putBits value 31 1 0))

/-- COUNTER_CLEAR (R606). -/
def execCounterClear (value : Nat) (s : State) : Out := done (hostSet s .sckCtl 0 (putBits value 30 1 1))

/-- COUNTER_WRITE (R603). -/
def execCounterWrite (counter value : Nat) (s : State) : Out := done (hostSet s .sckCnt counter value)

/-- WINDOW_WRITE (R611). -/
def execWindowWrite (value : Nat) (s : State) : Out := done (hostSet s .sckBwCfg 0 value)

/-- CLEAR_PEAK (R611). -/
def execClearPeak (value : Nat) (s : State) : Out := done (hostSet s .sckBwCtl 0 (putBits value 31 1 1))

end Sys2Proof.Machine
end

