-- ==== Sys2Proof/Machine/Dispatch.lean ====
section
/-! DEFINITION. One arm per command: a direct call of its meaning, or a rejection by name. -/

namespace Sys2Proof.Machine

/-- The effect of a command on everything but the queue. -/
def exec (i : Instr) (s : State) : Host.Outcome State Fault Refusal :=
  match i with
  | .nop job => Sys2Proof.Machine.execNop job s
  | .fence job => Sys2Proof.Machine.execFence job s
  | .abort job => Sys2Proof.Machine.execAbort job s
  | .query job => Sys2Proof.Machine.execQuery job s
  | .pipeRun job => Sys2Proof.Machine.execPipeRun job s
  | .pipeArgs job => Sys2Proof.Machine.execPipeArgs job s
  | .indexLookup job => Sys2Proof.Machine.execIndexLookup job s
  | .rowFetch job => Sys2Proof.Machine.execRowFetch job s
  | .copy job => Sys2Proof.Machine.execCopy job s
  | .fill job => Sys2Proof.Machine.execFill job s
  | .copyList job => Sys2Proof.Machine.execCopyList job s
  | .compress job => Sys2Proof.Machine.execCompress job s
  | .decompress job => Sys2Proof.Machine.execDecompress job s
  | .digest job => Sys2Proof.Machine.execDigest job s
  | .digestKeyed job => Sys2Proof.Machine.execDigestKeyed job s
  | .contextSave job => Sys2Proof.Machine.execContextSave job s
  | .contextRestore job => Sys2Proof.Machine.execContextRestore job s
  | .read job => Sys2Proof.Machine.execRead job s
  | .write job => Sys2Proof.Machine.execWrite job s
  | .flush job => Sys2Proof.Machine.execFlush job s
  | .trim job => Sys2Proof.Machine.execTrim job s
  | .begin job => Sys2Proof.Machine.execBegin job s
  | .commit job => Sys2Proof.Machine.execCommit job s
  | .snapshotOpen job => Sys2Proof.Machine.execSnapshotOpen job s
  | .snapshotClose job => Sys2Proof.Machine.execSnapshotClose job s
  | .sliceCreate job => Sys2Proof.Machine.execSliceCreate job s
  | .sliceReset job => Sys2Proof.Machine.execSliceReset job s
  | .volumeCreate job => Sys2Proof.Machine.execVolumeCreate job s
  | .volumeDelete job => Sys2Proof.Machine.execVolumeDelete job s
  | .sanitise job => Sys2Proof.Machine.execSanitise job s
  | .format job => Sys2Proof.Machine.execFormat job s
  | .dumpRead job => Sys2Proof.Machine.execDumpRead job s
  | .tlbInvalAddr job => Sys2Proof.Machine.execTlbInvalAddr job s
  | .tlbInvalTag job => Sys2Proof.Machine.execTlbInvalTag job s
  | .tlbInvalAll job => Sys2Proof.Machine.execTlbInvalAll job s
  | .endPart stone stage f => Sys2Proof.Machine.execEndPart stone stage f s
  | .instrNop stone stage f => Sys2Proof.Machine.execInstrNop stone stage f s
  | .br stone stage f => Sys2Proof.Machine.execBr stone stage f s
  | .loop stone stage f => Sys2Proof.Machine.execLoop stone stage f s
  | .endloop stone stage f => Sys2Proof.Machine.execEndloop stone stage f s
  | .movs stone stage f => Sys2Proof.Machine.execMovs stone stage f s
  | .salu stone stage f => Sys2Proof.Machine.execSalu stone stage f s
  | .dcol stone stage f => Sys2Proof.Machine.execDcol stone stage f s
  | .drec stone stage f => Sys2Proof.Machine.execDrec stone stage f s
  | .drowid stone stage f => Sys2Proof.Machine.execDrowid stone stage f s
  | .cmp stone stage f => Sys2Proof.Machine.execCmp stone stage f s
  | .tcmp stone stage f => Sys2Proof.Machine.execTcmp stone stage f s
  | .inset stone stage f => Sys2Proof.Machine.execInset stone stage f s
  | .isnull stone stage f => Sys2Proof.Machine.execIsnull stone stage f s
  | .mand stone stage f => Sys2Proof.Machine.execMand stone stage f s
  | .mor stone stage f => Sys2Proof.Machine.execMor stone stage f s
  | .mnot stone stage f => Sys2Proof.Machine.execMnot stone stage f s
  | .sel stone stage f => Sys2Proof.Machine.execSel stone stage f s
  | .add stone stage f => Sys2Proof.Machine.execAdd stone stage f s
  | .sub stone stage f => Sys2Proof.Machine.execSub stone stage f s
  | .mul stone stage f => Sys2Proof.Machine.execMul stone stage f s
  | .div stone stage f => Sys2Proof.Machine.execDiv stone stage f s
  | .rem stone stage f => Sys2Proof.Machine.execRem stone stage f s
  | .neg stone stage f => Sys2Proof.Machine.execNeg stone stage f s
  | .abs stone stage f => Sys2Proof.Machine.execAbs stone stage f s
  | .min stone stage f => Sys2Proof.Machine.execMin stone stage f s
  | .max stone stage f => Sys2Proof.Machine.execMax stone stage f s
  | .cvt stone stage f => Sys2Proof.Machine.execCvt stone stage f s
  | .mov stone stage f => Sys2Proof.Machine.execMov stone stage f s
  | .csel stone stage f => Sys2Proof.Machine.execCsel stone stage f s
  | .coalesce stone stage f => Sys2Proof.Machine.execCoalesce stone stage f s
  | .dpart stone stage f => Sys2Proof.Machine.execDpart stone stage f s
  | .dadd stone stage f => Sys2Proof.Machine.execDadd stone stage f s
  | .hashk stone stage f => Sys2Proof.Machine.execHashk stone stage f s
  | .build stone stage f => Sys2Proof.Machine.execBuild stone stage f s
  | .probe stone stage f => Sys2Proof.Machine.execProbe stone stage f s
  | .part stone stage f => Sys2Proof.Machine.execPart stone stage f s
  | .agg stone stage f => Sys2Proof.Machine.execAgg stone stage f s
  | .gagg stone stage f => Sys2Proof.Machine.execGagg stone stage f s
  | .afin stone stage f => Sys2Proof.Machine.execAfin stone stage f s
  | .stcol stone stage f => Sys2Proof.Machine.execStcol stone stage f s
  | .strec stone stage f => Sys2Proof.Machine.execStrec stone stage f s
  | .stscl stone stage f => Sys2Proof.Machine.execStscl stone stage f s
  | .merge stone stage f => Sys2Proof.Machine.execMerge stone stage f s
  | .tappend stone stage f => Sys2Proof.Machine.execTappend stone stage f s
  | .doorbell slice queue value => Sys2Proof.Machine.execDoorbell slice queue value s
  | .poll gq => Sys2Proof.Machine.execPoll gq s
  | .weirPass => Sys2Proof.Machine.execWeirPass s
  | .entryFetch => Sys2Proof.Machine.execEntryFetch s
  | .chainTimeout gq => Sys2Proof.Machine.execChainTimeout gq s
  | .taskCreate => Sys2Proof.Machine.execTaskCreate s
  | .taskReady job part => Sys2Proof.Machine.execTaskReady job part s
  | .delayOut job => Sys2Proof.Machine.execDelayOut job s
  | .dispatchHome engine unit => Sys2Proof.Machine.execDispatchHome engine unit s
  | .dispatchAffinity job part => Sys2Proof.Machine.execDispatchAffinity job part s
  | .affinityWindowEnd job part => Sys2Proof.Machine.execAffinityWindowEnd job part s
  | .steal stone => Sys2Proof.Machine.execSteal stone s
  | .batchAdmit stone => Sys2Proof.Machine.execBatchAdmit stone s
  | .stageStep stone stage => Sys2Proof.Machine.execStageStep stone stage s
  | .taskComplete job part => Sys2Proof.Machine.execTaskComplete job part s
  | .flowRelease job part => Sys2Proof.Machine.execFlowRelease job part s
  | .jobRelease job => Sys2Proof.Machine.execJobRelease job s
  | .barrierFlushDone target => Sys2Proof.Machine.execBarrierFlushDone target s
  | .preempt mill => Sys2Proof.Machine.execPreempt mill s
  | .park stone => Sys2Proof.Machine.execPark stone s
  | .taskStop stone => Sys2Proof.Machine.execTaskStop stone s
  | .sortRun job part => Sys2Proof.Machine.execSortRun job part s
  | .combine job part => Sys2Proof.Machine.execCombine job part s
  | .mergeUpdate job part => Sys2Proof.Machine.execMergeUpdate job part s
  | .recordJoin => Sys2Proof.Machine.execRecordJoin s
  | .commitClaims => Sys2Proof.Machine.execCommitClaims s
  | .groupClose => Sys2Proof.Machine.execGroupClose s
  | .sealDurable => Sys2Proof.Machine.execSealDurable s
  | .epochPublish => Sys2Proof.Machine.execEpochPublish s
  | .projectionApply volume => Sys2Proof.Machine.execProjectionApply volume s
  | .writeback volume lba => Sys2Proof.Machine.execWriteback volume lba s
  | .driveComplete port cmd result => Sys2Proof.Machine.execDriveComplete port cmd result s
  | .commandTimeout port cmd retryOk => Sys2Proof.Machine.execCommandTimeout port cmd retryOk s
  | .rebuildDone volume => Sys2Proof.Machine.execRebuildDone volume s
  | .volumeOpDone volume => Sys2Proof.Machine.execVolumeOpDone volume s
  | .replayDone => Sys2Proof.Machine.execReplayDone s
  | .descriptorComplete channel => Sys2Proof.Machine.execDescriptorComplete channel s
  | .moverGrant mover => Sys2Proof.Machine.execMoverGrant mover s
  | .moverPreempt channel => Sys2Proof.Machine.execMoverPreempt channel s
  | .requestLine line level => Sys2Proof.Machine.execRequestLine line level s
  | .blockAbsorb core => Sys2Proof.Machine.execBlockAbsorb core s
  | .lineFill access => Sys2Proof.Machine.execLineFill access s
  | .dramRead access => Sys2Proof.Machine.execDramRead access s
  | .writeDrain channel => Sys2Proof.Machine.execWriteDrain channel s
  | .pageIdleClose channel bank => Sys2Proof.Machine.execPageIdleClose channel bank s
  | .refresh channel temp => Sys2Proof.Machine.execRefresh channel temp s
  | .zqCalibration channel => Sys2Proof.Machine.execZqCalibration channel s
  | .tempPoll temp => Sys2Proof.Machine.execTempPoll temp s
  | .patrolRead burst => Sys2Proof.Machine.execPatrolRead burst s
  | .srReentry channel => Sys2Proof.Machine.execSrReentry channel s
  | .queueEnable gq value => Sys2Proof.Machine.execQueueEnable gq value s
  | .queueDisable gq value => Sys2Proof.Machine.execQueueDisable gq value s
  | .evHeadWrite slice value => Sys2Proof.Machine.execEvHeadWrite slice value s
  | .tailraceEnable slice value => Sys2Proof.Machine.execTailraceEnable slice value s
  | .evModeChange slice value => Sys2Proof.Machine.execEvModeChange slice value s
  | .profileWrite value => Sys2Proof.Machine.execProfileWrite value s
  | .profileLock value => Sys2Proof.Machine.execProfileLock value s
  | .traceEnable value => Sys2Proof.Machine.execTraceEnable value s
  | .preemptColsApply => Sys2Proof.Machine.execPreemptColsApply s
  | .checkCacheFlush value => Sys2Proof.Machine.execCheckCacheFlush value s
  | .checkpoint value => Sys2Proof.Machine.execCheckpoint value s
  | .replayStart value => Sys2Proof.Machine.execReplayStart value s
  | .tableRegister table value => Sys2Proof.Machine.execTableRegister table value s
  | .portAttach port value => Sys2Proof.Machine.execPortAttach port value s
  | .portDetach port value => Sys2Proof.Machine.execPortDetach port value s
  | .registerMark context value => Sys2Proof.Machine.execRegisterMark context value s
  | .invalOpAddr value => Sys2Proof.Machine.execInvalOpAddr value s
  | .invalOpTag value => Sys2Proof.Machine.execInvalOpTag value s
  | .invalOpAll value => Sys2Proof.Machine.execInvalOpAll value s
  | .invalComplete job => Sys2Proof.Machine.execInvalComplete job s
  | .hostSync value => Sys2Proof.Machine.execHostSync value s
  | .granaryDisable value => Sys2Proof.Machine.execGranaryDisable value s
  | .granaryEnable value => Sys2Proof.Machine.execGranaryEnable value s
  | .drainComplete => Sys2Proof.Machine.execDrainComplete s
  | .granClean value => Sys2Proof.Machine.execGranClean value s
  | .granInvalidate value => Sys2Proof.Machine.execGranInvalidate value s
  | .granCleanInvalidate value => Sys2Proof.Machine.execGranCleanInvalidate value s
  | .granZero value => Sys2Proof.Machine.execGranZero value s
  | .maintComplete => Sys2Proof.Machine.execMaintComplete s
  | .srReqSet value => Sys2Proof.Machine.execSrReqSet value s
  | .srReqClear value => Sys2Proof.Machine.execSrReqClear value s
  | .arm channel value => Sys2Proof.Machine.execArm channel value s
  | .disarm channel value => Sys2Proof.Machine.execDisarm channel value s
  | .stopChannel channel value => Sys2Proof.Machine.execStopChannel channel value s
  | .resumeChannel channel value => Sys2Proof.Machine.execResumeChannel channel value s
  | .resetDrained slice => Sys2Proof.Machine.execResetDrained slice s
  | .msixUnmask vector => Sys2Proof.Machine.execMsixUnmask vector s
  | .bar4Access access => Sys2Proof.Machine.execBar4Access access s
  | .bar4Resize log2 => Sys2Proof.Machine.execBar4Resize log2 s
  | .rcRead access => Sys2Proof.Machine.execRcRead access s
  | .registerWrite access => Sys2Proof.Machine.execRegisterWrite access s
  | .bootClear value => Sys2Proof.Machine.execBootClear value s
  | .manualTrigger value => Sys2Proof.Machine.execManualTrigger value s
  | .otpProgram value => Sys2Proof.Machine.execOtpProgram value s
  | .otpProgrammed lost => Sys2Proof.Machine.execOtpProgrammed lost s
  | .generateKey value => Sys2Proof.Machine.execGenerateKey value s
  | .importKey value => Sys2Proof.Machine.execImportKey value s
  | .clearKey value => Sys2Proof.Machine.execClearKey value s
  | .grantKey value => Sys2Proof.Machine.execGrantKey value s
  | .keyOpDone => Sys2Proof.Machine.execKeyOpDone s
  | .challenge value => Sys2Proof.Machine.execChallenge value s
  | .restoreDataWrite value => Sys2Proof.Machine.execRestoreDataWrite value s
  | .verify value => Sys2Proof.Machine.execVerify value s
  | .keysRestored => Sys2Proof.Machine.execKeysRestored s
  | .counterFreeze value => Sys2Proof.Machine.execCounterFreeze value s
  | .counterUnfreeze value => Sys2Proof.Machine.execCounterUnfreeze value s
  | .counterClear value => Sys2Proof.Machine.execCounterClear value s
  | .counterWrite counter value => Sys2Proof.Machine.execCounterWrite counter value s
  | .sckOverflow counter => Sys2Proof.Machine.execSckOverflow counter s
  | .windowWrite value => Sys2Proof.Machine.execWindowWrite value s
  | .clearPeak value => Sys2Proof.Machine.execClearPeak value s
  | .windowEnd => Sys2Proof.Machine.execWindowEnd s
  | .statusCmd req => Sys2Proof.Machine.execStatusCmd req s
  | .tempCmd req => Sys2Proof.Machine.execTempCmd req s
  | .dumpTriggerCmd req => Sys2Proof.Machine.execDumpTriggerCmd req s
  | .clearBootCmd req => Sys2Proof.Machine.execClearBootCmd req s
  | .stepCmd req => Sys2Proof.Machine.execStepCmd req s
  | .powerOn board => Sys2Proof.Machine.execPowerOn board s
  | .pwrGoodFall => Sys2Proof.Machine.execPwrGoodFall s
  | .pwrFail => Sys2Proof.Machine.execPwrFail s
  | .warmReset cause => Sys2Proof.Machine.execWarmReset cause s
  | .functionLevelReset => Sys2Proof.Machine.execFunctionLevelReset s
  | .bootStepTimeout step => Sys2Proof.Machine.execBootStepTimeout step s
  | .millerWatchdog => Sys2Proof.Machine.execMillerWatchdog s
  | .fatalError cls => Sys2Proof.Machine.execFatalError cls s
  | .brakeTrip sensors live => Sys2Proof.Machine.execBrakeTrip sensors live s
  | .thermTrip temp => Sys2Proof.Machine.execThermTrip temp s
  | .bucketRefill => Sys2Proof.Machine.execBucketRefill s
  | .perstNRise => Sys2Proof.Machine.execPerstNRise s
  | .hostReadCompletion read error => Sys2Proof.Machine.execHostReadCompletion read error s
  | .blockStaged quern => Sys2Proof.Machine.execBlockStaged quern s
  | .atomicopRequesterEnable value => Sys2Proof.Machine.execAtomicopRequesterEnable value s

end Sys2Proof.Machine
end

