-- ==== Sys2Proof/Machine/Idle.lean ====
section
/-! DEFINITION. What the block does with no command waiting: a boot runs on, or the clock reaches the next tick. -/

namespace Sys2Proof.Machine

/-- With no command waiting (DESIGN CHOICE): the running boot steps end well, unless they wait for perst_n (18 R555); else, under
power, time passes to the next tick of FAN_TICK (04 R139, 17 R548). -/
def idle (s : State) : State :=
  if !s.boot.on then s
  else settle (if s.boot.running.isEmpty || bootWaits s then tick s else bootAdvance workDump s)

end Sys2Proof.Machine
end

