-- ==== Sys2Proof/Safety.lean ====
section
/-! DEFINITION. What counts as a sound state and a sound step, in the terms that claims use. -/

namespace Sys2Proof.Machine

/-- The canonical form of memory: addresses strictly rising, no listed byte equal to what an unlisted one reads as. -/
def Memory.wf (m : List Host.Cell) : Bool := twf memDefault m

/-- The state's sparse contents are in canonical form: memory, the register file, the Millpond's cells and the OTP words. -/
def State.canon (s : State) : Prop :=
  Memory.wf s.mem = true ∧ twf regReset s.regs = true ∧ twf (fun _ => (0 : Byte)) s.mpd.cells = true ∧
    twf (fun _ => (0 : Nat)) s.otp = true

/-- The OTP word of an index: group times 4 plus generation (19 R572). -/
def State.otpAt (s : State) (k : Nat) : Nat := tget (fun _ => 0) s.otp k

/-- A programming in progress writes a generation word whose bits are all 0 (19 R576). -/
def State.otpFresh (s : State) : Prop := ∀ o, s.otpOp = some o → s.otpAt (o.group * 4 + o.gen) = 0

/-- BAR4's size is one that the Resizable BAR capability offers: 1 GiB to 2 TiB (21 Table 21.1). -/
def State.barLegal (s : State) : Prop := 30 ≤ s.bar4 ∧ s.bar4 ≤ 41

/-- Nothing is owed at a command's end: no fatal error's dump, no device event, no halt's message, no requested preempt_cols. -/
abbrev State.calm (s : State) : Prop :=
  s.fatal = none ∧ s.events = [] ∧ s.haltMsgs = [] ∧
    (s.fan.jobs = [] → s.fld F.stnCfg_preempt_active 0 = s.fld F.stnCfg_preempt_cols 0)

/-- How any part of the model takes a state to a later one, whatever else it does: the command queue stands; the draws of free
values are never taken back; canonical form, a fresh OTP target and a legal BAR4 size are kept; messages once sent stay sent; an OTP
word once programmed keeps its value. -/
structure Evolves (s t : State) : Prop where
  queue : t.pending = s.pending
  draws : s.free ≤ t.free
  canon : s.canon → t.canon
  sent : s.msix.sent <+: t.msix.sent
  otp : s.canon → s.otpFresh → t.otpFresh ∧ ∀ k, s.otpAt k ≠ 0 → t.otpAt k = s.otpAt k
  bar : s.barLegal → t.barLegal

/-- Only counters moved (20 R595): the register file, where the sack counters and their overflow bits stand, and the wraps owed. -/
def CountsOnly (s t : State) : Prop := t = { s with regs := t.regs, sckOwed := t.sckOwed }

/-- A register that no sack counter uses: any but SCK_CNT, SCK_OVF0 and SCK_OVF1. -/
def countFree (r : Reg) : Bool := r != .sckCnt && r != .sckOvf0 && r != .sckOvf1

/-- Stage k of stone n may issue an instruction of its BODY in context c (05 R156, R176, R185): the stone runs task r, the stage may issue,
and the stage holds a batch on which its step has not ended; the instruction's number is the one whose turn it is. -/
def StageIssues (s : State) (n k : Nat) (r : Run) (c : Ctx) : Prop :=
  (s.stone n).run = some r ∧ mayIssue s n r (r.stage k) = true ∧ 1 ≤ k ∧ k ≤ 6 ∧ (r.stage k).batch.isSome = true ∧ (r.stage k).stepped = false ∧
    ∃ c0, ctxOf s n r k 1 0 = some c0 ∧ c = { c0 with num := (stageTurn c0 (r.stage k)).1 }

/-- The open LOOPs as the instruction issues. -/
def loopsAt (r : Run) (k : Nat) (c : Ctx) : List (Nat × Nat) := (stageTurn c (r.stage k)).2

/-- The state in which an instruction acts: its issue is counted (20, event 0x31D). -/
def issued (s : State) (c : Ctx) : State := s.countReq c.req 0x31D 1

/-- What follows an instruction that acted (05 R156, R176): after the END the step has ended and the stage passes its batch on, else the
next instruction is in turn. -/
def afterInsn (s : State) (n k op : Nat) (c : Ctx) (f : Insn) (loops : List (Nat × Nat)) : State :=
  match seqNext s c op f c.num loops with
  | none => passOn (stepEnds s c) n k
  | some x => passOn (s.setRun n (fun r => r.setStage k (fun st => { st with pc := x.1, loops := x.2, running := true }))) n k

/-- A mask, or pair of masks, written with a truth for each row (05 R158, R172): 1 where the row is active, as the rows were in u, and
TRUE; in pair form the second mask takes UNKNOWN. -/
def truthLeft (u s : State) (c : Ctx) (f : Insn) (g : Nat → Option Bool) : State :=
  let s1 := setMask s c f.rd ((List.range c.rows).map (fun row => active u c f row && g row == some true))
  if 8 ≤ f.mod then setMask s1 c (f.rd + 1) ((List.range c.rows).map (fun row => active u c f row && g row == none)) else s1

/-- The same where the rows are active as they are. -/
abbrev truthWritten (s : State) (c : Ctx) (f : Insn) (g : Nat → Option Bool) : State := truthLeft s s c f g

/-- A column written in the active rows (05 R158). -/
def columnWritten (s : State) (c : Ctx) (k : Nat) (t : Tag) (vs : List (Nat × Option Nat)) : State :=
  if t.typ = tDec128 then
    putCol (putCol s c.stone (c.phys k) t (vs.map (fun v => (v.1, v.2.map (· % 2 ^ 64))))) c.stone (c.phys (k + 1)) noTag
      (vs.map (fun v => (v.1, v.2.map (· / 2 ^ 64))))
  else putCol s c.stone (c.phys k) t vs

/-- A row's work of an instruction done for each row in turn, ending well at every one. -/
def RowsGo {α : Type} (g : Nat → Op α) : List Nat → State → List α → State → Prop
  | [], s, vs, t => vs = [] ∧ t = s
  | row :: rows, s, vs, t => ∃ v u ws, g row s = .ok v u ∧ RowsGo g rows u ws t ∧ vs = v :: ws

/-- The device takes a host write of an instance of a register (18 R561, R563, 17 R536): the register has it, and its address is served. -/
def HostTakes (s : State) (r : Reg) (i : Nat) : Prop :=
  i < (rowOf r).insts ∧ served s (rowOf r).bar2
    (if (rowOf r).bar2 then i / (if (rowOf r).stride = 0 then 1 else 8) * 65536 else (rowOf r).off) = true

/-- The pipeline instructions, each with its opcode and its meaning (05 Table 5.12); the sequencer's own act on the sequencer only. -/
def insnRows : List ((Nat → Nat → Insn → Instr) × Nat × (Ctx → Insn → Op Unit)) :=
  [(.endPart, 0x01, fun _ _ => pure ()), (.instrNop, 0x00, fun _ _ => pure ()), (.br, 0x03, fun _ _ => pure ()),
   (.loop, 0x04, fun _ _ => pure ()), (.endloop, 0x05, fun _ _ => pure ()), (.movs, 0x06, opMovs), (.salu, 0x07, opSalu),
   (.dcol, 0x10, opDcol), (.drec, 0x11, opDrec), (.drowid, 0x12, opDrowid), (.cmp, 0x20, opCmp), (.tcmp, 0x21, opTcmp),
   (.inset, 0x22, opInset), (.isnull, 0x23, opIsnull), (.mand, 0x24, opLogic and3), (.mor, 0x25, opLogic or3),
   (.mnot, 0x26, opMnot), (.sel, 0x27, opSel)] ++
  [(.add, 0x30, opArith 0x30), (.sub, 0x31, opArith 0x31), (.mul, 0x32, opArith 0x32), (.div, 0x33, opArith 0x33),
   (.rem, 0x34, opArith 0x34), (.neg, 0x35, opNeg), (.abs, 0x36, opAbs), (.min, 0x37, opArith 0x37), (.max, 0x38, opArith 0x38),
   (.cvt, 0x39, opCvt), (.mov, 0x3A, opMov), (.csel, 0x3B, opCsel), (.coalesce, 0x3C, opCoalesce), (.dpart, 0x3D, opDpart),
   (.dadd, 0x3E, opDadd)] ++
  [(.hashk, 0x40, opHashk), (.build, 0x41, opBuild), (.probe, 0x42, opProbe), (.part, 0x43, opPart), (.agg, 0x50, opAgg),
   (.gagg, 0x51, opGagg), (.afin, 0x52, opAfin), (.stcol, 0x60, opStcol), (.strec, 0x61, opStrec), (.stscl, 0x62, opStscl),
   (.merge, 0x63, opMerge), (.tappend, 0x64, opTappend)]

/-- The two-operand arithmetic instructions with their opcodes. -/
def arithRows : List ((Nat → Nat → Insn → Instr) × Nat) :=
  [(.add, 0x30), (.sub, 0x31), (.mul, 0x32), (.div, 0x33), (.rem, 0x34), (.min, 0x37), (.max, 0x38)]

/-- What an arithmetic instruction gives at a row (08 R266, R267, R268, R272): NULL for a NULL operand, else the conversion of its exact
value, where that does not fault. -/
def arithGives (op : Nat) (f : Insn) (a b : Src) (row : Nat) (v : Option Nat) : Prop :=
  ((a.raw row = none ∨ b.raw row = none) ∧ v = none) ∨
  ∃ x y w, a.raw row = some x ∧ b.raw row = some y ∧ ((op = 0x33 ∨ op = 0x34) → rawValue b.tag.typ y ≠ 0) ∧
    arithConv op (insnTag f) f.mod (rawValue a.tag.typ x) a.tag.scale (rawValue b.tag.typ y) b.tag.scale = .ok w ∧
    v = some (valueRaw f.typ w)

/-- The table that a task has opened on an instruction's binding, with its tests met (07 R229). -/
def tableHeld (u : State) (c : Ctx) (f : Insn) (kind : Nat) (h : HtHdr) : Prop :=
  (((c.run u).map (·.tables)).getD []).find? (fun t => t.1 == f.imm) = some (f.imm, h) ∧ h.kind = kind ∧ h.keyTag = colTag u c f.ra

end Sys2Proof.Machine
end

