-- ==== Sys2Proof/WellFormed.lean ====
section
/-! DEFINITION. Well-formed commands: each operand within the range that the spec gives the agent, the field or the value that it
names. The machine takes any command; the statements and the tests name the well-formed ones. -/

namespace Sys2Proof

/-- The fields of an instruction word fit the bits of 05 Table 5.11. -/
def Insn.wf (f : Insn) : Bool :=
  decide (f.rd < 64) && decide (f.dk < 4) && decide (f.ra < 64) && decide (f.ak < 4) && decide (f.rb < 64) && decide (f.bk < 4) &&
    decide (f.gm < 8) && decide (f.mod < 16) && decide (f.typ < 32) && decide (f.scale < 64) && decide (f.imm < 8192)

/-- A flush read is for a job's release or one of the 32 channels (16 R509). -/
def FlushTarget.wf (t : FlushTarget) : Bool :=
  match t with
  | .job _ => true
  | .channel c => decide (c < 32)

/-- A burst's changed bits lie in its eight words of 72 bits and are each named once, at most two in a word: the code of 15 R502 tells no
more of them; a line that answers for another is one of DRAM. -/
def Burst.wf (b : Burst) : Bool :=
  b.flips.all (fun x => decide (x.1 < 8) && decide (x.2 < 72)) && decide b.flips.Nodup &&
    (List.range 8).all (fun w => decide ((b.flips.filter (fun x => x.1 == w)).length ≤ 2)) &&
    (match b.origin with
      | some d => decide (d < 2 ^ 41)
      | none => true)

/-- A line of host memory lies in the HOST region's 2^51 bytes (13 Table 13.1). -/
def HostRead.wf (r : HostRead) : Bool :=
  match r with
  | .job _ => true
  | .line l => decide (2 ^ 45 ≤ l) && decide (l < 2 ^ 46)

/-- A DRAM read is of a DPA of 52 bits; a partial write merges fewer than 64 bytes, within the line (15 R496). -/
def DramAccess.wf (a : DramAccess) : Bool :=
  decide (a.dpa < 2 ^ 52) && a.burst.wf && (match a.merge with
    | some b => decide (a.dpa % 64 + b.length ≤ 64) && decide (0 < b.length)
    | none => true)

/-- A line access is for one of the 64 slices and the 128 stones, and writes within its line. -/
def LineAccess.wf (a : LineAccess) : Bool :=
  decide (a.dpa < 2 ^ 52) && decide (a.slice < 64) && decide (a.stone < 128) && (match a.write with
    | some b => decide (a.dpa % 64 + b.length ≤ 64) && decide (0 < b.length)
    | none => true)

/-- A BAR4 access covers at least one byte; a write's size is its bytes (21 R623). -/
def BarAccess.wf (a : BarAccess) : Bool :=
  decide (0 < a.size) && decide (a.off + a.size ≤ 2 ^ 41) && (match a.write with
    | some b => decide (b.length = a.size)
    | none => true)

/-- The bytes of a register BAR: BAR0 16 MiB, BAR2 4 MiB (21 R613). -/
def barSize (bar2 : Bool) : Nat := if bar2 then 0x400000 else 0x1000000

/-- A register write within its BAR, of at most 8 bytes (21 R615). -/
def RegWrite.wf (a : RegWrite) : Bool :=
  decide (0 < a.size) && decide (a.size ≤ 8) && decide (a.off + a.size ≤ barSize a.bar2) && decide (a.value < 2 ^ (8 * a.size))

/-- A register read within its BAR (21 R615). -/
def RegRead.wf (a : RegRead) : Bool := decide (0 < a.size) && decide (a.off + a.size ≤ barSize a.bar2)

/-- An SMBus transaction at a 7-bit address, of bytes, with a temperature of 16 signed bits (18 Table 18.4). -/
def SmbusReq.wf (q : SmbusReq) : Bool :=
  decide (q.addr < 128) && q.data.all (fun x => decide (x < 256)) && decide (-32768 ≤ q.temp) && decide (q.temp ≤ 32767)

/-- A failure is of one of the boot steps 1 to 31, in one of its ways, with an outcome of 18 Table 18.3. -/
def StepFault.wf (x : StepFault) : Bool :=
  decide (1 ≤ x.step) && decide (x.step ≤ 31) && decide (x.way ≤ 2) && decide (1 ≤ x.outcome) && decide (x.outcome ≤ 5)

/-- A board has at most 12 DIMMs (15 R487) and 8 drives (10 R350), and 5 Brake sensors (19 Table 19.5). -/
def Board.wf (b : Board) : Bool :=
  decide (b.smbAddr < 4) && decide (b.dimms.length ≤ 12) && decide (b.drives.length ≤ 8) && decide (b.sensors < 32) &&
    b.faults.all StepFault.wf

/-- The units of an engine that takes tasks from a ready list: stones, Querns, the Toll, the Sluice's channels, the storage ports, the
journal (04 R125). -/
def engineUnits (e : Engine) : Nat :=
  match e with
  | .stone => 128
  | .quern => 16
  | .sluice => 32
  | .storage => 8
  | .toll | .journal => 1

/-- A command whose operands are in range. -/
def Instr.wf (i : Instr) : Bool :=
  match i with
  | .nop _ => true
  | .fence _ => true
  | .abort _ => true
  | .query _ => true
  | .pipeRun _ => true
  | .pipeArgs _ => true
  | .indexLookup _ => true
  | .rowFetch _ => true
  | .copy _ => true
  | .fill _ => true
  | .copyList _ => true
  | .compress _ => true
  | .decompress _ => true
  | .digest _ => true
  | .digestKeyed _ => true
  | .contextSave _ => true
  | .contextRestore _ => true
  | .read _ => true
  | .write _ => true
  | .flush _ => true
  | .trim _ => true
  | .begin _ => true
  | .commit _ => true
  | .snapshotOpen _ => true
  | .snapshotClose _ => true
  | .sliceCreate _ => true
  | .sliceReset _ => true
  | .volumeCreate _ => true
  | .volumeDelete _ => true
  | .sanitise _ => true
  | .format _ => true
  | .dumpRead _ => true
  | .tlbInvalAddr _ => true
  | .tlbInvalTag _ => true
  | .tlbInvalAll _ => true
  | .endPart stone stage f => decide (stone < 128) && decide (1 ≤ stage ∧ stage ≤ 6) && f.wf
  | .instrNop stone stage f => decide (stone < 128) && decide (1 ≤ stage ∧ stage ≤ 6) && f.wf
  | .br stone stage f => decide (stone < 128) && decide (1 ≤ stage ∧ stage ≤ 6) && f.wf
  | .loop stone stage f => decide (stone < 128) && decide (1 ≤ stage ∧ stage ≤ 6) && f.wf
  | .endloop stone stage f => decide (stone < 128) && decide (1 ≤ stage ∧ stage ≤ 6) && f.wf
  | .movs stone stage f => decide (stone < 128) && decide (1 ≤ stage ∧ stage ≤ 6) && f.wf
  | .salu stone stage f => decide (stone < 128) && decide (1 ≤ stage ∧ stage ≤ 6) && f.wf
  | .dcol stone stage f => decide (stone < 128) && decide (1 ≤ stage ∧ stage ≤ 6) && f.wf
  | .drec stone stage f => decide (stone < 128) && decide (1 ≤ stage ∧ stage ≤ 6) && f.wf
  | .drowid stone stage f => decide (stone < 128) && decide (1 ≤ stage ∧ stage ≤ 6) && f.wf
  | .cmp stone stage f => decide (stone < 128) && decide (1 ≤ stage ∧ stage ≤ 6) && f.wf
  | .tcmp stone stage f => decide (stone < 128) && decide (1 ≤ stage ∧ stage ≤ 6) && f.wf
  | .inset stone stage f => decide (stone < 128) && decide (1 ≤ stage ∧ stage ≤ 6) && f.wf
  | .isnull stone stage f => decide (stone < 128) && decide (1 ≤ stage ∧ stage ≤ 6) && f.wf
  | .mand stone stage f => decide (stone < 128) && decide (1 ≤ stage ∧ stage ≤ 6) && f.wf
  | .mor stone stage f => decide (stone < 128) && decide (1 ≤ stage ∧ stage ≤ 6) && f.wf
  | .mnot stone stage f => decide (stone < 128) && decide (1 ≤ stage ∧ stage ≤ 6) && f.wf
  | .sel stone stage f => decide (stone < 128) && decide (1 ≤ stage ∧ stage ≤ 6) && f.wf
  | .add stone stage f => decide (stone < 128) && decide (1 ≤ stage ∧ stage ≤ 6) && f.wf
  | .sub stone stage f => decide (stone < 128) && decide (1 ≤ stage ∧ stage ≤ 6) && f.wf
  | .mul stone stage f => decide (stone < 128) && decide (1 ≤ stage ∧ stage ≤ 6) && f.wf
  | .div stone stage f => decide (stone < 128) && decide (1 ≤ stage ∧ stage ≤ 6) && f.wf
  | .rem stone stage f => decide (stone < 128) && decide (1 ≤ stage ∧ stage ≤ 6) && f.wf
  | .neg stone stage f => decide (stone < 128) && decide (1 ≤ stage ∧ stage ≤ 6) && f.wf
  | .abs stone stage f => decide (stone < 128) && decide (1 ≤ stage ∧ stage ≤ 6) && f.wf
  | .min stone stage f => decide (stone < 128) && decide (1 ≤ stage ∧ stage ≤ 6) && f.wf
  | .max stone stage f => decide (stone < 128) && decide (1 ≤ stage ∧ stage ≤ 6) && f.wf
  | .cvt stone stage f => decide (stone < 128) && decide (1 ≤ stage ∧ stage ≤ 6) && f.wf
  | .mov stone stage f => decide (stone < 128) && decide (1 ≤ stage ∧ stage ≤ 6) && f.wf
  | .csel stone stage f => decide (stone < 128) && decide (1 ≤ stage ∧ stage ≤ 6) && f.wf
  | .coalesce stone stage f => decide (stone < 128) && decide (1 ≤ stage ∧ stage ≤ 6) && f.wf
  | .dpart stone stage f => decide (stone < 128) && decide (1 ≤ stage ∧ stage ≤ 6) && f.wf
  | .dadd stone stage f => decide (stone < 128) && decide (1 ≤ stage ∧ stage ≤ 6) && f.wf
  | .hashk stone stage f => decide (stone < 128) && decide (1 ≤ stage ∧ stage ≤ 6) && f.wf
  | .build stone stage f => decide (stone < 128) && decide (1 ≤ stage ∧ stage ≤ 6) && f.wf
  | .probe stone stage f => decide (stone < 128) && decide (1 ≤ stage ∧ stage ≤ 6) && f.wf
  | .part stone stage f => decide (stone < 128) && decide (1 ≤ stage ∧ stage ≤ 6) && f.wf
  | .agg stone stage f => decide (stone < 128) && decide (1 ≤ stage ∧ stage ≤ 6) && f.wf
  | .gagg stone stage f => decide (stone < 128) && decide (1 ≤ stage ∧ stage ≤ 6) && f.wf
  | .afin stone stage f => decide (stone < 128) && decide (1 ≤ stage ∧ stage ≤ 6) && f.wf
  | .stcol stone stage f => decide (stone < 128) && decide (1 ≤ stage ∧ stage ≤ 6) && f.wf
  | .strec stone stage f => decide (stone < 128) && decide (1 ≤ stage ∧ stage ≤ 6) && f.wf
  | .stscl stone stage f => decide (stone < 128) && decide (1 ≤ stage ∧ stage ≤ 6) && f.wf
  | .merge stone stage f => decide (stone < 128) && decide (1 ≤ stage ∧ stage ≤ 6) && f.wf
  | .tappend stone stage f => decide (stone < 128) && decide (1 ≤ stage ∧ stage ≤ 6) && f.wf
  | .doorbell slice queue value => decide (slice < 64) && decide (queue < 8) && decide (value < 2 ^ 32)
  | .poll gq => decide (gq < 512)
  | .weirPass => true
  | .entryFetch => true
  | .chainTimeout gq => decide (gq < 512)
  | .taskCreate => true
  | .taskReady _ p => decide (p < 65536)
  | .delayOut _ => true
  | .dispatchHome engine unit => decide (unit < engineUnits engine)
  | .dispatchAffinity _ p => decide (p < 65536)
  | .affinityWindowEnd _ p => decide (p < 65536)
  | .steal stone => decide (stone < 128)
  | .batchAdmit stone => decide (stone < 128)
  | .stageStep stone stage => decide (stone < 128) && decide (1 ≤ stage.no ∧ stage.no ≤ 6)
  | .taskComplete _ p => decide (p < 65536)
  | .flowRelease _ p => decide (p < 65536)
  | .jobRelease _ => true
  | .barrierFlushDone target => target.wf
  | .preempt mill => decide (mill < 16)
  | .park stone => decide (stone < 128)
  | .taskStop stone => decide (stone < 128)
  | .sortRun _ p => decide (p < 65536)
  | .combine _ p => decide (p < 65536)
  | .mergeUpdate _ p => decide (p < 65536)
  | .recordJoin => true
  | .commitClaims => true
  | .groupClose => true
  | .sealDurable => true
  | .epochPublish => true
  | .projectionApply volume => decide (volume < 256)
  | .writeback volume _ => decide (volume < 256)
  | .driveComplete port _ _ => decide (port < 8)
  | .commandTimeout port _ _ => decide (port < 8)
  | .rebuildDone volume => decide (volume < 256)
  | .volumeOpDone volume => decide (volume < 256)
  | .replayDone => true
  | .descriptorComplete channel => decide (channel < 32)
  | .moverGrant mover => decide (mover < 4)
  | .moverPreempt p => decide (p.channel < 32 ∧ p.beats ≤ 8)
  | .requestLine line _ => decide (line < 18)
  | .blockAbsorb core => decide (core < 8)
  | .lineFill access => access.wf
  | .dramRead access => access.wf
  | .writeDrain channel => decide (channel < 12)
  | .pageIdleClose channel bank => decide (channel < 12) && decide (bank < 128)
  | .refresh channel _ => decide (channel < 12)
  | .zqCalibration channel => decide (channel < 12)
  | .tempPoll _ => true
  | .patrolRead burst => burst.wf
  | .srReentry channel => decide (channel < 12)
  | .queueEnable gq value => decide (gq < 512) && decide (value < 2 ^ 32)
  | .queueDisable gq value => decide (gq < 512) && decide (value < 2 ^ 32)
  | .evHeadWrite slice value => decide (slice < 64) && decide (value < 2 ^ 32)
  | .tailraceEnable slice value => decide (slice < 64) && decide (value < 2 ^ 32)
  | .evModeChange slice value => decide (slice < 64) && decide (value < 2 ^ 32)
  | .profileWrite value => decide (value < 2 ^ 32)
  | .profileLock value => decide (value < 2 ^ 32)
  | .traceEnable value => decide (value < 2 ^ 32)
  | .preemptColsApply => true
  | .checkCacheFlush value => decide (value < 2 ^ 32)
  | .checkpoint value => decide (value < 2 ^ 64)
  | .replayStart value => decide (value < 2 ^ 32)
  | .tableRegister table value => decide (table < 256) && decide (value < 2 ^ 64)
  | .portAttach port value => decide (port < 8) && decide (value < 2 ^ 32)
  | .portDetach port value => decide (port < 8) && decide (value < 2 ^ 32)
  | .registerMark context value => decide (context < 32) && decide (value < 2 ^ 32)
  | .invalOpAddr value => decide (value < 2 ^ 32)
  | .invalOpTag value => decide (value < 2 ^ 32)
  | .invalOpAll value => decide (value < 2 ^ 32)
  | .invalComplete _ => true
  | .hostSync value => decide (value < 2 ^ 32)
  | .granaryDisable value => decide (value < 2 ^ 32)
  | .granaryEnable value => decide (value < 2 ^ 32)
  | .drainComplete => true
  | .granClean value => decide (value < 2 ^ 32)
  | .granInvalidate value => decide (value < 2 ^ 32)
  | .granCleanInvalidate value => decide (value < 2 ^ 32)
  | .granZero value => decide (value < 2 ^ 32)
  | .maintComplete => true
  | .srReqSet value => decide (value < 2 ^ 32)
  | .srReqClear value => decide (value < 2 ^ 32)
  | .arm channel value => decide (channel < 32) && decide (value < 2 ^ 32)
  | .disarm channel value => decide (channel < 32) && decide (value < 2 ^ 32)
  | .stopChannel channel value => decide (channel < 32) && decide (value < 2 ^ 32)
  | .resumeChannel channel value => decide (channel < 32) && decide (value < 2 ^ 32)
  | .resetDrained slice => decide (slice < 64)
  | .msixUnmask vector => decide (vector < 2048)
  | .bar4Access access => access.wf
  | .bar4Resize log2 => decide (log2 < 64)
  | .rcRead access => access.wf
  | .registerWrite access => access.wf
  | .bootClear value => decide (value < 2 ^ 32)
  | .manualTrigger value => decide (value < 2 ^ 64)
  | .otpProgram value => decide (value < 2 ^ 32)
  | .otpProgrammed lost => decide (lost < 2 ^ 64)
  | .generateKey value => decide (value < 2 ^ 32)
  | .importKey value => decide (value < 2 ^ 32)
  | .clearKey value => decide (value < 2 ^ 32)
  | .grantKey value => decide (value < 2 ^ 32)
  | .keyOpDone => true
  | .challenge value => decide (value < 2 ^ 32)
  | .restoreDataWrite value => decide (value < 2 ^ 64)
  | .verify value => decide (value < 2 ^ 32)
  | .keysRestored => true
  | .counterFreeze value => decide (value < 2 ^ 32)
  | .counterUnfreeze value => decide (value < 2 ^ 32)
  | .counterClear value => decide (value < 2 ^ 32)
  | .counterWrite counter value => decide (counter < 128) && decide (value < 2 ^ 64)
  | .sckOverflow counter => decide (counter < 128)
  | .windowWrite value => decide (value < 2 ^ 32)
  | .clearPeak value => decide (value < 2 ^ 32)
  | .windowEnd => true
  | .statusCmd req => req.wf
  | .tempCmd req => req.wf
  | .dumpTriggerCmd req => req.wf
  | .clearBootCmd req => req.wf
  | .stepCmd req => req.wf
  | .powerOn board => board.wf
  | .pwrGoodFall => true
  | .pwrFail => true
  | .warmReset _ => true
  | .functionLevelReset => true
  | .bootStepTimeout step => decide (step < 32)
  | .millerWatchdog => true
  | .fatalError cls => decide (cls < 65536)
  | .brakeTrip sensors live => decide (sensors < 32) && decide (live < 32)
  | .thermTrip _ => true
  | .bucketRefill => true
  | .perstNRise => true
  | .hostReadCompletion r _ => r.wf
  | .blockStaged quern => decide (quern < 16)
  | .atomicopRequesterEnable _ => true

end Sys2Proof
end

