-- ==== Sys2Proof/Certificates/Slice0/Obligations.lean ====
section
/-! DEFINITION. The statements for the provers. -/

open Sys2Proof Sys2Proof.Machine

/-- A step with a command at the front of the queue is exec of that command on the state with the queue's rest. -/
def Obligations.StepRunsFront : Prop :=
  ∀ (s : State) (c : Instr) (rest : List Instr), s.pending = c :: rest → step s = exec c { s with pending := rest }

/-- On an empty queue a step neither faults nor refuses: an unpowered device stays as it is; a powered one lets time pass to the
next tick, or, while a boot runs that does not wait for perst_n, ends the running boot steps (the model's choice, log 1). -/
def Obligations.EmptyQueueStep : Prop :=
  ∀ (s : State), s.pending = [] →
    (s.boot.on = false → step s = .next s) ∧
    (s.boot.on = true → (s.boot.running = [] ∨ bootWaits s = true) → step s = .next (settle (tick s))) ∧
    (s.boot.on = true → s.boot.running ≠ [] → bootWaits s = false → step s = .next (settle (bootAdvance workDump s)))

/-- Every step answers a next state, whatever the state; the command in front is consumed and the rest of the queue stands. -/
def Obligations.EveryStepGoesOn : Prop :=
  ∀ (s : State), ∃ t, step s = .next t ∧ t.pending = s.pending.tail

/-- Every command of every form completes, from every state and with every operand: exec answers a next state, which keeps the queue as it
stood; nothing that is owed at a command's end is left owed, where the sparse contents are sound. -/
def Obligations.EveryCommandCompletes : Prop :=
  ∀ (i : Instr) (s : State), ∃ t, exec i s = .next t ∧ t.pending = s.pending ∧ (s.canon → t.canon ∧ t.calm)

/-- The sparse contents (memory, registers, Millpond, OTP) keep their canonical form, at every step from every state that has it. -/
def Obligations.StepKeepsCanonicalForm : Prop :=
  ∀ (s t : State), s.canon → step s = .next t → t.canon

/-- OTP words are programmed once: over every step from a sound state each generation word that is not all zeros keeps its value, and
a programming in progress still aims at an unprogrammed word. -/
def Obligations.StepKeepsOtpWords : Prop :=
  ∀ (s t : State), s.canon → s.otpFresh → step s = .next t →
    t.otpFresh ∧ ∀ k, s.otpAt k ≠ 0 → t.otpAt k = s.otpAt k

/-- Messages are never taken back: over every step the list of MSI-X messages sent grows at its end only, and free values drawn are
never drawn again. -/
def Obligations.StepKeepsMessages : Prop :=
  ∀ (s t : State), step s = .next t → s.msix.sent <+: t.msix.sent ∧ s.free ≤ t.free

/-- BAR4 keeps a size that the Resizable BAR capability offers. -/
def Obligations.StepKeepsBarSize : Prop :=
  ∀ (s t : State), s.barLegal → step s = .next t → t.barLegal

/-- The state after reset is sound: canonical, no OTP programming in progress, a legal BAR4 size, nothing owed, no command waiting. -/
def Obligations.ResetIsSound : Prop :=
  State.reset.canon ∧ State.reset.otpFresh ∧ State.reset.barLegal ∧ State.reset.calm ∧ State.reset.pending = []

/-- What a command ends with leaves a state that owes nothing as it is, and leaves none owing: no fatal error's dump, no device event, no
halt's message, no requested preempt_cols. -/
def Obligations.SettledStatesOweNothing : Prop :=
  ∀ s : State, (s.calm → settle s = s) ∧ (s.canon → (settle s).calm)

/-- Every step keeps that nothing is owed. -/
def Obligations.StepOwesNothing : Prop :=
  ∀ (s t : State), s.canon → s.calm → step s = .next t → t.calm

/-- NOP and FENCE, where they may start, end at once with OK and result 0, and change nothing else (02 R57, R58); where they may
not start yet (an earlier job is awaited, a delay, the slice does not run), nothing changes. -/
def Obligations.NopAndFenceEnd : Prop :=
  ∀ (s : State) (id : Nat), s.calm →
    ((startJob s id 1).isSome = true → exec (.nop id) s = .next (finishJob s id ⟨0, 0, 0⟩)) ∧
    ((startJob s id 2).isSome = true → exec (.fence id) s = .next (finishJob s id ⟨0, 0, 0⟩)) ∧
    (startJob s id 1 = none → exec (.nop id) s = .next s) ∧
    (startJob s id 2 = none → exec (.fence id) s = .next s)

/-- The outcome of a job of the table is fixed once: finishJob gives it to the job where it has none, and touches no other job; the
rest of the state stands. -/
def Obligations.OutcomeIsFixedOnce : Prop :=
  ∀ (s : State) (id : Nat) (o : Outc),
    (∀ k, k ≠ id → (finishJob s id o).job k = s.job k) ∧
    (∀ j, s.job id = some j → j.outc = none →
      (finishJob s id o).job id = some { j with outc := some o, started := true }) ∧
    (∀ j p, s.job id = some j → j.outc = some p → (finishJob s id o).job id = some j) ∧
    finishJob s id o = { s with fan := { s.fan with jobs := (finishJob s id o).fan.jobs } }

/-- QUERY (02 R61): it changes nothing but its own outcome, which is OK with the word that reports the target: bits [1:0] its state,
bits [47:32] its tasks not yet completed, saturating at 0xFFFF, every other bit 0. -/
def Obligations.QueryReportsItsTarget : Prop :=
  ∀ (s : State) (id : Nat) (j : Job), s.calm → startJob s id 4 = some j →
    ∃ w, exec (.query id) s = .next (finishJob s id ⟨0, 0, w⟩) ∧ w = w % 4 + w / 2 ^ 32 * 2 ^ 32 ∧
      (targetOf s j = none → w = 0) ∧
      ∀ t, targetOf s j = some t →
        (t.lastFetched = false → w % 4 = 3) ∧
        (t.lastFetched = true → t.started = true → w % 4 = 2) ∧
        (t.lastFetched = true → t.started = false → w % 4 = 1) ∧
        w / 2 ^ 32 = if tasksLeft s t ≤ 0xFFFF then tasksLeft s t else 0xFFFF

/-- ABORT (03 R98, R100, 02 R60): NOT_FOUND where no fetched and unreleased job of the target queue carries the tag; it waits for the
target's release where the target's point of no return is passed; else the target is ABORTED and so is the
ABORT, also where the target waits for a tailrace slot or for its flush read, since its release has not begun. -/
def Obligations.AbortHasThreeOutcomes : Prop :=
  ∀ (s : State) (id : Nat) (j : Job), startJob s id 3 = some j →
    (targetOf s j = none → s.calm → exec (.abort id) s = .next (finishJob s id ⟨0x22, 0, 0⟩)) ∧
    (∀ t, targetOf s j = some t → t.pnr = true → s.calm →
      exec (.abort id) s = .next (s.setJob id (fun k => { k with started := true, progress := t.id + 1 }))) ∧
    (∀ t, targetOf s j = some t → t.pnr = false →
      exec (.abort id) s = .next (settle (finishJob (abortTarget s t) id ⟨0x20, 0, 0⟩)))

/-- An opcode that runs as tasks of its engine: where it may start, its number of tasks is fixed and it counts as started; nothing
else changes. One task: COPY, FILL, COPY_LIST (16 R516), CONTEXT_RESTORE (12 R434); COMPRESS of some bytes and DECOMPRESS of 16 bytes or
more, one task in PACKED form and one for each slot in SLOTTED form (11 R398, R400, R403); DIGEST, DIGEST_KEYED and CONTEXT_SAVE whose operands meet 12 R424, R427
and R432; INDEX_LOOKUP of some keys with room for its records (07 R258). -/
def Obligations.TaskedOpcodesStart : Prop :=
  ∀ (s : State) (id : Nat) (j : Job), s.calm →
    (startJob s id 0x0200 = some j → exec (.copy id) s = .next (setTasks s id 1)) ∧
    (startJob s id 0x0201 = some j → exec (.fill id) s = .next (setTasks s id 1)) ∧
    (startJob s id 0x0202 = some j → exec (.copyList id) s = .next (setTasks s id 1)) ∧
    (startJob s id 0x0403 = some j → exec (.contextRestore id) s = .next (setTasks s id 1)) ∧
    (startJob s id 0x0300 = some j → eLen0 j.first ≠ 0 → qSlotted j = false →
      exec (.compress id) s = .next (setTasks s id 1)) ∧
    (startJob s id 0x0300 = some j → eLen0 j.first ≠ 0 → qSlotted j = true → qCount j * qSlot j ≤ eLen1 j.first →
      exec (.compress id) s = .next (setTasks s id (qCount j))) ∧
    (startJob s id 0x0301 = some j → 16 ≤ eLen0 j.first →
      exec (.decompress id) s = .next (setTasks s id (if qSlotted j then qCount j else 1))) ∧
    (startJob s id 0x0400 = some j → (dgCont j = true → (ctxOfHandle s j.slice (dgHandle j)).isSome = true) →
      (dgHold j = false → algDigest (dgAlg j) ≤ eLen1 j.first) → exec (.digest id) s = .next (setTasks s id 1)) ∧
    (startJob s id 0x0401 = some j → (dgCont j = true → (ctxOfHandle s j.slice (dgHandle j)).isSome = true) →
      (dgHold j = false → algDigest (dgAlg j) ≤ eLen1 j.first) → exec (.digestKeyed id) s = .next (setTasks s id 1)) ∧
    (∀ x, startJob s id 0x0402 = some j → ctxOfHandle s j.slice (eParam0 j.first % 65536) = some x →
      (if x.2.keyed.isSome then 424 else 416) ≤ eLen1 j.first → exec (.contextSave id) s = .next (setTasks s id 1)) ∧
    (startJob s id 0x0110 = some j → eParam0 j.first ≠ 0 →
      lookupLen (eParam0 j.first) (fetchCols j.entries).length ≤ eLen1 j.first →
      exec (.indexLookup id) s = .next (setTasks s id 1))

/-- Operands that end such a job at its start: no input bytes end it with the empty tap, if any, recorded; a buffer too short ends it with LENGTH_SHORT and the length it needs, a handle that
names no held context of the slice with BAD_HEADER and the handle (a digest that continues a held context and has no room for its digest
frees the context and its handle ends, 12 R428), no keys with OK and the epoch read under. -/
def Obligations.ShortOperandsEndTheJob : Prop :=
  ∀ (s : State) (id : Nat) (j : Job), s.calm →
    (startJob s id 0x0300 = some j → eLen0 j.first = 0 → exec (.compress id) s = .next (settle (emptyTap s j))) ∧
    (startJob s id 0x0301 = some j → eLen0 j.first = 0 → exec (.decompress id) s = .next (settle (emptyTap s j))) ∧
    (startJob s id 0x0301 = some j → 0 < eLen0 j.first → eLen0 j.first < 16 →
      exec (.decompress id) s = .next (finishJob s id ⟨stShort, 0, 16⟩)) ∧
    (startJob s id 0x0300 = some j → 0 < eLen0 j.first → qSlotted j = true → eLen1 j.first < qCount j * qSlot j →
      exec (.compress id) s = .next (finishJob s id ⟨stShort, 1, qCount j * qSlot j⟩)) ∧
    (startJob s id 0x0400 = some j → dgCont j = true → ctxOfHandle s j.slice (dgHandle j) = none →
      exec (.digest id) s = .next (finishJob s id ⟨stBadHeader, 0, dgHandle j⟩)) ∧
    (startJob s id 0x0401 = some j → dgCont j = false → dgHold j = false → eLen1 j.first < algDigest (dgAlg j) →
      exec (.digestKeyed id) s = .next (finishJob s id ⟨stShort, 1, algDigest (dgAlg j)⟩)) ∧
    (∀ n c, startJob s id 0x0400 = some j → dgCont j = true → ctxOfHandle s j.slice (dgHandle j) = some (n, c) → c.job = none →
      dgHold j = false → eLen1 j.first < algDigest (dgAlg j) →
      exec (.digest id) s = .next (settle (finishJob (s.setCtx n none) id ⟨stShort, 1, algDigest (dgAlg j)⟩))) ∧
    (startJob s id 0x0402 = some j → ctxOfHandle s j.slice (eParam0 j.first % 65536) = none →
      exec (.contextSave id) s = .next (finishJob s id ⟨stBadHeader, 0, eParam0 j.first % 65536⟩)) ∧
    (startJob s id 0x0110 = some j → eParam0 j.first = 0 →
      exec (.indexLookup id) s = .next (finishJob s id ⟨0, 0, j.epoch⟩))

/-- SNAPSHOT_OPEN (09 R324): it registers the pair of the slice and the latest published epoch at handover and ends with OK and that
epoch; where all 4,096 registrations are in use it ends with OUTPUT_FULL and registers nothing. -/
def Obligations.SnapshotOpenRegisters : Prop :=
  ∀ (s : State) (id : Nat) (j : Job), s.calm → startJob s id 0x0602 = some j →
    (4096 ≤ s.mpd.snaps.length → exec (.snapshotOpen id) s = .next (finishJob s id ⟨0x31, 0, 0⟩)) ∧
    (s.mpd.snaps.length < 4096 → ∃ t, exec (.snapshotOpen id) s = .next t ∧
      t.mpd.snaps = s.mpd.snaps ++ [(j.slice, j.epoch)] ∧
      t.job id = some { j with pnr := true, outc := some ⟨0, 0, j.epoch⟩, started := true } ∧
      t = { s with regs := t.regs, mpd := { s.mpd with snaps := t.mpd.snaps }, fan := t.fan })

/-- SNAPSHOT_CLOSE (09 R325): it removes one registration of the pair and ends with OK, result 1; where the slice holds no such
registration it ends with OK, result 0, and changes nothing else. -/
def Obligations.SnapshotCloseRemovesOne : Prop :=
  ∀ (s : State) (id : Nat) (j : Job), s.calm → startJob s id 0x0603 = some j →
    ((j.slice, j.hdr.epoch) ∉ s.mpd.snaps → exec (.snapshotClose id) s = .next (finishJob s id ⟨0, 0, 0⟩)) ∧
    ((j.slice, j.hdr.epoch) ∈ s.mpd.snaps → ∃ t, exec (.snapshotClose id) s = .next t ∧
      t.mpd.snaps.length + 1 = s.mpd.snaps.length ∧
      (∀ p, p ≠ (j.slice, j.hdr.epoch) → t.mpd.snaps.count p = s.mpd.snaps.count p) ∧
      t.job id = some { j with pnr := true, outc := some ⟨0, 0, 1⟩, started := true } ∧
      t = { s with regs := t.regs, mpd := { s.mpd with snaps := t.mpd.snaps }, fan := t.fan })

/-- The low-water epoch (09 R327): an update never lowers MPD_LOW_WATER, and where it stands at or below the published epoch it stays
so. -/
def Obligations.LowWaterNeverFalls : Prop :=
  ∀ (s : State), s.canon →
    s.reg .mpdLowWater 0 ≤ (updateLow s).reg .mpdLowWater 0 ∧
    (s.reg .mpdLowWater 0 ≤ s.reg .mpdEpoch 0 → (updateLow s).reg .mpdLowWater 0 ≤ (updateLow s).reg .mpdEpoch 0) ∧
    (∀ p ∈ s.mpd.snaps, s.reg .mpdLowWater 0 ≤ p.2 → (updateLow s).reg .mpdLowWater 0 ≤ p.2)

/-- BEGIN and COMMIT (09 R306, R309). BEGIN ends at once with OK and S_T, or with SNAPSHOT_EXPIRED and the low-water epoch where its
transaction had failed at handover. COMMIT acts once every member has released: a failed transaction ends in an ABORT record and the
COMMIT with ABORTED; else the transaction joins the commit unit's queue. Under read-only replay it ends with VOLUME_OFFLINE, the
transaction with it, and no record is made (09 R346). -/
def Obligations.TransactionOpcodesAct : Prop :=
  ∀ (s : State) (id n : Nat) (j : Job) (t : Txn), s.calm → j.txn = some n → s.txn n = some t → t.num = n →
    (startJob s id 0x0600 = some j → t.failed = false → exec (.begin id) s = .next (finishJob s id ⟨0, 0, j.epoch⟩)) ∧
    (startJob s id 0x0600 = some j → t.failed = true → exec (.begin id) s = .next (finishJob s id ⟨0x71, 0, j.sumHi⟩)) ∧
    (startJob s id 0x0601 = some j → t.members ≠ [] → exec (.commit id) s = .next s) ∧
    (startJob s id 0x0601 = some j → t.members = [] → s.readOnly = true →
      exec (.commit id) s = .next (settle (finishJob (s.setTxn n (fun x => { x with state := .aborted })) id ⟨stOffline, 0, 0⟩))) ∧
    (startJob s id 0x0601 = some j → t.members = [] → s.readOnly = false → s.flag F.mpdStatus_replay_done 0 = true → t.failed = true →
      exec (.commit id) s = .next (settle (finishJob (abortTxn s n j.hdr.tag) id ⟨0x20, 0, 0⟩))) ∧
    (startJob s id 0x0601 = some j → t.members = [] → s.readOnly = false → s.flag F.mpdStatus_replay_done 0 = true → t.failed = false →
      exec (.commit id) s = .next { s with
        mpd := { s.mpd with ready := s.mpd.ready ++ [n],
                            txns := s.mpd.txns.map (fun x => if x.num = n then { x with state := .ready } else x) },
        fan := { s.fan with jobs := s.fan.jobs.map (fun x => if x.id = id then { x with started := true } else x) } })

/-- READ, WRITE and TRIM (10 R355 to R365, 09 R342, R346). On an unavailable volume they end with VOLUME_OFFLINE, where there is nothing
to do with OK, where the buffer is too short with LENGTH_SHORT. Otherwise they become one task of the storage ports, once no earlier
overlapping job holds them, and, for the WRITE or TRIM of a RECORD volume, once replay has ended; under read-only replay such a one
ends with VOLUME_OFFLINE. Until then they wait. -/
def Obligations.VolumeJobsStart : Prop :=
  ∀ (s : State) (id op : Nat) (i : Instr) (j : Job) (e : VolEnt), s.calm → s.vol (volOf j) = some e →
    (op, i) ∈ [(0x0500, Instr.read id), (0x0501, .write id), (0x0503, .trim id)] → startJob s id op = some j →
    (volStart s j e = none → (journals s j = true → s.readOnly = false ∧ s.flag F.mpdStatus_replay_done 0 = true) →
      mustFollow s j = false → exec i s = .next (setTasks s id 1)) ∧
    (∀ o, volStart s j e = some o → mustFollow s j = false → exec i s = .next (finishJob s id o)) ∧
    (volStart s j e = none → journals s j = true → s.readOnly = true → exec i s = .next (finishJob s id ⟨stOffline, 0, 0⟩)) ∧
    (volStart s j e = none → journals s j = true → s.readOnly = false → s.flag F.mpdStatus_replay_done 0 = false →
      exec i s = .next s) ∧
    (volStart s j e = none → (journals s j = true → s.readOnly = false) → mustFollow s j = true → exec i s = .next s) ∧
    (volStart s j e =
      if volLost s e = true then some ⟨stOffline, unavailable s e, lbaOf j⟩
      else if countOfJob j = 0 then some ⟨0, 0, 0⟩
      else if op ≠ 0x0503 ∧ eLen1 j.first < countOfJob j * e.bytes then some ⟨stShort, 1, countOfJob j * e.bytes⟩
      else none)

/-- FLUSH (10 R361): on a TABLE volume it ends at once with OK, result 0; on a RECORD volume it samples the latest published epoch P and
waits; the flushes that wait end, with OK and the epoch each sampled, where the flushed epoch of their volume has reached it. -/
def Obligations.FlushSamplesTheEpoch : Prop :=
  ∀ (s : State) (id : Nat) (j : Job) (e : VolEnt), s.calm → startJob s id 0x0502 = some j → s.vol (volOf j) = some e →
    volLost s e = false →
    (e.table = true → exec (.flush id) s = .next (finishJob s id ⟨0, 0, 0⟩)) ∧
    (e.table = false → exec (.flush id) s =
      .next (wakeFlushes (s.setJob id (fun k => { k with started := true, progress := s.reg .mpdEpoch 0 + 1 }))))

/-- VOLUME_CREATE, VOLUME_DELETE, SANITISE and FORMAT (10 R372, R374, R375, R376): a port that is down or too small refuses a
VOLUME_CREATE with VOLUME_OFFLINE and the mask of such ports; a VOLUME_CREATE whose volume, key slot or owner another command has taken
since its handover ends with VOLUME_OFFLINE too (the model's choice, log 66); the others act once the jobs that they wait for have released. -/
def Obligations.VolumeOpcodesAct : Prop :=
  ∀ (s : State) (id : Nat) (j : Job),
    (startJob s id 0x0702 = some j → createStands s j = false → s.calm → exec (.volumeCreate id) s =
      .next (finishJob s id ⟨stOffline, 0, 0⟩)) ∧
    (startJob s id 0x0702 = some j → createStands s j = true → createRefusals s j = [] → exec (.volumeCreate id) s =
      .next (settle (okJob (setVol (createSpaces s j) (eParam0 j.first % 256) (some (createEnt s j))) id 0))) ∧
    (startJob s id 0x0702 = some j → createStands s j = true → createRefusals s j ≠ [] → s.calm → exec (.volumeCreate id) s =
      .next (finishJob s id ⟨stOffline, (createRefusals s j).foldl (fun m x => m + 2 ^ x) 0, 0⟩)) ∧
    (startJob s id 0x0703 = some j → opReady s j = true → exec (.volumeDelete id) s =
      .next (settle (truncate (okJob (dropVolume s (volOf j)) id 0)))) ∧
    (∀ e, startJob s id 0x0704 = some j → opReady s j = true → s.vol (volOf j) = some e → exec (.sanitise id) s =
      .next (settle (phaseTwo (freshKey (s.setJob id (fun k => { k with started := true })) e.keySlot) (volOf j) e))) ∧
    (∀ e, startJob s id 0x0705 = some j → opReady s j = true → s.vol (volOf j) = some e → exec (.format id) s =
      .next (settle (phaseTwo (s.setJob id (fun k => { k with started := true })) (volOf j)
        (formatEnt e (bitAt (eParam0 j.first) 8)))))

/-- SLICE_CREATE and SLICE_RESET (17 R540, R541). SLICE_CREATE writes the slice's registers from its FIRST entry, creates a queue for
each follower, makes the slice ACTIVE and ends with OK and the slice's generation. SLICE_RESET carries out its steps 1 to 5; it waits
while another reset of the slice runs or a tag of the new generation is still held; a slice that is ABSENT by then needs nothing. -/
def Obligations.SliceOpcodesAct : Prop :=
  ∀ (s : State) (id n : Nat) (j : Job), n = eParam0 j.first / 2 ^ 26 →
    (startJob s id 0x0700 = some j → ∀ u, u = (j.entries.drop 1).foldl (fun t f => createQueue t n f) (sliceConfig s n j.first) →
      exec (.sliceCreate id) s = .next (settle (okJob ((u.setFld F.slcCfg_state n 1).setJob id
        (fun k => { k with pnr := true })) id (u.fld F.slcGen_generation n)))) ∧
    (startJob s id 0x0701 = some j → resetWaits s n = true → s.calm → exec (.sliceReset id) s = .next s) ∧
    (startJob s id 0x0701 = some j → resetWaits s n = false → s.fld F.slcCfg_state n = 0 → s.calm →
      exec (.sliceReset id) s = .next (finishJob s id ⟨0, 0, 2 ^ 64 - 1⟩)) ∧
    (startJob s id 0x0701 = some j → resetWaits s n = false → s.fld F.slcCfg_state n ≠ 0 →
      exec (.sliceReset id) s = .next (settle (resetBegin s id n (bitAt (eParam0 j.first) 25) (bitAt (eParam0 j.first) 24))))

/-- TLB_INVAL_ADDR, TLB_INVAL_TAG and TLB_INVAL_ALL act (13 R461, R462): one of no pages ends at once with OK and result 0, and purges
nothing; the others purge the caches, leave all else, and wait, past their point of no return, for the accesses in flight. -/
def Obligations.InvalidationsAct : Prop :=
  ∀ (s : State) (id : Nat) (j : Job), s.calm →
    (startJob s id 0x0800 = some j → eLen0 j.first = 0 → exec (.tlbInvalAddr id) s = .next (finishJob s id ⟨0, 0, 0⟩)) ∧
    (startJob s id 0x0800 = some j → eLen0 j.first ≠ 0 → exec (.tlbInvalAddr id) s =
      .next ((xltPurge s (invalOf j.first 0x0800)).setJob id (fun k => { k with started := true, pnr := true }))) ∧
    (startJob s id 0x0801 = some j → exec (.tlbInvalTag id) s =
      .next ((xltPurge s (invalOf j.first 0x0801)).setJob id (fun k => { k with started := true, pnr := true }))) ∧
    (startJob s id 0x0802 = some j → exec (.tlbInvalAll id) s =
      .next ((xltPurge s (invalOf j.first 0x0802)).setJob id (fun k => { k with started := true, pnr := true })))

/-- What an invalidation leaves in no TLB and no walker cache (13 R461), for the translation caches' entries x (leaves and pointers of
a stage) and combined entries c; an invalidation of no pages purges nothing and ends at once with OK. -/
def Obligations.InvalidationPurges : Prop :=
  ∀ (s : State) (q : InvalReq) (t : State), t = xltPurge s q →
    (q.op = 2 → (∀ p, (p ∈ t.xlt.l2 ∨ p ∈ t.xlt.walker) → p.2 = []) ∧ (∀ p, (p ∈ t.xlt.itlb ∨ p ∈ t.xlt.dtlb) → p.2 = [])) ∧
    (q.op = 1 →
      (∀ p, (p ∈ t.xlt.l2 ∨ p ∈ t.xlt.walker) → ∀ x ∈ p.2, x.slice = q.slice →
        (x.stage2 = true → q.stage2 = false) ∧ (x.stage2 = false → q.stage1 = false)) ∧
      (∀ p, (p ∈ t.xlt.itlb ∨ p ∈ t.xlt.dtlb) → ∀ c ∈ p.2, c.slice ≠ q.slice)) ∧
    (q.op = 0 → 0 < q.pages → q.stage2 = false →
      (∀ p, (p ∈ t.xlt.l2 ∨ p ∈ t.xlt.walker) → ∀ x ∈ p.2, x.slice = q.slice → x.stage2 = false →
        rangesMeet (x.page * 2 ^ levelShift x.level) (2 ^ levelShift x.level) q.addr (q.pages * 4096) = false) ∧
      (∀ p, (p ∈ t.xlt.itlb ∨ p ∈ t.xlt.dtlb) → ∀ c ∈ p.2, c.slice = q.slice →
        rangesMeet (c.page * 2 ^ levelShift c.level) (2 ^ levelShift c.level) q.addr (q.pages * 4096) = false)) ∧
    (q.op = 0 → 0 < q.pages → q.stage2 = true →
      (∀ p, (p ∈ t.xlt.l2 ∨ p ∈ t.xlt.walker) → ∀ x ∈ p.2, x.slice = q.slice →
        (x.stage2 = true →
          rangesMeet (x.page * 2 ^ levelShift x.level) (2 ^ levelShift x.level) q.addr (q.pages * 4096) = false) ∧
        (x.stage2 = false → entPage x.entry = true)) ∧
      (∀ p, (p ∈ t.xlt.itlb ∨ p ∈ t.xlt.dtlb) → ∀ c ∈ p.2, c.slice ≠ q.slice)) ∧
    (q.op = 0 → q.pages = 0 → t = s) ∧
    (∀ id j, s.calm → startJob s id 0x0800 = some j → eLen0 j.first = 0 → exec (.tlbInvalAddr id) s = .next (finishJob s id ⟨0, 0, 0⟩))

/-- DUMP_READ (18 R570): LENGTH_SHORT where the buffer is shorter than 65,536 bytes, OK and 0 where no dump is held, OK and the sequence
in result [63:32] where the offset lies at or beyond the image; else the bytes of the image from the offset, as many as fit, and a
release, once the last of them is copied, where it is asked for. -/
def Obligations.DumpReadAnswers : Prop :=
  ∀ (s : State) (id : Nat) (j : Job), startJob s id 0x0706 = some j →
    (eLen0 j.first < 65536 → s.calm → exec (.dumpRead id) s = .next (finishJob s id ⟨stShort, 0, 65536⟩)) ∧
    (65536 ≤ eLen0 j.first → dumpHeld s = false → s.calm → exec (.dumpRead id) s = .next (finishJob s id ⟨0, 0, 0⟩)) ∧
    (∀ size, size = (if dumpValid s then 268500992 else 65536) → 65536 ≤ eLen0 j.first → dumpHeld s = true →
      (size ≤ eParam1 j.first → s.calm →
        exec (.dumpRead id) s = .next (finishJob s id ⟨0, 0, dumpSequence s % 2 ^ 32 * 2 ^ 32⟩)) ∧
      (∀ n s1, eParam1 j.first < size → n = Nat.min (eLen0 j.first) (size - eParam1 j.first) →
        (dumpBytes (j.req .fantail) (eParam1 j.first) n >>= fun b => jobWrite id (j.req .fantail) (eAddr0 j.first) b).exec s = (.ok (), s1) →
        (bitAt (eParam0 j.first) 0 = true → eParam1 j.first + n = size → exec (.dumpRead id) s =
          .next (settle (okJob ((setDumpFlags s1 (dumpFlags s1 % 4)).setJob id (fun k => { k with pnr := true })) id
            (dumpSequence s % 2 ^ 32 * 2 ^ 32 + n)))) ∧
        ((bitAt (eParam0 j.first) 0 = false ∨ eParam1 j.first + n ≠ size) → exec (.dumpRead id) s =
          .next (settle (okJob s1 id (dumpSequence s % 2 ^ 32 * 2 ^ 32 + n))))))

/-- PIPE_RUN, PIPE_ARGS and ROW_FETCH (05 R161, R163, R658, 07 R260). A handed-over PIPE_RUN has its container loaded and checked
where that is due: one that fails takes that error as its outcome, and one that passes is a pipeline job; one whose program holds no
TAPPEND has no part in its queue's transaction (09 R307). Once it may start, with its
container loaded, it takes its bindings and has param0 tasks, or ends where there are none; a program that appends runs in a
transaction, and ends VOLUME_OFFLINE in a read-only device. A PIPE_ARGS gives the job the bindings of its chain's entries. A ROW_FETCH
does the lookups of the INDEX_LOOKUP's running task. -/
def Obligations.PipelineOpcodesAct : Prop :=
  ∀ (s : State) (id : Nat) (j : Job),
    (∀ e s1 u, s.job id = some j → loadDue s j = true → (loadProgram j).exec s = (.error e, s1) →
      u = fixJob (if holdsAppend s j then s1 else leaveTxn s1 j) j.id e.toOutc → startJob u id 0x0100 = none → exec (.pipeRun id) s = .next (settle u)) ∧
    (∀ key p s1 u, s.job id = some j → loadDue s j = true → (loadProgram j).exec s = (.ok (key, p), s1) →
      u = (if p.appends then s1 else leaveTxn s1 j).setJob j.id (fun k => { k with pipe := some (pipeJobOf k key p) }) →
      startJob u id 0x0100 = none → exec (.pipeRun id) s = .next (settle u)) ∧
    (∀ u k pj, s.job id = some j → u = (if loadDue s j then pipeLoad s j else s) → startJob u id 0x0100 = some k → k.pipe = some pj →
      (pj.prog.appends = true → u.readOnly = true →
        exec (.pipeRun id) s = .next (settle (finishJob u k.id ⟨0x80, 0, 0⟩))) ∧
      (pj.prog.appends = false ∨ (u.readOnly = false ∧ u.flag F.mpdStatus_replay_done 0 = true) →
        ∀ t, t = setTasks ((if pj.prog.appends && k.txn.isNone then ownTxn u k else u).setJob k.id
          (fun x => { x with pipe := x.pipe.map (fun y => { y with binds := bindsOf x.entries }) })) k.id (eParam0 k.first) →
        exec (.pipeRun id) s = .next (settle (if eParam0 k.first = 0 then jobEnd t k.id else t)))) ∧
    (s.calm → exec (.pipeArgs id) s = .next (s.setJob id
      (fun k => { k with pipe := k.pipe.map (fun pj => { pj with binds := bindsOf k.entries }) }))) ∧
    (∀ n r, stoneOf s id 0 = some (n, r) → s.job id = some j → j.hdr.op = 0x0110 → r.next < r.total → runStops s r = false →
      exec (.rowFetch id) s = .next (settle (stoneOp s id (do
        lookupOps (lookupOf j n)
        upd (fun s => s.setRun n (fun r => { r with next := r.total }))))))

/-- A pipeline instruction issues (05 R156, R157, R173, R176, R191): where its stage may issue it, its issue is counted and it acts; then
the next instruction is in turn, or after the END the batch is passed on; an error ends its step and fails its job, its event is
counted, and STN_FAULT records it where it holds none. A stage without a batch first takes the one that waits in the link behind it, and where that batch has a
selected row the instruction is the first of its step. -/
def Obligations.InstructionsIssue : Prop :=
  ∀ (s : State) (n k : Nat) (r : Run) (c : Ctx) (f : Insn), ∀ x ∈ insnRows,
    (StageIssues s n k r c →
      (∀ s1, x.2.2 c f (issued s c) = .ok () s1 →
        exec (x.1 n k f) s = .next (settle (afterInsn s1 n k x.2.1 c f (loopsAt r k c)))) ∧
      (∀ e s1, x.2.2 c f (issued s c) = .error e s1 →
        exec (x.1 n k f) s = .next (settle (stepFault (recordStnFault (countFault s1 c e) c e) c e)))) ∧
    (∀ c0 b u, (s.stone n).run = some r → mayIssue s n r (r.stage k) = true → 1 ≤ k → k ≤ 6 → (r.stage k).batch = none → (r.stage k).link = some b →
      ctxOf s n r k 1 0 = some c0 → u = takeBatch s c0 k b → ((((c0.fresh u).batch.map (·.sel)).getD []).any (· == true)) = true →
      c = { c0.fresh u with num := (stageTurn (c0.fresh u) Stage.empty).1 } → ∀ s1, x.2.2 c f (issued u c) = .ok () s1 →
      exec (x.1 n k f) s = .next (settle (afterInsn s1 n k x.2.1 c f (stageTurn (c0.fresh u) Stage.empty).2)))

/-- The sequencer (05 R176, Table 5.12): after the END the part is over; a BR that is taken skips imm instructions forward, a LOOP opens
a body of imm trips, an ENDLOOP goes back while trips are left and else goes on; every other instruction is followed by the next. -/
def Obligations.SequencerGoesOn : Prop :=
  ∀ (s : State) (c : Ctx) (f : Insn) (pc start m : Nat) (loops : List (Nat × Nat)),
    seqNext s c 0x01 f pc loops = none ∧
    (f.mod = 0 → seqNext s c 0x03 f pc loops = some (pc + 1 + f.imm, loops)) ∧
    (∀ v, f.mod = 1 → scalarRaw s c f.ra = some v → v ≠ 0 → seqNext s c 0x03 f pc loops = some (pc + 1 + f.imm, loops)) ∧
    (∀ v, f.mod = 1 → scalarRaw s c f.ra = some v → v = 0 → seqNext s c 0x03 f pc loops = some (pc + 1, loops)) ∧
    (∀ v, f.mod = 2 → scalarRaw s c f.ra = some v → v = 0 → seqNext s c 0x03 f pc loops = some (pc + 1 + f.imm, loops)) ∧
    (∀ v, f.mod = 2 → scalarRaw s c f.ra = some v → v ≠ 0 → seqNext s c 0x03 f pc loops = some (pc + 1, loops)) ∧
    (f.mod ≠ 0 → scalarRaw s c f.ra = none → seqNext s c 0x03 f pc loops = some (pc + 1, loops)) ∧
    seqNext s c 0x04 f pc loops = some (pc + 1, (pc + 1, f.imm) :: loops) ∧
    (1 < m → seqNext s c 0x05 f pc ((start, m) :: loops) = some (start, (start, m - 1) :: loops)) ∧
    (m ≤ 1 → seqNext s c 0x05 f pc ((start, m) :: loops) = some (pc + 1, loops)) ∧
    (∀ op, op ≠ 1 → op ≠ 3 → op ≠ 4 → op ≠ 5 → seqNext s c op f pc loops = some (pc + 1, loops))

/-- MAND, MOR and MNOT (06 R219): in a stage that may issue them they complete, each writing M(rd), and M(rd + 1) in pair form, and
nothing else but counters and the sequencer. Ta and Ua are the operands' TRUE and UNKNOWN bits at a row, an UNKNOWN bit beside a TRUE
one counting as 0; the truth written at a row is that of Table 6.6 in pair form, and bitwise else. -/
def Obligations.MaskLogic : Prop :=
  ∀ (s : State) (n k : Nat) (r : Run) (c : Ctx) (f : Insn), StageIssues s n k r c → ∀ (u : State), u = issued s c →
    ∃ gAnd gOr gNot : Nat → Option Bool,
      exec (.mand n k f) s = .next (settle (afterInsn (truthWritten u c f gAnd) n k 0x24 c f (loopsAt r k c))) ∧
      exec (.mor n k f) s = .next (settle (afterInsn (truthWritten u c f gOr) n k 0x25 c f (loopsAt r k c))) ∧
      exec (.mnot n k f) s = .next (settle (afterInsn (truthWritten u c f gNot) n k 0x26 c f (loopsAt r k c))) ∧
      ∀ row ta tb ua ub, ta = maskBit u c f.ra row → tb = maskBit u c f.rb row →
        ua = (maskBit u c (f.ra + 1) row && !ta) → ub = (maskBit u c (f.rb + 1) row && !tb) →
        (8 ≤ f.mod →
          ((gAnd row == some true) = (ta && tb)) ∧ ((gAnd row == none) = (!(ta && tb) && (ta || ua) && (tb || ub))) ∧
          ((gOr row == some true) = (ta || tb)) ∧ ((gOr row == none) = (!(ta || tb) && (ua || ub))) ∧
          ((gNot row == some true) = (!ta && !ua)) ∧ ((gNot row == none) = (!ta && ua))) ∧
        (f.mod < 8 →
          ((gAnd row == some true) = (ta && tb)) ∧ ((gOr row == some true) = (ta || tb)) ∧ ((gNot row == some true) = !ta))

/-- CMP, INSET, ISNULL and SEL (06 R214, R215, R217, R218, R220): in a stage that may issue them, and for CMP and INSET on operands of
types that R214 compares, they complete; CMP, INSET and ISNULL write M(rd), SEL the batch's selection. A comparison with a NULL is
UNKNOWN, and no truth of ISNULL is. -/
def Obligations.PredicatesComplete : Prop :=
  ∀ (s : State) (n k : Nat) (r : Run) (c : Ctx) (f : Insn), StageIssues s n k r c → ∀ (u : State), u = issued s c →
    ∀ (a b : Src), a = source u c f.ak f.ra f.imm → b = source u c f.bk f.rb f.imm →
    (comparable a.tag.typ b.tag.typ = true → exec (.cmp n k f) s =
      .next (settle (afterInsn (truthWritten u c f (cmpAt f.mod a b)) n k 0x20 c f (loopsAt r k c)))) ∧
    (∀ row, a.raw row = none ∨ b.raw row = none → cmpAt f.mod a b row = none) ∧
    (∀ ks, ks = (c.pj.prog.pool.drop f.imm).take f.scale → (∀ x ∈ ks, comparable a.tag.typ x.tag.typ = true) →
      exec (.inset n k f) s = .next (settle (afterInsn (truthWritten u c f (insetAt c a ks)) n k 0x22 c f (loopsAt r k c)))) ∧
    exec (.isnull n k f) s = .next (settle (afterInsn (truthWritten u c { f with mod := f.mod % 8 }
      (fun row => some ((colRaw u c f.ra row).isNone == (f.mod == 0)))) n k 0x23 c f (loopsAt r k c))) ∧
    (∀ x, c.batch = some x → ∃ sel u1, CountsOnly (setSel u c sel) u1 ∧ sel.length = x.rows ∧
      (∀ row, row < x.rows → sel[row]? = some (if active u c f row then maskBit u c f.ra row else x.sel.getD row false)) ∧
      exec (.sel n k f) s = .next (settle (afterInsn u1 n k 0x27 c f (loopsAt r k c))))

/-- The rounding rule (08 R270): q and r are the truncated quotient and its remainder; each mode moves q by one, away from 0 or to
its side, exactly where the rule says, and UNNECESSARY fails on a remainder. -/
def Obligations.RoundingModes : Prop :=
  ∀ (c : Int) (d : Nat), 0 < d → ∀ q r sgn : Int, q = c.tdiv d → r = c.tmod d → sgn = (if 0 < c then 1 else -1) →
    roundDiv 0 c d = some (if (d : Int) < 2 * r.natAbs ∨ (2 * (r.natAbs : Int) = d ∧ q % 2 = 1) then q + sgn else q) ∧
    roundDiv 1 c d = some (if (d : Int) ≤ 2 * r.natAbs then q + sgn else q) ∧
    roundDiv 2 c d = some q ∧
    roundDiv 3 c d = some (if r < 0 then q - 1 else q) ∧
    roundDiv 4 c d = some (if 0 < r then q + 1 else q) ∧
    roundDiv 5 c d = (if r = 0 then some q else none)

/-- What each MOVS and SALU writes (05 Table 5.12, R657), whatever the stage holds: it completes, and touches nothing but its
scalar (or pair), counters and the sequencer. -/
def Obligations.ScalarInstructions : Prop :=
  ∀ (s : State) (n k : Nat) (r : Run) (c : Ctx) (f : Insn), StageIssues s n k r c → ∀ (u : State), u = issued s c →
    ∀ b : Src, b = source u c f.bk f.rb f.imm →
    (∀ t, t = (match f.mod with
        | 0 => putScalar u c f.rd b.tag (b.raw 0)
        | 1 => putScalar u c f.rd ⟨tUint64, 0⟩ (some c.partn)
        | 2 => putScalar u c f.rd ⟨tUint64, 0⟩ (some c.p.rows)
        | 3 => putScalar u c f.rd ⟨tUint64, 0⟩ (some c.p.outIndex)
        | 4 => putScalar u c f.rd ⟨tUint64, 0⟩ (some ((c.batch.map (·.ord)).getD 0))
        | 5 => putScalar u c f.rd ⟨tUint64, 0⟩ (some c.rows)
        | 6 => putScalar u c f.rd ⟨tUint64, 0⟩ (some c.epoch)
        | _ => putScalar u c f.rd ⟨tUint64, 0⟩ (some ((c.batch.map (fun b => ((b.sel.take b.rows).filter id).length)).getD 0))) →
      exec (.movs n k f) s = .next (settle (afterInsn t n k 0x06 c f (loopsAt r k c)))) ∧
    (∀ x, x = scalar u c f.ra → x.val = none ∨ b.raw 0 = none →
      exec (.salu n k f) s = .next (settle (afterInsn (putScalar u c f.rd x.tag none) n k 0x07 c f (loopsAt r k c)))) ∧
    (∀ x p q v, x = scalar u c f.ra → x.val = some p → b.raw 0 = some q → p < 2 ^ 64 → q < 2 ^ 64 →
      v = (match f.mod with
        | 0 => (p + q) % 2 ^ 64
        | 1 => (p + (2 ^ 64 - q)) % 2 ^ 64
        | 2 => (p * q) % 2 ^ 64
        | 3 => p &&& q
        | 4 => p ||| q
        | 5 => if q < 64 then (p * 2 ^ q) % 2 ^ 64 else 0
        | _ => if x.tag.typ = tInt64 ∧ 2 ^ 63 ≤ p then (if q < 64 then p / 2 ^ q + (2 ^ 64 - 2 ^ (64 - q)) else 2 ^ 64 - 1)
               else (if q < 64 then p / 2 ^ q else 0)) →
      exec (.salu n k f) s = .next (settle (afterInsn (putScalar u c f.rd x.tag (some v)) n k 0x07 c f (loopsAt r k c))))

/-- ADD, SUB, MUL, DIV, REM, MIN and MAX (08 R266 to R268, R272): on operand types that load check 10 admits, and where no active row
faults, each completes and writes its result to C(rd) at the active rows, and nothing else but counters and the sequencer; where a
row faults by division by 0 after rows that do not, the job fails with DIVIDE_BY_ZERO at that row, and event 0x509 is counted. -/
def Obligations.ArithmeticCompletes : Prop :=
  ∀ (s : State) (n k : Nat) (r : Run) (c : Ctx) (f : Insn), StageIssues s n k r c → ∀ (u : State), u = issued s c →
    ∀ (a b : Src), a = source u c f.ak f.ra f.imm → b = source u c f.bk f.rb f.imm → ∀ x ∈ arithRows,
      arithTypes x.2 f (some a.tag) (some b.tag) = true → ∀ (h : Nat → Option Nat),
      ((∀ row ∈ activeRows u c f, arithGives x.2 f a b row (h row)) →
        ∃ w, CountsOnly u w ∧ exec (x.1 n k f) s = .next (settle (afterInsn
          (columnWritten w c f.rd (insnTag f) ((activeRows u c f).map (fun row => (row, h row)))) n k x.2 c f (loopsAt r k c)))) ∧
      (∀ pre row post p q, x.2 = 0x33 ∨ x.2 = 0x34 → activeRows u c f = pre ++ row :: post →
        (∀ j ∈ pre, arithGives x.2 f a b j (h j)) → a.raw row = some p → b.raw row = some q → rawValue b.tag.typ q = 0 →
        ∀ e, e = Err.outc ⟨0x61, c.stage, c.partn * 2 ^ 32 + c.faultRow row⟩ →
        ∃ w, CountsOnly u w ∧ exec (x.1 n k f) s = .next (settle (stepFault (recordStnFault (w.countReq c.req 0x509 1) c e) c e)))

/-- The instructions on columns and accumulators alone complete, each with its result (05 Table 5.12, R175, 07 R223, R224, R226, R239, 08 R266,
R269, R272): NEG, ABS and CVT on a numeric operand whose converted value is within the limits at every active row; MOV; CSEL and COALESCE
where the chosen operands convert; PART; HASHK where the operand is no text; DPART and DADD where the result is within the limits; AGG; AFIN
where its value converts. -/
def Obligations.ColumnInstructions : Prop :=
  ∀ (s : State) (n k : Nat) (r : Run) (c : Ctx) (f : Insn), StageIssues s n k r c → ∀ (u : State), u = issued s c →
    ∀ (a b : Src), a = source u c f.ak f.ra f.imm → b = source u c f.bk f.rb f.imm →
    ∀ (rows : List Nat) (t : Tag), rows = activeRows u c f → t = insnTag f →
    (∀ x ∈ [((Instr.neg, 0x35, 0, fun v => -v) : (Nat → Nat → Insn → Instr) × Nat × Nat × (Int → Int)),
        (.abs, 0x36, 0, fun v => (v.natAbs : Int)), (.cvt, 0x39, f.mod, fun v => v)], isNum a.tag.typ = true → ∀ h : Nat → Option Nat,
      (∀ row ∈ rows, (a.raw row = none ∧ h row = none) ∨ ∃ p w, a.raw row = some p ∧
        convert (x.2.2.2 (rawValue a.tag.typ p)) a.tag.scale t x.2.2.1 = .ok w ∧ h row = some (valueRaw f.typ w)) →
      ∃ w, CountsOnly u w ∧ exec (x.1 n k f) s = .next (settle (afterInsn
        (columnWritten w c f.rd t (rows.map (fun row => (row, h row)))) n k x.2.1 c f (loopsAt r k c)))) ∧
    exec (.mov n k f) s = .next (settle (afterInsn
      (columnWritten u c f.rd t (rows.map (fun row => (row, b.raw row)))) n k 0x3A c f (loopsAt r k c))) ∧
    (∀ x ∈ [((Instr.csel, 0x3B, fun row => if maskBit u c (f.mod % 8) row then a else b) :
          (Nat → Nat → Insn → Instr) × Nat × (Nat → Src)),
        (.coalesce, 0x3C, fun row => if (a.raw row).isSome then a else b)], ∀ h : Nat → Option Nat,
      (∀ row ∈ rows, ((x.2.2 row).raw row = none ∧ h row = none) ∨
        (isNum f.typ = false ∧ h row = (x.2.2 row).raw row) ∨
        ∃ p w, (x.2.2 row).raw row = some p ∧ isNum f.typ = true ∧ isNum (x.2.2 row).tag.typ = true ∧
          convert (rawValue (x.2.2 row).tag.typ p) (x.2.2 row).tag.scale t 0 = .ok w ∧ h row = some (valueRaw f.typ w)) →
      ∃ w, CountsOnly u w ∧ exec (x.1 n k f) s = .next (settle (afterInsn
        (columnWritten w c f.rd t (rows.map (fun row => (row, h row)))) n k x.2.1 c f (loopsAt r k c)))) ∧
    exec (.part n k f) s = .next (settle (afterInsn (columnWritten u c f.rd ⟨tUint32, 0⟩
      (rows.map (fun row => (row, (colRaw u c f.ra row).map (fun v => v / 2 ^ (64 - f.scale)))))) n k 0x43 c f (loopsAt r k c))) ∧
    (isText a.tag.typ = false → ∀ h : Nat → Nat,
      (∀ row, h row = match a.raw row with
        | none => 0
        | some p => if a.tag.typ = tDec128 then fmix (fmix ((p % 2 ^ 64) ^^^ golden) ^^^ (p / 2 ^ 64)) else fmix (p ^^^ golden)) →
      exec (.hashk n k f) s = .next (settle (afterInsn (columnWritten u c f.rd ⟨tUint64, 0⟩ (rows.map (fun row => (row, some
        (if f.mod = 0 then h row else fmix ((((colRaw u c f.rb row).getD 0) % 2 ^ 64 + golden + h row) % 2 ^ 64)))))) n k 0x40 c f
        (loopsAt r k c)))) ∧
    (∀ h : Nat → Option Nat, (∀ row ∈ rows, (a.raw row = none ∧ h row = none) ∨ ∃ p w, a.raw row = some p ∧
        w = datePart f.mod (if a.tag.typ = tTimestamp then Int.fdiv (rawValue a.tag.typ p) dayMicros else rawValue a.tag.typ p) ∧
        inRange tInt32 w = true ∧ h row = some (valueRaw tInt32 w)) →
      ∃ w, CountsOnly u w ∧ exec (.dpart n k f) s = .next (settle (afterInsn
        (columnWritten w c f.rd ⟨tInt32, 0⟩ (rows.map (fun row => (row, h row)))) n k 0x3D c f (loopsAt r k c)))) ∧
    (∀ h : Nat → Option Nat, (∀ row ∈ rows, ((a.raw row = none ∨ b.raw row = none) ∧ h row = none) ∨ ∃ p q w, a.raw row = some p ∧
        b.raw row = some q ∧ dateAdd f.mod (f.typ == tTimestamp) (rawValue f.typ p) (rawValue b.tag.typ q) = some w ∧
        inRange f.typ w = true ∧ h row = some (valueRaw f.typ w)) →
      ∃ w, CountsOnly u w ∧ exec (.dadd n k f) s = .next (settle (afterInsn
        (columnWritten w c f.rd t (rows.map (fun row => (row, h row)))) n k 0x3E c f (loopsAt r k c)))) ∧
    exec (.agg n k f) s = .next (settle (afterInsn (writeAcc u c.stone c.bank f.rd
      (if f.mod = 1 ∨ f.mod = 2 then ⟨tInt64, 0⟩ else a.tag)
      (rows.foldl (fun acc row => accumulate f.mod acc ((a.raw row).map (rawValue a.tag.typ))) (readAcc u c f.rd))) n k 0x50 c f
      (loopsAt r k c))) ∧
    (readAcc u c f.ra = none →
      exec (.afin n k f) s = .next (settle (afterInsn (putScalar u c f.rd t none) n k 0x52 c f (loopsAt r k c)))) ∧
    (∀ v w, readAcc u c f.ra = some v → isNum (scalar u c f.ra).tag.typ = true →
      convert v (scalar u c f.ra).tag.scale t f.mod = .ok w → ∃ u1, CountsOnly u u1 ∧
      exec (.afin n k f) s = .next (settle (afterInsn (putScalar u1 c f.rd t (some (valueRaw f.typ w))) n k 0x52 c f (loopsAt r k c))))

/-- The scan's instructions complete where the task's directory is read (06 R203, R204, R197, 08 R293): DROWID gives every active row its
row id, DCOL of an absent column NULLs, and DCOL and DREC what the rows decode to. -/
def Obligations.ScanInstructions : Prop :=
  ∀ (s : State) (n k : Nat) (r : Run) (c : Ctx) (f : Insn), StageIssues s n k r c → ∀ (u : State), u = issued s c →
    ∀ (rows : List Nat) (d : Dir), rows = activeRows u c f → (c.run u).bind (·.dir) = some d →
    exec (.drowid n k f) s = .next (settle (afterInsn (columnWritten u c f.rd ⟨tUint64, 0⟩
      (rows.map (fun row => (row, some ((d.firstRow + c.firstRow + row) % 2 ^ 64))))) n k 0x12 c f (loopsAt r k c))) ∧
    (d.cols.getD f.imm (1, 0) = (0, 0) →
      exec (.dcol n k f) s = .next (settle (afterInsn (columnWritten u c f.rd (insnTag f) (rows.map (fun row => (row, none)))) n k 0x10 c f
        (loopsAt r k c)))) ∧
    (∀ h, d.cols.getD f.imm (1, 0) ≠ (0, 0) → (((c.run u).map (·.segs)).getD []).find? (fun x => x.1 == f.imm) = some (f.imm, h) →
      h.typ = f.typ → h.scale = f.scale →
      (∀ vs w, rows.length = c.rows → decodeRows c.dec f.imm h d.rows c.firstRow c.rows u = .ok vs w →
        exec (.dcol n k f) s = .next (settle (afterInsn (columnWritten w c f.rd (insnTag f) (rows.zip vs)) n k 0x10 c f (loopsAt r k c)))) ∧
      (∀ vs w, rows.length ≠ c.rows → RowsGo (fun row => decodeRows c.dec f.imm h d.rows (c.firstRow + row) 1) rows u vs w →
        exec (.dcol n k f) s = .next (settle (afterInsn (columnWritten w c f.rd (insnTag f) (rows.zip (vs.map (·.headD none)))) n k 0x10 c f
          (loopsAt r k c))))) ∧
    (∀ l fd vs w, c.pj.prog.layout (f.imm / 256) = some l → l.fields[f.imm % 256]? = some fd →
      (((c.run u).map (·.areas)).getD []).contains (f.imm / 256) = true →
      RowsGo (fun row => drecRow c l fd (insnTag f) ((d.cols.getD l.src (0, 0)).1 + l.recOff (c.firstRow + row)) row) rows u vs w →
      exec (.drec n k f) s = .next (settle (afterInsn (columnWritten w c f.rd (insnTag f) (rows.zip vs)) n k 0x11 c f (loopsAt r k c))))

/-- The instructions on tables and texts complete where the task has opened the table (or ledger) and each active row's work ends well
(07 R229, R231 to R233, R240, 09 R318, 06 R216); BUILD, PROBE and TAPPEND that act on no row, and BUILD of NULL keys, leave the state as it is. -/
def Obligations.TableInstructions : Prop :=
  ∀ (s : State) (n k : Nat) (r : Run) (c : Ctx) (f : Insn), StageIssues s n k r c → ∀ (u : State), u = issued s c →
    ∀ rows : List Nat, rows = activeRows u c f →
    (∀ h, tableHeld u c f 1 h → h.vtags.headD noTag = colTag u c f.rb →
      (∀ us w, RowsGo (buildAt c f u h) rows u us w →
        exec (.build n k f) s = .next (settle (afterInsn w n k 0x41 c f (loopsAt r k c)))) ∧
      ((∀ row ∈ rows, colRaw u c f.ra row = none) →
        exec (.build n k f) s = .next (settle (afterInsn u n k 0x41 c f (loopsAt r k c))))) ∧
    (∀ h vs w, tableHeld u c f 1 h → RowsGo (probeAt c f u h) rows u vs w →
      exec (.probe n k f) s = .next (settle (afterInsn
        (columnWritten (columnWritten w c f.rd (h.vtags.headD noTag) (rows.zip (vs.map (·.1)))) c (f.rd + 1) ⟨tUint64, 0⟩
          (rows.zip (vs.map (·.2)))) n k 0x42 c f (loopsAt r k c)))) ∧
    (∀ h us w i v, tableHeld u c f 2 h → i = gaggSlot c.pj.prog c.num f.imm → i < h.slots → h.funcs.getD i 0 = f.mod →
      v = source u c 0 f.rb 0 → ((f.mod = 0 ∨ 3 ≤ f.mod) → h.vtags.getD i noTag = v.tag) →
      RowsGo (fun row => gaggRow (c.bnd f.imm) h i f.mod (colRaw u c f.ra row)
        (if f.mod = 2 then none else (v.raw row).map (rawValue v.tag.typ))) rows u us w →
      exec (.gagg n k f) s = .next (settle (afterInsn w n k 0x51 c f (loopsAt r k c)))) ∧
    (∀ l us w, (((c.run u).map (·.ledgers)).getD []).find? (fun x => x.1 == f.imm) = some (f.imm, l) →
      RowsGo (tappendAt c f u l) rows u us w →
      exec (.tappend n k f) s = .next (settle (afterInsn w n k 0x64 c f (loopsAt r k c)))) ∧
    (∀ a b : Src, a = source u c f.ak f.ra f.imm → b = source u c f.bk f.rb f.imm →
      (∀ row ∈ rows, a.raw row = none ∧ b.raw row = none) →
      exec (.tcmp n k f) s = .next (settle (afterInsn (truthWritten u c f (fun _ => none)) n k 0x21 c f (loopsAt r k c)))) ∧
    (∀ (a b : Src) (x y : Nat → Option (List Byte)) (w : State), a = source u c f.ak f.ra f.imm → b = source u c f.bk f.rb f.imm →
      RowsGo (fun row => textAt c a f.ak f.imm row >>= fun p => textAt c b f.bk f.imm row >>= fun q => pure (p, q)) rows u
        (rows.map (fun row => (x row, y row))) w →
      exec (.tcmp n k f) s = .next (settle (afterInsn (truthLeft u w c f (fun row => match x row, y row with
        | some p, some q => some (cmpMeets f.mod (cmpBytes (p.take (insnLong f)) (q.take (insnLong f))))
        | _, _ => none)) n k 0x21 c f (loopsAt r k c))))

/-- The output's instructions complete where the offset registers hold values and the writes end well (05 R174, 07 R243, R244, 08 R297): STCOL
and STSCL write their bytes at the offset and advance it by their number; STREC writes a record for every active row; MERGE, with no condition at
all, adds one run of the active rows' elements, in row order, and counts the NULL keys. -/
def Obligations.OutputInstructions : Prop :=
  ∀ (s : State) (n k : Nat) (r : Run) (c : Ctx) (f : Insn), StageIssues s n k r c → ∀ (u : State), u = issued s c →
    ∀ rows : List Nat, rows = activeRows u c f →
    (∀ off, (scalar u c f.rd).val = some off → f.mod = 0 → rows = [] →
      exec (.stcol n k f) s = .next (settle (afterInsn
        (setScalar u c.stone c.bank f.rd { scalar u c f.rd with val := some (off % 2 ^ 64) }) n k 0x60 c f (loopsAt r k c)))) ∧
    (∀ off parts w v, (scalar u c f.rd).val = some off → f.mod = 0 → rows ≠ [] →
      RowsGo (stcolBytes c f (source u c 0 f.ra 0)) rows u parts w → (c.bnd f.imm).write off parts.flatten w = .ok () v →
      exec (.stcol n k f) s = .next (settle (afterInsn (setScalar v c.stone c.bank f.rd { scalar v c f.rd with
        val := (scalar v c f.rd).val.map (fun x => (x + parts.flatten.length) % 2 ^ 64) }) n k 0x60 c f (loopsAt r k c)))) ∧
    (∀ l off us w, c.pj.prog.layout (f.imm / 256) = some l → (scalar u c f.rd).val = some off → RowsGo (strecRow c f l) rows u us w →
      exec (.strec n k f) s = .next (settle (afterInsn w n k 0x61 c f (loopsAt r k c)))) ∧
    (∀ off b v, (scalar u c f.rd).val = some off →
      b = (if c.pj.prog.code.any (fun w => insnOp w == 0x50 && (insnOf w).rd == f.ra) then
            natLE 32 (match readAcc u c f.ra with | some v => ofSigned 256 v | none => 0)
          else natLE (if (scalar u c f.ra).tag.typ = tDec128 then 16 else 8) ((scalarRaw u c f.ra).getD 0)) →
      (c.bnd f.imm).write off b u = .ok () v →
      exec (.stscl n k f) s = .next (settle (afterInsn (setScalar v c.stone c.bank f.rd { scalar v c f.rd with
        val := (scalar v c f.rd).val.map (fun x => (x + b.length) % 2 ^ 64) }) n k 0x62 c f (loopsAt r k c)))) ∧
    (∀ key p0 p1 : Src, key = source u c 0 f.ra 0 → p0 = source u c 0 f.rb 0 → p1 = source u c 0 (f.rb + 1) 0 →
      ∃ es : List Elem, ∃ m,
        es.map (fun e => (e.key, e.origin)) = rows.filterMap (fun row => (key.raw row).map (fun v => (v, c.partn * 2 ^ 32 + c.firstRow + row))) ∧
        exec (.merge n k f) s = .next (settle (afterInsn ((({ u with free := m } : State)).setRun c.stone (fun r => { r with
          merge := (r.merge.map (fun x => { x with
            runs := x.runs ++ [es], nulls := x.nulls + (rows.length - es.length), keyTag := key.tag,
            tags := (if p0.tag.typ = tDec128 then [p0.tag] else [p0.tag, p1.tag]),
            form := (if p0.tag.typ = tDec128 then 1 else 2) })) })) n k 0x63 c f (loopsAt r k c))))

/-- The host's queue and tailrace commands (03 R76, R77, R81, R104, R106, R110, R656, 04 R118), where the device takes the write: an idle disabled
queue with a depth of 4 to 16 is enabled with HEAD, TAIL, its fetch index and its credit 0, and with another depth only sets cfg_error; one that is
not idle stays disabled; the other fields of WQ_CFG are stored; an enabled queue is disabled; a
doorbell of D beyond TAIL and within the depth makes TAIL D; a head within the records written moves SLC_EV_HEAD, and the records and releases that
waited take the freed slots, while one beyond them only sets ev_head_bad; an enabled tailrace starts at index 0 with its pending records; a change to
lossy releases the held jobs. -/
def Obligations.QueueCommands : Prop :=
  ∀ (s u : State), u = hostIn s 4 →
    (∀ gq v e, HostTakes s .wqCfg gq → e = putBits v 31 1 1 % 2 ^ 32 → u.flag F.wqCfg_enable gq = false →
      ∀ t, t = u.setReg .wqCfg gq (e &&& 0x401FFFFF) →
      (u.flag F.wqState_idle gq = false → exec (.queueEnable gq v) s = .next (settle t)) ∧
      (u.flag F.wqState_idle gq = true → 4 ≤ bitsAt e 16 5 → bitsAt e 16 5 ≤ 16 → exec (.queueEnable gq v) s = .next (settle
        ((((((t.setReg .slcWqHead gq 0).setReg .wqDoorbell gq 0).setFld F.wqState_fetch gq 0).setFld F.weirQstat_credit gq 0).setQueue gq
          (fun q => { q with stale := false, polled := [], timer := none })).setFlag F.wqCfg_enable gq true))) ∧
      (u.flag F.wqState_idle gq = true → bitsAt e 16 5 < 4 ∨ 16 < bitsAt e 16 5 → exec (.queueEnable gq v) s = .next (settle (t.setFlag F.wqState_cfg_error gq true)))) ∧
    (∀ gq v e, HostTakes s .wqCfg gq → e = putBits v 31 1 0 % 2 ^ 32 → u.flag F.wqCfg_enable gq = true →
      exec (.queueDisable gq v) s = .next (settle (timerCheck (drainChain
        (u.setReg .wqCfg gq ((u.reg .wqCfg gq &&& 0x401F0000) + e % 2 ^ 16)) gq) gq))) ∧
    (∀ slice queue v d, HostTakes s .wqDoorbell (slice * 8 + queue) → queue < 8 → d = v % 2 ^ 32 → ∀ gq, gq = slice * 8 + queue →
      u.flag F.wqCfg_enable gq = true → u.flag F.wqCfg_poll gq = false → u.flag F.slcStatus_halted slice = false →
      u.fld F.slcCfg_state slice ≠ 3 → u.halted = false → sub32 d (u.head gq) ≤ 2 ^ depthLog u gq →
      sub32 (u.tailOf gq) (u.head gq) < sub32 d (u.head gq) → d ≠ u.tailOf gq →
      exec (.doorbell slice queue v) s = .next (settle
        ((timerStop (hostSync (u.setReg .wqDoorbell gq d)) gq).count ⟨0x104, 1, some slice, none, none⟩))) ∧
    (∀ n v d, HostTakes s .slcEvHead n → d = v % 2 ^ 32 →
      (sub32 d (u.reg .slcEvHead n) ≤ sub32 (u.reg .slcEvTail n) (u.reg .slcEvHead n) → exec (.evHeadWrite n v) s = .next (settle
        (releaseInOrder (tailDrain (u.setReg .slcEvHead n d) n) n))) ∧
      (sub32 (u.reg .slcEvTail n) (u.reg .slcEvHead n) < sub32 d (u.reg .slcEvHead n) →
        exec (.evHeadWrite n v) s = .next (settle (u.setFlag F.slcStatus_ev_head_bad n true)))) ∧
    (∀ n v e, HostTakes s .slcEvCfg n → e = putBits v 31 1 1 % 2 ^ 32 → u.flag F.slcEvCfg_enable n = false →
      ∀ t, t = evEnable ((u.setFlag F.slcEvCfg_lossless n (bitAt e 30)).setFld F.slcEvCfg_depth_log2 n (bitsAt e 0 5)) n →
      (tailOn t n = true → t.flag F.slcEvCfg_lossless n = true → exec (.tailraceEnable n v) s = .next (settle t)) ∧
      (tailOn t n = false ∨ t.flag F.slcEvCfg_lossless n = false → exec (.tailraceEnable n v) s = .next (settle (releaseHeld t n)))) ∧
    (∀ n v e, HostTakes s .slcEvCfg n → e = v % 2 ^ 32 → u.flag F.slcEvCfg_enable n = true → bitAt e 31 = true →
      ∀ t, t = u.setFlag F.slcEvCfg_lossless n (bitAt e 30) →
      (tailOn t n = true → t.flag F.slcEvCfg_lossless n = true → exec (.evModeChange n v) s = .next (settle t)) ∧
      (tailOn t n = false ∨ t.flag F.slcEvCfg_lossless n = false → exec (.evModeChange n v) s = .next (settle (releaseHeld t n))))

/-- The host's device-wide and stone commands (01 R28, R32, Tables 1.6, 1.8, 04 R146, 05 R183), where the device takes the write and the profile is
not locked: a defined profile loads DEV_CFG with its row, and a reserved one changes neither; a lock write sets the lock; a trace ring of a depth of 4
to 16 is enabled at tail 0; a flush empties the check cache. -/
def Obligations.DeviceCommands : Prop :=
  ∀ (s u : State), u = hostIn s 4 →
    (∀ v, HostTakes s .devProfile 0 → profileLocked u = false → bitAt v 31 = false →
      (v % 4 < 3 → exec (.profileWrite v) s = .next (settle ((u.setFld F.devProfile_profile 0 (v % 4)).setReg .devCfg 0
        (match v % 4 with | 0 => 0b000011 | 1 => 0b010100 | _ => 0b101000)))) ∧
      (v % 4 = 3 → exec (.profileWrite v) s = .next (settle u))) ∧
    (∀ v, HostTakes s .devProfile 0 → profileLocked u = false →
      (v % 4 < 3 → exec (.profileLock v) s = .next (settle (((u.setFld F.devProfile_profile 0 (v % 4)).setReg .devCfg 0
        (match v % 4 with | 0 => 0b000011 | 1 => 0b010100 | _ => 0b101000)).setFlag F.devProfile_lock 0 true))) ∧
      (v % 4 = 3 → exec (.profileLock v) s = .next (settle (u.setFlag F.devProfile_lock 0 true)))) ∧
    (∀ v, HostTakes s .devProfile 0 → profileLocked u = true →
      exec (.profileLock v) s = .next (settle (u.setFlag F.devProfile_lock 0 true)) ∧
      (bitAt v 31 = false → exec (.profileWrite v) s = .next (settle u))) ∧
    (∀ v e, HostTakes s .fanTraceCfg 0 → e = putBits v 31 1 1 % 2 ^ 32 → u.flag F.fanTraceCfg_enable 0 = false → 4 ≤ bitsAt e 16 5 →
      bitsAt e 16 5 ≤ 16 → exec (.traceEnable v) s = .next (settle (((u.setReg .fanTraceCfg 0
        (putBits (putBits (e &&& 0x7F1F1FFE) 16 5 (bitsAt e 16 5)) 31 1 0)).setFlag F.fanTraceCfg_enable 0 true).setReg .fanTraceTail 0 0))) ∧
    (∀ v, HostTakes s .stnCheckCtl 0 → exec (.checkCacheFlush v) s = .next (settle { u with pipe := { u.pipe with checked := [] } }))

/-- The host's Millpond and port commands (09 R315, R342, R343, 10 R379, R387), where the device takes the write: a checkpoint of an epoch from
MPD_CKPT up to the published one takes effect with its record, and any other is ignored; a first replay starts; a table that no job appends to is
registered, a projection only where its owner is the table's slice and its descriptor is right, else proj_error is set; a drive attached is qualified,
no drive leaves the port ABSENT, one that fails a condition of R383 UNUSABLE with the reason and, but where the link did not come up, the speed and
width it reached, and any other makes it ONLINE; one detached is OFFLINE at once, with its reset pin low and its link down. -/
def Obligations.LedgerCommands : Prop :=
  ∀ (s u w : State), u = hostIn s 4 → w = hostIn s 8 →
    (∀ v c, HostTakes s .mpdCkpt 0 → c = v % 2 ^ 64 →
      (w.reg .mpdCkpt 0 ≤ c → c ≤ w.reg .mpdEpoch 0 → mayJoin w = true → exec (.checkpoint v) s = .next (settle
        (truncate (joinNow (w.setReg .mpdCkpt 0 c) { JNew.bare kCkpt with addr := c }).2))) ∧
      (c < w.reg .mpdCkpt 0 ∨ w.reg .mpdEpoch 0 < c → exec (.checkpoint v) s = .next (settle w))) ∧
    (∀ v, HostTakes s .mpdReplay 0 → u.flag F.mpdStatus_replay_busy 0 = false → u.flag F.mpdStatus_replay_done 0 = false →
      exec (.replayStart v) s = .next (settle (u.setFlag F.mpdStatus_replay_busy 0 true))) ∧
    (∀ n v e, HostTakes s .mpdTableCfg n → e = putBits v 63 1 1 % 2 ^ 64 → tableUsed w n = false → ∀ t,
      t = ({ w with vols := { w.vols with projs := w.vols.projs.filter (fun x => x.2.table != n) } } : State).setReg .mpdTableCfg n (e / 64 * 64) →
      (bitAt e 62 = false → exec (.tableRegister n v) s = .next (settle t)) ∧
      (bitAt e 62 = true → ∀ vol slice, vol = bitsAt e 48 8 → slice = bitsAt e 56 6 →
        (((w.vol vol).map (·.owner)) ≠ some slice → exec (.tableRegister n v) s = .next (settle
          ((t.setFlag F.mpdTableCfg_valid n false).setFlag F.volState_proj_error vol true))) ∧
        (∀ x t2, ((w.vol vol).map (·.owner)) = some slice → (readProj w n slice vol (bitsAt e 6 42 * 64)).exec t = (.ok x, t2) →
          exec (.tableRegister n v) s = .next (settle (match x with
            | some p => registerProj t2 n vol p
            | none => (t2.setFlag F.mpdTableCfg_valid n false).setFlag F.volState_proj_error vol true))))) ∧
    (∀ p v e t, HostTakes s .volPortCtl p → e = putBits (putBits v 31 1 1) 30 1 0 % 2 ^ 32 →
      t = (if e % 2 ^ 16 = 0 then u else u.setFld F.volPortCtl_timeout_ms p e) →
      exec (.portAttach p v) s = .next (settle (portAttach (drivePort t p false) p))) ∧
    (∀ p v e t, HostTakes s .volPortCtl p → e = putBits v 30 1 1 % 2 ^ 32 →
      t = (if e % 2 ^ 16 = 0 then u else u.setFld F.volPortCtl_timeout_ms p e) →
      exec (.portDetach p v) s = .next (settle
        (drivePort (((portDown t p).setFld F.volPortStatus_speed p 0).setFld F.volPortStatus_width p 0) p true))) ∧
    (∀ t p c, t.canon → c = (t.drive p).caps →
      ((t.drive p).fitted = false → portAttach t p = setPort t p 0 0 0 0) ∧
      ((t.drive p).fitted = true → unusableReason c = 6 → portAttach t p = setPort t p 1 6 0 0) ∧
      ((t.drive p).fitted = true → unusableReason c ≠ 0 → unusableReason c ≠ 6 →
        portAttach t p = setPort t p 1 (unusableReason c) (min c.speed 5) (min c.width 4)) ∧
      ((t.drive p).fitted = true → unusableReason c = 0 → ∀ t1,
        t1 = (setPort t p 2 0 (min c.speed 5) (min c.width 4)).setDrive p (fun d => { d with meta_ := true, pairs := 8 }) →
        portAttach t p = if portUp t p then tableCopy t1 p else t1.vols.table.foldl (portReturns p) (tableCopy t1 p)))

/-- The host's translation, Granary and DRAM commands (13 R460, R464, Table 13.14, 14 R473, R477, R478, R482, R483, 15 R500), where the device takes the write: a
well-formed invalidation purges the caches and is busy, one started while busy only sets error; the Granary is ENABLED again, or disabled at once
with nothing dirty, or DRAINING; a maintenance go that R478 refuses only sets error, one with nothing to do is complete at once, and another is busy;
self-refresh is asked for only of a disabled Granary, and left by a 0. -/
def Obligations.MemoryCommands : Prop :=
  ∀ (s u : State), s.canon → u = hostIn s 4 →
    (∀ x ∈ [((.invalOpAddr, 0) : (Nat → Instr) × Nat), (.invalOpTag, 1), (.invalOpAll, 2)], ∀ v e, HostTakes s .xltInval 0 →
      e = putBits (putBits v 31 1 1) 27 2 x.2 % 2 ^ 32 → ∀ u0, u0 = (if bitAt e 30 then (hostSync u).setFlag F.xltInval_error 0 false else hostSync u) →
      (u.flag F.xltInval_busy 0 = true → exec (x.1 v) s = .next (settle (u0.setFlag F.xltInval_error 0 true))) ∧
      (∀ t q, u.flag F.xltInval_busy 0 = false → t = u0.setReg .xltInval 0 (u0.reg .xltInval 0 &&& 0x60000000 ||| e &&& 0x1E3F0000) →
        q = invalRegReq t e → (lowest (invalProblem t q) = none → ¬(x.2 = 0 ∧ q.pages = 0) →
          exec (x.1 v) s = .next (settle ((xltPurge t q).setFlag F.xltInval_busy 0 true))) ∧
        (∀ o, lowest (invalProblem t q) = some o → exec (x.1 v) s = .next (settle (t.setFlag F.xltInval_error 0 true))))) ∧
    (∀ v e, HostTakes s .grnCtl 0 → e = putBits v 30 1 1 % 2 ^ 32 → ∀ t, t = hostSync u →
      (bitAt e 31 = true → exec (.hostSync v) s = .next (settle (granEnable t))) ∧
      (bitAt e 31 = false → exec (.hostSync v) s = .next (settle (granDisable t)))) ∧
    (∀ v e, HostTakes s .grnCtl 0 → e = putBits v 31 1 1 % 2 ^ 32 → ∀ t, t = (if bitAt e 30 then hostSync u else u) →
      exec (.granaryEnable v) s = .next (settle ((t.setFlag F.grnCtl_enable 0 true).setFld F.grnStatus_state 0 granEnabled))) ∧
    (∀ v e, HostTakes s .grnCtl 0 → e = putBits v 31 1 0 % 2 ^ 32 → ∀ t, t = (if bitAt e 30 then hostSync u else u) →
      t.fld F.grnStatus_state 0 = granEnabled →
      (t.fld F.grnStatus_dirty_lines 0 ≠ 0 → exec (.granaryDisable v) s = .next (settle
        ((t.setFlag F.grnCtl_enable 0 false).setFld F.grnStatus_state 0 granDraining))) ∧
      (t.fld F.grnStatus_dirty_lines 0 = 0 → exec (.granaryDisable v) s = .next (settle
        ((granDropAll ((t.setFlag F.grnCtl_enable 0 false).setFld F.grnStatus_state 0 granDraining)).setFld F.grnStatus_state 0
          granDisabled)))) ∧
    (∀ x ∈ [((Instr.granClean, 0) : (Nat → Instr) × Nat), (.granInvalidate, 1), (.granCleanInvalidate, 2), (.granZero, 3)], ∀ v e, HostTakes s .grnMaintCtl 0 →
      e = putBits (putBits v 31 1 1) 0 2 x.2 % 2 ^ 32 → ∀ u0, u0 = (if bitAt e 30 then u.setFlag F.grnMaintCtl_error 0 false else u) →
      ∀ base len t, base = u0.fld F.grnMaintBase_base 0 → len = u0.fld F.grnMaintLen_len 0 → t = u0.setFld F.grnMaintCtl_op 0 x.2 →
      (u0.flag F.grnMaintBusy_busy 0 = true ∨ u0.fld F.grnStatus_state 0 = granDraining ∨ maintRangeOk u0 base len = false →
        exec (x.1 v) s = .next (settle (t.setFlag F.grnMaintCtl_error 0 true))) ∧
      (u0.flag F.grnMaintBusy_busy 0 = false → u0.fld F.grnStatus_state 0 ≠ granDraining → maintRangeOk u0 base len = true →
        (len = 0 ∨ (u0.fld F.grnStatus_state 0 = granDisabled ∧ x.2 ≠ 3) →
          exec (x.1 v) s = .next (settle (t.addWrap F.grnMaintBusy_completed 0 1))) ∧
        (¬(len = 0 ∨ (u0.fld F.grnStatus_state 0 = granDisabled ∧ x.2 ≠ 3)) → exec (x.1 v) s = .next (settle
          (({ t with gran := { t.gran with maint := some ⟨x.2, base, len⟩ } } : State).setFlag F.grnMaintBusy_busy 0 true))))) ∧
    (∀ v e, HostTakes s .dmcPwr 0 → e = putBits v 31 1 1 % 2 ^ 32 → ∀ t, t = (if bitAt e 30 then u.setFlag F.dmcPwr_error 0 false else u) →
      (t.fld F.grnStatus_state 0 ≠ granDisabled → exec (.srReqSet v) s = .next (settle (t.setFlag F.dmcPwr_error 0 true))) ∧
      (t.fld F.grnStatus_state 0 = granDisabled → exec (.srReqSet v) s = .next (settle
        ((List.range 12).foldl chanSleep (scrubIssue (t.setFlag F.dmcPwr_sr_req 0 true)))))) ∧
    (∀ v e, HostTakes s .dmcPwr 0 → e = putBits v 31 1 0 % 2 ^ 32 → ∀ t, t = (if bitAt e 30 then u.setFlag F.dmcPwr_error 0 false else u) →
      exec (.srReqClear v) s = .next (settle (((List.range 12).foldl (fun t c => t.setChan c (fun d => { d with selfRefresh := false }))
        (t.setFlag F.dmcPwr_sr_req 0 false)).setFlag F.dmcStatus_self_refresh 0 false)))

/-- The host's channel commands (16 R510, R527, R529, 12 R429), where the device takes the write; a write acts on disarm or arm first, then on stop,
then on resume. Arming with a descriptor that Table 16.1 and R419 allow starts an idle channel (a tapped one once a hash context is free, R435; until
then it stands armed) and arms the shadow of another, else sets error; a stop
ends in STOPPING or STOPPED by the channel's state; a resume starts the armed shadow or makes the channel idle. A register mark is the running
DMA-mode job's one mark, ignored or late as R429 says. -/
def Obligations.ChannelCommands : Prop :=
  ∀ (s u : State), u = hostIn s 4 →
    (∀ x ∈ [((Instr.arm, 31) : (Nat → Nat → Instr) × Nat), (.disarm, 30), (.stopChannel, 29), (.resumeChannel, 28)], ∀ c v e t1 t2,
      HostTakes s .sluChCtl c → e = putBits v x.2 1 1 % 2 ^ 32 →
      t1 = (if bitAt e 30 then u.setFlag F.sluChStatus_shadow_armed c false else if bitAt e 31 then armChannel u c else u) →
      t2 = (if bitAt e 29 then stopChannel t1 c else t1) →
      bitAt e x.2 = true ∧ exec (x.1 c v) s = .next (settle (if bitAt e 28 then resumeChannel t2 c else t2))) ∧
    (∀ t c, t.flag F.sluChCfg_manager c = false → armChannel t c = t.setFlag F.sluChStatus_error c true ∧
      stopChannel t c = t.setFlag F.sluChStatus_error c true ∧ resumeChannel t c = t.setFlag F.sluChStatus_error c true) ∧
    (∀ t c, t.flag F.sluChCfg_manager c = true →
      ((descBad t 0 (shadowDesc t c) = true ∨ 16777216 < t.fld F.sluShdLen_length c) →
        armChannel t c = t.setFlag F.sluChStatus_error c true) ∧
      (descBad t 0 (shadowDesc t c) = false → t.fld F.sluShdLen_length c ≤ 16777216 →
        (t.fld F.sluChStatus_state c = 0 → shadowReady t c = true → armChannel t c = swapShadow t c) ∧
        (t.fld F.sluChStatus_state c = 0 → shadowReady t c = false →
          armChannel t c = (t.setFlag F.sluChStatus_shadow_armed c true).setFld F.sluChStatus_state c 0) ∧
        (t.fld F.sluChStatus_state c ≠ 0 → armChannel t c = t.setFlag F.sluChStatus_shadow_armed c true)) ∧
      (t.fld F.sluChStatus_state c = 0 → stopChannel t c = t.setFld F.sluChStatus_state c 5) ∧
      (t.fld F.sluChStatus_state c = 1 ∨ t.fld F.sluChStatus_state c = 3 → stopChannel t c = t.setFld F.sluChStatus_state c 4) ∧
      (t.fld F.sluChStatus_state c = 5 ∨ t.fld F.sluChStatus_state c = 6 →
        (t.flag F.sluChStatus_shadow_armed c = true → shadowReady t c = true → resumeChannel t c = swapShadow t c) ∧
        (t.flag F.sluChStatus_shadow_armed c = true → shadowReady t c = false →
          resumeChannel t c = (t.setFlag F.sluChStatus_shadow_armed c true).setFld F.sluChStatus_state c 0) ∧
        (t.flag F.sluChStatus_shadow_armed c = false →
          resumeChannel t c = (t.setFld F.sluChStatus_state c 0).setFld F.sluChStatus_source c 0))) ∧
    (∀ n v x j, HostTakes s .tolValidBytes n → 1 ≤ v → v ≤ 8 → u.ctx n = some x → x.job.bind (fun y => u.job y.1) = some j →
      ((j.hdr.op ≠ 0x0400 ∧ j.hdr.op ≠ 0x0401) ∨ dgHold j = true ∨ (packetMark j).isSome = true ∨ x.mark.isSome = true →
        exec (.registerMark n v) s = .next (settle (u.setFlag F.tolCtxState_mark_ignored n true))) ∧
      ((j.hdr.op = 0x0400 ∨ j.hdr.op = 0x0401) → dgHold j = false → packetMark j = none → x.mark = none → ∀ m, m = 8 * u.fld F.tolLastWord_last_word n + v →
        (m < x.pos → exec (.registerMark n v) s = .next (settle (u.setFlag F.tolCtxState_mark_late n true))) ∧
        (x.pos ≤ m → exec (.registerMark n v) s = .next (settle (u.setCtx n (some { x with mark := some m }))))))

/-- The host's security and boot commands (19 R576, R580, R591 to R593, 18 R562, R568), where the device takes the write: a confirmed programming of a
listed, unlocked group with a generation left is busy with the word made; a key operation that R580 refuses only zeroes the key data and sets error,
and another is busy with the slot's new contents (a new key of an HMAC slot keeps the slot's grant: the model's reading, log 79); a challenge is written while the keys are erased, and empties the restore data, which then takes 25
words; a verification runs unless 8 have failed; step records are cleared; a manual trigger is a fatal error of class 0x108. -/
def Obligations.SecurityCommands : Prop :=
  ∀ (s u w : State), u = hostIn s 4 → w = hostIn s 8 →
    (∀ v e g, HostTakes s .otpProgCtl 0 → e = putBits v 31 1 1 % 2 ^ 32 → g = bitsAt e 8 6 →
      (bitsAt e 0 8 ≠ 0xA5 ∨ u.flag F.otpStatus_busy 0 = true → exec (.otpProgram v) s = .next (settle u)) ∧
      (∀ n, bitsAt e 0 8 = 0xA5 → u.flag F.otpStatus_busy 0 = false → otpListed g = true →
        ((otpValid u g).isSome && bitAt (otpWord u g ((otpValid u g).getD 0)) 63) = false → otpNext u g = some n →
        exec (.otpProgram v) s = .next (settle { (u.setFld F.otpProgCtl_group 0 g).setFlag F.otpStatus_busy 0 true with
          otpOp := some ⟨g, n, otpMake g n (u.fld F.otpProgValue_lock 0) (u.fld F.otpProgValue_value 0)⟩ }))) ∧
    (∀ x ∈ [((.generateKey, 0) : (Nat → Instr) × Nat), (.importKey, 1), (.clearKey, 2), (.grantKey, 3)], ∀ v e t n usage len,
      HostTakes s .brkKeyCtl 0 → e = putBits (putBits v 31 1 1) 24 3 x.2 % 2 ^ 32 → u.flag F.brkKeyCtl_busy 0 = false →
      t = (if bitAt e 30 then u.setFlag F.brkKeyCtl_error 0 false else u).setFld F.brkKeyCtl_op 0 x.2 → n = t.fld F.brkKeySel_slot 0 →
      usage = t.fld F.brkKeyCfg_usage n → len = t.fld F.brkKeyCfg_length n → ∀ bad,
      bad = (t.flag F.brkStatus_keys_erased 0 || (if x.2 = 3 then (t.slot n).usage != 2 else slotServes t n) ||
        (decide (x.2 < 2) && !usageOk usage len)) →
      (bad = true → exec (x.1 v) s = .next (settle (zeroKeyData (t.setFlag F.brkKeyCtl_error 0 true)))) ∧
      (bad = false → exec (x.1 v) s = .next (settle (match x.2 with
        | 0 => keyStart (randomBytes t len).2 n (if usage = 2 then ⟨2, (t.slot n).owner, (t.slot n).grant, (randomBytes t len).1⟩
            else ⟨usage, 0, false, (randomBytes t len).1⟩)
        | 1 => keyStart t n (if usage = 2 then ⟨2, (t.slot n).owner, (t.slot n).grant, (keyData t).take len⟩
            else ⟨usage, 0, false, (keyData t).take len⟩)
        | 2 => keyStart t n KeySlot.empty
        | _ => keyStart t n { t.slot n with owner := t.fld F.brkKeyCfg_owner n, grant := t.flag F.brkKeyCfg_grant_en n } false)))) ∧
    (∀ x ∈ [((.challenge, 31) : (Nat → Instr) × Nat), (.verify, 30)], ∀ v e t t1, HostTakes s .brkRestoreCtl 0 →
      e = putBits v x.2 1 1 % 2 ^ 32 → u.flag F.brkRestoreCtl_busy 0 = false →
      t = (if bitAt e 28 then u.setFlag F.brkRestoreCtl_error 0 false else u) → t1 = (if bitAt e 31 then restoreChallenge t else t) →
      bitAt e x.2 = true ∧ exec (x.1 v) s = .next (settle (if bitAt e 30 then
        (if t1.flag F.brkStatus_restore_locked 0 then t1.setFlag F.brkRestoreCtl_error 0 true else t1.setFlag F.brkRestoreCtl_busy 0 true)
        else t1))) ∧
    (∀ t, t.flag F.brkStatus_keys_erased 0 = false → restoreChallenge t = t.setFlag F.brkRestoreCtl_error 0 true) ∧
    (∀ t, t.flag F.brkStatus_keys_erased 0 = true → restoreChallenge t = { (mpdWrite (randomBytes t 32).2 (keyStore + 0x40)
      (natLE 4 0x52535431 ++ natLE 4 (eraseCount t) ++ natLE 8 Config.deviceId ++ (randomBytes t 32).1 ++ natLE 8 (t.reg .mpdSeq 0) ++
        zeros 8)).setFld F.brkRestoreCtl_words 0 0 with restoreBuf := [] }) ∧
    (∀ v k, HostTakes s .brkRestoreData 0 → k = w.fld F.brkRestoreCtl_words 0 →
      (k < 25 → exec (.restoreDataWrite v) s = .next (settle { w.setFld F.brkRestoreCtl_words 0 (k + 1) with
        restoreBuf := w.restoreBuf ++ natLE 8 (v % 2 ^ 64) })) ∧
      (25 ≤ k → exec (.restoreDataWrite v) s = .next (settle w))) ∧
    (∀ v, HostTakes s .bootClear 0 → exec (.bootClear v) s = .next (settle ((((List.range 32).drop 1).filter (fun k =>
      bitAt (v % 2 ^ 32) k)).foldl (fun t k =>
        setStepRec t k { stepRec t k with state := recNever, way := 0, fails := 0, outcome := 0 }) u))) ∧
    (∀ v, HostTakes s .bootDump 0 → w.boot.on = true → w.flag F.mpdStatus_pwr_fail 0 = false →
      exec (.manualTrigger v) s = .next (settle (stopTasks { w with halted := true, fatal := some 0x108 } (fun _ => true))))

/-- The host's counter commands (20 R603, R605, R606, R611), where the device takes the write: SCK_CTL clears before it freezes; a counter takes the low 48 bits
written; a window of 1 to 1,000,000 microseconds starts at the next tick edge with the peaks and the sums at 0, and any other is ignored; clear_peak is
held for the window's end. -/
def Obligations.CounterCommands : Prop :=
  ∀ (s u w : State), u = hostIn s 4 → w = hostIn s 8 →
    (∀ x ∈ [((.counterFreeze, 31, 1) : (Nat → Instr) × Nat × Nat), (.counterUnfreeze, 31, 0), (.counterClear, 30, 1)], ∀ v e,
      HostTakes s .sckCtl 0 → e = putBits v x.2.1 1 x.2.2 % 2 ^ 32 → bitAt e x.2.1 = (x.2.2 == 1) ∧
      (bitAt e 30 = true → exec (x.1 v) s = .next (settle ((((u.resetRegs (· == .sckCnt)).setReg .sckOvf0 0 0).setReg .sckOvf1 0 0).setReg
        .sckCtl 0 (e &&& 0xA000FFFF)))) ∧
      (bitAt e 30 = false → exec (x.1 v) s = .next (settle (u.setReg .sckCtl 0 (e &&& 0xA000FFFF))))) ∧
    (∀ c v, HostTakes s .sckCnt c → exec (.counterWrite c v) s = .next (settle (w.setFld F.sckCnt_count c (v % 2 ^ 64)))) ∧
    (∀ v m, HostTakes s .sckBwCfg 0 → m = v % 2 ^ 20 →
      (1 ≤ m → m ≤ 1000000 → ∀ t, t = (u.setFld F.sckBwCfg_window_us 0 m).resetRegs (· == .sckBwPeak) →
        exec (.windowWrite v) s = .next (settle { t with bw := { t.bw with bytes := [], start := (u.cycle + 1599) / 1600, seq := 0 } })) ∧
      (m = 0 ∨ 1000000 < m → exec (.windowWrite v) s = .next (settle u))) ∧
    (∀ v, HostTakes s .sckBwCtl 0 → exec (.clearPeak v) s = .next (settle { u with bw := { u.bw with clearPeak := true } }))

/-- The host's plain accesses (00 R14, R15, 17 R538, 18 R561, 21 R615, R623) of a device that is on: a vector unmasked sends its held message; a BAR4 access within the
BAR's size is made line by line once the device is ready, before which reads answer zeros; the BAR takes the sizes of 1 GiB to 2 TiB; a register
read answers its bytes, and a served, aligned write of 4 or 8 bytes outside the vector table acts on the slot's registers. -/
def Obligations.HostAccesses : Prop :=
  ∀ s : State, s.boot.on = true →
    (∀ v u, served s false 0xF00000 = true → v < 2048 → u = hostIn s 4 →
      ∀ t, t = u.setVector v { u.vector v with masked := false, pending := (u.vector v).pending && u.msix.funcMask } →
      ((u.vector v).pending = true → u.msix.funcMask = false → exec (.msixUnmask v) s = .next (settle (msixSend t v))) ∧
      ((u.vector v).pending = false ∨ u.msix.funcMask = true → exec (.msixUnmask v) s = .next (settle t))) ∧
    (∀ a : BarAccess, a.off + barBytes a ≤ 2 ^ s.bar4 →
      (∀ b, a.write = some b → s.flag F.bootStatus_ready 0 = true →
        exec (.bar4Access a) s = .next (settle (bar4Write s a.off b))) ∧
      (∀ b t, a.write = none → s.flag F.bootStatus_ready 0 = true → bar4Read s a.off a.size = (b, t) →
        exec (.bar4Access a) s = .next (settle { hostOut t a.size with answers := { t.answers with host := b } })) ∧
      (a.write = none → s.flag F.bootStatus_ready 0 = false →
        exec (.bar4Access a) s = .next (settle { hostOut s a.size with answers := { s.answers with host := zeros a.size } }))) ∧
    (∀ n, 30 ≤ n → n ≤ 41 → exec (.bar4Resize n) s = .next (settle { s with bar4 := n })) ∧
    (∀ a : RegRead, ∀ b t, busRead false a.bar2 s a.off a.size = (b, t) →
      exec (.rcRead a) s = .next (settle { hostOut t a.size with answers := { t.answers with host := b } })) ∧
    (∀ a : RegWrite, a.size = 4 ∨ a.size = 8 → a.off % a.size = 0 → served (hostIn s a.size) a.bar2 a.off = true →
      (a.bar2 = true ∨ a.off < 0xF00000 ∨ 0xF08000 ≤ a.off) →
      exec (.registerWrite a) s = .next (settle (slotWrite a.bar2 (hostIn s a.size) a.off (natLE a.size a.value))))

/-- The Weir's events (02 R69, R72, 03 R87, R88, R95, 04 R117, R118): a poll that finds the phase of the slot at TAIL takes its entry and makes TAIL one
more, at a host sync point, and one that does not leaves the slot stale; a pass visits the queues, from the one at which a full job table ended the last, and, where it comes to its end without granting a turn, ends the round; the
oldest ring read's entry is checked, and follows its open chain or is handed over; a chain timer that is due when it expires fails the chain. -/
def Obligations.FetchEvents : Prop :=
  ∀ s : State,
    (∀ gq i b s1, s.flag F.wqCfg_enable gq = true → s.flag F.wqCfg_poll gq = true → sliceStopped s (gq / 8) = false →
      ((s.queue gq).stale = false ∨ s.fld F.wqCfg_poll_interval gq ≠ 0) → i = s.tailOf gq →
      (readMem { ringReq gq with agent := .weir } (slotAddr s gq i) 8).exec s = (.ok b, s1) →
      (bitsAt (leNat b) 23 1 = phaseOf i (depthLog s gq) → exec (.poll gq) s = .next (settle
        ((timerStop ((hostSync (s1.setReg .wqDoorbell gq ((i + 1) % 2 ^ 32))).setQueue gq (fun q =>
          { q with stale := false, polled := q.polled ++ [(i, b)] })) gq).count ⟨0x107, 1, some (gq / 8), none, none⟩))) ∧
      (bitsAt (leNat b) 23 1 ≠ phaseOf i (depthLog s gq) → exec (.poll gq) s = .next (settle
        (timerCheck ((s1.setQueue gq (fun q => { q with stale := true })).count ⟨0x106, 1, some (gq / 8), none, none⟩) gq)))) ∧
    (s.halted = false → s.flag F.weirCtl_hold 0 = false → s.fld F.fanStatus_jobs 0 + (s.issued.filter (fun r => eFirst r.data)).length < 8192 →
      (knownQueues s).any (eligibleButCredit s) = true → ∀ qs a0 t any, (qs, a0) = (match s.fan.passAt with
        | none => (knownQueues s, false)
        | some (q, a) => ((knownQueues s).filter (fun k => decide (q ≤ k)), a)) →
      qs.foldl visit ({ s with fan := { s.fan with passAt := none } }, a0) = (t, any) →
      exec .weirPass s = .next (settle (if any || t.fan.passAt.isSome then t else roundEnd t))) ∧
    (∀ rd rest t, s.issued = rd :: rest → t = queueFlags { s with issued := rest } rd.gq → rd.gen = s.fld F.slcGen_generation (rd.gq / 8) →
      s.fld F.slcCfg_state (rd.gq / 8) ≠ 3 → sliceStopped s (rd.gq / 8) = false →
      (∀ code, rd.fault = some code → exec .entryFetch s = .next (settle (haltSlice t (rd.gq / 8) (rd.gq % 8) rd.index 1 code 0))) ∧
      (∀ x, rd.fault = none → x = entryCtx t rd →
        (∀ reason, entryReason operandForm t x = some reason → exec .entryFetch s = .next (settle (malformed t x reason))) ∧
        (∀ c, entryReason operandForm t x = none → eFirst x.e = false → x.chain = some c → exec .entryFetch s = .next (settle
          (timerCheck (drainChain (firstFetched (follow t x c) x) rd.gq) rd.gq))) ∧
        (entryReason operandForm t x = none → eFirst x.e = true ∨ x.chain = none → exec .entryFetch s = .next (settle
          (timerCheck (drainChain (firstFetched (handover t x notBeforeOf) x) rd.gq) rd.gq))))) ∧
    (∀ gq t0 t, (s.queue gq).timer = some t0 → s.fan.timers.head?.any (· != gq) = false →
      t = clockTo s ((s.cycle / 1600 + (t0 + s.fld F.wqChainTimeout_ticks 0 - s.reg .fanTick 0)) * 1600) →
      (∀ c, timerDue t gq = true → (t.queue gq).chain = some c → exec (.chainTimeout gq) s = .next (settle
        ((failJob (closeChain t gq) c.job ⟨0x90, 0, c.count⟩).count ⟨0x109, 1, some (gq / 8), none, none⟩))) ∧
      (timerDue t gq = false → exec (.chainTimeout gq) s = .next (settle (timerStop t gq))))

/-- Tasks are created and dispatched (04 R125, R127, R130, R133 to R135, R142, R143, 05 R162): the job created next gains its next task; a waiting task of no producers
becomes ready, and joins its home mill's list or waits in its affinity window; the first job of a delay list leaves at its tick; a task whose window ends takes its stone where that is idle in
the window's last cycle, else joins its list; an idle stone takes the highest-ranked
task of its mill's list, the task whose flow it served last, or, where that list is empty, the tail of the first list longer than the threshold. -/
def Obligations.DispatchEvents : Prop :=
  ∀ s : State,
    (∀ j, nextCreate s = some j → j.pipe = none → s.fld F.fanStatus_tasks 0 < 32768 → producersOf j j.created = [] → ∀ t : Task,
      t = { job := j.id, part := j.created, engine := engineOf j.hdr.op, state := .waiting, producers := [], counter := none, seq := 0,
            home := 0, interactive := jobInteractive s j, prio := j.hdr.prio, stop := false } →
      exec .taskCreate s = .next (settle (fanCounts (({ s with fan := { s.fan with tasks := s.fan.tasks ++ [t] } }.setJob j.id (fun j =>
        { j with created := j.created + 1 })).count ⟨0x200, 1, some j.slice, none, none⟩)))) ∧
    (∀ j pj p s1, nextCreate s = some j → j.pipe = some pj → s.fld F.fanStatus_tasks 0 < 32768 → (readPart j pj j.created).exec s = (p, s1) →
      exec .taskCreate s = .next (settle (match p with
        | .error e => failJob s1 j.id e.toOutc
        | .ok p => createTask (s1.setJob j.id (fun j => { j with pipe := j.pipe.map (fun pj => { pj with
            parts := pj.parts.take j.created ++ [p] }) })) producersOf))) ∧
    (∀ job part j t home s2, s.job job = some j → s.task job part = some t → t.state = .waiting → t.producers = [] → t.stop = false →
      projStops s j = false → projHeld s j = false → s.fld F.slcCfg_state j.slice = 1 → j.pipe = none →
      homeMill s j (taskInput j part) = (home, s2) → ∀ s4,
      s4 = (fanCounts (s2.setTask job part (fun t => { t with
        home := home, seq := s2.cycle, interactive := jobInteractive s2 j, prio := j.hdr.prio, counter := none,
        tapWait := (tapAsk j part).isSome, state := .affinity (s2.cycle + s2.fld F.fanAffinity_window 0) }))).count
          ⟨0x201, 1, some j.slice, none, none⟩ →
      (j.hdr.flow = none → exec (.taskReady job part) s = .next (settle (enterList s4 job part (t.counter.getD 0)))) ∧
      (∀ f, j.hdr.flow = some f → t.engine = .stone → s2.flag F.fanFlowCfg_last_valid f = true → 0 < s2.fld F.fanAffinity_window 0 →
        exec (.taskReady job part) s = .next (settle s4))) ∧
    (∀ id j d tick, s.job id = some j → j.delay = some (d, tick) → (∀ k ∈ s.fan.jobs, delayBefore k j = false) → exec (.delayOut id) s = .next (settle
      (leaveDelay (clockTo s ((s.cycle / 1600 + (tick - s.reg .fanTick 0)) * 1600)) id))) ∧
    (∀ stone t j, stoneIdle s stone = true → stoneClaimed s stone = false → s.halted = false → topTask (readyList s .stone (stone / 8)) = some t →
      s.job t.job = some j → exec (.dispatchHome .stone stone) s = .next (settle
        (startIdle (dispatched s stone j t 4 (stone / 8) 0x203) stone j t))) ∧
    (∀ unit t j, unit < 16 → s.quern unit = none → s.halted = false →
      topTask ((readyList s .quern unit).filter (engineGrantable s .quern)) = some t → t.tapWait = false → s.job t.job = some j →
      exec (.dispatchHome .quern unit) s = .next (settle
        (quernDispatch (s.setTask t.job t.part (fun t => { t with state := .placed unit })) j t.part unit))) ∧
    (∀ job part j t cyc f stone, s.job job = some j → s.task job part = some t → t.state = .affinity cyc → s.cycle ≤ cyc → t.stop = false → j.hdr.flow = some f →
      stone = s.fld F.fanFlowCfg_last_stone f → s.flag F.fanFlowCfg_last_valid f = true → stoneIdle s stone = true → s.halted = false →
      exec (.dispatchAffinity job part) s = .next (settle (startIdle (dispatched s stone j t 3 t.home 0x202) stone j t))) ∧
    (∀ job part t cyc, s.task job part = some t → t.state = .affinity cyc →
      ∀ s1, s1 = dispatchAffinity (clockTo s cyc) job part →
      (∀ u c, s1.task job part = some u → u.state = .affinity c →
        exec (.affinityWindowEnd job part) s = .next (settle (enterList s1 job part 0))) ∧
      ((∀ u c, s1.task job part = some u → u.state ≠ .affinity c) → exec (.affinityWindowEnd job part) s = .next (settle s1))) ∧
    (∀ stone n m t j, stealThreshold s = some n → stoneIdle s stone = true → stoneClaimed s stone = false → s.halted = false → readyList s .stone (stone / 8) = [] →
      (millOrder (stone / 8)).find? (fun m => decide (n < (readyList s .stone m).length)) = some m →
      tailTask (readyList s .stone m) = some t → s.job t.job = some j →
      exec (.steal stone) s = .next (settle (startIdle (dispatched s stone j t 5 m 0x204) stone j t)))

/-- A stone between its instructions (05 R156, R185, R186, R189, R190, R193, 07 R244 to R250, R254, 17 R547): DECODE admits the next batch into an empty first stage; a stage
passes on a batch whose step has ended, runs its step on one it holds, and takes the next from the link behind, and an array's uncorrectable
error fails the job with DEVICE_FAULT of its class; an INTERACTIVE task at its list's
head, with no stone of its mill idle, is assigned to the lowest stone that runs a pre-emptable BATCH task, which parks at a batch boundary; a stopped task
at such a boundary is gone and its stone free; a merge unit does its task's work of the descriptor's mode once, after the last batch; a requested preempt_cols takes
effect while no job is in the job table. -/
def Obligations.StageEvents : Prop :=
  ∀ s : State,
    (∀ n r c f, (s.stone n).run = some r → ctxOf s n r 1 1 0 = some c → r.freeFrame = some f → mayStep s n r = true → r.next < r.total →
      (r.stage 1).batch = none →
      (∀ t, admitOps c f r.next s = .ok () t → exec (.batchAdmit n) s = .next (settle t)) ∧
      (∀ e t, admitOps c f r.next s = .error e t → exec (.batchAdmit n) s = .next (settle (stoneError t r.job e)))) ∧
    (∀ n k r c, (s.stone n).run = some r → ctxOf s n r k 1 0 = some c → mayStep s n r = true → 1 ≤ k → k ≤ 6 →
      (∀ b x, (r.stage k).batch = some b → (r.stage k).stepped = true → exec (.stageStep n ⟨k, x⟩) s = .next (settle (passBatch s n k))) ∧
      (∀ b t, (r.stage k).batch = some b → (r.stage k).stepped = false → bodyOps c (r.stage k) s = .ok () t →
        exec (.stageStep n ⟨k, .clean⟩) s = .next (settle (passOn t n c.stage))) ∧
      (∀ b t, (r.stage k).batch = none → (r.stage k).link = some b → (r.stage k).stepped = false →
        bodyOps c Stage.empty (takeBatch s c k b) = .ok () t → exec (.stageStep n ⟨k, .clean⟩) s = .next (settle (passOn t n c.stage))) ∧
      (∀ b c1, (r.stage k).batch = some b → (r.stage k).stepped = false → c1 = { c with num := (stageTurn c (r.stage k)).1 } →
        ∀ x ∈ [(StoneCheck.hopper, 1), (.registerBank, 2), (.programCache, 3)], exec (.stageStep n ⟨k, x.1⟩) s =
          .next (settle (stepFault (recordStnFault s c1 (.device x.2)) c1 (.device x.2))))) ∧
    (∀ mill t j n, mill < 16 → topTask (readyList s .stone mill) = some t → s.job t.job = some j → t.interactive = true →
      (millStones mill).any (stoneIdle s) = false → lowestStone s ((millStones mill).filter (preemptable s j)) = some n →
      exec (.preempt mill) s = .next (settle
        (dispatched (s.setStone n (fun st => { st with wanted := some (t.job, t.part) })) n j t 0xB mill 0x206))) ∧
    (∀ n r j t, (s.stone n).run = some r → (s.stone n).wanted.isSome = true → runStops s r = false → (s.stone n).parked = none →
      atBoundary s r = true → wantedTask s n = some (j, t) → exec (.park n) s = .next (settle
        (beginRun (s.setStone n (fun st => { st with wanted := none, parked := some r, run := none })) n j t (64 - preemptP s) (preemptP s) 1))) ∧
    (∀ n r, (s.stone n).run = some r → (s.stone n).parked = none → runStops s r = true → atBoundary s r = true → exec (.taskStop n) s = .next (settle
      (freeStone (fanCounts (dropTasks (s.setStone n (fun st => { st with run := none })) (fun t => t.job == r.job && t.part == r.part))) n))) ∧
    (∀ x ∈ [((Instr.sortRun, 1, Machine.sortRun) : (Nat → Nat → Instr) × Nat × (Ctx → MergeCtx → Op Unit)), (.combine, 2, combineRuns),
        (.mergeUpdate, 3, Machine.mergeUpdate)],
      ∀ job part n r m c t, stoneOf s job part = some (n, r) → r.merge = some m → ctxOf s n r 6 0 0 = some c → m.desc.mode = x.2.1 →
      m.ended = false → r.drained = true → mayStep s n r = true →
      (x.2.2 c m s = .ok () t → exec (x.1 job part) s = .next (settle (t.setRun n (fun r => { r with
        merge := r.merge.map (fun m => { m with ended := true }) })))) ∧
      (∀ e, x.2.2 c m s = .error e t → exec (x.1 job part) s = .next (settle (stoneError (countFault t c e) job e)))) ∧
    (s.fld F.fanStatus_jobs 0 = 0 → exec .preemptColsApply s = .next (settle
      (s.setFld F.stnCfg_preempt_active 0 (s.fld F.stnCfg_preempt_cols 0)))) ∧
    (s.fld F.fanStatus_jobs 0 ≠ 0 → exec .preemptColsApply s = .next (settle s))

/-- Tasks complete and jobs release (01 R25, 02 R38, R41, 03 R88 to R92, 04 R127, R138, 05 R184, R191, 11 R411, 12 R413, R416, R423, 16 R517, R530): a stone's
task that has drained, and whose EPILOGUEs end well, ends and frees its stone; a Quern's, the Toll's and a channel's task ends with its engine; a held
task of a flow is released in its turn; a job with an outcome releases unless its transaction's members have not; the flush read of a BARRIER lets its
job go on; a Toll core absorbs the next ready context's block; a Quern writes its oldest staged block and stages the next; an error completion of a
host read fails its job, undoing the claims of a COMMIT. -/
def Obligations.CompletionEvents : Prop :=
  ∀ s : State,
    (∀ id part j t u, s.job id = some j → s.task id part = some t → t.state = .placed u → t.engine = .stone →
      ∀ n r c s1, stoneOf s id part = some (n, r) → mayStep s n r = true → r.drained = true → r.merged = true → ctxOf s n r 1 2 0 = some c →
      (runAll c 2).exec s = (.ok (), s1) → exec (.taskComplete id part) s = .next (settle (endTask (freeStone s1 n) id part))) ∧
    (∀ id part j t u, s.job id = some j → s.task id part = some t → t.state = .placed u → t.stop = false → j.outc = none →
      (∀ q x s1, t.engine = .quern → j.id = id → quernOf s id part = some (q, x) → x.ended = true → tapDone s x.ctx = true →
        (recordTap (j.req .toll) (some id) j.hdr.tag x.ctx).exec s = (.ok (), s1) →
        exec (.taskComplete id part) s = .next (settle (endTask (freeQuern s1 q) id part))) ∧
      (∀ q x, t.engine = .quern → j.id = id → quernOf s id part = some (q, x) → x.ended = true → x.ctx = none →
        exec (.taskComplete id part) s = .next (settle (endTask (freeQuern s q) id part))) ∧
      (t.engine = .sluice → j.id = id → engineChan s id part = none → exec (.taskComplete id part) s = .next (settle (endTask s id part))) ∧
      (∀ c s1, t.engine = .sluice → j.id = id → engineChan s id part = some c → (s.slu c).descs = [] → tapDone s (s.slu c).ctx = true →
        (recordTap (j.req .toll) (some id) j.hdr.tag (s.slu c).ctx).exec s = (.ok (), s1) →
        exec (.taskComplete id part) s = .next (settle (endTask (chanRelease s1 c) id part))) ∧
      (∀ o s1 s2, t.engine = .toll → chanFlows s id part = true → tollWork s j part = some (o, s1) → s2 = freeEngineChan s1 id part →
        j.id = id → o.status < 2 → exec (.taskComplete id part) s = .next (settle (endTask (s2.setJob id (fun k =>
          { k with sumHi := o.status, sumLo := o.result, pnr := decide (0x0402 ≤ j.hdr.op) })) id part))) ∧
      (∀ x s1, t.engine = .storage → j.id = id → volDrained s id = true → chanFlows s id part = true → x = tapCtx s id part →
        tapDone s x = true → (recordTap (j.req .toll) (some id) j.hdr.tag x).exec s = (.ok (), s1) →
        exec (.taskComplete id part) s = .next (settle (endTask (freeEngine s1 id part) id part)))) ∧
    (∀ id part j t, s.job id = some j → s.task id part = some t → t.state = .complete → flowTurn s j part = true →
      exec (.flowRelease id part) s = .next (settle (jobEnd (releaseTask (s.trace { (j.traceOf s 7) with
        part := part, counter := 0, mill := t.home }) id part) id))) ∧
    (∀ id j o, s.job id = some j → j.outc = some o → commitWaits s j = false →
      (∀ k, (tryRelease s id).job id = some k → exec (.jobRelease id) s = .next (settle (tryRelease s id))) ∧
      ((tryRelease s id).job id = none → exec (.jobRelease id) s = .next (settle (afterRelease (tryRelease s id) j o)))) ∧
    (∀ id j, s.job id = some j → j.flushing = true → exec (.barrierFlushDone (.job id)) s = .next (settle
      (jobRelease (s.setJob id (fun j => { j with flushing := false, flushed := true })) id))) ∧
    (∀ c d ds, (s.slu c).descs = d :: ds → (s.slu c).flushing = true → exec (.barrierFlushDone (.channel c)) s = .next (settle
      (descDone (s.setSlu c (fun x => { x with flushing := false, unflushed := false })) c d))) ∧
    (∀ x, exec (.hostReadCompletion x false) s = .next (settle s)) ∧
    (∀ id j u, s.job id = some j → u = s.count ⟨0x906, 1, some j.slice, none, none⟩ →
      (j.txn = none → exec (.hostReadCompletion (.job id) true) s = .next (settle (failJob (stoneReadFault u id (.device 6)) id ⟨0xF0, 6, 0⟩))) ∧
      (∀ t, j.txn.bind s.txn = some t → t.job = some id → t.state = .ready → s.mpd.ready.contains t.num = true →
        exec (.hostReadCompletion (.job id) true) s = .next (settle (finishJob (claimsUndone u t.num) id ⟨0xF0, 6, 0⟩)))) ∧
    (∀ l, isHost (l * 64) = true → s.gran.hostErr.contains l = false → exec (.hostReadCompletion (.line l) true) s =
      .next (settle { s with gran := { s.gran with hostErr := s.gran.hostErr ++ [l] } })) ∧
    (∀ q x j t s0 y blk rest, s.quern q = some x → s.job x.job = some j → s.task x.job x.part = some t → t.stop = false → x.ended = false →
      chanFlows s x.job x.part = true → s0 = fillStaging s q → s0.quern q = some y → y.bufs = blk :: rest →
      (∀ s1 s2, blk.fault = none → writeStaged j q y blk s0 = .ok () s1 →
        s2 = stageTap (addTotals (s1.setQuern q (some { y with
          block := y.block + 1, dst := y.dst + blk.out.length, bufs := rest, ended := rest.isEmpty })) j.id blk.out.length) y.ctx blk.tapped →
        exec (.blockStaged q) s = .next (settle (if rest.isEmpty then closeTap s2 y.ctx else s2))) ∧
      (∀ o s2, blk.fault = some (o.status, o.detail, o.result) →
        s2 = (if j.hdr.op = 0x0301 && isBlockErr o then quernError s0 q j o else s0) →
        exec (.blockStaged q) s = .next (settle (dropTask (freeQuern (failJob s2 x.job o) q) x.job x.part)))) ∧
    (∀ q x j b s1, s.quern q = some x → s.job x.job = some j → x.bufs.length < 2 → moreBlocks j x = true →
      (if j.hdr.op = 0x0301 then unblock j q x else codeBlock j q x).exec s = (.ok b, s1) → fillStaging s q =
        s1.setQuern q (some { x with next := x.next + 1, src := x.src + b.used, bufs := x.bufs ++ [b] })) ∧
    (∀ core n c s0, core < 8 → nextCtx s = some n → s.ctx n = some c → s0 = { s with units := { s.units with lastCtx := n } } →
      (c.tap.isSome = true → exec (.blockAbsorb core) s = .next (settle (ctxTurn s0 n c))) ∧
      (∀ y j, c.tap = none → c.job = some y → s.job y.1 = some j →
        (∀ c1 s1, (stageBlock j n c).exec s0 = (.ok c1, s1) → exec (.blockAbsorb core) s = .next (settle (ctxTurn s1 n c1))) ∧
        (∀ e s1, (stageBlock j n c).exec s0 = (.error e, s1) → exec (.blockAbsorb core) s = .next (settle
          (failJob (s1.setCtx n none) j.id e.toOutc)))))

/-- The commit unit and the journal (09 R301, R303, R304, R308, R309, R312, R320 to R323, R342, R345, 10 R369, R381, R382): the first record that need not wait, and waits behind no other of
its transaction, joins the open group; a transaction whose claims are made gains its COMMIT record and its epoch, and one that loses a claim is void; a group closes at its interval; the oldest
SEAL in flight becomes durable; the next durable epoch is published, its stamps replaced before MPD_EPOCH moves, and not while one stands (the model's choice for a stamp that faults, log 82); an owed record of the lowest epoch is
applied to a volume's projection, and a full one is reported once; a replay that ends has applied every committed record above the checkpoint in
epoch order. -/
def Obligations.JournalEvents : Prop :=
  ∀ s : State,
    (∀ a n b r s1 s2, s.mpd.joinQ = a ++ n :: b → mayJoin s = true → (∀ x ∈ a, joinBlocked s x = true ∧ x.txn ≠ n.txn) → joinBlocked s n = false →
      joinNow { s with mpd := { s.mpd with joinQ := s.mpd.joinQ.erase n } } n = (r, s1) → s2 = waitFlags s1 →
      (n.job = none → exec .recordJoin s = .next (settle s2)) ∧
      (∀ id s3, n.job = some id → s3 = s2.setJob id (fun j => { j with
          pnr := true, progress := j.progress + 1, sumHi := if n.commit then max j.sumHi r.epoch else j.sumHi }) →
        ((s3.job id).any (fun j => j.hdr.op / 256 == 5) = false → exec .recordJoin s = .next (settle s3)) ∧
        ((s3.job id).any (fun j => j.hdr.op / 256 == 5) = true → exec .recordJoin s = .next (settle (volumeEnd s3 id))))) ∧
    (mayJoin s = true → (∀ x ∈ s.mpd.joinQ, joinBlocked s x = true) → exec .recordJoin s = .next (settle (waitFlags s))) ∧
    (∀ n rest t s0 job, s.mpd.ready = n :: rest → s.txn n = some t → mayJoin s = true → s.mpd.joinQ.any (fun r => r.txn == n) = false →
      s0 = { s with mpd := { s.mpd with ready := rest } } → job = t.job.getD 0 →
      (∀ s1 r s2, (claimAll t (claimsOf s n)).exec s0 = (.ok .made, s1) →
        joinNow s1 { JNew.bare kCommit with
          txn := n, slice := t.slice, queue := t.gq % 8, tag := ((s1.job job).map (·.hdr.tag)).getD 0,
          aux := (s1.mpd.recs.filter (fun r => r.inTxn n && !r.dead)).length } = (r, s2) →
        ∀ s3, s3 = (commitMade s2 n r.epoch).setJob job (fun j => { j with pnr := true }) → exec .commitClaims s = .next (settle
          (outcomeAt (s3.count ⟨0xB05, 1, some t.slice, none, none⟩) job ⟨0, 0, commitResult s3 job r.epoch⟩ r.epoch))) ∧
      (∀ s1 e, (claimAll t (claimsOf s n)).exec s0 = (.ok (.lost e), s1) → exec .commitClaims s = .next (settle
        (outcomeAt ((claimsUndone s1 n).count ⟨0xB07, 1, some t.slice, none, none⟩) job ⟨0x70, 0, e⟩ e)))) ∧
    (∀ g, s.mpd.grp = some g → s.flag F.mpdStatus_pwr_fail 0 = false → exec .groupClose s = .next (settle
      (closeGroup (clockTo s (g.opened + g.closeUs * 1600)) true))) ∧
    (∀ g r, s.mpd.closed.find? (fun g => !g.durable) = some g → g.sealRec = some r →
      exec .sealDurable s = .next (settle ({ s with mpd := { s.mpd with closed := s.mpd.closed.map (fun (x : Group) =>
        if x.epoch = g.epoch then { x with durable := true } else x) } }))) ∧
    (∀ g rest s1 s2, s.mpd.closed = g :: rest → g.durable = true → s.flag F.mpdStatus_pwr_fail 0 = false →
      s1 = g.commits.foldl (fun s n => replaceStamps s g.epoch n) s → (g.commits.any (stampsOwed s1) = true →
        exec .epochPublish s = .next (settle s1)) ∧ (g.commits.any (stampsOwed s1) = false →
      s2 = (({ s1 with mpd := { s1.mpd with closed := rest } } : State).setReg .mpdEpoch 0 g.epoch).count ⟨0xB04, 1, none, none, none⟩ →
      exec .epochPublish s = .next (settle (truncate (updateLow (wakeFlushes (wakeOutcomes (raiseApplied
        ((s2.mpd.recs.filter (fun r => r.fate == some g.epoch)).foldl markDirty s2))))))))) ∧
    (∀ v k p e r, s.flag F.mpdStatus_replay_done 0 = true → s.halted = false → s.vols.projs.find? (fun x => x.1 == v) = some (k, p) →
      s.vol v = some e → firstByEpoch (s.mpd.recs.filter (applyOwed s v)) = some r → keyLost s e = false →
      (∀ s1, (applyJournal p e (volKey s e) r (r.fate.getD 0)).exec s = (.ok true, s1) → exec (.projectionApply v) s = .next (settle
        (reclaimNow (raiseApplied (((markApplied s1 r.seq).setFlag F.volState_proj_full v false).count ⟨0xB08, 1, none, none, none⟩)) v))) ∧
      (∀ s1, (applyJournal p e (volKey s e) r (r.fate.getD 0)).exec s = (.ok false, s1) → exec (.projectionApply v) s = .next (settle
        (reclaimNow (if s.flag F.volState_proj_full v then s1 else (s1.setFlag F.volState_proj_full v true).devEvent 0x0A03 v) v)))) ∧
    (∀ rs, s.flag F.mpdStatus_replay_busy 0 = true →
      rs = s.mpd.recs.filter (fun r => !r.dead && (r.kind == kRow || r.kind == kRowDelete || ((r.kind == kSector || r.kind == kTrim) && recCounts s r)) &&
        (match r.fate with
          | some e => decide (s.reg .mpdCkpt 0 < e ∧ e ≤ s.reg .mpdEpoch 0)
          | none => false)) →
      exec .replayDone s = .next (settle (((((raiseApplied (replayAll [] (byEpoch rs) s)).setFlag F.mpdStatus_replay_busy 0 false).setFlag
        F.mpdStatus_replay_done 0 true).devEvent 0x0904 0))))

/-- The storage ports and the volumes' copies (10 R359, R367, R378, R385, R387): write-back of a drive LBA issues its newest committed image to every ONLINE port
that holds it; a completed command transfers its data and acts, a failed READ goes to the partner, another error is retried three times and then marks the port
OFFLINE; a command past its timeout is retried once, and a retry that fails marks the port OFFLINE; an ended rebuild or resumed operation is cleared
and reported, and the rebuild of a column that waited starts. -/
def Obligations.DriveEvents : Prop :=
  ∀ s : State,
    (∀ v g e seqs ports img s1, s.vol v = some e → e.table = false → s.readOnly = false →
      (∀ o, s.volOp v = some o → o.op = 3 ∨ o.phase ≠ 1) → seqs = (((e.sectorsAt g).map (dirtyAt s v)).filter (· != 0)).eraseDups → seqs ≠ [] →
      (∀ c ∈ s.vols.cmds, c.vol = v → c.g = g → c.use ≠ .rewrite ∧ ∀ q, c.use ≠ .writeback q) →
      ports = (e.portsOf g).filter (portUp s) → ports ≠ [] → landImage s v g e = (img, s1) →
      exec (.writeback v g) s = .next (settle (ports.foldl (fun t p => issueCmd t (match img with
        | some b => cmdOf e p v g 1 b (.writeback seqs)
        | none => cmdOf e p v g 2 [] (.writeback seqs))) s1))) ∧
    (∀ port id c s0 s1 s2, s0 = startTransfers s → queuedCmd s0 port id = some c → cmdFlows s0 c = true → s1 = dropCmd s0 id →
      ∀ n sl, n = (if c.op ≤ 1 then 4096 * c.n else 0) → sl = cmdSlice s0 c →
      s2 = (((s1.count ⟨0xA00 + port, 1, sl, none, none⟩).count ⟨0xA08 + port, n, sl, none, none⟩).count
        ⟨0xA12, cmdImages c, none, none, none⟩).bwAdd (14 + port) n →
      (cmdStale s1 c = false → exec (.driveComplete port id .ok) s = .next (settle (cmdDone (transfer s2 c) c))) ∧
      (∀ job mask failed, cmdStale s1 c = false → c.use = .read job mask failed →
        exec (.driveComplete port id .mediaError) s = .next (settle (readFailed s2 c job mask failed))) ∧
      (∀ r, cmdStale s1 c = false → (r = .otherError ∨ (r = .mediaError ∧ ∀ job mask failed, c.use ≠ .read job mask failed)) →
        exec (.driveComplete port id r) s = .next (settle
          (if c.tries < 3 then issueCmd s2 { c with tries := c.tries + 1 }
            else portDown { s2 with vols := { s2.vols with cmds := s2.vols.cmds ++ [c] } } port))) ∧
      (∀ slice gen r, c.use = .late slice gen → exec (.driveComplete port id r) s = .next (settle
        (lateDiscard (if r = .ok ∧ c.op ≠ 0 then transfer s2 c else s2) slice)))) ∧
    (∀ port id c, queuedCmd s port id = some c → ∀ t,
      t = (s.count ⟨0xA10, 1, none, none, none⟩).count ⟨0xA11, 1, none, none, none⟩ →
      exec (.commandTimeout port id false) s = .next (settle (portDown t port)) ∧
      exec (.commandTimeout port id true) s = exec (.driveComplete port id .ok) t) ∧
    (∀ v o s1, s.volOp v = some o → s1 = recordProgress (s.setVolOp v none) v → ∀ i code arg,
      ((i = Instr.rebuildDone v ∧ code = 0x0A04 ∧ arg = o.port * 256 + v ∧ o.op = 3 ∧ o.resumed = false ∧ o.units ≤ o.next) ∨
       (i = .volumeOpDone v ∧ code = 0x0A01 ∧ arg = o.op * 256 + v ∧ o.resumed = true ∧ o.op ≠ 4 ∧ o.phase = 1 ∧ o.units ≤ o.next ∧
        ∀ c ∈ s.vols.cmds, c.vol = v → c.use ≠ .op)) →
      ((∀ p ∈ o.more, portUp s1 p = false) → exec i s = .next (settle (s1.devEvent code arg))) ∧
      (∀ e p, s1.vol v = some e → o.more.find? (portUp s1) = some p →
        exec i s = .next (settle ((startRebuild s1 v e p (o.more.filter (· != p))).devEvent code arg))))

/-- The Sluice's events (16 R517, R519, R520, R522 to R525, R530): a running channel with a mover, or with no byte left, moves the rest of its
descriptor and completes it, or waits for its flush read; where a mover's burst has ended it goes to the ready channel next in rank; a HIGH or URGENT
channel takes the mover of a lower one at a beat of its burst; a rising line starts the channels that wait for it. -/
def Obligations.ChannelEvents : Prop :=
  ∀ s : State,
    (∀ c d ds x, x = s.slu c → x.descs = d :: ds → x.flushing = false → x.moved = false →
      s.fld F.sluChStatus_state c = 1 ∨ s.fld F.sluChStatus_state c = 4 →
      d.len ≤ x.wrote ∨ x.mover.isSome = true → x.job = none ∨ (∃ y j, x.job = some y ∧ s.job y.1 = some j ∧ s.fld F.slcCfg_state j.slice ≠ 3) →
      (∀ t, (moveDesc registerIo c d).exec s = (.ok (), t) →
        (d.barrier = true → (t.slu c).unflushed = true → exec (.descriptorComplete c) s = .next (settle (((hostRequest (t.setSlu c (fun x =>
          { x with flushing := true, moved := true, mover := none })) (some (chanReq t c).slice)).countReq (chanReq t c) 0x905 1).countReq
            (chanReq t c) 0xE04 1))) ∧
        (d.barrier = false ∨ (t.slu c).unflushed = false → exec (.descriptorComplete c) s = .next (settle (descDone t c d)))) ∧
      (∀ e t, (moveDesc registerIo c d).exec s = (.error e, t) → exec (.descriptorComplete c) s = .next (settle (match (t.slu c).job with
        | some y => dropTask (failJob (chanRelease t c) y.1 e.toOutc) y.1 y.2
        | none => chanFault t c e.toOutc)))) ∧
    (∀ m s1, m < 4 → s1 = sampleLines (startTransfers (startArmed (endBurst registerIo s m))) →
      (∀ c, nextGrant s1 m = some c →
        (moverOwner s1 m = none ∨ moverOwner s1 m = some c → exec (.moverGrant m) s = .next (settle (giveMover s1 c m))) ∧
        (∀ o, moverOwner s1 m = some o → o ≠ c → exec (.moverGrant m) s = .next (settle (giveMover (loseMover s1 o 3) c m)))) ∧
      (nextGrant s1 m = none → exec (.moverGrant m) s = .next (settle s1))) ∧
    (∀ c n o m s1, (∀ k, k < 4 → (moverOwner s k).isSome = true) → beatReady s c = true → (s.slu c).mover = none → 2 ≤ chanLevel s c →
      preemptVictim s c = some (o, m) → s1 = moveBeats registerIo s o n →
      ((s1.slu o).mover = some m → exec (.moverPreempt ⟨c, n⟩) s = .next (settle
        ((giveMover (loseMover s1 o 3) c m).countReq (chanReq s c) 0xE02 1))) ∧
      ((s1.slu o).mover ≠ some m → exec (.moverPreempt ⟨c, n⟩) s = .next (settle (giveMover s1 c m)))) ∧
    (∀ l t, t = { s with units := { s.units with lines := tset (fun _ => true) s.units.lines l true } } →
      exec (.requestLine l true) s = .next (settle ((t.units.chans.filter (fun x =>
        x.2.line == some l && t.fld F.sluChStatus_state x.1 == 2)).foldl (fun t x => t.setFld F.sluChStatus_state x.1 1) t))) ∧
    (∀ l, exec (.requestLine l false) s = .next (settle
      { s with units := { s.units with lines := tset (fun _ => true) s.units.lines l false } }))

/-- Granary, DRAM and translation (13 R451, R462, Table 13.9, 14 R475, R476, R479, R482, R485, 15 R492, R495, R496, R498 to R500, R502 to R507): a checked line access goes on, counts a corrected
error, or fails its job on an uncorrectable one; a clean line read is fetched, a partial write reads and merges, and a poisoned or uncorrectable one fails its job; a write queue of 48
entries drains, and serves a read of a line that waits in it; a row closes; a refresh closes every row, at the fast rate for every channel while a DIMM is above 85 degrees; a temperature changes
the band; the patrol reads the next line; a drain, a maintenance operation and an invalidation end, and a draining Granary with nothing dirty is DISABLED at once. -/
def Obligations.MemoryEvents : Prop :=
  ∀ s : State,
    (∀ a, (isLocal s a.dpa || isHost a.dpa) = true → a.slice < 64 →
      (granFind s a.dpa = none ∨ a.check = .clean → exec (.lineFill a) s = .next (settle (lineStart s a))) ∧
      (∀ w, granFind s a.dpa = some w → a.check = .corrected → exec (.lineFill a) s = .next (settle
        (lineStart ((s.addSat F.grnErrCnt_corrected 0 1).count ⟨0x60B, 1, none, none, none⟩) a))) ∧
      (∀ k l, granFind s a.dpa = some (k, l) → a.check = .uncorrectable → l.dirty = false → exec (.lineFill a) s = .next (settle
        (lineStart (granError (s.setWay k none) l.line false) a))) ∧
      (∀ k l v t, granFind s a.dpa = some (k, l) → a.check = .uncorrectable → l.dirty = true → (s.setWay k none).drawFree = (v, t) →
        exec (.lineFill a) s = .next (settle (failAccess
          (granDrained (granError (dramWrite t noSlice l.line (natLE 64 v) true) l.line true)) a.job 4)))) ∧
    (∀ a, isLocal s a.dpa = true → a.merge = none → lineQueued s (a.dpa / 64) = true → poisoned s (a.dpa / 64) = false →
      exec (.dramRead a) s = .next (settle s)) ∧
    (∀ a t, isLocal s a.dpa = true → a.merge = none → t = dramFetch s (readOcc s a) a.dpa →
      lineQueued s (a.dpa / 64) = false ∨ poisoned s (a.dpa / 64) = true →
      (eccBad a.burst a.dpa = none → eccCorrected a.burst a.dpa = false → poisoned s (a.dpa / 64) = false →
        exec (.dramRead a) s = .next (settle t)) ∧
      (eccBad a.burst a.dpa = none → eccCorrected a.burst a.dpa = true → poisoned s (a.dpa / 64) = false → exec (.dramRead a) s = .next (settle
        (if a.speculative then t else correctedDemand t a.dpa))) ∧
      (eccBad a.burst a.dpa = none → a.speculative = false → poisoned s (a.dpa / 64) = true → exec (.dramRead a) s = .next (settle
        (failAccess ((dmcRecord t a.dpa 2 0 0).devEvent 0x0F02 0) a.job 5))) ∧
      (∀ kind mask, eccBad a.burst a.dpa = some (kind, mask) → a.speculative = false → exec (.dramRead a) s = .next (settle
        (failAccess (dramUncorrectable t a.dpa kind 0 mask (burstData t a.burst a.dpa)) a.job 5)))) ∧
    (∀ a b bytes, isLocal s a.dpa = true → a.merge = some b → bytes = b.take (64 - a.dpa % 64) →
      (lineQueued s (a.dpa / 64) = true ∨ bytes.length = 64 ∨ (eccBad a.burst a.dpa = none ∧ eccCorrected a.burst a.dpa = false) →
        exec (.dramRead a) s = .next (settle (dramMerge s (readOcc s a) a.dpa bytes))) ∧
      (lineQueued s (a.dpa / 64) = false → bytes.length ≠ 64 → eccBad a.burst a.dpa = none → eccCorrected a.burst a.dpa = true →
        exec (.dramRead a) s = .next (settle (correctedDemand (dramMerge s (readOcc s a) a.dpa bytes) a.dpa)))) ∧
    (∀ c, (48 ≤ (s.chan c).writes.length → exec (.writeDrain c) s = .next (settle (dramDrain s c))) ∧
      ((s.chan c).writes.length < 48 → exec (.writeDrain c) s = .next (settle s))) ∧
    (∀ c b, exec (.pageIdleClose c b) s = .next (settle (s.setChan c (fun d => { d with rows := tset (fun _ => 0) d.rows b 0 })))) ∧
    (∀ c temp s1 hot s2, c < 12 → s.flag F.dmcStatus_init_done 0 = true → (s.chan c).selfRefresh = false →
      s1 = (s.setFld F.dmcChStatus_dimm_temp c (ofSigned 8 temp)).setFld F.dmcChStatus_owed c 0 →
      hot = (List.range 12).any (fun k => decide (85 < dimmTemp s1 k)) →
      s2 = (List.range 12).foldl (fun t k => t.setFlag F.dmcChStatus_fast_refresh k hot) s1 →
      exec (.refresh c temp) s = .next (settle
        ((s2.setChan c (fun d => { d with rows := [] })).count ⟨0x71A, s2.fld F.dmcChStatus_ranks c, none, none, none⟩))) ∧
    (∀ c, c < 12 → s.flag F.dmcStatus_init_done 0 = true → (s.chan c).selfRefresh = false →
      exec (.zqCalibration c) s = .next (settle (s.setChan c (fun d => { d with zqDone := d.zqDone + 1 })))) ∧
    (∀ temp d b, delaySet s 1 = some d → b = bandNext d.low d.high temp (s.fld F.dmcStatus_band 0) → s.flag F.dmcStatus_init_done 0 = true →
      (b ≠ s.fld F.dmcStatus_band 0 → exec (.tempPoll temp) s = .next (settle (((List.range 12).foldl (fun t c => t.setChan c (fun d =>
        { d with rows := [] })) (s.setFld F.dmcStatus_band 0 b)).devEvent 0x0F04 0))) ∧
      (b = s.fld F.dmcStatus_band 0 → exec (.tempPoll temp) s = .next (settle s))) ∧
    (∀ check pos s1 s2, pos = s.reg .dmcScrubPos 0 → s.flag F.dmcScrub_enable 0 = true → s.flag F.dmcStatus_init_done 0 = true →
      (s.chan (dramChannel pos)).selfRefresh = false → isLocal s pos = true →
      s1 = dramFetch ((scrubIssue s).count ⟨0x71F, 1, none, none, some pos⟩) noSlice pos →
      s2 = s1.setReg .dmcScrubPos 0 (if pos + 64 < s.capacity then pos + 64 else 0) → poisoned s1 (pos / 64) = false → lineQueued s1 (pos / 64) = false →
      exec (.patrolRead check) s = .next (settle (match eccBad check pos with
        | some (kind, mask) => dramUncorrectable s2 pos kind 2 mask (burstData s2 check pos)
        | none => if eccCorrected check pos then ({ s2 with dram := { s2.dram with scrubHeld := some (pos / 64, dramLine s2 (pos / 64)) } } :
            State).count ⟨0x71E, 1, none, none, some pos⟩ else s2))) ∧
    (∀ c, c < 12 → s.flag F.dmcStatus_init_done 0 = true → s.flag F.dmcPwr_sr_req 0 = true → (s.chan c).selfRefresh = false →
      exec (.srReentry c) s = .next (settle (chanSleep s c))) ∧
    (s.fld F.grnStatus_state 0 = granDraining → exec .drainComplete s = .next (settle
      (granDrained ((heldWays s).foldl (fun t x => granClean t x.1 x.2) s)))) ∧
    (∀ t, t.fld F.grnStatus_state 0 = granDraining → t.fld F.grnStatus_dirty_lines 0 = 0 →
      granDrained t = (granDropAll t).setFld F.grnStatus_state 0 granDisabled) ∧
    (∀ t, t.fld F.grnStatus_state 0 ≠ granDraining ∨ t.fld F.grnStatus_dirty_lines 0 ≠ 0 → granDrained t = t) ∧
    (∀ m t, s.gran.maint = some m → t = (if m.op = 3 then (rangeLines m.base m.len).foldl (zeroLine m.base m.len) s
        else (heldWays s).foldl (maintLine m.op m.base m.len) s) →
      exec .maintComplete s = .next (settle (granDrained ((({ t with gran := { t.gran with maint := none } } : State).setFlag
        F.grnMaintBusy_busy 0 false).addWrap F.grnMaintBusy_completed 0 1)))) ∧
    exec (.invalComplete none) s = .next (settle (s.setFlag F.xltInval_busy 0 false)) ∧
    (∀ id j, s.job id = some j → j.hdr.op / 256 = 8 → j.started = true → j.outc = none →
      exec (.invalComplete (some id)) s = .next (settle (finishJob s id ⟨0, 0, 0⟩))) ∧
    (∀ b, exec (.atomicopRequesterEnable b) s = .next (settle ((s.setFlag F.xltCfg_atomic_req 0 b).setFlag F.xltCfg_host_ad_active 0
      ((s.setFlag F.xltCfg_atomic_req 0 b).flag F.xltCfg_host_ad 0 && (s.setFlag F.xltCfg_atomic_req 0 b).flag F.xltCfg_atomic_req 0))))

/-- Resets, OTP, keys, counters and buckets (17 R541, R548, R549, 19 R576, R581, R593, 20 R608, R610, R611): a slice reset whose slice is drained ends, and its job is OK; a
programming ends with PASS or FAIL; a key operation's slot changes as its record is durable; a verification restores the keys or consumes its challenge;
an owed wrap is reported; a bandwidth window ends with its ports' sums; a tick refills the buckets. -/
def Obligations.UnitEvents : Prop :=
  ∀ s : State,
    (∀ n r s1 s4 s5 s6, s.resets.find? (fun r => r.slice == n) = some r → s.halted = false → resetDone s n = true →
      s1 = (if r.report then (sliceQueues n).foldl (fun t q => reportQueue t q r.oldGen) s else s) →
      s4 = resetSliceRegs (clearFlows (purgePrograms (xltPurge (truncate (dropSliceJobs s1 n))
        { op := 1, stage1 := true, stage2 := true, slice := n, addr := 0, pages := 0 }) n) n) n →
      s5 = (if r.destroy then (((s4.resetReg .slcCfg n).resetReg .slcPasid n).resetReg .slcBwCfg n).setLimit n (0, 0) else bucketFill (s4.setFld F.slcCfg_state n 1) n) →
      s6 = (s5.addWrap F.slcGen_resets n 1).count ⟨0xF01, 1, some n, none, none⟩ →
      exec (.resetDrained n) s = .next (settle (finishJob { s6 with resets := s6.resets.filter (fun x => x.slice != n) } r.job
        ⟨0, 0, s6.fld F.slcGen_generation n + r.count % 2 ^ 32 * 2 ^ 16⟩))) ∧
    (∀ lost o t, s.otpOp = some o → t = (otpSettle s o lost).setFlag F.otpStatus_busy 0 false → exec (.otpProgrammed lost) s = .next (settle
      (otpResult t o.group o.gen (if otpPasses o.group o.gen (otpWord t o.group o.gen) then 1 else 2)))) ∧
    (∀ n k new s0, s.keyOp = some (n, k, new) → s0 = (writeKeyRec s n k).setSlot n k → exec .keyOpDone s = .next (settle
      (zeroKeyData (({ (if new then keyReplaced s0 n else s0) with keyOp := none } : State).setFlag F.brkKeyCtl_busy 0 false)))) ∧
    (∀ t, s.flag F.brkRestoreCtl_busy 0 = true → t = s.setFlag F.brkRestoreCtl_busy 0 false →
      (∀ good bad u, restoreOk s = true → unwrapAll t = (good, bad, u) → exec .keysRestored s = .next (settle
        (((keyHeader (consumeChallenge u) false (eraseCount s) ((restoreCount s + 1) % 2 ^ 32)).setFlag F.brkStatus_keys_erased 0 false).devEvent
          0x1303 (good + bad * 2 ^ 8)))) ∧
      (∀ k, restoreOk s = false → k = s.fld F.brkStatus_restore_failures 0 + 1 → exec .keysRestored s = .next (settle
        (((consumeChallenge (t.setFlag F.brkRestoreCtl_error 0 true)).setFld F.brkStatus_restore_failures 0 k).setFlag
          F.brkStatus_restore_locked 0 (decide (8 ≤ k)))))) ∧
    (∀ c, s.sckOwed.contains c = true → exec (.sckOverflow c) s = .next (settle ({ s with sckOwed := s.sckOwed.erase c }.devEvent 0x1401 c))) ∧
    (∀ stop s1 s2 s3, stop = s.bw.start + s.fld F.sckBwCfg_window_us 0 → s1 = clockTo s (1600 * stop) →
      s2 = (if s1.bw.clearPeak then s1.resetRegs (· == .sckBwPeak) else s1) → s3 = (List.range 22).foldl windowPort s2 →
      exec .windowEnd s = .next (settle { s3 with bw := { s3.bw with
        bytes := [], start := stop, clearPeak := false, seq := (s3.bw.seq + 1) % 2 ^ 24 } })) ∧
    exec .bucketRefill s = .next (settle (releaseHolds (nextTick s)))

/-- The System Management Bus (18 R562, R565, Table 18.4), answered while the device is on, at its address and with a right check byte: STATUS gives BOOT_STATUS, TEMP the
hottest sensor, STEP a step's record, CLEAR_BOOT clears records, DUMP_TRIGGER with 0xD5 is a fatal error; another request changes nothing. -/
def Obligations.SmbusCommands : Prop :=
  ∀ (s : State) (q : SmbusReq),
    (smbusAnswers s q = true →
      exec (.statusCmd q) s = .next (settle { s with answers := { s.answers with smbus := natLE 8 (regView s .bootStatus 0) } }) ∧
      exec (.tempCmd q) s = .next (settle { s with answers := { s.answers with smbus := natLE 2 (ofSigned 16 q.temp) } }) ∧
      (q.data = [0xD5] → s.boot.on = true → s.flag F.mpdStatus_pwr_fail 0 = false → exec (.dumpTriggerCmd q) s = .next (settle
        (stopTasks { s with halted := true, fatal := some 0x107 } (fun _ => true)))) ∧
      (q.data ≠ [0xD5] → exec (.dumpTriggerCmd q) s = .next (settle s)) ∧
      (∀ a b c d : Byte, q.data = [a.toNat, b.toNat, c.toNat, d.toNat] → exec (.clearBootCmd q) s = .next (settle
        (clearSteps s (leNat [a, b, c, d])))) ∧
      (∀ k, q.data = [k] → 1 ≤ k → k ≤ 31 → exec (.stepCmd q) s = .next (settle
        { s with answers := { s.answers with smbus := stepRecBytes s k } }))) ∧
    (smbusAnswers s q = false → ∀ i ∈ [Instr.statusCmd q, .tempCmd q, .dumpTriggerCmd q, .clearBootCmd q, .stepCmd q],
      exec i s = .next (settle s))

/-- Power, resets and pins (03 R113, 09 R336, 18 R553, R555, R564, R566, R568, 19 R586, R587, 22 R634, R638, R639, R644, R652): power brings up a board that is off, and its fall leaves what lasts without power; a
power failure runs its sequence; a reset of a device that is on reboots with its cause; a running step past its limit fails, after the others of
its group have ended; a fatal class halts the device and owes a dump; a sensor that newly trips does what its response says; therm_trip_n
follows 130 degrees; perst_n is released. -/
def Obligations.PowerCommands : Prop :=
  ∀ s : State,
    (∀ board s1 s2, s.boot.on = false → board.testEn = false → s1 = powerOff { s with boot := { s.boot with board := board } } →
      s2 = fitDrives s1 board →
      exec (.powerOn board) s = .next (settle
        (startBoot { s2 with boot := { s2.boot with on := true, perst := board.perstN } } true))) ∧
    (∀ board, s.boot.on = false → board.testEn = true →
      exec (.powerOn board) s = .next (settle (powerOff { s with boot := { s.boot with board := board } }))) ∧
    exec .pwrGoodFall s = .next (settle (powerOff s)) ∧
    (s.boot.on = true → s.flag F.mpdStatus_pwr_fail 0 = false → ∀ t, t = sealAll (s.setFlag F.mpdStatus_pwr_fail 0 true) →
      exec .pwrFail s = .next (settle { t with halted := true, boot := { t.boot with running := [] } })) ∧
    (s.boot.on = true → exec (.warmReset .perst) s = .next (settle (reboot s resetPerst 0 false)) ∧
      exec (.warmReset .hotReset) s = .next (settle (reboot s resetHot 0 false)) ∧
      exec .functionLevelReset s = .next (settle (reboot s resetFlr 0 true))) ∧
    (∀ k s1 failed, s.boot.running.contains k = true → bootWaits s = false →
      runSteps workDump (s.boot.running.filter (· != k)) s = (s1, failed) →
      exec (.bootStepTimeout k) s = .next (settle (failSteps s1 (failed ++ [(k, outTimeout, 0)])))) ∧
    (s.boot.on = true → s.flag F.mpdStatus_pwr_fail 0 = false →
      exec .millerWatchdog s = .next (settle (stopTasks { s with halted := true, fatal := some 0x105 } (fun _ => true))) ∧
      ∀ cls, 0x101 ≤ cls → cls ≤ 0x108 → exec (.fatalError cls) s = .next (settle
        (stopTasks { s with halted := true, fatal := some cls } (fun _ => true)))) ∧
    (∀ sensors live s0 halt s1, s.boot.on = true → s.boot.armed = true →
      s0 = sensorsLive s live →
      brakeApply s0 (sensors % 32 &&& (31 - s.fld F.brkStatus_tripped 0)) = (halt, s1) →
      exec (.brakeTrip sensors live) s = .next (settle (if halt then
        (if s.flag F.bootStatus_ready 0 then deviceHalt s1 0x106 else brakeBoot s1) else s1))) ∧
    (∀ temp, s.boot.on = true → 130 ≤ temp → exec (.thermTrip temp) s = .next (settle { s with boot := { s.boot with therm := true } })) ∧
    (∀ temp, temp < 130 → exec (.thermTrip temp) s = .next (settle s)) ∧
    (s.boot.on = true → exec .perstNRise s = .next (settle { s with boot := { s.boot with perst := true } }))

/-- An occurrence is counted (20 R595): where the counters are frozen nothing changes; else each counter that accepts it adds its number
modulo 2^48, and a wrap sets its overflow bit; one that does not accept it keeps its count; an overflow bit once set stays set; nothing
else moves but the wraps owed. -/
def Obligations.CountersCount : Prop :=
  ∀ (s : State) (o : Occ) (c : Nat), s.canon → c < 128 →
    (s.flag F.sckCtl_freeze 0 = true → s.count o = s) ∧
    (s.flag F.sckCtl_freeze 0 = false → sckAccepts s c o = true →
      (s.count o).fld F.sckCnt_count c = (s.fld F.sckCnt_count c + o.n) % 2 ^ 48 ∧
      (2 ^ 48 ≤ s.fld F.sckCnt_count c + o.n → (s.count o).flag (sckOvf c) 0 = true)) ∧
    (s.flag F.sckCtl_freeze 0 = false → sckAccepts s c o = false → (s.count o).fld F.sckCnt_count c = s.fld F.sckCnt_count c) ∧
    (s.flag (sckOvf c) 0 = true → (s.count o).flag (sckOvf c) 0 = true) ∧
    CountsOnly s (s.count o) ∧ ∀ q k, countFree q = true → k < 65536 → (s.count o).reg q k = s.reg q k
end

