-- ==== Sys2Proof/Laws/Tab.lean ====
section
/-! SUPPORT. Sparse tables: reading after writing, and the canonical form that every table operation keeps. -/

namespace Sys2Proof.Machine

variable {α : Type}

/-- A lower bound of the keys may be lowered. -/
theorem twfFrom_mono [DecidableEq α] {d : Nat → α} {t : List (Nat × α)} {lo lo' : Nat} (hl : lo' ≤ lo)
    (h : twfFrom d lo t = true) : twfFrom d lo' t = true := by
  cases t with
  | nil => rfl
  | cons c t =>
    obtain ⟨k, v⟩ := c
    simp only [twfFrom, Bool.and_eq_true, decide_eq_true_eq] at h ⊢
    exact ⟨⟨by omega, h.1.2⟩, h.2⟩

/-- A key below every listed key reads as its default. -/
theorem tget_below [DecidableEq α] {d : Nat → α} {t : List (Nat × α)} {lo k : Nat} (h : twfFrom d lo t = true) (hk : k < lo) :
    tget d t k = d k := by
  cases t with
  | nil => rfl
  | cons c t =>
    obtain ⟨k', v⟩ := c
    simp only [twfFrom, Bool.and_eq_true, decide_eq_true_eq] at h
    simp only [tget]
    rw [if_neg (by omega), if_pos (by omega)]

/-- Writing keeps the canonical form. -/
theorem twfFrom_tset [DecidableEq α] {d : Nat → α} {t : List (Nat × α)} {lo k : Nat} {v : α} (h : twfFrom d lo t = true)
    (hk : lo ≤ k) : twfFrom d lo (tset d t k v) = true := by
  induction t generalizing lo with
  | nil =>
    simp only [tset]
    split <;> simp_all [twfFrom]
  | cons c t ih =>
    obtain ⟨k', v'⟩ := c
    have h' := h
    simp only [twfFrom, Bool.and_eq_true, decide_eq_true_eq] at h
    simp only [tset]
    split
    · split
      · exact twfFrom_mono (by omega) h.2
      · subst k'; simp_all [twfFrom]
    · split
      · split
        · exact h'
        · simp only [twfFrom, Bool.and_eq_true, decide_eq_true_eq]
          refine ⟨⟨hk, by assumption⟩, ⟨by omega, h.1.2⟩, h.2⟩
      · simp only [twfFrom, Bool.and_eq_true, decide_eq_true_eq]
        exact ⟨h.1, ih h.2 (by omega)⟩

/-- Writing keeps the canonical form. -/
theorem twf_tset [DecidableEq α] {d : Nat → α} {t : List (Nat × α)} (k : Nat) (v : α) (h : twf d t = true) :
    twf d (tset d t k v) = true := twfFrom_tset h (Nat.zero_le k)

/-- Changing a key keeps the canonical form. -/
theorem twf_tupd [DecidableEq α] {d : Nat → α} {t : List (Nat × α)} (k : Nat) (f : α → α) (h : twf d t = true) :
    twf d (tupd d t k f) = true := twf_tset k _ h

/-- Dropping entries keeps the canonical form. -/
theorem twfFrom_filter [DecidableEq α] {d : Nat → α} {t : List (Nat × α)} {lo : Nat} (p : Nat × α → Bool)
    (h : twfFrom d lo t = true) : twfFrom d lo (t.filter p) = true := by
  induction t generalizing lo with
  | nil => exact h
  | cons c t ih =>
    obtain ⟨k, v⟩ := c
    simp only [twfFrom, Bool.and_eq_true, decide_eq_true_eq] at h
    simp only [List.filter]
    split
    · simp only [twfFrom, Bool.and_eq_true, decide_eq_true_eq]
      exact ⟨h.1, ih h.2⟩
    · exact twfFrom_mono (by omega) (ih h.2)

/-- Dropping entries keeps the canonical form. -/
theorem twf_filter [DecidableEq α] {d : Nat → α} {t : List (Nat × α)} (p : Nat × α → Bool) (h : twf d t = true) :
    twf d (t.filter p) = true := twfFrom_filter p h

/-- A key reads as it was written. -/
theorem tget_tset_same [DecidableEq α] {d : Nat → α} {t : List (Nat × α)} {lo k : Nat} {v : α} (h : twfFrom d lo t = true) :
    tget d (tset d t k v) k = v := by
  induction t generalizing lo with
  | nil =>
    simp only [tset]
    split
    · simp_all [tget]
    · simp [tget]
  | cons c t ih =>
    obtain ⟨k', v'⟩ := c
    have h' := h
    simp only [twfFrom, Bool.and_eq_true, decide_eq_true_eq] at h
    simp only [tset]
    split
    · split
      · rw [tget_below h.2 (by omega)]; simp_all
      · simp [tget]
    · split
      · split
        · simp only [tget]
          rw [if_neg (by omega), if_pos (by omega)]
          simp_all
        · simp [tget]
      · simp only [tget]
        rw [if_neg (by omega), if_neg (by omega)]
        exact ih h.2

/-- Writing a key leaves every other key as it was. -/
theorem tget_tset_other [DecidableEq α] {d : Nat → α} {t : List (Nat × α)} {lo k i : Nat} {v : α} (h : twfFrom d lo t = true)
    (hi : i ≠ k) : tget d (tset d t k v) i = tget d t i := by
  induction t generalizing lo with
  | nil =>
    simp only [tset]
    split
    · rfl
    · simp only [tget]
      rw [if_neg (by omega)]
      split <;> rfl
  | cons c t ih =>
    obtain ⟨k', v'⟩ := c
    simp only [twfFrom, Bool.and_eq_true, decide_eq_true_eq] at h
    simp only [tset]
    split
    · subst k'
      split
      · simp only [tget]
        rw [if_neg (by omega)]
        split
        · exact tget_below h.2 (by omega)
        · rfl
      · simp only [tget, if_neg (Ne.symm hi)]
    · split
      · split
        · rfl
        · simp only [tget]
          rw [if_neg (by omega)]
          by_cases h1 : i < k
          · rw [if_pos h1, if_neg (by omega), if_pos (by omega)]
          · rw [if_neg h1]
      · simp only [tget, ih h.2]

/-- Reading after writing. -/
theorem tget_tset [DecidableEq α] {d : Nat → α} {t : List (Nat × α)} (k i : Nat) (v : α) (h : twf d t = true) :
    tget d (tset d t k v) i = if i = k then v else tget d t i := by
  split
  · subst i; exact tget_tset_same h
  · exact tget_tset_other h (by assumption)

end Sys2Proof.Machine
end

