-- ==== Sys2Proof/Laws/Evolves.lean ====
section
/-! SUPPORT. Evolves is a preorder, how it passes through folds, branches and operations, and the accessors that touch what it speaks of. -/

namespace Sys2Proof.Machine

variable {α β : Type} {s0 s t : State}

theorem Evolves.refl (s : State) : Evolves s s :=
  ⟨rfl, Nat.le_refl _, id, List.prefix_rfl, fun _ h => ⟨h, fun _ _ => rfl⟩, id⟩

theorem Evolves.trans {a b c : State} (h : Evolves a b) (g : Evolves b c) : Evolves a c :=
  ⟨g.queue.trans h.queue, Nat.le_trans h.draws g.draws, fun x => g.canon (h.canon x), h.sent.trans g.sent,
   fun y x => ⟨(g.otp (h.canon y) (h.otp y x).1).1, fun k hk => by
     have e := (h.otp y x).2 k hk
     rw [← e] at hk ⊢
     exact (g.otp (h.canon y) (h.otp y x).1).2 k hk⟩, fun x => g.bar (h.bar x)⟩

/-- A change of other fields. -/
theorem evolves_same (h : Evolves s0 s) (hp : t.pending = s.pending) (hf : t.free = s.free) (hr : t.regs = s.regs)
    (hm : t.mem = s.mem) (hc : t.mpd.cells = s.mpd.cells) (ho : t.otp = s.otp) (hx : t.msix.sent = s.msix.sent)
    (hq : t.otpOp = s.otpOp) (hb : t.bar4 = s.bar4) : Evolves s0 t := by
  refine h.trans ⟨hp, Nat.le_of_eq hf.symm, ?_, ?_, ?_, ?_⟩
  · simp only [State.canon, hr, hm, hc, ho]; exact id
  · exact hx ▸ List.prefix_rfl
  · intro _ g
    simp only [State.otpFresh, State.otpAt, ho, hq] at g ⊢
    exact ⟨g, fun _ _ => trivial⟩
  · simp only [State.barLegal, hb]; exact id

/-- A change of the register file that keeps its canonical form, and of other fields. -/
theorem evolves_regs (h : Evolves s0 s) (hr : twf regReset s.regs = true → twf regReset t.regs = true)
    (hp : t.pending = s.pending) (hf : t.free = s.free)
    (hm : t.mem = s.mem) (hc : t.mpd.cells = s.mpd.cells) (ho : t.otp = s.otp) (hx : t.msix.sent = s.msix.sent)
    (hq : t.otpOp = s.otpOp) (hb : t.bar4 = s.bar4) : Evolves s0 t := by
  refine h.trans ⟨hp, Nat.le_of_eq hf.symm, ?_, ?_, ?_, ?_⟩
  · simp only [State.canon, hm, hc, ho]; exact fun g => ⟨g.1, hr g.2.1, g.2.2⟩
  · exact hx ▸ List.prefix_rfl
  · intro _ g
    simp only [State.otpFresh, State.otpAt, ho, hq] at g ⊢
    exact ⟨g, fun _ _ => trivial⟩
  · simp only [State.barLegal, hb]; exact id

/-- A change of memory that keeps its canonical form, and of other fields. -/
theorem evolves_mem (h : Evolves s0 s) (hm : Memory.wf s.mem = true → Memory.wf t.mem = true)
    (hp : t.pending = s.pending) (hf : t.free = s.free)
    (hr : t.regs = s.regs) (hc : t.mpd.cells = s.mpd.cells) (ho : t.otp = s.otp) (hx : t.msix.sent = s.msix.sent)
    (hq : t.otpOp = s.otpOp) (hb : t.bar4 = s.bar4) : Evolves s0 t := by
  refine h.trans ⟨hp, Nat.le_of_eq hf.symm, ?_, ?_, ?_, ?_⟩
  · simp only [State.canon, hr, hc, ho]; exact fun g => ⟨hm g.1, g.2⟩
  · exact hx ▸ List.prefix_rfl
  · intro _ g
    simp only [State.otpFresh, State.otpAt, ho, hq] at g ⊢
    exact ⟨g, fun _ _ => trivial⟩
  · simp only [State.barLegal, hb]; exact id

/-- States that agree in what Evolves speaks of evolve from the same states. -/
theorem evolves_congr (hp : t.pending = s.pending) (hf : t.free = s.free) (hr : t.regs = s.regs)
    (hm : t.mem = s.mem) (hc : t.mpd.cells = s.mpd.cells) (ho : t.otp = s.otp) (hx : t.msix.sent = s.msix.sent)
    (hq : t.otpOp = s.otpOp) (hb : t.bar4 = s.bar4) : Evolves s0 t ↔ Evolves s0 s :=
  ⟨fun h => evolves_same h hp.symm hf.symm hr.symm hm.symm hc.symm ho.symm hx.symm hq.symm hb.symm,
   fun h => evolves_same h hp hf hr hm hc ho hx hq hb⟩

/-- A record update of other fields, or of volatile parts of the Millpond and MSI-X. -/
theorem evolves_mk {m : Mpd} {x : Msix} {f1 f2 f3 f4 f5 f6 f7 f8 f9 f10 f11 f12 f13 f14 f15 f16 f17 f18 f19 f20 f21 f22 f23 f24 c}
    (hc : m.cells = s.mpd.cells) (hx : x.sent = s.msix.sent) :
    Evolves s0 { pending := s.pending, regs := s.regs, mem := s.mem, xlt := f1, gran := f2, dram := f3, msix := x, queues := f4,
                 issued := f5, tails := f6, fan := f7, pipe := f8, mpd := m, vols := f9, units := f10, keys := f11, keyOp := f12,
                 restoreBuf := f13, resets := f14, halted := f15, haltMsgs := f16, traceLog := f17, fatal := f18, readOnly := f19,
                 otp := s.otp, otpOp := s.otpOp, boot := f20, bar4 := s.bar4, answers := f21, bw := f22, sckOwed := f23,
                 events := f24, cycle := c, free := s.free } ↔ Evolves s0 s :=
  evolves_congr rfl rfl rfl rfl hc rfl hx rfl rfl

theorem evolves_ite {c : Prop} [Decidable c] {a b : State} (ha : Evolves s0 a) (hb : Evolves s0 b) :
    Evolves s0 (if c then a else b) := by split <;> assumption

theorem evolves_ite_fst {c : Prop} [Decidable c] {a b : State × α} (ha : Evolves s0 a.1) (hb : Evolves s0 b.1) :
    Evolves s0 (if c then a else b).1 := by split <;> assumption

theorem evolves_ite_snd {c : Prop} [Decidable c] {a b : α × State} (ha : Evolves s0 a.2) (hb : Evolves s0 b.2) :
    Evolves s0 (if c then a else b).2 := by split <;> assumption

theorem evolves_foldl {f : State → α → State} (h : Evolves s0 s) {l : List α} (hf : ∀ t x, Evolves s0 t → Evolves s0 (f t x)) :
    Evolves s0 (l.foldl f s) := by
  induction l generalizing s with
  | nil => exact h
  | cons x l ih => exact ih (hf s x h)

/-- A fold that carries a value before the state. -/
theorem evolves_foldl_snd {f : β × State → α → β × State} {p : β × State} {l : List α} (h : Evolves s0 p.2)
    (hf : ∀ q x, Evolves s0 q.2 → Evolves s0 (f q x).2) : Evolves s0 (l.foldl f p).2 := by
  induction l generalizing p with
  | nil => exact h
  | cons x l ih => exact ih (hf p x h)

/-- A fold that carries a value after the state. -/
theorem evolves_foldl_fst {f : State × β → α → State × β} {p : State × β} {l : List α} (h : Evolves s0 p.1)
    (hf : ∀ q x, Evolves s0 q.1 → Evolves s0 (f q x).1) : Evolves s0 (l.foldl f p).1 := by
  induction l generalizing p with
  | nil => exact h
  | cons x l ih => exact ih (hf p x h)

theorem pair_evolves {a : α} (h : Evolves s0 t) : Evolves s0 (a, t).2 := h

theorem evolves_snd {x : α × State} {a : α} (e : x = (a, t)) (h : Evolves s0 x.2) : Evolves s0 t := by subst e; exact h

theorem evolves_fst {x : State × α} {a : α} (e : x = (t, a)) (h : Evolves s0 x.1) : Evolves s0 t := by subst e; exact h

/-- The state that an operation leaves. -/
def stateOf : EStateM.Result Err State α → State
  | .ok _ s => s
  | .error _ s => s

/-- An operation that only evolves the state, whether it ends well or early. -/
structure Op.evolves (o : Op α) : Prop where
  from_any : ∀ s, Evolves s (stateOf (o s))

theorem op_evolves_from {o : Op α} (ho : o.evolves) (h : Evolves s0 s) : Evolves s0 (stateOf (o s)) := h.trans (ho.from_any s)

theorem evolves_ok {o : Op α} {a : α} (e : o s = .ok a t) (ho : o.evolves) (h : Evolves s0 s) : Evolves s0 t := by
  have g := op_evolves_from ho h
  rw [e] at g; exact g

theorem evolves_error {o : Op α} {a : Err} (e : o s = .error a t) (ho : o.evolves) (h : Evolves s0 s) : Evolves s0 t := by
  have g := op_evolves_from ho h
  rw [e] at g; exact g

theorem exec_evolves {o : Op α} (ho : o.evolves) (h : Evolves s0 s) : Evolves s0 (o.exec s).2 := by
  have g := op_evolves_from ho h
  unfold Op.exec
  split <;> simp_all [stateOf]

theorem evolves_exec {o : Op α} {x : Except Err α} (e : o.exec s = (x, t)) (ho : o.evolves) (h : Evolves s0 s) : Evolves s0 t :=
  evolves_snd e (exec_evolves ho h)

theorem quiet_evolves {o : Op Unit} (ho : o.evolves) (h : Evolves s0 s) : Evolves s0 (o.quiet s) := by
  have g := op_evolves_from ho h
  unfold Op.quiet
  split <;> simp_all [stateOf]

theorem pure_evolves (a : α) : (pure a : Op α).evolves := ⟨fun s => Evolves.refl s⟩

theorem throw_evolves (e : Err) : (throw e : Op α).evolves := ⟨fun s => Evolves.refl s⟩

theorem get_evolves : (get : Op State).evolves := ⟨fun s => Evolves.refl s⟩

theorem bind_evolves {x : Op α} {f : α → Op β} (hx : x.evolves) (hf : ∀ a, (f a).evolves) : (x >>= f).evolves := by
  constructor
  intro s
  have h := hx.from_any s
  show Evolves s (stateOf (EStateM.bind x f s))
  unfold EStateM.bind
  split
  · rename_i a s1 e
    rw [e] at h
    exact op_evolves_from (hf a) h
  · rename_i a s1 e
    rw [e] at h
    exact h

theorem upd_evolves {f : State → State} (hf : ∀ s, Evolves s (f s)) : (upd f).evolves := ⟨hf⟩

theorem modifyGet_evolves {f : State → α × State} (hf : ∀ s, Evolves s (f s).2) : (modifyGet f : Op α).evolves := ⟨hf⟩

theorem ask_evolves (f : State → α) : (ask f).evolves := ⟨fun s => Evolves.refl s⟩

theorem attempt_evolves {o : Op α} (ho : o.evolves) : (attempt o).evolves := by
  constructor
  intro s
  have h := ho.from_any s
  unfold attempt
  split <;> simp_all [stateOf]

theorem ite_op_evolves {c : Prop} [Decidable c] {a b : Op α} (ha : a.evolves) (hb : b.evolves) :
    (if c then a else b : Op α).evolves := by split <;> assumption

theorem mapM_evolves {f : α → Op β} {l : List α} (hf : ∀ a, (f a).evolves) : (l.mapM f).evolves := by
  rw [← List.mapM'_eq_mapM]
  induction l with
  | nil => exact pure_evolves _
  | cons a l ih => exact bind_evolves (hf a) fun b => bind_evolves ih fun c => pure_evolves _

theorem forM_evolves {f : α → Op PUnit} {l : List α} (hf : ∀ a, (f a).evolves) : (l.forM f).evolves := by
  induction l with
  | nil => exact pure_evolves _
  | cons a l ih => exact bind_evolves (hf a) fun _ => ih

theorem forIn_evolves {f : α → β → Op (ForInStep β)} {l : List α} {b : β} (hf : ∀ a b, (f a b).evolves) :
    (forIn l b f : Op β).evolves := by
  induction l generalizing b with
  | nil => rw [List.forIn_nil]; exact pure_evolves _
  | cons a l ih =>
    rw [List.forIn_cons]
    refine bind_evolves (hf a b) fun x => ?_
    cases x with
    | done b => exact pure_evolves _
    | yield b => exact ih

theorem foldlM_evolves {f : β → α → Op β} {l : List α} {b : β} (hf : ∀ b a, (f b a).evolves) : (l.foldlM f b).evolves := by
  induction l generalizing b with
  | nil => exact pure_evolves _
  | cons a l ih => exact bind_evolves (hf b a) fun c => ih

theorem setReg_evolves {r : Reg} {i v : Nat} (h : Evolves s0 s) : Evolves s0 (s.setReg r i v) :=
  evolves_regs h (fun g => twf_tset _ _ g) rfl rfl rfl rfl rfl rfl rfl rfl

theorem setFld_evolves {f : Fld} {i v : Nat} (h : Evolves s0 s) : Evolves s0 (s.setFld f i v) := setReg_evolves h

theorem setFlag_evolves {f : Fld} {i : Nat} {b : Bool} (h : Evolves s0 s) : Evolves s0 (s.setFlag f i b) := setReg_evolves h

theorem addSat_evolves {f : Fld} {i n : Nat} (h : Evolves s0 s) : Evolves s0 (s.addSat f i n) := setReg_evolves h

theorem addWrap_evolves {f : Fld} {i n : Nat} (h : Evolves s0 s) : Evolves s0 (s.addWrap f i n) := setReg_evolves h

theorem subFld_evolves {f : Fld} {i n : Nat} (h : Evolves s0 s) : Evolves s0 (s.subFld f i n) := setReg_evolves h

theorem resetReg_evolves {r : Reg} {i : Nat} (h : Evolves s0 s) : Evolves s0 (s.resetReg r i) :=
  evolves_regs h (fun g => twf_tset _ _ g) rfl rfl rfl rfl rfl rfl rfl rfl

theorem resetRegs_evolves {p : Reg → Bool} (h : Evolves s0 s) : Evolves s0 (s.resetRegs p) :=
  evolves_regs h (fun g => twf_filter _ g) rfl rfl rfl rfl rfl rfl rfl rfl

theorem drawFree_evolves (h : Evolves s0 s) : Evolves s0 s.drawFree.2 :=
  h.trans ⟨rfl, Nat.le_succ _, id, List.prefix_rfl, fun _ g => ⟨g, fun _ _ => rfl⟩, id⟩

theorem openBytes_evolves {n : Nat} (h : Evolves s0 s) : Evolves s0 (openBytes s n).2 :=
  h.trans ⟨rfl, Nat.le_add_right _ _, id, List.prefix_rfl, fun _ g => ⟨g, fun _ _ => rfl⟩, id⟩

theorem drawEntropy_evolves (h : Evolves s0 s) : Evolves s0 s.drawEntropy.2 := drawFree_evolves h

theorem store_evolves {a : Nat} {b : List Byte} (h : Evolves s0 s) : Evolves s0 (s.store a b) := by
  induction b generalizing s a with
  | nil => exact h
  | cons x b ih =>
    exact ih (evolves_mem h (fun g => twf_tset _ _ g) rfl rfl rfl rfl rfl rfl rfl rfl)

end Sys2Proof.Machine
end

