-- ==== Sys2Proof/Laws/EvSack.lean ====
section
/-! SUPPORT. The functions of Machine/Sack.lean only evolve the state (Safety.lean, Evolves). -/

namespace Sys2Proof.Machine

theorem sckAdd_evolves {s0 s : State} {c : Nat} {n : Nat} (h : Evolves s0 s) : Evolves s0 (sckAdd s c n) := by
  unfold sckAdd
  repeat' first
    | with_reducible assumption | with_reducible apply setFld_evolves | with_reducible apply setFlag_evolves
    | with_reducible apply evolves_ite  | simp only [evolves_mk]

theorem State.count_evolves {s0 s : State} {o : Occ} (h : Evolves s0 s) : Evolves s0 (State.count s o) := by
  unfold State.count
  repeat' first
    | intro _ | with_reducible assumption | with_reducible apply sckAdd_evolves | with_reducible apply evolves_foldl
    | (split)

theorem State.bwAdd_evolves {s0 s : State} {port : Nat} {n : Nat} (h : Evolves s0 s) : Evolves s0 (State.bwAdd s port n) := by
  unfold State.bwAdd
  repeat' first
    | with_reducible assumption | with_reducible apply evolves_ite | simp only [evolves_mk]

theorem State.countReq_evolves {s0 s : State} {r : Req} {code : Nat} {n : Nat} {dpa : Option Nat} (h : Evolves s0 s) : Evolves s0 (State.countReq s r code n dpa) := by
  unfold State.countReq
  repeat' first
    | with_reducible assumption | with_reducible apply State.count_evolves

theorem lateDiscard_evolves {s0 s : State} {slice : Nat} (h : Evolves s0 s) : Evolves s0 (lateDiscard s slice) := by
  unfold lateDiscard
  repeat' first
    | with_reducible assumption | with_reducible apply State.count_evolves | with_reducible apply addSat_evolves

theorem State.devEvent_evolves {s0 s : State} {cls : Nat} {result : Nat} (h : Evolves s0 s) : Evolves s0 (State.devEvent s cls result) := by
  unfold State.devEvent
  repeat' first
    | with_reducible assumption | with_reducible apply evolves_ite | simp only [evolves_mk]

end Sys2Proof.Machine
end

