-- ==== Sys2Proof/Laws/EvClock.lean ====
section
/-! SUPPORT. The functions of Machine/Clock.lean only evolve the state (Safety.lean, Evolves). -/

namespace Sys2Proof.Machine

theorem stoneCycles_evolves {s0 s : State} {n : Nat} {x : Nat × Stone} (h : Evolves s0 s) : Evolves s0 (stoneCycles n s x) := by
  unfold stoneCycles
  repeat' first
    | intro _ | with_reducible assumption | with_reducible exact Evolves.refl _ | with_reducible apply State.count_evolves
    | with_reducible apply evolves_ite  | with_reducible apply evolves_foldl | with_reducible apply evolves_foldl_snd
    | with_reducible apply evolves_foldl_fst | with_reducible refine evolves_snd (by assumption) ?_
    | with_reducible refine evolves_fst (by assumption) ?_ | simp only [evolves_mk] | (split)

theorem countWhile_evolves {s0 s : State} {p : Bool} {o : Occ} (h : Evolves s0 s) : Evolves s0 (countWhile s p o) := by
  unfold countWhile
  repeat' first
    | intro _ | with_reducible assumption | with_reducible exact Evolves.refl _ | with_reducible apply State.count_evolves
    | with_reducible apply evolves_ite  | with_reducible apply evolves_foldl | with_reducible apply evolves_foldl_snd
    | with_reducible apply evolves_foldl_fst | with_reducible refine evolves_snd (by assumption) ?_
    | with_reducible refine evolves_fst (by assumption) ?_ | simp only [evolves_mk] | (split)

theorem cycleCounts_evolves {s0 s : State} {n : Nat} (h : Evolves s0 s) : Evolves s0 (cycleCounts s n) := by
  unfold cycleCounts
  repeat' first
    | intro _ | with_reducible assumption | with_reducible exact Evolves.refl _ | with_reducible apply countWhile_evolves
    | with_reducible apply stoneCycles_evolves | with_reducible apply evolves_ite | with_reducible apply evolves_foldl
    | with_reducible apply evolves_foldl_snd | with_reducible apply evolves_foldl_fst
    | with_reducible refine evolves_snd (by assumption) ?_ | with_reducible refine evolves_fst (by assumption) ?_
    | simp only [evolves_mk] | (split)

theorem State.setLimit_evolves {s0 s : State} {slice : Nat} {l : Nat × Nat} (h : Evolves s0 s) : Evolves s0 (State.setLimit s slice l) := by
  unfold State.setLimit
  repeat' first
    | intro _ | with_reducible assumption | with_reducible exact Evolves.refl _ | with_reducible apply evolves_ite
    | with_reducible apply evolves_foldl  | with_reducible apply evolves_foldl_snd | with_reducible apply evolves_foldl_fst
    | with_reducible refine evolves_snd (by assumption) ?_ | with_reducible refine evolves_fst (by assumption) ?_
    | simp only [evolves_mk] | (split)

theorem refillBucket_evolves {s0 s : State} {n : Nat} {slice : Nat} (h : Evolves s0 s) : Evolves s0 (refillBucket n s slice) := by
  unfold refillBucket
  repeat' first
    | intro _ | with_reducible assumption | with_reducible exact Evolves.refl _ | with_reducible apply State.setLimit_evolves
    | with_reducible apply setFld_evolves | with_reducible apply evolves_ite | with_reducible apply evolves_foldl
    | with_reducible apply evolves_foldl_snd | with_reducible apply evolves_foldl_fst
    | with_reducible refine evolves_snd (by assumption) ?_ | with_reducible refine evolves_fst (by assumption) ?_
    | simp only [evolves_mk] | (split)

theorem refillBuckets_evolves {s0 s : State} {n : Nat} (h : Evolves s0 s) : Evolves s0 (refillBuckets s n) := by
  unfold refillBuckets
  repeat' first
    | intro _ | with_reducible assumption | with_reducible apply refillBucket_evolves | with_reducible apply evolves_foldl
    | simp only [evolves_mk] | (split)

theorem clockTo_evolves {s0 s : State} {cycle : Nat} (h : Evolves s0 s) : Evolves s0 (clockTo s cycle) := by
  unfold clockTo
  repeat' first
    | with_reducible assumption | with_reducible apply cycleCounts_evolves | with_reducible apply State.count_evolves
    | with_reducible apply refillBuckets_evolves | with_reducible apply setReg_evolves | with_reducible apply evolves_ite
    | simp only [evolves_mk]

theorem nextTick_evolves {s0 s : State} (h : Evolves s0 s) : Evolves s0 (nextTick s) := by
  unfold nextTick
  repeat' first
    | with_reducible assumption | with_reducible apply clockTo_evolves

end Sys2Proof.Machine
end

