-- ==== Sys2Proof/Laws/EvDram.lean ====
section
/-! SUPPORT. The functions of Machine/Dram.lean only evolve the state (Safety.lean, Evolves). -/

namespace Sys2Proof.Machine

theorem State.setChan_evolves {s0 s : State} {c : Nat} {f : DChan → DChan} (h : Evolves s0 s) : Evolves s0 (State.setChan s c f) := by
  unfold State.setChan
  repeat' first
    | with_reducible assumption | with_reducible apply evolves_ite | simp only [evolves_mk]

theorem setPoison_evolves {s0 s : State} {line : Nat} {b : Bool} (h : Evolves s0 s) : Evolves s0 (setPoison s line b) := by
  unfold setPoison
  repeat' first
    | with_reducible assumption | with_reducible apply evolves_ite | simp only [evolves_mk]

theorem dramActivate_evolves {s0 s : State} {who : Occ} {l : DramLoc} {dpa : Nat} (h : Evolves s0 s) : Evolves s0 (dramActivate s who l dpa) := by
  unfold dramActivate
  repeat' first
    | with_reducible assumption | with_reducible apply State.count_evolves | with_reducible apply drawEntropy_evolves
    | with_reducible apply State.setChan_evolves | simp only [evolves_mk] | (split)

theorem chanExit_evolves {s0 s : State} {who : Occ} {dpa : Nat} (h : Evolves s0 s) : Evolves s0 (chanExit s who dpa) := by
  unfold chanExit
  repeat' first
    | intro _ | with_reducible assumption | with_reducible exact Evolves.refl _ | with_reducible apply State.count_evolves
    | with_reducible apply setFlag_evolves | with_reducible apply addWrap_evolves
    | with_reducible apply State.setChan_evolves | with_reducible apply evolves_ite | with_reducible apply evolves_foldl
    | with_reducible apply evolves_foldl_snd | with_reducible apply evolves_foldl_fst
    | with_reducible refine evolves_snd (by assumption) ?_ | with_reducible refine evolves_fst (by assumption) ?_
    | simp only [evolves_mk] | (split)

theorem dramTouch_evolves {s0 s : State} {who : Occ} {dpa : Nat} (h : Evolves s0 s) : Evolves s0 (dramTouch s who dpa) := by
  unfold dramTouch
  repeat' first
    | with_reducible assumption | with_reducible apply chanExit_evolves | with_reducible apply State.count_evolves
    | with_reducible apply dramActivate_evolves | with_reducible apply State.setChan_evolves | simp only [evolves_mk]
    | (split)

theorem dramFetch_evolves {s0 s : State} {who : Occ} {dpa : Nat} (h : Evolves s0 s) : Evolves s0 (dramFetch s who dpa) := by
  unfold dramFetch
  repeat' first
    | with_reducible assumption | with_reducible apply State.bwAdd_evolves | with_reducible apply State.count_evolves
    | with_reducible apply dramTouch_evolves | with_reducible apply evolves_ite

theorem dmcRecord_evolves {s0 s : State} {dpa : Nat} {kind : Nat} {source : Nat} {mask : Nat} (h : Evolves s0 s) : Evolves s0 (dmcRecord s dpa kind source mask) := by
  unfold dmcRecord
  repeat' first
    | with_reducible assumption | with_reducible apply setReg_evolves | (split)

theorem freeBytes_evolves {n : Nat} : (freeBytes n : Op (List Byte)).evolves := modifyGet_evolves fun _ => openBytes_evolves (Evolves.refl _)

theorem dramRead_evolves {r : Req} {dpa : Nat} : (dramRead r dpa : Op (List Byte)).evolves := by
  unfold dramRead
  repeat' first
    | intro _ | with_reducible exact Evolves.refl _ | with_reducible apply dramFetch_evolves
    | with_reducible apply State.devEvent_evolves | with_reducible apply dmcRecord_evolves
    | with_reducible apply freeBytes_evolves | with_reducible apply bind_evolves | with_reducible apply pure_evolves
    | with_reducible apply get_evolves | with_reducible apply upd_evolves | with_reducible apply throw_evolves
    | with_reducible apply evolves_ite  | (split)

theorem dramPut_evolves {s0 s : State} {c : Nat} {w : DWrite} (h : Evolves s0 s) : Evolves s0 (dramPut s c w) := by
  unfold dramPut
  repeat' first
    | intro _ | with_reducible assumption | with_reducible exact Evolves.refl _ | with_reducible apply State.bwAdd_evolves
    | with_reducible apply State.count_evolves | with_reducible apply dramTouch_evolves
    | with_reducible apply setPoison_evolves | with_reducible apply store_evolves | with_reducible apply evolves_ite
    | with_reducible apply evolves_foldl  | with_reducible apply evolves_foldl_snd | with_reducible apply evolves_foldl_fst
    | with_reducible refine evolves_snd (by assumption) ?_ | with_reducible refine evolves_fst (by assumption) ?_
    | simp only [evolves_mk] | (split)

theorem dramDrain_evolves {s0 s : State} {c : Nat} (h : Evolves s0 s) : Evolves s0 (dramDrain s c) := by
  unfold dramDrain
  repeat' first
    | intro _ | with_reducible assumption | with_reducible apply State.setChan_evolves | with_reducible apply dramPut_evolves
    | with_reducible apply evolves_ite  | with_reducible apply evolves_foldl

theorem scrubCancel_evolves {s0 s : State} {line : Nat} (h : Evolves s0 s) : Evolves s0 (scrubCancel s line) := by
  unfold scrubCancel
  repeat' first
    | with_reducible assumption | with_reducible apply evolves_ite | simp only [evolves_mk]

theorem dramWrite_evolves {s0 s : State} {who : Occ} {line : Nat} {data : List Byte} {poison : Bool} (h : Evolves s0 s) : Evolves s0 (dramWrite s who line data poison) := by
  unfold dramWrite
  repeat' first
    | with_reducible assumption | with_reducible apply scrubCancel_evolves | with_reducible apply chanExit_evolves
    | with_reducible apply dramDrain_evolves | with_reducible apply State.setChan_evolves | with_reducible apply evolves_ite

theorem dramMerge_evolves {s0 s : State} {who : Occ} {dpa : Nat} {b : List Byte} (h : Evolves s0 s) : Evolves s0 (dramMerge s who dpa b) := by
  unfold dramMerge
  repeat' first
    | with_reducible assumption | with_reducible apply dramWrite_evolves | with_reducible apply State.count_evolves
    | with_reducible apply dramFetch_evolves | with_reducible apply evolves_ite

end Sys2Proof.Machine
end

