-- ==== Sys2Proof/Laws/EvGranary.lean ====
section
/-! SUPPORT. The functions of Machine/Granary.lean only evolve the state (Safety.lean, Evolves). -/

namespace Sys2Proof.Machine

theorem State.setWay_evolves {s0 s : State} {k : Nat} {v : Option GLine} (h : Evolves s0 s) : Evolves s0 (State.setWay s k v) := by
  unfold State.setWay
  repeat' first
    | with_reducible assumption | with_reducible apply setFld_evolves | simp only [evolves_mk]

theorem granTouch_evolves {s0 s : State} {k : Nat} (h : Evolves s0 s) : Evolves s0 (granTouch s k) := by
  unfold granTouch
  repeat' first
    | with_reducible assumption | with_reducible apply evolves_ite | simp only [evolves_mk]

theorem bucketWait_evolves {s0 s : State} {slice : Nat} (h : Evolves s0 s) : Evolves s0 (bucketWait s slice) := by
  unfold bucketWait
  repeat' first
    | intro _ | with_reducible assumption | with_reducible exact Evolves.refl _ | with_reducible apply nextTick_evolves
    | with_reducible apply State.count_evolves | with_reducible apply addSat_evolves | with_reducible apply evolves_ite
    | with_reducible apply evolves_foldl  | with_reducible apply evolves_foldl_snd | with_reducible apply evolves_foldl_fst
    | with_reducible refine evolves_snd (by assumption) ?_ | with_reducible refine evolves_fst (by assumption) ?_
    | simp only [evolves_mk] | (split)

theorem bucketCharge_evolves {s0 s : State} {slice : Nat} (h : Evolves s0 s) : Evolves s0 (bucketCharge s slice) := by
  unfold bucketCharge
  repeat' first
    | with_reducible assumption | with_reducible apply bucketWait_evolves | with_reducible apply subFld_evolves
    | with_reducible apply evolves_ite 

theorem granCharge_evolves {s0 s : State} {r : Req} {dpa : Nat} (h : Evolves s0 s) : Evolves s0 (granCharge s r dpa) := by
  unfold granCharge
  repeat' first
    | with_reducible assumption | with_reducible apply bucketCharge_evolves | (split)

theorem hostRequest_evolves {s0 s : State} {slice : Option Nat} (h : Evolves s0 s) : Evolves s0 (hostRequest s slice) := by
  unfold hostRequest
  repeat' first
    | intro _ | with_reducible assumption | with_reducible exact Evolves.refl _ | with_reducible apply evolves_ite
    | with_reducible apply evolves_foldl  | with_reducible apply evolves_foldl_snd | with_reducible apply evolves_foldl_fst
    | with_reducible refine evolves_snd (by assumption) ?_ | with_reducible refine evolves_fst (by assumption) ?_
    | simp only [evolves_mk] | (split)

theorem hostData_evolves {s0 s : State} {r : Req} {dpa : Nat} {n : Nat} (h : Evolves s0 s) : Evolves s0 (hostData s r dpa n).2 := by
  unfold hostData
  repeat' first
    | intro _ | with_reducible assumption | with_reducible exact Evolves.refl _ | with_reducible apply State.countReq_evolves
    | with_reducible apply State.bwAdd_evolves | with_reducible apply hostRequest_evolves | with_reducible apply evolves_ite
    | with_reducible apply evolves_ite_snd | with_reducible apply evolves_foldl | with_reducible apply evolves_foldl_snd
    | with_reducible apply evolves_foldl_fst | with_reducible refine evolves_snd (by assumption) ?_
    | with_reducible refine evolves_fst (by assumption) ?_ | simp only [evolves_mk] | (split)

theorem hostAsk_evolves {r : Req} {dpa : Nat} : (hostAsk r dpa : Op Unit).evolves := by
  unfold hostAsk
  repeat' first
    | intro _ | with_reducible assumption | with_reducible exact Evolves.refl _ | with_reducible apply State.countReq_evolves
    | with_reducible apply bind_evolves | with_reducible apply pure_evolves | with_reducible apply get_evolves
    | with_reducible apply upd_evolves | with_reducible apply throw_evolves | with_reducible apply ite_op_evolves
    | with_reducible apply modifyGet_evolves | with_reducible apply ask_evolves | with_reducible apply attempt_evolves
    | with_reducible apply mapM_evolves | with_reducible apply forM_evolves | with_reducible apply forIn_evolves
    | with_reducible apply foldlM_evolves | with_reducible apply evolves_ite | with_reducible apply evolves_foldl
    | with_reducible apply evolves_foldl_snd | with_reducible apply evolves_foldl_fst
    | with_reducible refine evolves_snd (by assumption) ?_ | with_reducible refine evolves_fst (by assumption) ?_
    | with_reducible refine evolves_exec (by assumption) ?_ ?_ | with_reducible refine evolves_ok (by assumption) ?_ ?_
    | with_reducible refine evolves_error (by assumption) ?_ ?_ | simp only [evolves_mk] | (split)

theorem hostRead_evolves {r : Req} {dpa : Nat} {n : Nat} : (hostRead r dpa n : Op (List Byte)).evolves := by
  unfold hostRead
  exact bind_evolves hostAsk_evolves fun _ => modifyGet_evolves fun _ => hostData_evolves (Evolves.refl _)

theorem hostWrite_evolves {s0 s : State} {who : Occ} {dpa : Nat} {b : List Byte} (h : Evolves s0 s) : Evolves s0 (hostWrite s who dpa b) := by
  unfold hostWrite
  repeat' first
    | with_reducible assumption | with_reducible apply State.count_evolves | with_reducible apply State.bwAdd_evolves
    | with_reducible apply store_evolves | with_reducible apply hostRequest_evolves | with_reducible apply evolves_ite

theorem hostMark_evolves {s0 s : State} {job : Option Nat} (h : Evolves s0 s) : Evolves s0 (hostMark s job) := by
  unfold hostMark
  repeat' first
    | intro _ | with_reducible assumption | with_reducible exact Evolves.refl _ | with_reducible apply evolves_ite
    | with_reducible apply evolves_foldl  | with_reducible apply evolves_foldl_snd | with_reducible apply evolves_foldl_fst
    | with_reducible refine evolves_snd (by assumption) ?_ | with_reducible refine evolves_fst (by assumption) ?_
    | simp only [evolves_mk] | (split)

theorem lineFromMemory_evolves {r : Req} {dpa : Nat} : (lineFromMemory r dpa : Op (List Byte)).evolves := by
  unfold lineFromMemory
  repeat' first
    | intro _ | with_reducible assumption | with_reducible exact Evolves.refl _ | with_reducible apply hostRead_evolves
    | with_reducible apply granCharge_evolves | with_reducible apply dramRead_evolves | with_reducible apply bind_evolves
    | with_reducible apply pure_evolves | with_reducible apply get_evolves | with_reducible apply upd_evolves
    | with_reducible apply throw_evolves | with_reducible apply ite_op_evolves | with_reducible apply modifyGet_evolves
    | with_reducible apply ask_evolves | with_reducible apply attempt_evolves | with_reducible apply mapM_evolves
    | with_reducible apply forM_evolves | with_reducible apply forIn_evolves | with_reducible apply foldlM_evolves
    | with_reducible apply evolves_ite  | with_reducible apply evolves_foldl | with_reducible apply evolves_foldl_snd
    | with_reducible apply evolves_foldl_fst | with_reducible refine evolves_snd (by assumption) ?_
    | with_reducible refine evolves_fst (by assumption) ?_ | with_reducible refine evolves_exec (by assumption) ?_ ?_
    | with_reducible refine evolves_ok (by assumption) ?_ ?_ | with_reducible refine evolves_error (by assumption) ?_ ?_
    | simp only [evolves_mk] | (split)

theorem bytesToMemory_evolves {s0 s : State} {r : Req} {dpa : Nat} {b : List Byte} (h : Evolves s0 s) : Evolves s0 (bytesToMemory s r dpa b) := by
  unfold bytesToMemory
  repeat' first
    | with_reducible assumption | with_reducible apply hostMark_evolves | with_reducible apply hostWrite_evolves
    | with_reducible apply dramMerge_evolves | with_reducible apply granCharge_evolves | with_reducible apply evolves_ite

theorem granEvict_evolves {s0 s : State} {r : Req} {k : Nat} (h : Evolves s0 s) : Evolves s0 (granEvict s r k) := by
  unfold granEvict
  repeat' first
    | with_reducible assumption | with_reducible apply State.countReq_evolves | with_reducible apply dramWrite_evolves
    | with_reducible apply granCharge_evolves | with_reducible apply State.setWay_evolves | with_reducible apply evolves_ite
    | (split)

theorem granRoom_evolves {s0 s : State} {r : Req} {dpa : Nat} (h : Evolves s0 s) : Evolves s0 (granRoom s r dpa) := by
  unfold granRoom
  repeat' first
    | intro _ | with_reducible assumption | with_reducible exact Evolves.refl _ | with_reducible apply granEvict_evolves
    | with_reducible apply evolves_ite  | with_reducible apply evolves_foldl | with_reducible apply evolves_foldl_snd
    | with_reducible apply evolves_foldl_fst | with_reducible refine evolves_snd (by assumption) ?_
    | with_reducible refine evolves_fst (by assumption) ?_ | simp only [evolves_mk] | (split)

theorem granPlace_evolves {s0 s : State} {dpa : Nat} {data : List Byte} {dirty : Bool} (h : Evolves s0 s) : Evolves s0 (granPlace s dpa data dirty) := by
  unfold granPlace
  repeat' first
    | intro _ | with_reducible assumption | with_reducible exact Evolves.refl _ | with_reducible apply granTouch_evolves
    | with_reducible apply State.setWay_evolves | with_reducible apply evolves_ite | with_reducible apply evolves_foldl
    | with_reducible apply evolves_foldl_snd | with_reducible apply evolves_foldl_fst
    | with_reducible refine evolves_snd (by assumption) ?_ | with_reducible refine evolves_fst (by assumption) ?_
    | simp only [evolves_mk] | (split)

theorem granFill_evolves {r : Req} {dpa : Nat} : (granFill r dpa : Op (List Byte)).evolves := by
  unfold granFill
  repeat' first
    | intro _ | with_reducible assumption | with_reducible exact Evolves.refl _ | with_reducible apply granRoom_evolves
    | with_reducible apply lineFromMemory_evolves | with_reducible apply granPlace_evolves
    | with_reducible apply State.countReq_evolves | with_reducible apply bind_evolves | with_reducible apply pure_evolves
    | with_reducible apply get_evolves | with_reducible apply upd_evolves | with_reducible apply throw_evolves
    | with_reducible apply ite_op_evolves | with_reducible apply modifyGet_evolves | with_reducible apply ask_evolves
    | with_reducible apply attempt_evolves | with_reducible apply mapM_evolves | with_reducible apply forM_evolves
    | with_reducible apply forIn_evolves | with_reducible apply foldlM_evolves | with_reducible apply evolves_ite
    | with_reducible apply evolves_foldl  | with_reducible apply evolves_foldl_snd | with_reducible apply evolves_foldl_fst
    | with_reducible refine evolves_snd (by assumption) ?_ | with_reducible refine evolves_fst (by assumption) ?_
    | with_reducible refine evolves_exec (by assumption) ?_ ?_ | with_reducible refine evolves_ok (by assumption) ?_ ?_
    | with_reducible refine evolves_error (by assumption) ?_ ?_ | simp only [evolves_mk] | (split)

theorem granForget_evolves {s0 s : State} {dpa : Nat} (h : Evolves s0 s) : Evolves s0 (granForget s dpa) := by
  unfold granForget
  repeat' first
    | intro _ | with_reducible assumption | with_reducible exact Evolves.refl _ | with_reducible apply State.setWay_evolves
    | with_reducible apply evolves_ite  | with_reducible apply evolves_foldl | with_reducible apply evolves_foldl_snd
    | with_reducible apply evolves_foldl_fst | with_reducible refine evolves_snd (by assumption) ?_
    | with_reducible refine evolves_fst (by assumption) ?_ | simp only [evolves_mk] | (split)

theorem granRead_evolves {r : Req} {attr : Nat} {dpa : Nat} {noAlloc : Bool} {fresh : Bool} : (granRead r attr dpa noAlloc fresh : Op (List Byte)).evolves := by
  unfold granRead
  repeat' first
    | intro _ | with_reducible exact Evolves.refl _ | with_reducible apply granForget_evolves
    | with_reducible apply State.countReq_evolves | with_reducible apply granTouch_evolves
    | with_reducible apply lineFromMemory_evolves | with_reducible apply granFill_evolves | with_reducible apply bind_evolves
    | with_reducible apply pure_evolves | with_reducible apply get_evolves | with_reducible apply upd_evolves
    | with_reducible apply evolves_ite  | (split)

theorem granWrite_evolves {r : Req} {attr : Nat} {dpa : Nat} {b : List Byte} : (granWrite r attr dpa b : Op Unit).evolves := by
  unfold granWrite
  repeat' first
    | intro _ | with_reducible exact Evolves.refl _ | with_reducible apply State.countReq_evolves
    | with_reducible apply granTouch_evolves | with_reducible apply State.setWay_evolves
    | with_reducible apply bytesToMemory_evolves | with_reducible apply granRoom_evolves
    | with_reducible apply granPlace_evolves | with_reducible apply lineFromMemory_evolves
    | with_reducible apply bind_evolves | with_reducible apply get_evolves | with_reducible apply upd_evolves
    | with_reducible apply evolves_ite  | (split)

theorem hostSync_evolves {s0 s : State} (h : Evolves s0 s) : Evolves s0 (hostSync s) := by
  unfold hostSync
  repeat' first
    | with_reducible assumption | with_reducible apply evolves_ite | simp only [evolves_mk]

end Sys2Proof.Machine
end

