-- ==== Sys2Proof/Laws/EvXlate.lean ====
section
/-! SUPPORT. The functions of Machine/Xlate.lean only evolve the state (Safety.lean, Evolves). -/

namespace Sys2Proof.Machine

theorem setFill_evolves {s0 s : State} {xs : List XEnt} {x : XEnt} {sets : Nat} (h : Evolves s0 s) : Evolves s0 (setFill s xs x sets).2 := by
  unfold setFill
  repeat' first
    | intro _ | with_reducible assumption | with_reducible exact Evolves.refl _ | with_reducible apply drawFree_evolves
    | with_reducible apply evolves_ite  | with_reducible apply evolves_ite_snd | with_reducible apply evolves_foldl
    | with_reducible apply evolves_foldl_snd | with_reducible apply evolves_foldl_fst
    | with_reducible refine evolves_snd (by assumption) ?_ | with_reducible refine evolves_fst (by assumption) ?_
    | simp only [evolves_mk] | (split)

theorem cacheFill_evolves {s0 s : State} {xs : List XEnt} {x : XEnt} {n : Nat} (h : Evolves s0 s) : Evolves s0 (cacheFill s xs x n).2 := by
  unfold cacheFill
  repeat' first
    | with_reducible assumption | with_reducible apply drawFree_evolves | simp only [evolves_mk] | (split)

theorem xltFill_evolves {s0 s : State} {unit : Nat} {x : XEnt} (h : Evolves s0 s) : Evolves s0 (xltFill s unit x) := by
  unfold xltFill
  repeat' first
    | with_reducible assumption | with_reducible apply setFill_evolves | with_reducible apply cacheFill_evolves
    | simp only [evolves_mk] | (split)

theorem readEntry_evolves {r : Req} {fault : Nat → Err} {attr : Nat} {fresh : Bool} {dpa : Nat} : (readEntry r fault attr fresh dpa : Op Nat).evolves := by
  unfold readEntry
  repeat' first
    | intro _ | with_reducible exact Evolves.refl _ | with_reducible apply State.countReq_evolves
    | with_reducible apply granRead_evolves | with_reducible apply bind_evolves | with_reducible apply pure_evolves
    | with_reducible apply get_evolves | with_reducible apply upd_evolves | with_reducible apply throw_evolves
    | with_reducible apply attempt_evolves | with_reducible apply evolves_ite | (split)

theorem walk2_evolves {r : Req} {unit : Nat} {bypass : Bool} {spa : Nat} {acc : Nat} {sva : Nat} {a6 : Nat} {a7 : Nat} {a8 : Nat} : (walk2 r unit bypass spa acc sva a6 a7 a8 : Op XEnt).evolves := by
  induction a6 generalizing a7 a8 with
  | zero =>
    unfold walk2
    repeat' first
      | intro _ | with_reducible exact Evolves.refl _ | with_reducible apply readEntry_evolves
      | with_reducible apply xltFill_evolves | with_reducible apply bind_evolves | with_reducible apply pure_evolves
      | with_reducible apply get_evolves | with_reducible apply upd_evolves | with_reducible apply throw_evolves
      | simp only [evolves_mk] | (split)
  | succ n ih =>
    unfold walk2
    repeat' first
      | intro _ | with_reducible apply ih | with_reducible exact Evolves.refl _ | with_reducible apply readEntry_evolves
      | with_reducible apply xltFill_evolves | with_reducible apply bind_evolves | with_reducible apply pure_evolves
      | with_reducible apply get_evolves | with_reducible apply upd_evolves | with_reducible apply throw_evolves
      | simp only [evolves_mk] | (split)

theorem stage2_evolves {r : Req} {unit : Nat} {bypass : Bool} {spa : Nat} {acc : Nat} {sva : Nat} : (stage2 r unit bypass spa acc sva : Op XEnt).evolves := by
  unfold stage2
  repeat' first
    | intro _ | with_reducible exact Evolves.refl _ | with_reducible apply State.countReq_evolves
    | with_reducible apply walk2_evolves | with_reducible apply bind_evolves | with_reducible apply pure_evolves
    | with_reducible apply get_evolves | with_reducible apply upd_evolves | with_reducible apply throw_evolves
    | simp only [evolves_mk] | (split)

theorem walk1_evolves {r : Req} {unit : Nat} {bypass : Bool} {sva : Nat} {acc : Nat} {a5 : Nat} {a6 : Nat} {a7 : Nat} {a8 : List (XEnt × Nat)} : (walk1 r unit bypass sva acc a5 a6 a7 a8 : Op Walk1).evolves := by
  induction a5 generalizing a6 a7 a8 with
  | zero =>
    unfold walk1
    repeat' first
      | intro _ | with_reducible exact Evolves.refl _ | with_reducible apply stage2_evolves
      | with_reducible apply readEntry_evolves | with_reducible apply xltFill_evolves | with_reducible apply adUpdates_evolves
      | with_reducible apply bind_evolves | with_reducible apply pure_evolves | with_reducible apply get_evolves
      | with_reducible apply upd_evolves | with_reducible apply throw_evolves | with_reducible apply evolves_ite
      | simp only [evolves_mk] | (split)
  | succ n ih =>
    unfold walk1
    repeat' first
      | intro _ | with_reducible apply ih | with_reducible exact Evolves.refl _ | with_reducible apply stage2_evolves
      | with_reducible apply readEntry_evolves | with_reducible apply xltFill_evolves | with_reducible apply adUpdates_evolves
      | with_reducible apply bind_evolves | with_reducible apply pure_evolves | with_reducible apply get_evolves
      | with_reducible apply upd_evolves | with_reducible apply throw_evolves | with_reducible apply evolves_ite
      | simp only [evolves_mk] | (split)

theorem stage1_evolves {r : Req} {unit : Nat} {bypass : Bool} {sva : Nat} {acc : Nat} : (stage1 r unit bypass sva acc : Op Walk1).evolves := by
  unfold stage1
  repeat' first
    | intro _ | with_reducible apply walk1_evolves | with_reducible apply bind_evolves | with_reducible apply pure_evolves
    | with_reducible apply get_evolves | (split)

theorem entrySwap_evolves {r : Req} {fault : Nat → Err} {attr : Nat} {dpa : Nat} {expect : Nat} {v : Nat} : (entrySwap r fault attr dpa expect v : Op Nat).evolves := by
  unfold entrySwap
  repeat' first
    | intro _ | with_reducible assumption | with_reducible exact Evolves.refl _ | with_reducible apply State.countReq_evolves
    | with_reducible apply State.bwAdd_evolves | with_reducible apply State.count_evolves
    | with_reducible apply hostRequest_evolves | with_reducible apply hostAsk_evolves | with_reducible apply store_evolves
    | with_reducible apply State.setWay_evolves | with_reducible apply granRead_evolves
    | with_reducible apply granWrite_evolves | with_reducible apply bind_evolves | with_reducible apply pure_evolves
    | with_reducible apply get_evolves | with_reducible apply upd_evolves | with_reducible apply throw_evolves
    | with_reducible apply ite_op_evolves | with_reducible apply modifyGet_evolves | with_reducible apply ask_evolves
    | with_reducible apply attempt_evolves | with_reducible apply mapM_evolves | with_reducible apply forM_evolves
    | with_reducible apply forIn_evolves | with_reducible apply foldlM_evolves | with_reducible apply evolves_ite
    | with_reducible apply evolves_foldl  | with_reducible apply evolves_foldl_snd | with_reducible apply evolves_foldl_fst
    | with_reducible refine evolves_snd (by assumption) ?_ | with_reducible refine evolves_fst (by assumption) ?_
    | with_reducible refine evolves_exec (by assumption) ?_ ?_ | with_reducible refine evolves_ok (by assumption) ?_ ?_
    | with_reducible refine evolves_error (by assumption) ?_ ?_ | simp only [evolves_mk] | (split)

theorem entryUpdate_evolves {r : Req} {x : XEnt} {fault : Nat → Err} {attr : Nat} {dpa : Nat} {dirty : Bool} {k : Kind} {atomic : Bool} {a8 : Nat} {a9 : Nat} : (entryUpdate r x fault attr dpa dirty k atomic a8 a9 : Op Unit).evolves := by
  induction a8 generalizing a9 with
  | zero =>
    unfold entryUpdate
    repeat' first
      | intro _ | with_reducible assumption | with_reducible exact Evolves.refl _ | with_reducible apply entrySwap_evolves
      | with_reducible apply State.countReq_evolves | with_reducible apply xltFill_evolves | with_reducible apply bind_evolves
      | with_reducible apply pure_evolves | with_reducible apply get_evolves | with_reducible apply upd_evolves
      | with_reducible apply throw_evolves | with_reducible apply ite_op_evolves | with_reducible apply modifyGet_evolves
      | with_reducible apply ask_evolves | with_reducible apply attempt_evolves | with_reducible apply mapM_evolves
      | with_reducible apply forM_evolves | with_reducible apply forIn_evolves | with_reducible apply foldlM_evolves
      | with_reducible apply evolves_ite  | with_reducible apply evolves_foldl | with_reducible apply evolves_foldl_snd
      | with_reducible apply evolves_foldl_fst | with_reducible refine evolves_snd (by assumption) ?_
      | with_reducible refine evolves_fst (by assumption) ?_ | with_reducible refine evolves_exec (by assumption) ?_ ?_
      | with_reducible refine evolves_ok (by assumption) ?_ ?_ | with_reducible refine evolves_error (by assumption) ?_ ?_
      | simp only [evolves_mk] | (split)
  | succ n ih =>
    unfold entryUpdate
    repeat' first
      | intro _ | with_reducible apply ih | with_reducible assumption | with_reducible exact Evolves.refl _ | with_reducible apply entrySwap_evolves
      | with_reducible apply State.countReq_evolves | with_reducible apply xltFill_evolves | with_reducible apply bind_evolves
      | with_reducible apply pure_evolves | with_reducible apply get_evolves | with_reducible apply upd_evolves
      | with_reducible apply throw_evolves | with_reducible apply ite_op_evolves | with_reducible apply modifyGet_evolves
      | with_reducible apply ask_evolves | with_reducible apply attempt_evolves | with_reducible apply mapM_evolves
      | with_reducible apply forM_evolves | with_reducible apply forIn_evolves | with_reducible apply foldlM_evolves
      | with_reducible apply evolves_ite  | with_reducible apply evolves_foldl | with_reducible apply evolves_foldl_snd
      | with_reducible apply evolves_foldl_fst | with_reducible refine evolves_snd (by assumption) ?_
      | with_reducible refine evolves_fst (by assumption) ?_ | with_reducible refine evolves_exec (by assumption) ?_ ?_
      | with_reducible refine evolves_ok (by assumption) ?_ ?_ | with_reducible refine evolves_error (by assumption) ?_ ?_
      | simp only [evolves_mk] | (split)

theorem adUpdate_evolves {r : Req} {x : XEnt} {attr : Nat} {dpa : Nat} {dirty : Bool} {k : Kind} {atomic : Bool} {acc : Nat} {sva : Nat} {spa : Nat} : (adUpdate r x attr dpa dirty k atomic acc sva spa : Op Unit).evolves := by
  unfold adUpdate
  repeat' first
    | intro _ | with_reducible exact Evolves.refl _ | with_reducible apply entryUpdate_evolves
    | with_reducible apply bind_evolves | with_reducible apply pure_evolves | with_reducible apply get_evolves
    | with_reducible apply upd_evolves | with_reducible apply throw_evolves | (split)

theorem adUpdates_evolves {r : Req} {k : Kind} {unit : Nat} {bypass : Bool} {sva : Nat} {spa : Nat} {w : Option Walk1} {x : XEnt} : (adUpdates r k unit bypass sva spa w x : Op Unit).evolves := by
  unfold adUpdates
  repeat' first
    | intro _ | with_reducible assumption | with_reducible exact Evolves.refl _ | with_reducible apply adUpdate_evolves
    | with_reducible apply stage2_evolves | with_reducible apply bind_evolves | with_reducible apply pure_evolves
    | with_reducible apply get_evolves | with_reducible apply upd_evolves | with_reducible apply throw_evolves
    | with_reducible apply ite_op_evolves | with_reducible apply modifyGet_evolves | with_reducible apply ask_evolves
    | with_reducible apply attempt_evolves | with_reducible apply mapM_evolves | with_reducible apply forM_evolves
    | with_reducible apply forIn_evolves | with_reducible apply foldlM_evolves | with_reducible apply evolves_ite
    | with_reducible apply evolves_foldl  | with_reducible apply evolves_foldl_snd | with_reducible apply evolves_foldl_fst
    | with_reducible refine evolves_snd (by assumption) ?_ | with_reducible refine evolves_fst (by assumption) ?_
    | with_reducible refine evolves_exec (by assumption) ?_ ?_ | with_reducible refine evolves_ok (by assumption) ?_ ?_
    | with_reducible refine evolves_error (by assumption) ?_ ?_ | simp only [evolves_mk] | (split)

theorem translateOnce_evolves {r : Req} {k : Kind} {bypass : Bool} {sva : Nat} : (translateOnce r k bypass sva : Op Target).evolves := by
  unfold translateOnce
  repeat' first
    | intro _ | with_reducible apply stage2_evolves | with_reducible apply adUpdates_evolves
    | with_reducible apply stage1_evolves | with_reducible apply bind_evolves | with_reducible apply pure_evolves
    | with_reducible apply get_evolves | with_reducible apply throw_evolves | simp only [evolves_mk] | (split)

theorem dropCovering_evolves {s0 s : State} {slice : Nat} {sva : Nat} (h : Evolves s0 s) : Evolves s0 (dropCovering s slice sva) := by
  unfold dropCovering
  repeat' first
    | with_reducible assumption | with_reducible apply evolves_ite | simp only [evolves_mk]

theorem xltRecord_evolves {s0 s : State} {r : Req} {e : Err} (h : Evolves s0 s) : Evolves s0 (xltRecord s r e) := by
  unfold xltRecord
  repeat' first
    | with_reducible assumption | with_reducible apply setReg_evolves | (split)

theorem stoneFill_evolves {s0 s : State} {r : Req} {k : Kind} {sva : Nat} {t : Target} (h : Evolves s0 s) : Evolves s0 (stoneFill s r k sva t) := by
  unfold stoneFill
  repeat' first
    | with_reducible assumption | with_reducible apply drawFree_evolves | simp only [evolves_mk] | (split)

theorem confirmFault_evolves {r : Req} {k : Kind} {sva : Nat} {e : Err} : (confirmFault r k sva e : Op Target).evolves := by
  unfold confirmFault
  repeat' first
    | intro _ | with_reducible assumption | with_reducible exact Evolves.refl _ | with_reducible apply stoneFill_evolves
    | with_reducible apply xltRecord_evolves | with_reducible apply State.countReq_evolves
    | with_reducible apply dropCovering_evolves | with_reducible apply translateOnce_evolves
    | with_reducible apply bind_evolves | with_reducible apply pure_evolves | with_reducible apply get_evolves
    | with_reducible apply upd_evolves | with_reducible apply throw_evolves | with_reducible apply ite_op_evolves
    | with_reducible apply modifyGet_evolves | with_reducible apply ask_evolves | with_reducible apply attempt_evolves
    | with_reducible apply mapM_evolves | with_reducible apply forM_evolves | with_reducible apply forIn_evolves
    | with_reducible apply foldlM_evolves | with_reducible apply evolves_ite | with_reducible apply evolves_foldl
    | with_reducible apply evolves_foldl_snd | with_reducible apply evolves_foldl_fst
    | with_reducible refine evolves_snd (by assumption) ?_ | with_reducible refine evolves_fst (by assumption) ?_
    | with_reducible refine evolves_exec (by assumption) ?_ ?_ | with_reducible refine evolves_ok (by assumption) ?_ ?_
    | with_reducible refine evolves_error (by assumption) ?_ ?_ | simp only [evolves_mk] | (split)

theorem translateMiss_evolves {r : Req} {k : Kind} {sva : Nat} : (translateMiss r k sva : Op Target).evolves := by
  unfold translateMiss
  repeat' first
    | intro _ | with_reducible assumption | with_reducible exact Evolves.refl _ | with_reducible apply translateOnce_evolves
    | with_reducible apply stoneFill_evolves | with_reducible apply State.countReq_evolves
    | with_reducible apply confirmFault_evolves | with_reducible apply bind_evolves | with_reducible apply pure_evolves
    | with_reducible apply get_evolves | with_reducible apply upd_evolves | with_reducible apply throw_evolves
    | with_reducible apply ite_op_evolves | with_reducible apply modifyGet_evolves | with_reducible apply ask_evolves
    | with_reducible apply attempt_evolves | with_reducible apply mapM_evolves | with_reducible apply forM_evolves
    | with_reducible apply forIn_evolves | with_reducible apply foldlM_evolves | with_reducible apply evolves_ite
    | with_reducible apply evolves_foldl  | with_reducible apply evolves_foldl_snd | with_reducible apply evolves_foldl_fst
    | with_reducible refine evolves_snd (by assumption) ?_ | with_reducible refine evolves_fst (by assumption) ?_
    | with_reducible refine evolves_exec (by assumption) ?_ ?_ | with_reducible refine evolves_ok (by assumption) ?_ ?_
    | with_reducible refine evolves_error (by assumption) ?_ ?_ | simp only [evolves_mk] | (split)

theorem translate_evolves {r : Req} {k : Kind} {sva : Nat} : (translate r k sva : Op Target).evolves := by
  unfold translate
  repeat' first
    | intro _ | with_reducible exact Evolves.refl _ | with_reducible apply confirmFault_evolves
    | with_reducible apply State.countReq_evolves | with_reducible apply translateMiss_evolves
    | with_reducible apply bind_evolves | with_reducible apply pure_evolves | with_reducible apply get_evolves
    | with_reducible apply upd_evolves | with_reducible apply throw_evolves | with_reducible apply attempt_evolves
    | with_reducible apply evolves_ite  | simp only [evolves_mk] | (split)

theorem xltPurge_evolves {s0 s : State} {q : InvalReq} (h : Evolves s0 s) : Evolves s0 (xltPurge s q) := by
  unfold xltPurge
  repeat' first
    | with_reducible assumption | with_reducible apply evolves_ite | simp only [evolves_mk]

end Sys2Proof.Machine
end

