-- ==== Sys2Proof/Laws/EvMem.lean ====
section
/-! SUPPORT. The functions of Machine/Mem.lean only evolve the state (Safety.lean, Evolves). -/

namespace Sys2Proof.Machine

theorem readDpa_evolves {r : Req} {attr : Nat} {dpa : Nat} {n : Nat} : (readDpa r attr dpa n : Op (List Byte)).evolves := by
  unfold readDpa
  repeat' first
    | intro _ | with_reducible apply granRead_evolves | with_reducible apply bind_evolves | with_reducible apply pure_evolves
    | with_reducible apply mapM_evolves

theorem writeDpa_evolves {r : Req} {attr : Nat} {dpa : Nat} {b : List Byte} : (writeDpa r attr dpa b : Op Unit).evolves := by
  unfold writeDpa
  repeat' first
    | intro _ | with_reducible apply granWrite_evolves | with_reducible apply forM_evolves

theorem readMem_evolves {r : Req} {sva : Nat} {n : Nat} {k : Kind} : (readMem r sva n k : Op (List Byte)).evolves := by
  unfold readMem
  repeat' first
    | intro _ | with_reducible apply translate_evolves | with_reducible apply granRead_evolves
    | with_reducible apply bind_evolves | with_reducible apply pure_evolves | with_reducible apply mapM_evolves

theorem writeMem_evolves {r : Req} {sva : Nat} {b : List Byte} : (writeMem r sva b : Op Unit).evolves := by
  unfold writeMem
  repeat' first
    | intro _ | with_reducible assumption | with_reducible exact Evolves.refl _ | with_reducible apply translate_evolves
    | with_reducible apply granWrite_evolves | with_reducible apply bind_evolves | with_reducible apply pure_evolves
    | with_reducible apply get_evolves | with_reducible apply upd_evolves | with_reducible apply throw_evolves
    | with_reducible apply ite_op_evolves | with_reducible apply modifyGet_evolves | with_reducible apply ask_evolves
    | with_reducible apply attempt_evolves | with_reducible apply mapM_evolves | with_reducible apply forM_evolves
    | with_reducible apply forIn_evolves | with_reducible apply foldlM_evolves | with_reducible apply evolves_ite
    | with_reducible apply evolves_foldl  | with_reducible apply evolves_foldl_snd | with_reducible apply evolves_foldl_fst
    | with_reducible refine evolves_snd (by assumption) ?_ | with_reducible refine evolves_fst (by assumption) ?_
    | with_reducible refine evolves_exec (by assumption) ?_ ?_ | with_reducible refine evolves_ok (by assumption) ?_ ?_
    | with_reducible refine evolves_error (by assumption) ?_ ?_ | simp only [evolves_mk] | (split)

theorem readNum_evolves {r : Req} {sva : Nat} {n : Nat} : (readNum r sva n : Op Nat).evolves := by
  unfold readNum
  repeat' first
    | intro _ | with_reducible apply readMem_evolves | with_reducible apply bind_evolves | with_reducible apply pure_evolves

theorem atomicMem_evolves {r : Req} {sva : Nat} {n : Nat} {f : List Byte → List Byte} : (atomicMem r sva n f : Op (List Byte)).evolves := by
  unfold atomicMem
  repeat' first
    | intro _ | with_reducible assumption | with_reducible exact Evolves.refl _ | with_reducible apply translate_evolves
    | with_reducible apply granRead_evolves | with_reducible apply granWrite_evolves | with_reducible apply bind_evolves
    | with_reducible apply pure_evolves | with_reducible apply get_evolves | with_reducible apply upd_evolves
    | with_reducible apply throw_evolves | with_reducible apply ite_op_evolves | with_reducible apply modifyGet_evolves
    | with_reducible apply ask_evolves | with_reducible apply attempt_evolves | with_reducible apply mapM_evolves
    | with_reducible apply forM_evolves | with_reducible apply forIn_evolves | with_reducible apply foldlM_evolves
    | with_reducible apply evolves_ite  | with_reducible apply evolves_foldl | with_reducible apply evolves_foldl_snd
    | with_reducible apply evolves_foldl_fst | with_reducible refine evolves_snd (by assumption) ?_
    | with_reducible refine evolves_fst (by assumption) ?_ | with_reducible refine evolves_exec (by assumption) ?_ ?_
    | with_reducible refine evolves_ok (by assumption) ?_ ?_ | with_reducible refine evolves_error (by assumption) ?_ ?_
    | simp only [evolves_mk] | (split)

end Sys2Proof.Machine
end

