-- ==== Sys2Proof/Laws/EvContexts.lean ====
section
/-! SUPPORT. The functions of Machine/Contexts.lean only evolve the state (Safety.lean, Evolves). -/

namespace Sys2Proof.Machine

theorem State.setCtx_evolves {s0 s : State} {n : Nat} {c : Option TollCtx} (h : Evolves s0 s) : Evolves s0 (State.setCtx s n c) := by
  unfold State.setCtx
  repeat' first
    | with_reducible assumption | with_reducible apply evolves_ite | simp only [evolves_mk]

theorem grantTap_evolves {s0 s u : State} {slice alg : Nat} {job : Option (Nat × Nat)} {t : Tap} {x}
    (e : grantTap s slice job alg t = some (x, u)) (h : Evolves s0 s) : Evolves s0 u := by
  unfold grantTap at e
  obtain ⟨n, _, e⟩ := Option.map_eq_some_iff.mp e
  cases e
  exact State.setCtx_evolves h

theorem onCtx_evolves {s0 s : State} {n : Nat} {f : TollCtx → TollCtx} (h : Evolves s0 s) : Evolves s0 (onCtx s n f) := by
  unfold onCtx
  repeat' first
    | intro _ | with_reducible assumption | with_reducible exact Evolves.refl _ | with_reducible apply State.setCtx_evolves
    | with_reducible apply evolves_ite  | with_reducible apply evolves_foldl | with_reducible apply evolves_foldl_snd
    | with_reducible apply evolves_foldl_fst | with_reducible refine evolves_snd (by assumption) ?_
    | with_reducible refine evolves_fst (by assumption) ?_ | simp only [evolves_mk] | (split)

theorem stageTap_evolves {s0 s : State} {ctx : Option Nat} {b : List Byte} (h : Evolves s0 s) : Evolves s0 (stageTap s ctx b) := by
  unfold stageTap
  repeat' first
    | intro _ | with_reducible assumption | with_reducible exact Evolves.refl _ | with_reducible apply onCtx_evolves
    | with_reducible apply evolves_ite  | with_reducible apply evolves_foldl | with_reducible apply evolves_foldl_snd
    | with_reducible apply evolves_foldl_fst | with_reducible refine evolves_snd (by assumption) ?_
    | with_reducible refine evolves_fst (by assumption) ?_ | simp only [evolves_mk] | (split)

theorem closeTap_evolves {s0 s : State} {ctx : Option Nat} (h : Evolves s0 s) : Evolves s0 (closeTap s ctx) := by
  unfold closeTap
  repeat' first
    | intro _ | with_reducible assumption | with_reducible exact Evolves.refl _ | with_reducible apply onCtx_evolves
    | with_reducible apply evolves_ite  | with_reducible apply evolves_foldl | with_reducible apply evolves_foldl_snd
    | with_reducible apply evolves_foldl_fst | with_reducible refine evolves_snd (by assumption) ?_
    | with_reducible refine evolves_fst (by assumption) ?_ | simp only [evolves_mk] | (split)

theorem tapSector_evolves {s0 s : State} {id : Nat} {n : Nat} {off : Nat} {b : List Byte} (h : Evolves s0 s) : Evolves s0 (tapSector s id n off b) := by
  unfold tapSector
  repeat' first
    | intro _ | with_reducible assumption | with_reducible exact Evolves.refl _ | with_reducible apply State.setCtx_evolves
    | with_reducible apply evolves_ite  | with_reducible apply evolves_foldl | with_reducible apply evolves_foldl_snd
    | with_reducible apply evolves_foldl_fst | with_reducible refine evolves_snd (by assumption) ?_
    | with_reducible refine evolves_fst (by assumption) ?_ | simp only [evolves_mk] | (split)

theorem writeTap_evolves {r : Req} {job : Option Nat} {digest : List Byte} {n : Nat} {alg : Nat} {tag : Nat} {t : Tap} : (writeTap r job digest n alg tag t : Op Unit).evolves := by
  unfold writeTap
  repeat' first
    | intro _ | with_reducible exact Evolves.refl _ | with_reducible apply State.count_evolves
    | with_reducible apply writeMem_evolves | with_reducible apply bind_evolves | with_reducible apply get_evolves
    | with_reducible apply upd_evolves | with_reducible apply evolves_ite

theorem recordTap_evolves {r : Req} {job : Option Nat} {tag : Nat} {ctx : Option Nat} : (recordTap r job tag ctx : Op Unit).evolves := by
  unfold recordTap
  repeat' first
    | intro _ | with_reducible assumption | with_reducible exact Evolves.refl _ | with_reducible apply writeTap_evolves
    | with_reducible apply State.setCtx_evolves | with_reducible apply bind_evolves | with_reducible apply pure_evolves
    | with_reducible apply get_evolves | with_reducible apply upd_evolves | with_reducible apply throw_evolves
    | with_reducible apply ite_op_evolves | with_reducible apply modifyGet_evolves | with_reducible apply ask_evolves
    | with_reducible apply attempt_evolves | with_reducible apply mapM_evolves | with_reducible apply forM_evolves
    | with_reducible apply forIn_evolves | with_reducible apply foldlM_evolves | with_reducible apply evolves_ite
    | with_reducible apply evolves_foldl  | with_reducible apply evolves_foldl_snd | with_reducible apply evolves_foldl_fst
    | with_reducible refine evolves_snd (by assumption) ?_ | with_reducible refine evolves_fst (by assumption) ?_
    | with_reducible refine evolves_exec (by assumption) ?_ ?_ | with_reducible refine evolves_ok (by assumption) ?_ ?_
    | with_reducible refine evolves_error (by assumption) ?_ ?_ | simp only [evolves_mk] | (split)

theorem chainTap_evolves {s0 s : State} {b : List Byte} (h : Evolves s0 s) : Evolves s0 (chainTap s b).2 := by
  unfold chainTap
  repeat' first
    | intro _ | with_reducible assumption | with_reducible exact Evolves.refl _ | with_reducible apply State.setCtx_evolves
    | with_reducible apply evolves_ite  | with_reducible apply evolves_ite_snd | with_reducible apply evolves_foldl
    | with_reducible apply evolves_foldl_snd | with_reducible apply evolves_foldl_fst
    | with_reducible refine evolves_snd (by assumption) ?_ | with_reducible refine evolves_fst (by assumption) ?_
    | simp only [evolves_mk] | (split)

end Sys2Proof.Machine
end

