-- ==== Sys2Proof/Laws/EvSignals.lean ====
section
/-! SUPPORT. The functions of Machine/Signals.lean only evolve the state (Safety.lean, Evolves). -/

namespace Sys2Proof.Machine

theorem State.setVector_evolves {s0 s : State} {v : Nat} {e : MsixEntry} (h : Evolves s0 s) : Evolves s0 (State.setVector s v e) := by
  unfold State.setVector
  repeat' first
    | with_reducible assumption | with_reducible apply evolves_ite | simp only [evolves_mk]

theorem msixSend_evolves {s0 s : State} {v : Nat} (h : Evolves s0 s) : Evolves s0 (msixSend s v) := by
  unfold msixSend
  split
  · exact h
  · dsimp only
    split
    · exact State.count_evolves (State.setVector_evolves h)
    · exact State.count_evolves (h.trans ⟨rfl, Nat.le_refl _, id, List.prefix_append _ _, fun _ g => ⟨g, fun _ _ => rfl⟩, id⟩)

theorem sliceMsix_evolves {s0 s : State} {slice : Nat} {k : Nat} (h : Evolves s0 s) : Evolves s0 (sliceMsix s slice k) := by
  unfold sliceMsix
  repeat' first
    | with_reducible assumption | with_reducible apply msixSend_evolves

theorem msixUnmask_evolves {s0 s : State} {v : Nat} (h : Evolves s0 s) : Evolves s0 (msixUnmask s v) := by
  unfold msixUnmask
  repeat' first
    | with_reducible assumption | with_reducible apply State.setVector_evolves | with_reducible apply msixSend_evolves
    | simp only [evolves_mk] | (split)

theorem State.setTail_evolves {s0 s : State} {slice : Nat} {f : Tail → Tail} (h : Evolves s0 s) : Evolves s0 (State.setTail s slice f) := by
  unfold State.setTail
  repeat' first
    | with_reducible assumption | with_reducible apply evolves_ite | simp only [evolves_mk]

theorem State.setQueue_evolves {s0 s : State} {gq : Nat} {f : Queue → Queue} (h : Evolves s0 s) : Evolves s0 (State.setQueue s gq f) := by
  unfold State.setQueue
  repeat' first
    | with_reducible assumption | with_reducible apply evolves_ite | simp only [evolves_mk]

theorem State.setJob_evolves {s0 s : State} {id : Nat} {f : Job → Job} (h : Evolves s0 s) : Evolves s0 (State.setJob s id f) := by
  unfold State.setJob
  repeat' first
    | with_reducible assumption | with_reducible apply evolves_ite | simp only [evolves_mk]

theorem recordFault_evolves {s0 s : State} {slice : Nat} {queue : Nat} {index : Nat} {kind : Nat} {reason : Nat} {target : Nat} {device : Bool} (h : Evolves s0 s) : Evolves s0 (recordFault s slice queue index kind reason target device) := by
  unfold recordFault
  repeat' first
    | with_reducible assumption | with_reducible apply setReg_evolves

theorem pendAdd_evolves {s0 s : State} {slice : Nat} {p : PRec} (h : Evolves s0 s) : Evolves s0 (pendAdd s slice p) := by
  unfold pendAdd
  repeat' first
    | with_reducible assumption | with_reducible apply State.setTail_evolves | simp only [evolves_mk] | (split)

theorem stopTasks_evolves {s0 s : State} {p : Task → Bool} (h : Evolves s0 s) : Evolves s0 (stopTasks s p) := by
  unfold stopTasks
  repeat' first
    | with_reducible assumption | with_reducible apply evolves_ite | simp only [evolves_mk]

theorem deviceHalt_evolves {s0 s : State} {cls : Nat} (h : Evolves s0 s) : Evolves s0 (deviceHalt s cls) := by
  unfold deviceHalt
  repeat' first
    | with_reducible assumption | with_reducible apply stopTasks_evolves | simp only [evolves_mk] | (split)

theorem haltSlice_evolves {s0 s : State} {slice : Nat} {queue : Nat} {index : Nat} {kind : Nat} {reason : Nat} {target : Nat} (h : Evolves s0 s) : Evolves s0 (haltSlice s slice queue index kind reason target) := by
  unfold haltSlice
  repeat' first
    | with_reducible assumption | with_reducible apply deviceHalt_evolves | with_reducible apply recordFault_evolves
    | with_reducible apply setFld_evolves | with_reducible apply setFlag_evolves | with_reducible apply stopTasks_evolves
    | with_reducible apply pendAdd_evolves | with_reducible apply evolves_ite | simp only [evolves_mk]

theorem ringFault_evolves {s0 s : State} {slice : Nat} {queue : Nat} {index : Nat} {target : Nat} {e : Err} (h : Evolves s0 s) : Evolves s0 (ringFault s slice queue index target e) := by
  unfold ringFault
  repeat' first
    | with_reducible assumption | with_reducible apply haltSlice_evolves | (split)

theorem tailWrite_evolves {s0 s : State} {slice : Nat} {t : TRec} (h : Evolves s0 s) : Evolves s0 (tailWrite s slice t) := by
  unfold tailWrite
  repeat' first
    | with_reducible assumption | with_reducible apply exec_evolves | with_reducible apply writeMem_evolves
    | with_reducible apply State.count_evolves | with_reducible apply setReg_evolves | with_reducible apply ringFault_evolves
    | with_reducible refine evolves_exec (by assumption) ?_ ?_ | simp only [evolves_mk] | (split)

theorem tailFlush_evolves {s0 a1 : State} {a0 : Nat} {a2 : Nat} (h : Evolves s0 a1) : Evolves s0 (tailFlush a0 a1 a2) := by
  induction a0 generalizing a1 with
  | zero =>
    unfold tailFlush
    repeat' first
      | intro _ | with_reducible assumption | with_reducible apply tailWrite_evolves
      | with_reducible apply State.setTail_evolves | with_reducible apply sliceMsix_evolves | with_reducible apply evolves_ite
      | (split)
  | succ n ih =>
    unfold tailFlush
    repeat' first
      | intro _ | with_reducible apply ih | with_reducible assumption | with_reducible apply tailWrite_evolves
      | with_reducible apply State.setTail_evolves | with_reducible apply sliceMsix_evolves | with_reducible apply evolves_ite
      | (split)

theorem tailDrain_evolves {s0 s : State} {slice : Nat} (h : Evolves s0 s) : Evolves s0 (tailDrain s slice) := by
  unfold tailDrain
  repeat' first
    | with_reducible assumption | with_reducible apply tailFlush_evolves

theorem tailJob_evolves {s0 s : State} {slice : Nat} {reserved : Bool} {t : TRec} (h : Evolves s0 s) : Evolves s0 (tailJob s slice reserved t) := by
  unfold tailJob
  repeat' first
    | with_reducible assumption | with_reducible apply State.setTail_evolves | with_reducible apply tailWrite_evolves
    | with_reducible apply tailDrain_evolves | with_reducible apply setFlag_evolves | with_reducible apply addSat_evolves
    | with_reducible apply State.count_evolves | simp only [evolves_mk] | (split)

theorem settleEvents_evolves {s0 s : State} (h : Evolves s0 s) : Evolves s0 (settleEvents s) := by
  unfold settleEvents
  repeat' first
    | intro _ | with_reducible assumption | with_reducible apply pendAdd_evolves | with_reducible apply tailDrain_evolves
    | with_reducible apply sliceMsix_evolves | with_reducible apply evolves_ite | with_reducible apply evolves_foldl
    | simp only [evolves_mk]

theorem State.trace_evolves {s0 s : State} {t : Trace} (h : Evolves s0 s) : Evolves s0 (State.trace s t) := by
  unfold State.trace
  repeat' first
    | with_reducible assumption | with_reducible apply exec_evolves | with_reducible apply writeMem_evolves
    | with_reducible apply setReg_evolves | with_reducible apply setFlag_evolves
    | with_reducible refine evolves_exec (by assumption) ?_ ?_ | simp only [evolves_mk] | (split)

end Sys2Proof.Machine
end

