-- ==== Sys2Proof/Laws/EvFantail.lean ====
section
/-! SUPPORT. The functions of Machine/Fantail.lean only evolve the state (Safety.lean, Evolves). -/

namespace Sys2Proof.Machine

theorem fanCounts_evolves {s0 s : State} (h : Evolves s0 s) : Evolves s0 (fanCounts s) := by
  unfold fanCounts
  repeat' first
    | with_reducible assumption | with_reducible apply setFld_evolves

theorem queueFlags_evolves {s0 s : State} {gq : Nat} (h : Evolves s0 s) : Evolves s0 (queueFlags s gq) := by
  unfold queueFlags
  repeat' first
    | with_reducible assumption | with_reducible apply setFld_evolves | with_reducible apply setFlag_evolves

theorem State.setTask_evolves {s0 s : State} {job : Nat} {part : Nat} {f : Task → Task} (h : Evolves s0 s) : Evolves s0 (State.setTask s job part f) := by
  unfold State.setTask
  repeat' first
    | with_reducible assumption | with_reducible apply evolves_ite | simp only [evolves_mk]

theorem dropTasks_evolves {s0 s : State} {p : Task → Bool} (h : Evolves s0 s) : Evolves s0 (dropTasks s p) := by
  unfold dropTasks
  repeat' first
    | with_reducible assumption | with_reducible apply evolves_ite | simp only [evolves_mk]

theorem cancelTasks_evolves {s0 s : State} {id : Nat} (h : Evolves s0 s) : Evolves s0 (cancelTasks s id) := by
  unfold cancelTasks
  repeat' first
    | with_reducible assumption | with_reducible apply stopTasks_evolves | with_reducible apply dropTasks_evolves
    | with_reducible apply State.trace_evolves | with_reducible apply fanCounts_evolves | with_reducible apply evolves_ite
    | (split)

theorem leaveDelay_evolves {s0 s : State} {id : Nat} (h : Evolves s0 s) : Evolves s0 (leaveDelay s id) := by
  unfold leaveDelay
  repeat' first
    | with_reducible assumption | with_reducible apply subFld_evolves | with_reducible apply State.setJob_evolves
    | with_reducible apply State.count_evolves | with_reducible apply State.trace_evolves | with_reducible apply evolves_ite
    | (split)

theorem failJob_evolves {s0 s : State} {id : Nat} {o : Outc} (h : Evolves s0 s) : Evolves s0 (failJob s id o) := by
  unfold failJob
  repeat' first
    | with_reducible assumption | with_reducible apply cancelTasks_evolves | with_reducible apply leaveDelay_evolves
    | with_reducible apply State.setJob_evolves | with_reducible apply evolves_ite | simp only [evolves_mk] | (split)

theorem fixJob_evolves {s0 s : State} {id : Nat} {o : Outc} (h : Evolves s0 s) : Evolves s0 (fixJob s id o) := by
  unfold fixJob
  repeat' first
    | with_reducible assumption | with_reducible apply State.setJob_evolves

theorem finishJob_evolves {s0 s : State} {id : Nat} {o : Outc} (h : Evolves s0 s) : Evolves s0 (finishJob s id o) := by
  unfold finishJob
  repeat' first
    | with_reducible assumption | with_reducible apply State.setJob_evolves

theorem okJob_evolves {s0 s : State} {id : Nat} {result : Nat} (h : Evolves s0 s) : Evolves s0 (okJob s id result) := by
  unfold okJob
  repeat' first
    | with_reducible assumption | with_reducible apply finishJob_evolves

theorem setTasks_evolves {s0 s : State} {id : Nat} {n : Nat} (h : Evolves s0 s) : Evolves s0 (setTasks s id n) := by
  unfold setTasks
  repeat' first
    | with_reducible assumption | with_reducible apply State.setJob_evolves

theorem createTask_evolves {s0 s : State} {producersOf : Job → Nat → List Nat} (h : Evolves s0 s) : Evolves s0 (createTask s producersOf) := by
  unfold createTask
  repeat' first
    | with_reducible assumption | with_reducible apply fanCounts_evolves | with_reducible apply State.count_evolves
    | with_reducible apply State.setJob_evolves | simp only [evolves_mk] | (split)

theorem producerDone_evolves {s0 s : State} {job : Nat} {p : Nat} (h : Evolves s0 s) : Evolves s0 (producerDone s job p) := by
  unfold producerDone
  repeat' first
    | with_reducible assumption | with_reducible apply fanCounts_evolves | simp only [evolves_mk]

theorem joinRows_evolves {s0 s : State} {job : Nat} {part : Nat} (h : Evolves s0 s) : Evolves s0 (joinRows s job part) := by
  unfold joinRows
  repeat' first
    | with_reducible assumption | with_reducible apply State.setJob_evolves | simp only [evolves_mk] | (split)

theorem releaseTask_evolves {s0 s : State} {job : Nat} {part : Nat} (h : Evolves s0 s) : Evolves s0 (releaseTask s job part) := by
  unfold releaseTask
  repeat' first
    | with_reducible assumption | with_reducible apply State.setTask_evolves | with_reducible apply joinRows_evolves
    | with_reducible apply fanCounts_evolves | with_reducible apply producerDone_evolves | with_reducible apply evolves_ite

theorem completeTask_evolves {s0 s : State} {job : Nat} {part : Nat} (h : Evolves s0 s) : Evolves s0 (completeTask s job part) := by
  unfold completeTask
  repeat' first
    | with_reducible assumption | with_reducible apply State.trace_evolves | with_reducible apply State.setTask_evolves
    | with_reducible apply releaseTask_evolves | with_reducible apply State.count_evolves | with_reducible apply evolves_ite
    | (split)

theorem writeStatus_evolves {s0 s : State} {gq : Nat} {index : Nat} {chainIndex : Nat} {tag : Nat} {o : Outc} (h : Evolves s0 s) : Evolves s0 (writeStatus s gq index chainIndex tag o).2 := by
  unfold writeStatus
  repeat' first
    | with_reducible assumption | with_reducible apply exec_evolves | with_reducible apply writeMem_evolves

theorem writeSlots_evolves {s0 s : State} {gq : Nat} {tag : Nat} {o : Outc} {a4 : List (Nat × Nat)} (h : Evolves s0 s) : Evolves s0 (writeSlots s gq tag o a4) := by
  induction a4 generalizing s with
  | nil =>
    unfold writeSlots
    repeat' first
      | intro _ | with_reducible assumption | with_reducible apply writeStatus_evolves | with_reducible apply ringFault_evolves
      | with_reducible refine evolves_snd (by assumption) ?_ | (split)
  | cons x l ih =>
    unfold writeSlots
    repeat' first
      | intro _ | with_reducible apply ih | with_reducible assumption | with_reducible apply writeStatus_evolves | with_reducible apply ringFault_evolves
      | with_reducible refine evolves_snd (by assumption) ?_ | (split)

theorem sendPost_evolves {s0 s : State} {slice : Nat} {queue : Nat} {p : QPost} (h : Evolves s0 s) : Evolves s0 (sendPost s slice queue p) := by
  unfold sendPost
  repeat' first
    | with_reducible assumption | with_reducible apply tailJob_evolves | (split)

theorem advanceHead_evolves {s0 s : State} {gq : Nat} (h : Evolves s0 s) : Evolves s0 (advanceHead s gq) := by
  unfold advanceHead
  repeat' first
    | intro _ | with_reducible assumption | with_reducible apply exec_evolves | with_reducible apply writeMem_evolves
    | with_reducible apply ringFault_evolves | with_reducible apply State.setQueue_evolves
    | with_reducible apply setReg_evolves | with_reducible apply sendPost_evolves | with_reducible apply sliceMsix_evolves
    | with_reducible apply evolves_foldl  | with_reducible refine evolves_exec (by assumption) ?_ ?_ | simp only [evolves_mk]
    | (split)

theorem jobWaiters_evolves {s0 s : State} {id : Nat} {status : Nat} (h : Evolves s0 s) : Evolves s0 (jobWaiters s id status) := by
  unfold jobWaiters
  repeat' first
    | with_reducible assumption | with_reducible apply evolves_ite | simp only [evolves_mk]

theorem reserveSlot_evolves {s0 s : State} {j : Job} (h : Evolves s0 s) : Evolves s0 (reserveSlot s j) := by
  unfold reserveSlot
  repeat' first
    | with_reducible assumption | with_reducible apply setFlag_evolves | with_reducible apply State.setJob_evolves
    | with_reducible apply State.setTail_evolves

theorem holdRelease_evolves {s0 s : State} {j : Job} (h : Evolves s0 s) : Evolves s0 (holdRelease s j) := by
  unfold holdRelease
  repeat' first
    | with_reducible assumption | with_reducible apply setFlag_evolves | with_reducible apply State.setJob_evolves
    | with_reducible apply State.setTail_evolves

theorem reserveFrom_evolves {s0 s : State} {j : Job} (h : Evolves s0 s) : Evolves s0 (reserveFrom s j).2 := by
  unfold reserveFrom
  repeat' first
    | with_reducible assumption | with_reducible apply reserveSlot_evolves | with_reducible apply holdRelease_evolves
    | (split)

theorem reserveRecord_evolves {s0 s : State} {j : Job} (h : Evolves s0 s) : Evolves s0 (reserveRecord s j).2 := by
  unfold reserveRecord
  repeat' first
    | with_reducible assumption | with_reducible apply reserveFrom_evolves | with_reducible apply tailDrain_evolves | (split)

theorem resultCount_evolves {s0 s : State} {j : Job} {o : Outc} (h : Evolves s0 s) : Evolves s0 (resultCount s j o) := by
  unfold resultCount
  repeat' first
    | with_reducible assumption | with_reducible apply State.count_evolves | (split)

theorem releaseWrites_evolves {s0 s : State} {j : Job} {o : Outc} (h : Evolves s0 s) : Evolves s0 (releaseWrites s j o) := by
  unfold releaseWrites
  repeat' first
    | with_reducible assumption | with_reducible apply writeSlots_evolves | with_reducible apply State.setQueue_evolves
    | with_reducible apply State.trace_evolves | with_reducible apply jobWaiters_evolves
    | with_reducible apply resultCount_evolves | with_reducible apply State.count_evolves
    | with_reducible apply queueFlags_evolves | with_reducible apply fanCounts_evolves
    | with_reducible apply advanceHead_evolves | with_reducible apply evolves_ite | simp only [evolves_mk]

theorem tryRelease_evolves {s0 s : State} {id : Nat} (h : Evolves s0 s) : Evolves s0 (tryRelease s id) := by
  unfold tryRelease
  repeat' first
    | with_reducible assumption | with_reducible apply State.countReq_evolves | with_reducible apply hostRequest_evolves
    | with_reducible apply State.setJob_evolves | with_reducible apply reserveRecord_evolves
    | with_reducible apply releaseWrites_evolves | with_reducible apply evolves_ite | (split)

theorem flushDone_evolves {s0 s : State} {id : Nat} (h : Evolves s0 s) : Evolves s0 (flushDone s id) := by
  unfold flushDone
  repeat' first
    | with_reducible assumption | with_reducible apply tryRelease_evolves | with_reducible apply State.setJob_evolves
    | (split)

theorem timerStop_evolves {s0 s : State} {gq : Nat} (h : Evolves s0 s) : Evolves s0 (timerStop s gq) := by
  unfold timerStop
  repeat' first
    | intro _ | with_reducible assumption | with_reducible exact Evolves.refl _ | with_reducible apply subFld_evolves
    | with_reducible apply State.setQueue_evolves | with_reducible apply State.count_evolves
    | with_reducible apply State.trace_evolves | with_reducible apply evolves_ite | with_reducible apply evolves_foldl
    | with_reducible apply evolves_foldl_snd | with_reducible apply evolves_foldl_fst
    | with_reducible refine evolves_snd (by assumption) ?_ | with_reducible refine evolves_fst (by assumption) ?_
    | simp only [evolves_mk] | (split)

theorem closeChain_evolves {s0 s : State} {gq : Nat} (h : Evolves s0 s) : Evolves s0 (closeChain s gq) := by
  unfold closeChain
  repeat' first
    | with_reducible assumption | with_reducible apply timerStop_evolves | with_reducible apply State.setJob_evolves
    | with_reducible apply queueFlags_evolves | with_reducible apply State.setQueue_evolves
    | with_reducible apply evolves_ite  | (split)

theorem chainFail_evolves {s0 s : State} {gq : Nat} (h : Evolves s0 s) : Evolves s0 (chainFail s gq) := by
  unfold chainFail
  repeat' first
    | with_reducible assumption | with_reducible apply failJob_evolves | with_reducible apply closeChain_evolves
    | with_reducible apply State.count_evolves | with_reducible apply evolves_ite | (split)

theorem timerCheck_evolves {s0 s : State} {gq : Nat} (h : Evolves s0 s) : Evolves s0 (timerCheck s gq) := by
  unfold timerCheck
  repeat' first
    | intro _ | with_reducible assumption | with_reducible exact Evolves.refl _ | with_reducible apply chainFail_evolves
    | with_reducible apply addWrap_evolves | with_reducible apply State.setQueue_evolves
    | with_reducible apply State.count_evolves | with_reducible apply State.trace_evolves | with_reducible apply evolves_ite
    | with_reducible apply evolves_foldl  | with_reducible apply evolves_foldl_snd | with_reducible apply evolves_foldl_fst
    | with_reducible refine evolves_snd (by assumption) ?_ | with_reducible refine evolves_fst (by assumption) ?_
    | simp only [evolves_mk] | (split)

end Sys2Proof.Machine
end

