-- ==== Sys2Proof/Laws/EvLedgerOps.lean ====
section
/-! SUPPORT. The functions of Machine/LedgerOps.lean only evolve the state (Safety.lean, Evolves). -/

namespace Sys2Proof.Machine

theorem ledgerPart_evolves {r : Req} {ptable : Nat} {q : Nat} : (ledgerPart r ptable q : Op (Nat × Nat)).evolves := by
  unfold ledgerPart
  repeat' first
    | intro _ | with_reducible apply readMem_evolves | with_reducible apply bind_evolves | with_reducible apply pure_evolves

theorem ledgerStamps_evolves {r : Req} {dir : Nat} {n : Nat} : (ledgerStamps r dir n : Op (Nat × Nat)).evolves := by
  unfold ledgerStamps
  repeat' first
    | intro _ | with_reducible apply readNum_evolves | with_reducible apply bind_evolves | with_reducible apply pure_evolves

theorem ledgerSeg_evolves {r : Req} {dir : Nat} {k : Nat} : (ledgerSeg r dir k : Op (Nat × List Byte)).evolves := by
  unfold ledgerSeg
  repeat' first
    | intro _ | with_reducible apply readNum_evolves | with_reducible apply readMem_evolves
    | with_reducible apply bind_evolves | with_reducible apply pure_evolves

theorem writeBitAt_evolves {r : Req} {base : Nat} {i : Nat} {v : Bool} : (writeBitAt r base i v : Op Unit).evolves := by
  unfold writeBitAt
  repeat' first
    | intro _ | with_reducible assumption | with_reducible exact Evolves.refl _ | with_reducible apply atomicMem_evolves
    | with_reducible apply bind_evolves | with_reducible apply pure_evolves | with_reducible apply get_evolves
    | with_reducible apply upd_evolves | with_reducible apply throw_evolves | with_reducible apply ite_op_evolves
    | with_reducible apply modifyGet_evolves | with_reducible apply ask_evolves | with_reducible apply attempt_evolves
    | with_reducible apply mapM_evolves | with_reducible apply forM_evolves | with_reducible apply forIn_evolves
    | with_reducible apply foldlM_evolves | with_reducible apply evolves_ite | with_reducible apply evolves_foldl
    | with_reducible apply evolves_foldl_snd | with_reducible apply evolves_foldl_fst
    | with_reducible refine evolves_snd (by assumption) ?_ | with_reducible refine evolves_fst (by assumption) ?_
    | with_reducible refine evolves_exec (by assumption) ?_ ?_ | with_reducible refine evolves_ok (by assumption) ?_ ?_
    | with_reducible refine evolves_error (by assumption) ?_ ?_ | simp only [evolves_mk] | (split)

theorem ledgerLane_evolves {r : Req} {dir : Nat} {k : Nat} {n : Nat} {t : Tag} {raw : Nat} {ok : Bool} : (ledgerLane r dir k n t raw ok : Op Unit).evolves := by
  unfold ledgerLane
  repeat' first
    | intro _ | with_reducible apply ledgerSeg_evolves | with_reducible apply writeBitAt_evolves
    | with_reducible apply writeMem_evolves | with_reducible apply bind_evolves | with_reducible apply pure_evolves | (split)

end Sys2Proof.Machine
end

