-- ==== Sys2Proof/Laws/EvHashTab.lean ====
section
/-! SUPPORT. The functions of Machine/HashTab.lean only evolve the state (Safety.lean, Evolves). -/

namespace Sys2Proof.Machine

theorem jobWrite_evolves {job : Nat} {r : Req} {sva : Nat} {b : List Byte} : (jobWrite job r sva b : Op Unit).evolves := by
  unfold jobWrite
  repeat' first
    | intro _ | with_reducible exact Evolves.refl _ | with_reducible apply writeMem_evolves
    | with_reducible apply bind_evolves | with_reducible apply pure_evolves | with_reducible apply upd_evolves
    | with_reducible apply evolves_ite  | (split)

theorem Bnd.read_evolves {b : Bnd} {off : Nat} {n : Nat} : (Bnd.read b off n : Op (List Byte)).evolves := by
  unfold Bnd.read
  repeat' first
    | with_reducible apply readMem_evolves | with_reducible apply throw_evolves | with_reducible apply evolves_ite | (split)

theorem Bnd.num8_evolves {b : Bnd} {off : Nat} {n : Nat} : (Bnd.num8 b off n : Op Nat).evolves := by
  unfold Bnd.num8
  repeat' first
    | intro _ | with_reducible apply Bnd.read_evolves | with_reducible apply bind_evolves | with_reducible apply pure_evolves

theorem Bnd.write_evolves {b : Bnd} {off : Nat} {x : List Byte} : (Bnd.write b off x : Op Unit).evolves := by
  unfold Bnd.write
  repeat' first
    | with_reducible apply writeMem_evolves | with_reducible apply throw_evolves | with_reducible apply evolves_ite | (split)

theorem Bnd.rmw_evolves {b : Bnd} {off : Nat} {n : Nat} {f : Nat → Nat} : (Bnd.rmw b off n f : Op Nat).evolves := by
  unfold Bnd.rmw
  repeat' first
    | intro _ | with_reducible assumption | with_reducible exact Evolves.refl _ | with_reducible apply atomicMem_evolves
    | with_reducible apply bind_evolves | with_reducible apply pure_evolves | with_reducible apply get_evolves
    | with_reducible apply upd_evolves | with_reducible apply throw_evolves | with_reducible apply ite_op_evolves
    | with_reducible apply modifyGet_evolves | with_reducible apply ask_evolves | with_reducible apply attempt_evolves
    | with_reducible apply mapM_evolves | with_reducible apply forM_evolves | with_reducible apply forIn_evolves
    | with_reducible apply foldlM_evolves | with_reducible apply evolves_ite | with_reducible apply evolves_foldl
    | with_reducible apply evolves_foldl_snd | with_reducible apply evolves_foldl_fst
    | with_reducible refine evolves_snd (by assumption) ?_ | with_reducible refine evolves_fst (by assumption) ?_
    | with_reducible refine evolves_exec (by assumption) ?_ ?_ | with_reducible refine evolves_ok (by assumption) ?_ ?_
    | with_reducible refine evolves_error (by assumption) ?_ ?_ | simp only [evolves_mk] | (split)

theorem Bnd.swap_evolves {b : Bnd} {off : Nat} {n : Nat} {v : Nat} : (Bnd.swap b off n v : Op Unit).evolves := by
  unfold Bnd.swap
  repeat' first
    | intro _ | with_reducible assumption | with_reducible exact Evolves.refl _ | with_reducible apply Bnd.rmw_evolves
    | with_reducible apply bind_evolves | with_reducible apply pure_evolves | with_reducible apply get_evolves
    | with_reducible apply upd_evolves | with_reducible apply throw_evolves | with_reducible apply ite_op_evolves
    | with_reducible apply modifyGet_evolves | with_reducible apply ask_evolves | with_reducible apply attempt_evolves
    | with_reducible apply mapM_evolves | with_reducible apply forM_evolves | with_reducible apply forIn_evolves
    | with_reducible apply foldlM_evolves | with_reducible apply evolves_ite | with_reducible apply evolves_foldl
    | with_reducible apply evolves_foldl_snd | with_reducible apply evolves_foldl_fst
    | with_reducible refine evolves_snd (by assumption) ?_ | with_reducible refine evolves_fst (by assumption) ?_
    | with_reducible refine evolves_exec (by assumption) ?_ ?_ | with_reducible refine evolves_ok (by assumption) ?_ ?_
    | with_reducible refine evolves_error (by assumption) ?_ ?_ | simp only [evolves_mk] | (split)

theorem Bnd.setBit_evolves {b : Bnd} {off : Nat} {i : Nat} {v : Bool} : (Bnd.setBit b off i v : Op Unit).evolves := by
  unfold Bnd.setBit
  repeat' first
    | intro _ | with_reducible assumption | with_reducible exact Evolves.refl _ | with_reducible apply Bnd.rmw_evolves
    | with_reducible apply bind_evolves | with_reducible apply pure_evolves | with_reducible apply get_evolves
    | with_reducible apply upd_evolves | with_reducible apply throw_evolves | with_reducible apply ite_op_evolves
    | with_reducible apply modifyGet_evolves | with_reducible apply ask_evolves | with_reducible apply attempt_evolves
    | with_reducible apply mapM_evolves | with_reducible apply forM_evolves | with_reducible apply forIn_evolves
    | with_reducible apply foldlM_evolves | with_reducible apply evolves_ite | with_reducible apply evolves_foldl
    | with_reducible apply evolves_foldl_snd | with_reducible apply evolves_foldl_fst
    | with_reducible refine evolves_snd (by assumption) ?_ | with_reducible refine evolves_fst (by assumption) ?_
    | with_reducible refine evolves_exec (by assumption) ?_ ?_ | with_reducible refine evolves_ok (by assumption) ?_ ?_
    | with_reducible refine evolves_error (by assumption) ?_ ?_ | simp only [evolves_mk] | (split)

theorem Bnd.putBitmap_evolves {b : Bnd} {bit : Nat} {vs : List Bool} : (Bnd.putBitmap b bit vs : Op Unit).evolves := by
  unfold Bnd.putBitmap
  repeat' first
    | intro _ | with_reducible assumption | with_reducible exact Evolves.refl _ | with_reducible apply Bnd.write_evolves
    | with_reducible apply Bnd.rmw_evolves | with_reducible apply bind_evolves | with_reducible apply pure_evolves
    | with_reducible apply get_evolves | with_reducible apply upd_evolves | with_reducible apply throw_evolves
    | with_reducible apply ite_op_evolves | with_reducible apply modifyGet_evolves | with_reducible apply ask_evolves
    | with_reducible apply attempt_evolves | with_reducible apply mapM_evolves | with_reducible apply forM_evolves
    | with_reducible apply forIn_evolves | with_reducible apply foldlM_evolves | with_reducible apply evolves_ite
    | with_reducible apply evolves_foldl  | with_reducible apply evolves_foldl_snd | with_reducible apply evolves_foldl_fst
    | with_reducible refine evolves_snd (by assumption) ?_ | with_reducible refine evolves_fst (by assumption) ?_
    | with_reducible refine evolves_exec (by assumption) ?_ ?_ | with_reducible refine evolves_ok (by assumption) ?_ ?_
    | with_reducible refine evolves_error (by assumption) ?_ ?_ | simp only [evolves_mk] | (split)

theorem Bnd.bit_evolves {b : Bnd} {off : Nat} {i : Nat} : (Bnd.bit b off i : Op Bool).evolves := by
  unfold Bnd.bit
  repeat' first
    | intro _ | with_reducible apply Bnd.num8_evolves | with_reducible apply bind_evolves | with_reducible apply pure_evolves

theorem freeBits_evolves {w : Nat} : (freeBits w : Op Nat).evolves := by
  unfold freeBits
  repeat' first
    | intro _ | with_reducible exact Evolves.refl _ | with_reducible apply drawFree_evolves
    | with_reducible apply bind_evolves | with_reducible apply pure_evolves | with_reducible apply modifyGet_evolves

theorem htFail_evolves {α : Type} {num : Nat} {off : Nat} : (htFail num off : Op α).evolves := by
  unfold htFail
  repeat' first
    | with_reducible apply throw_evolves

theorem openTable_evolves {b : Bnd} {kind : Nat} {key : Tag} {tests : HtHdr → List (Bool × Nat)} : (openTable b kind key tests : Op HtHdr).evolves := by
  unfold openTable
  repeat' first
    | intro _ | with_reducible apply Bnd.read_evolves | with_reducible apply htFail_evolves
    | with_reducible apply bind_evolves | with_reducible apply pure_evolves | simp only [evolves_mk] | (split)

theorem countOf_evolves {b : Bnd} {j : Nat} : (countOf b j : Op Nat).evolves := by
  unfold countOf
  repeat' first
    | with_reducible apply Bnd.num8_evolves

theorem claimEntry_evolves {b : Bnd} {h : HtHdr} {j : Nat} : (claimEntry b h j : Op (Option Nat)).evolves := by
  unfold claimEntry
  repeat' first
    | intro _ | with_reducible exact Evolves.refl _ | with_reducible apply Bnd.rmw_evolves
    | with_reducible apply State.countReq_evolves | with_reducible apply bind_evolves | with_reducible apply pure_evolves
    | with_reducible apply upd_evolves | with_reducible apply throw_evolves | with_reducible apply evolves_ite
    | simp only [evolves_mk] | (split)

theorem linkEntry_evolves {b : Bnd} {h : HtHdr} {j : Nat} {bucket : Nat} {e : Nat} : (linkEntry b h j bucket e : Op Unit).evolves := by
  unfold linkEntry
  repeat' first
    | intro _ | with_reducible apply Bnd.num8_evolves | with_reducible apply Bnd.swap_evolves
    | with_reducible apply bind_evolves

theorem unlinkChain_evolves {b : Bnd} {h : HtHdr} {j : Nat} {gone : Nat → Op Bool} {a4 : Nat} {a5 : Nat} (hg : ∀ n, (gone n).evolves) : (unlinkChain b h j gone a4 a5 : Op Unit).evolves := by
  induction a4 generalizing a5 with
  | zero =>
    unfold unlinkChain
    repeat' first
      | intro _ | with_reducible assumption | with_reducible exact Evolves.refl _ | with_reducible apply Bnd.num8_evolves
      | with_reducible apply Bnd.swap_evolves | with_reducible apply hg | with_reducible apply bind_evolves
      | with_reducible apply pure_evolves | with_reducible apply get_evolves | with_reducible apply upd_evolves
      | with_reducible apply throw_evolves | with_reducible apply ite_op_evolves | with_reducible apply modifyGet_evolves
      | with_reducible apply ask_evolves | with_reducible apply attempt_evolves | with_reducible apply mapM_evolves
      | with_reducible apply forM_evolves | with_reducible apply forIn_evolves | with_reducible apply foldlM_evolves
      | with_reducible apply evolves_ite  | with_reducible apply evolves_foldl | with_reducible apply evolves_foldl_snd
      | with_reducible apply evolves_foldl_fst | with_reducible refine evolves_snd (by assumption) ?_
      | with_reducible refine evolves_fst (by assumption) ?_ | with_reducible refine evolves_exec (by assumption) ?_ ?_
      | with_reducible refine evolves_ok (by assumption) ?_ ?_ | with_reducible refine evolves_error (by assumption) ?_ ?_
      | simp only [evolves_mk] | (split)
  | succ n ih =>
    unfold unlinkChain
    repeat' first
      | intro _ | with_reducible apply ih | with_reducible assumption | with_reducible exact Evolves.refl _ | with_reducible apply Bnd.num8_evolves
      | with_reducible apply Bnd.swap_evolves | with_reducible apply hg | with_reducible apply bind_evolves
      | with_reducible apply pure_evolves | with_reducible apply get_evolves | with_reducible apply upd_evolves
      | with_reducible apply throw_evolves | with_reducible apply ite_op_evolves | with_reducible apply modifyGet_evolves
      | with_reducible apply ask_evolves | with_reducible apply attempt_evolves | with_reducible apply mapM_evolves
      | with_reducible apply forM_evolves | with_reducible apply forIn_evolves | with_reducible apply foldlM_evolves
      | with_reducible apply evolves_ite  | with_reducible apply evolves_foldl | with_reducible apply evolves_foldl_snd
      | with_reducible apply evolves_foldl_fst | with_reducible refine evolves_snd (by assumption) ?_
      | with_reducible refine evolves_fst (by assumption) ?_ | with_reducible refine evolves_exec (by assumption) ?_ ?_
      | with_reducible refine evolves_ok (by assumption) ?_ ?_ | with_reducible refine evolves_error (by assumption) ?_ ?_
      | simp only [evolves_mk] | (split)

theorem laneBits_evolves {v : Option Nat} {n : Nat} : (laneBits v n : Op Nat).evolves := by
  unfold laneBits
  repeat' first
    | intro _ | with_reducible assumption | with_reducible exact Evolves.refl _ | with_reducible apply freeBits_evolves
    | with_reducible apply bind_evolves | with_reducible apply pure_evolves | with_reducible apply get_evolves
    | with_reducible apply upd_evolves | with_reducible apply throw_evolves | with_reducible apply ite_op_evolves
    | with_reducible apply modifyGet_evolves | with_reducible apply ask_evolves | with_reducible apply attempt_evolves
    | with_reducible apply mapM_evolves | with_reducible apply forM_evolves | with_reducible apply forIn_evolves
    | with_reducible apply foldlM_evolves | with_reducible apply evolves_ite | with_reducible apply evolves_foldl
    | with_reducible apply evolves_foldl_snd | with_reducible apply evolves_foldl_fst
    | with_reducible refine evolves_snd (by assumption) ?_ | with_reducible refine evolves_fst (by assumption) ?_
    | with_reducible refine evolves_exec (by assumption) ?_ ?_ | with_reducible refine evolves_ok (by assumption) ?_ ?_
    | with_reducible refine evolves_error (by assumption) ?_ ?_ | simp only [evolves_mk] | (split)

theorem laneBytes_evolves {v : Option Nat} {n : Nat} : (laneBytes v n : Op (List Byte)).evolves := by
  unfold laneBytes
  repeat' first
    | intro _ | with_reducible apply laneBits_evolves | with_reducible apply bind_evolves | with_reducible apply pure_evolves
    | (split)

theorem buildRow_evolves {b : Bnd} {h : HtHdr} {key : Nat} {payload : Option Nat} : (buildRow b h key payload : Op Unit).evolves := by
  unfold buildRow
  repeat' first
    | intro _ | with_reducible exact Evolves.refl _ | with_reducible apply claimEntry_evolves
    | with_reducible apply Bnd.swap_evolves | with_reducible apply laneBits_evolves | with_reducible apply Bnd.setBit_evolves
    | with_reducible apply linkEntry_evolves | with_reducible apply State.countReq_evolves
    | with_reducible apply bind_evolves | with_reducible apply pure_evolves | with_reducible apply upd_evolves
    | with_reducible apply evolves_ite  | (split)

theorem chainFind_evolves {b : Bnd} {h : HtHdr} {j : Nat} {hash : Nat} {key : Nat} {a5 : Nat} {a6 : Nat} : (chainFind b h j hash key a5 a6 : Op (Option Nat)).evolves := by
  induction a5 generalizing a6 with
  | zero =>
    unfold chainFind
    repeat' first
      | intro _ | with_reducible apply Bnd.num8_evolves | with_reducible apply bind_evolves | with_reducible apply pure_evolves
      | (split)
  | succ n ih =>
    unfold chainFind
    repeat' first
      | intro _ | with_reducible apply ih | with_reducible apply Bnd.num8_evolves | with_reducible apply bind_evolves | with_reducible apply pure_evolves
      | (split)

theorem payloadOf_evolves {b : Bnd} {h : HtHdr} {j : Nat} {e : Nat} : (payloadOf b h j e : Op (Option Nat)).evolves := by
  unfold payloadOf
  repeat' first
    | intro _ | with_reducible apply Bnd.num8_evolves | with_reducible apply Bnd.bit_evolves
    | with_reducible apply bind_evolves | with_reducible apply pure_evolves

theorem probeResult_evolves {b : Bnd} {h : HtHdr} {j : Nat} {a3 : Option Nat} : (probeResult b h j a3 : Op (Option Nat × Option Nat)).evolves := by
  unfold probeResult
  repeat' first
    | intro _ | with_reducible apply payloadOf_evolves | with_reducible apply bind_evolves
    | with_reducible apply pure_evolves | with_reducible apply evolves_ite | (split)

theorem probeFirst_evolves {b : Bnd} {h : HtHdr} {key : Option Nat} {hash : Option Nat} : (probeFirst b h key hash : Op (Option Nat × Option Nat)).evolves := by
  unfold probeFirst
  repeat' first
    | intro _ | with_reducible apply countOf_evolves | with_reducible apply Bnd.num8_evolves
    | with_reducible apply chainFind_evolves | with_reducible apply probeResult_evolves | with_reducible apply bind_evolves
    | with_reducible apply pure_evolves | (split)

theorem probeNext_evolves {b : Bnd} {h : HtHdr} {key : Option Nat} {cursor : Option Nat} : (probeNext b h key cursor : Op (Option Nat × Option Nat)).evolves := by
  unfold probeNext
  repeat' first
    | intro _ | with_reducible apply Bnd.num8_evolves | with_reducible apply chainFind_evolves
    | with_reducible apply probeResult_evolves | with_reducible apply bind_evolves | with_reducible apply pure_evolves
    | (split)

theorem groupFind_evolves {b : Bnd} {h : HtHdr} {j : Nat} {key : Option Nat} {a4 : Nat} {a5 : Nat} : (groupFind b h j key a4 a5 : Op (Option Nat)).evolves := by
  induction a4 generalizing a5 with
  | zero =>
    unfold groupFind
    repeat' first
      | intro _ | with_reducible apply Bnd.num8_evolves | with_reducible apply Bnd.bit_evolves
      | with_reducible apply bind_evolves | with_reducible apply pure_evolves | (split)
  | succ n ih =>
    unfold groupFind
    repeat' first
      | intro _ | with_reducible apply ih | with_reducible apply Bnd.num8_evolves | with_reducible apply Bnd.bit_evolves
      | with_reducible apply bind_evolves | with_reducible apply pure_evolves | (split)

theorem writeSlotVal_evolves {b : Bnd} {h : HtHdr} {j : Nat} {i : Nat} {e : Nat} {v : Option Int} : (writeSlotVal b h j i e v : Op Unit).evolves := by
  unfold writeSlotVal
  repeat' first
    | intro _ | with_reducible apply Bnd.swap_evolves | with_reducible apply Bnd.setBit_evolves
    | with_reducible apply bind_evolves

theorem readSlotVal_evolves {b : Bnd} {h : HtHdr} {j : Nat} {i : Nat} {e : Nat} : (readSlotVal b h j i e : Op (Option Int)).evolves := by
  unfold readSlotVal
  repeat' first
    | intro _ | with_reducible apply Bnd.num8_evolves | with_reducible apply Bnd.bit_evolves
    | with_reducible apply bind_evolves | with_reducible apply pure_evolves

theorem newGroup_evolves {b : Bnd} {h : HtHdr} {j : Nat} {x : Nat} {key : Option Nat} : (newGroup b h j x key : Op (Option Nat)).evolves := by
  unfold newGroup
  repeat' first
    | intro _ | with_reducible exact Evolves.refl _ | with_reducible apply claimEntry_evolves
    | with_reducible apply Bnd.swap_evolves | with_reducible apply laneBits_evolves | with_reducible apply Bnd.setBit_evolves
    | with_reducible apply writeSlotVal_evolves | with_reducible apply linkEntry_evolves
    | with_reducible apply State.countReq_evolves | with_reducible apply bind_evolves | with_reducible apply pure_evolves
    | with_reducible apply upd_evolves | with_reducible apply forIn_evolves | with_reducible apply evolves_ite | (split)

theorem gaggRow_evolves {b : Bnd} {h : HtHdr} {i : Nat} {func : Nat} {key : Option Nat} {v : Option Int} : (gaggRow b h i func key v : Op Unit).evolves := by
  unfold gaggRow
  repeat' first
    | intro _ | with_reducible apply Bnd.num8_evolves | with_reducible apply groupFind_evolves
    | with_reducible apply newGroup_evolves | with_reducible apply readSlotVal_evolves
    | with_reducible apply writeSlotVal_evolves | with_reducible apply Bnd.rmw_evolves | with_reducible apply bind_evolves
    | with_reducible apply pure_evolves | (split)

end Sys2Proof.Machine
end

