-- ==== Sys2Proof/Laws/EvStoneOps.lean ====
section
/-! SUPPORT. The functions of Machine/StoneOps.lean only evolve the state (Safety.lean, Evolves). -/

namespace Sys2Proof.Machine

theorem State.setStone_evolves {s0 s : State} {n : Nat} {f : Stone → Stone} (h : Evolves s0 s) : Evolves s0 (State.setStone s n f) := by
  unfold State.setStone
  repeat' first
    | with_reducible assumption | with_reducible apply evolves_ite | simp only [evolves_mk]

theorem State.setRun_evolves {s0 s : State} {n : Nat} {f : Run → Run} (h : Evolves s0 s) : Evolves s0 (State.setRun s n f) := by
  unfold State.setRun
  repeat' first
    | with_reducible assumption | with_reducible apply State.setStone_evolves

theorem Ctx.fault_evolves {α : Type} {c : Ctx} {status : Nat} {row : Nat} : (Ctx.fault c status row : Op α).evolves := by
  unfold Ctx.fault
  repeat' first
    | with_reducible apply throw_evolves

theorem putCol_evolves {s0 s : State} {stone : Nat} {phys : Nat} {t : Tag} {vs : List (Nat × Option Nat)} (h : Evolves s0 s) : Evolves s0 (putCol s stone phys t vs) := by
  unfold putCol
  repeat' first
    | with_reducible assumption | with_reducible apply State.setStone_evolves

theorem writeCol_evolves {c : Ctx} {k : Nat} {t : Tag} {vs : List (Nat × Option Nat)} : (writeCol c k t vs : Op Unit).evolves := by
  unfold writeCol
  repeat' first
    | intro _ | with_reducible exact Evolves.refl _ | with_reducible apply putCol_evolves | with_reducible apply upd_evolves
    | with_reducible apply evolves_ite 

theorem setScalar_evolves {s0 s : State} {stone : Nat} {bank : Nat} {n : Nat} {v : Scalar} (h : Evolves s0 s) : Evolves s0 (setScalar s stone bank n v) := by
  unfold setScalar
  repeat' first
    | with_reducible assumption | with_reducible apply State.setStone_evolves

theorem putScalar_evolves {s0 s : State} {c : Ctx} {n : Nat} {t : Tag} {raw : Option Nat} (h : Evolves s0 s) : Evolves s0 (putScalar s c n t raw) := by
  unfold putScalar
  repeat' first
    | with_reducible assumption | with_reducible apply setScalar_evolves | (split)

theorem writeAcc_evolves {s0 s : State} {stone : Nat} {bank : Nat} {n : Nat} {t : Tag} {v : Option Int} (h : Evolves s0 s) : Evolves s0 (writeAcc s stone bank n t v) := by
  unfold writeAcc
  repeat' first
    | intro _ | with_reducible assumption | with_reducible apply setScalar_evolves | with_reducible apply evolves_foldl

theorem setMask_evolves {s0 s : State} {c : Ctx} {m : Nat} {bits : List Bool} (h : Evolves s0 s) : Evolves s0 (setMask s c m bits) := by
  unfold setMask
  repeat' first
    | with_reducible assumption | with_reducible apply State.setStone_evolves

theorem setSel_evolves {s0 s : State} {c : Ctx} {sel : List Bool} (h : Evolves s0 s) : Evolves s0 (setSel s c sel) := by
  unfold setSel
  repeat' first
    | with_reducible assumption | with_reducible apply State.setRun_evolves

theorem textBytes_evolves {c : Ctx} {h : Nat} : (textBytes c h : Op (List Byte)).evolves := by
  unfold textBytes
  repeat' first
    | intro _ | with_reducible apply readMem_evolves | with_reducible apply bind_evolves | with_reducible apply pure_evolves

theorem textAt_evolves {c : Ctx} {src : Src} {kind : Nat} {imm : Nat} {row : Nat} : (textAt c src kind imm row : Op (Option (List Byte))).evolves := by
  unfold textAt
  repeat' first
    | intro _ | with_reducible apply textBytes_evolves | with_reducible apply bind_evolves
    | with_reducible apply pure_evolves | with_reducible apply evolves_ite | (split)

theorem mapRows_evolves {c : Ctx} {f : Insn} {t : Tag} {g : State → Nat → Op (Option Nat)} (hg : ∀ s i, (g s i).evolves) : (mapRows c f t g : Op Unit).evolves := by
  unfold mapRows
  repeat' first
    | intro _ | with_reducible apply writeCol_evolves | with_reducible apply hg | with_reducible apply bind_evolves
    | with_reducible apply pure_evolves | with_reducible apply get_evolves | with_reducible apply mapM_evolves

theorem writeTruth_evolves {c : Ctx} {f : Insn} {g : Nat → Op (Option Bool)} (hg : ∀ i, (g i).evolves) : (writeTruth c f g : Op Unit).evolves := by
  unfold writeTruth
  repeat' first
    | intro _ | with_reducible exact Evolves.refl _ | with_reducible apply setMask_evolves | with_reducible apply hg
    | with_reducible apply bind_evolves | with_reducible apply pure_evolves | with_reducible apply get_evolves
    | with_reducible apply upd_evolves | with_reducible apply mapM_evolves | (split)

end Sys2Proof.Machine
end

