-- ==== Sys2Proof/Laws/EvInterp.lean ====
section
/-! SUPPORT. The functions of Machine/Interp.lean only evolve the state (Safety.lean, Evolves). -/

namespace Sys2Proof.Machine

theorem opMovs_evolves {c : Ctx} {f : Insn} : (opMovs c f : Op Unit).evolves := by
  unfold opMovs
  repeat' first
    | intro _ | with_reducible exact Evolves.refl _ | with_reducible apply putScalar_evolves
    | with_reducible apply upd_evolves | with_reducible apply evolves_ite | (split)

theorem opSalu_evolves {c : Ctx} {f : Insn} : (opSalu c f : Op Unit).evolves := by
  unfold opSalu
  repeat' first
    | intro _ | with_reducible exact Evolves.refl _ | with_reducible apply putScalar_evolves
    | with_reducible apply upd_evolves | with_reducible apply evolves_ite

theorem freeTruth_evolves : (freeTruth : Op (Option Bool)).evolves := by
  unfold freeTruth
  repeat' first
    | intro _ | with_reducible apply freeBits_evolves | with_reducible apply bind_evolves | with_reducible apply pure_evolves

theorem opCmp_evolves {c : Ctx} {f : Insn} : (opCmp c f : Op Unit).evolves := by
  unfold opCmp
  repeat' first
    | intro _ | with_reducible apply writeTruth_evolves | with_reducible apply freeTruth_evolves
    | with_reducible apply bind_evolves | with_reducible apply pure_evolves | with_reducible apply get_evolves | (split)

theorem opTcmp_evolves {c : Ctx} {f : Insn} : (opTcmp c f : Op Unit).evolves := by
  unfold opTcmp
  repeat' first
    | intro _ | with_reducible apply writeTruth_evolves | with_reducible apply textAt_evolves
    | with_reducible apply bind_evolves | with_reducible apply pure_evolves | with_reducible apply get_evolves | (split)

theorem opInset_evolves {c : Ctx} {f : Insn} : (opInset c f : Op Unit).evolves := by
  unfold opInset
  repeat' first
    | intro _ | with_reducible apply writeTruth_evolves | with_reducible apply freeTruth_evolves
    | with_reducible apply bind_evolves | with_reducible apply pure_evolves | with_reducible apply get_evolves | (split)

theorem opIsnull_evolves {c : Ctx} {f : Insn} : (opIsnull c f : Op Unit).evolves := by
  unfold opIsnull
  repeat' first
    | intro _ | with_reducible apply writeTruth_evolves | with_reducible apply bind_evolves
    | with_reducible apply pure_evolves | with_reducible apply get_evolves

theorem opLogic_evolves {g : Option Bool → Option Bool → Option Bool} {c : Ctx} {f : Insn} : (opLogic g c f : Op Unit).evolves := by
  unfold opLogic
  repeat' first
    | intro _ | with_reducible apply writeTruth_evolves | with_reducible apply bind_evolves
    | with_reducible apply pure_evolves | with_reducible apply get_evolves

theorem opMnot_evolves {c : Ctx} {f : Insn} : (opMnot c f : Op Unit).evolves := by
  unfold opMnot
  repeat' first
    | intro _ | with_reducible apply writeTruth_evolves | with_reducible apply bind_evolves
    | with_reducible apply pure_evolves | with_reducible apply get_evolves

theorem opSel_evolves {c : Ctx} {f : Insn} : (opSel c f : Op Unit).evolves := by
  unfold opSel
  repeat' first
    | intro _ | with_reducible exact Evolves.refl _ | with_reducible apply State.countReq_evolves
    | with_reducible apply setSel_evolves | with_reducible apply upd_evolves | (split)

theorem Ctx.countDec_evolves {c : Ctx} {code : Nat} : (Ctx.countDec c code : Op Unit).evolves := by
  unfold Ctx.countDec
  repeat' first
    | intro _ | with_reducible exact Evolves.refl _ | with_reducible apply State.countReq_evolves
    | with_reducible apply upd_evolves | with_reducible apply evolves_ite

theorem convOr_evolves {c : Ctx} {t : Tag} {row : Nat} {k : Conv} {mode : Nat} {cut : Bool} : (convOr c t row k mode cut : Op (Option Nat)).evolves := by
  unfold convOr
  repeat' first
    | intro _ | with_reducible apply Ctx.countDec_evolves | with_reducible apply Ctx.fault_evolves
    | with_reducible apply bind_evolves | with_reducible apply pure_evolves | (split)

theorem dateOr_evolves {c : Ctx} {t : Tag} {row : Nat} {v : Int} : (dateOr c t row v : Op (Option Nat)).evolves := by
  unfold dateOr
  repeat' first
    | with_reducible apply Ctx.fault_evolves | with_reducible apply pure_evolves | with_reducible apply evolves_ite | (split)

theorem opArith_evolves {op : Nat} {c : Ctx} {f : Insn} : (opArith op c f : Op Unit).evolves := by
  unfold opArith
  repeat' first
    | intro _ | with_reducible apply mapRows_evolves | with_reducible apply freeBits_evolves
    | with_reducible apply Ctx.fault_evolves | with_reducible apply convOr_evolves | with_reducible apply bind_evolves
    | with_reducible apply pure_evolves | with_reducible apply get_evolves | simp only [evolves_mk] | (split)

theorem opUnary_evolves {g : Int → Int} {mode : Nat} {c : Ctx} {f : Insn} : (opUnary g mode c f : Op Unit).evolves := by
  unfold opUnary
  repeat' first
    | intro _ | with_reducible apply mapRows_evolves | with_reducible apply freeBits_evolves
    | with_reducible apply convOr_evolves | with_reducible apply bind_evolves | with_reducible apply pure_evolves
    | with_reducible apply get_evolves | (split)

theorem chosen_evolves {c : Ctx} {t : Tag} {src : Src} {row : Nat} : (chosen c t src row : Op (Option Nat)).evolves := by
  unfold chosen
  repeat' first
    | intro _ | with_reducible apply convOr_evolves | with_reducible apply freeBits_evolves
    | with_reducible apply bind_evolves | with_reducible apply pure_evolves | (split)

theorem opMov_evolves {c : Ctx} {f : Insn} : (opMov c f : Op Unit).evolves := by
  unfold opMov
  repeat' first
    | intro _ | with_reducible apply mapRows_evolves | with_reducible apply bind_evolves | with_reducible apply pure_evolves
    | with_reducible apply get_evolves

theorem opCsel_evolves {c : Ctx} {f : Insn} : (opCsel c f : Op Unit).evolves := by
  unfold opCsel
  repeat' first
    | intro _ | with_reducible apply mapRows_evolves | with_reducible apply chosen_evolves
    | with_reducible apply bind_evolves | with_reducible apply get_evolves

theorem opCoalesce_evolves {c : Ctx} {f : Insn} : (opCoalesce c f : Op Unit).evolves := by
  unfold opCoalesce
  repeat' first
    | intro _ | with_reducible apply mapRows_evolves | with_reducible apply chosen_evolves
    | with_reducible apply bind_evolves | with_reducible apply get_evolves

theorem opDpart_evolves {c : Ctx} {f : Insn} : (opDpart c f : Op Unit).evolves := by
  unfold opDpart
  repeat' first
    | intro _ | with_reducible apply mapRows_evolves | with_reducible apply dateOr_evolves
    | with_reducible apply bind_evolves | with_reducible apply pure_evolves | with_reducible apply get_evolves | (split)

theorem opDadd_evolves {c : Ctx} {f : Insn} : (opDadd c f : Op Unit).evolves := by
  unfold opDadd
  repeat' first
    | intro _ | with_reducible apply mapRows_evolves | with_reducible apply dateOr_evolves
    | with_reducible apply freeBits_evolves | with_reducible apply bind_evolves | with_reducible apply pure_evolves
    | with_reducible apply get_evolves | (split)

theorem hashAt_evolves {c : Ctx} {src : Src} {row : Nat} : (hashAt c src row : Op Nat).evolves := by
  unfold hashAt
  repeat' first
    | intro _ | with_reducible apply textBytes_evolves | with_reducible apply bind_evolves
    | with_reducible apply pure_evolves | with_reducible apply evolves_ite | (split)

theorem opHashk_evolves {c : Ctx} {f : Insn} : (opHashk c f : Op Unit).evolves := by
  unfold opHashk
  repeat' first
    | intro _ | with_reducible apply mapRows_evolves | with_reducible apply hashAt_evolves
    | with_reducible apply bind_evolves | with_reducible apply pure_evolves | with_reducible apply get_evolves | (split)

theorem opPart_evolves {c : Ctx} {f : Insn} : (opPart c f : Op Unit).evolves := by
  unfold opPart
  repeat' first
    | intro _ | with_reducible apply mapRows_evolves | with_reducible apply bind_evolves | with_reducible apply pure_evolves
    | with_reducible apply get_evolves

theorem tableFor_evolves {c : Ctx} {f : Insn} {kind : Nat} {tests : HtHdr → List (Bool × Nat)} : (tableFor c f kind tests : Op HtHdr).evolves := by
  unfold tableFor
  repeat' first
    | intro _ | with_reducible exact Evolves.refl _ | with_reducible apply htFail_evolves
    | with_reducible apply openTable_evolves | with_reducible apply State.setRun_evolves | with_reducible apply bind_evolves
    | with_reducible apply pure_evolves | with_reducible apply get_evolves | with_reducible apply upd_evolves
    | simp only [evolves_mk] | (split)

theorem buildAt_evolves {c : Ctx} {f : Insn} {s : State} {h : HtHdr} {row : Nat} : (buildAt c f s h row : Op Unit).evolves := by
  unfold buildAt
  repeat' first
    | with_reducible apply buildRow_evolves | with_reducible apply pure_evolves | with_reducible apply evolves_ite | (split)

theorem opBuild_evolves {c : Ctx} {f : Insn} : (opBuild c f : Op Unit).evolves := by
  unfold opBuild
  repeat' first
    | intro _ | with_reducible apply tableFor_evolves | with_reducible apply buildAt_evolves
    | with_reducible apply bind_evolves | with_reducible apply get_evolves | with_reducible apply forM_evolves

theorem probeAt_evolves {c : Ctx} {f : Insn} {s : State} {h : HtHdr} {row : Nat} : (probeAt c f s h row : Op (Option Nat × Option Nat)).evolves := by
  unfold probeAt
  repeat' first
    | intro _ | with_reducible exact Evolves.refl _ | with_reducible apply probeFirst_evolves
    | with_reducible apply probeNext_evolves | with_reducible apply State.countReq_evolves
    | with_reducible apply bind_evolves | with_reducible apply pure_evolves | with_reducible apply upd_evolves | (split)

theorem opProbe_evolves {c : Ctx} {f : Insn} : (opProbe c f : Op Unit).evolves := by
  unfold opProbe
  repeat' first
    | intro _ | with_reducible apply tableFor_evolves | with_reducible apply probeAt_evolves
    | with_reducible apply writeCol_evolves | with_reducible apply bind_evolves | with_reducible apply pure_evolves
    | with_reducible apply get_evolves | with_reducible apply mapM_evolves

theorem opAgg_evolves {c : Ctx} {f : Insn} : (opAgg c f : Op Unit).evolves := by
  unfold opAgg
  repeat' first
    | intro _ | with_reducible exact Evolves.refl _ | with_reducible apply writeAcc_evolves
    | with_reducible apply upd_evolves | with_reducible apply evolves_ite

theorem opGagg_evolves {c : Ctx} {f : Insn} : (opGagg c f : Op Unit).evolves := by
  unfold opGagg
  repeat' first
    | intro _ | with_reducible apply tableFor_evolves | with_reducible apply gaggRow_evolves
    | with_reducible apply bind_evolves | with_reducible apply get_evolves | with_reducible apply forM_evolves

theorem opAfin_evolves {c : Ctx} {f : Insn} : (opAfin c f : Op Unit).evolves := by
  unfold opAfin
  repeat' first
    | intro _ | with_reducible exact Evolves.refl _ | with_reducible apply putScalar_evolves
    | with_reducible apply convOr_evolves | with_reducible apply bind_evolves | with_reducible apply get_evolves
    | with_reducible apply upd_evolves | with_reducible apply evolves_ite | simp only [evolves_mk] | (split)

end Sys2Proof.Machine
end

