-- ==== Sys2Proof/Laws/EvSegment.lean ====
section
/-! SUPPORT. The functions of Machine/Segment.lean only evolve the state (Safety.lean, Evolves). -/

namespace Sys2Proof.Machine

theorem scanFault_evolves {α : Type} {c : DecCtx} {status : Nat} {source : Nat} {column : Nat} {off : Nat} : (scanFault c status source column off : Op α).evolves := by
  unfold scanFault
  repeat' first
    | intro _ | with_reducible exact Evolves.refl _ | with_reducible apply setReg_evolves | with_reducible apply bind_evolves
    | with_reducible apply upd_evolves | with_reducible apply throw_evolves | (split)

theorem readDir_evolves {c : DecCtx} {sva : Nat} {rows : Nat} : (readDir c sva rows : Op Dir).evolves := by
  unfold readDir
  repeat' first
    | intro _ | with_reducible apply readMem_evolves | with_reducible apply scanFault_evolves
    | with_reducible apply bind_evolves | with_reducible apply pure_evolves | simp only [evolves_mk] | (split)

theorem openSeg_evolves {c : DecCtx} {column : Nat} {sva : Nat} {len : Nat} {t : Tag} {rows : Nat} : (openSeg c column sva len t rows : Op SegHdr).evolves := by
  unfold openSeg
  repeat' first
    | intro _ | with_reducible apply readMem_evolves | with_reducible apply scanFault_evolves
    | with_reducible apply bind_evolves | with_reducible apply pure_evolves | simp only [evolves_mk] | (split)

theorem segRead_evolves {c : DecCtx} {column : Nat} {h : SegHdr} {off : Nat} {n : Nat} : (segRead c column h off n : Op (List Byte)).evolves := by
  unfold segRead
  repeat' first
    | with_reducible apply scanFault_evolves | with_reducible apply readMem_evolves | with_reducible apply evolves_ite
    | (split)

theorem packedAt_evolves {c : DecCtx} {column : Nat} {h : SegHdr} {off : Nat} {w : Nat} {i : Nat} : (packedAt c column h off w i : Op Nat).evolves := by
  unfold packedAt
  repeat' first
    | intro _ | with_reducible apply segRead_evolves | with_reducible apply bind_evolves | with_reducible apply pure_evolves
    | (split)

theorem decOverflow_evolves {α : Type} {c : DecCtx} {row : Nat} : (decOverflow c row : Op α).evolves := by
  unfold decOverflow
  repeat' first
    | with_reducible apply throw_evolves

theorem plainLane_evolves {c : DecCtx} {t : Nat} {row : Nat} {v : Nat} : (plainLane c t row v : Op Nat).evolves := by
  unfold plainLane
  repeat' first
    | with_reducible apply decOverflow_evolves | with_reducible apply pure_evolves | with_reducible apply evolves_ite
    | simp only [evolves_mk] | (split)

theorem rangeLane_evolves {c : DecCtx} {t : Nat} {row : Nat} {x : Int} : (rangeLane c t row x : Op Nat).evolves := by
  unfold rangeLane
  repeat' first
    | with_reducible apply decOverflow_evolves | with_reducible apply pure_evolves | with_reducible apply evolves_ite
    | (split)

theorem varHandle_evolves {c : DecCtx} {column : Nat} {h : SegHdr} {a : Nat} {b : Nat} {off : Nat} : (varHandle c column h a b off : Op Nat).evolves := by
  unfold varHandle
  repeat' first
    | with_reducible apply scanFault_evolves | with_reducible apply pure_evolves | with_reducible apply evolves_ite | (split)

theorem plainValue_evolves {c : DecCtx} {column : Nat} {h : SegHdr} {row : Nat} : (plainValue c column h row : Op Nat).evolves := by
  unfold plainValue
  repeat' first
    | intro _ | with_reducible apply packedAt_evolves | with_reducible apply segRead_evolves
    | with_reducible apply varHandle_evolves | with_reducible apply plainLane_evolves | with_reducible apply bind_evolves
    | with_reducible apply pure_evolves | with_reducible apply evolves_ite | (split)

theorem dictValue_evolves {c : DecCtx} {column : Nat} {h : SegHdr} {row : Nat} : (dictValue c column h row : Op Nat).evolves := by
  unfold dictValue
  repeat' first
    | intro _ | with_reducible apply packedAt_evolves | with_reducible apply scanFault_evolves
    | with_reducible apply segRead_evolves | with_reducible apply varHandle_evolves | with_reducible apply plainLane_evolves
    | with_reducible apply bind_evolves | with_reducible apply pure_evolves | (split)

theorem packedValue_evolves {c : DecCtx} {column : Nat} {h : SegHdr} {row : Nat} : (packedValue c column h row : Op Nat).evolves := by
  unfold packedValue
  repeat' first
    | intro _ | with_reducible apply packedAt_evolves | with_reducible apply rangeLane_evolves
    | with_reducible apply bind_evolves | (split)

theorem validBit_evolves {c : DecCtx} {column : Nat} {h : SegHdr} {i : Nat} : (validBit c column h i : Op Bool).evolves := by
  unfold validBit
  repeat' first
    | intro _ | with_reducible assumption | with_reducible exact Evolves.refl _ | with_reducible apply segRead_evolves
    | with_reducible apply bind_evolves | with_reducible apply pure_evolves | with_reducible apply get_evolves
    | with_reducible apply upd_evolves | with_reducible apply throw_evolves | with_reducible apply ite_op_evolves
    | with_reducible apply modifyGet_evolves | with_reducible apply ask_evolves | with_reducible apply attempt_evolves
    | with_reducible apply mapM_evolves | with_reducible apply forM_evolves | with_reducible apply forIn_evolves
    | with_reducible apply foldlM_evolves | with_reducible apply evolves_ite | with_reducible apply evolves_foldl
    | with_reducible apply evolves_foldl_snd | with_reducible apply evolves_foldl_fst
    | with_reducible refine evolves_snd (by assumption) ?_ | with_reducible refine evolves_fst (by assumption) ?_
    | with_reducible refine evolves_exec (by assumption) ?_ ?_ | with_reducible refine evolves_ok (by assumption) ?_ ?_
    | with_reducible refine evolves_error (by assumption) ?_ ?_ | simp only [evolves_mk] | (split)

theorem runValue_evolves {c : DecCtx} {column : Nat} {h : SegHdr} {off : Nat} {row : Nat} : (runValue c column h off row : Op Nat).evolves := by
  unfold runValue
  repeat' first
    | intro _ | with_reducible apply segRead_evolves | with_reducible apply scanFault_evolves
    | with_reducible apply plainLane_evolves | with_reducible apply bind_evolves | with_reducible apply pure_evolves
    | (split)

theorem runRows_evolves {c : DecCtx} {column : Nat} {h : SegHdr} {total : Nat} {first : Nat} {last : Nat} {a6 : Nat} {a7 : Nat} {a8 : Nat} : (runRows c column h total first last a6 a7 a8 : Op (List (Option Nat))).evolves := by
  induction a6 generalizing a7 a8 with
  | zero =>
    unfold runRows
    repeat' first
      | intro _ | with_reducible assumption | with_reducible exact Evolves.refl _ | with_reducible apply scanFault_evolves
      | with_reducible apply segRead_evolves | with_reducible apply validBit_evolves | with_reducible apply runValue_evolves
      | with_reducible apply bind_evolves | with_reducible apply pure_evolves | with_reducible apply get_evolves
      | with_reducible apply upd_evolves | with_reducible apply throw_evolves | with_reducible apply ite_op_evolves
      | with_reducible apply modifyGet_evolves | with_reducible apply ask_evolves | with_reducible apply attempt_evolves
      | with_reducible apply mapM_evolves | with_reducible apply forM_evolves | with_reducible apply forIn_evolves
      | with_reducible apply foldlM_evolves | with_reducible apply evolves_ite | with_reducible apply evolves_foldl
      | with_reducible apply evolves_foldl_snd | with_reducible apply evolves_foldl_fst
      | with_reducible refine evolves_snd (by assumption) ?_ | with_reducible refine evolves_fst (by assumption) ?_
      | with_reducible refine evolves_exec (by assumption) ?_ ?_ | with_reducible refine evolves_ok (by assumption) ?_ ?_
      | with_reducible refine evolves_error (by assumption) ?_ ?_ | simp only [evolves_mk] | (split)
  | succ n ih =>
    unfold runRows
    repeat' first
      | intro _ | with_reducible apply ih | with_reducible assumption | with_reducible exact Evolves.refl _ | with_reducible apply scanFault_evolves
      | with_reducible apply segRead_evolves | with_reducible apply validBit_evolves | with_reducible apply runValue_evolves
      | with_reducible apply bind_evolves | with_reducible apply pure_evolves | with_reducible apply get_evolves
      | with_reducible apply upd_evolves | with_reducible apply throw_evolves | with_reducible apply ite_op_evolves
      | with_reducible apply modifyGet_evolves | with_reducible apply ask_evolves | with_reducible apply attempt_evolves
      | with_reducible apply mapM_evolves | with_reducible apply forM_evolves | with_reducible apply forIn_evolves
      | with_reducible apply foldlM_evolves | with_reducible apply evolves_ite | with_reducible apply evolves_foldl
      | with_reducible apply evolves_foldl_snd | with_reducible apply evolves_foldl_fst
      | with_reducible refine evolves_snd (by assumption) ?_ | with_reducible refine evolves_fst (by assumption) ?_
      | with_reducible refine evolves_exec (by assumption) ?_ ?_ | with_reducible refine evolves_ok (by assumption) ?_ ?_
      | with_reducible refine evolves_error (by assumption) ?_ ?_ | simp only [evolves_mk] | (split)

theorem rowValue_evolves {c : DecCtx} {column : Nat} {h : SegHdr} {row : Nat} : (rowValue c column h row : Op (Option Nat)).evolves := by
  unfold rowValue
  repeat' first
    | intro _ | with_reducible assumption | with_reducible exact Evolves.refl _ | with_reducible apply validBit_evolves
    | with_reducible apply plainValue_evolves | with_reducible apply dictValue_evolves
    | with_reducible apply packedValue_evolves | with_reducible apply bind_evolves | with_reducible apply pure_evolves
    | with_reducible apply get_evolves | with_reducible apply upd_evolves | with_reducible apply throw_evolves
    | with_reducible apply ite_op_evolves | with_reducible apply modifyGet_evolves | with_reducible apply ask_evolves
    | with_reducible apply attempt_evolves | with_reducible apply mapM_evolves | with_reducible apply forM_evolves
    | with_reducible apply forIn_evolves | with_reducible apply foldlM_evolves | with_reducible apply evolves_ite
    | with_reducible apply evolves_foldl  | with_reducible apply evolves_foldl_snd | with_reducible apply evolves_foldl_fst
    | with_reducible refine evolves_snd (by assumption) ?_ | with_reducible refine evolves_fst (by assumption) ?_
    | with_reducible refine evolves_exec (by assumption) ?_ ?_ | with_reducible refine evolves_ok (by assumption) ?_ ?_
    | with_reducible refine evolves_error (by assumption) ?_ ?_ | simp only [evolves_mk] | (split)

theorem decodeRows_evolves {c : DecCtx} {column : Nat} {h : SegHdr} {total : Nat} {first : Nat} {n : Nat} : (decodeRows c column h total first n : Op (List (Option Nat))).evolves := by
  unfold decodeRows
  repeat' first
    | intro _ | with_reducible apply runRows_evolves | with_reducible apply rowValue_evolves
    | with_reducible apply bind_evolves | with_reducible apply pure_evolves | with_reducible apply mapM_evolves
    | with_reducible apply evolves_ite  | (split)

theorem readStamps_evolves {c : DecCtx} {d : Dir} {first : Nat} {n : Nat} : (readStamps c d first n : Op (List Nat × List Nat)).evolves := by
  unfold readStamps
  repeat' first
    | intro _ | with_reducible apply readMem_evolves | with_reducible apply bind_evolves | with_reducible apply pure_evolves

end Sys2Proof.Machine
end

