-- ==== Sys2Proof/Laws/EvStoneMem.lean ====
section
/-! SUPPORT. The functions of Machine/StoneMem.lean only evolve the state (Safety.lean, Evolves). -/

namespace Sys2Proof.Machine

theorem dirFor_evolves {c : Ctx} : (dirFor c : Op Dir).evolves := by
  unfold dirFor
  repeat' first
    | intro _ | with_reducible apply scanFault_evolves | with_reducible apply bind_evolves
    | with_reducible apply pure_evolves | with_reducible apply get_evolves | (split)

theorem segFor_evolves {c : Ctx} {d : Dir} {column : Nat} {t : Tag} : (segFor c d column t : Op SegHdr).evolves := by
  unfold segFor
  repeat' first
    | intro _ | with_reducible exact Evolves.refl _ | with_reducible apply scanFault_evolves
    | with_reducible apply openSeg_evolves | with_reducible apply State.setRun_evolves | with_reducible apply bind_evolves
    | with_reducible apply pure_evolves | with_reducible apply get_evolves | with_reducible apply upd_evolves | (split)

theorem opDcol_evolves {c : Ctx} {f : Insn} : (opDcol c f : Op Unit).evolves := by
  unfold opDcol
  repeat' first
    | intro _ | with_reducible apply dirFor_evolves | with_reducible apply writeCol_evolves
    | with_reducible apply segFor_evolves | with_reducible apply decodeRows_evolves | with_reducible apply bind_evolves
    | with_reducible apply pure_evolves | with_reducible apply get_evolves | with_reducible apply mapM_evolves | (split)

theorem opDrowid_evolves {c : Ctx} {f : Insn} : (opDrowid c f : Op Unit).evolves := by
  unfold opDrowid
  repeat' first
    | intro _ | with_reducible apply dirFor_evolves | with_reducible apply writeCol_evolves
    | with_reducible apply bind_evolves | with_reducible apply get_evolves

theorem areaFor_evolves {c : Ctx} {d : Dir} {n : Nat} {l : Layout} : (areaFor c d n l : Op Nat).evolves := by
  unfold areaFor
  repeat' first
    | intro _ | with_reducible exact Evolves.refl _ | with_reducible apply scanFault_evolves
    | with_reducible apply State.setRun_evolves | with_reducible apply bind_evolves | with_reducible apply pure_evolves
    | with_reducible apply get_evolves | with_reducible apply upd_evolves | with_reducible apply evolves_ite
    | simp only [evolves_mk] | (split)

theorem drecRow_evolves {c : Ctx} {l : Layout} {fd : LField} {t : Tag} {sva : Nat} {row : Nat} : (drecRow c l fd t sva row : Op (Option Nat)).evolves := by
  unfold drecRow
  repeat' first
    | intro _ | with_reducible apply readNum_evolves | with_reducible apply readMem_evolves
    | with_reducible apply convOr_evolves | with_reducible apply bind_evolves | with_reducible apply pure_evolves
    | with_reducible apply throw_evolves | (split)

theorem opDrec_evolves {c : Ctx} {f : Insn} : (opDrec c f : Op Unit).evolves := by
  unfold opDrec
  repeat' first
    | intro _ | with_reducible apply dirFor_evolves | with_reducible apply areaFor_evolves
    | with_reducible apply mapRows_evolves | with_reducible apply drecRow_evolves | with_reducible apply bind_evolves
    | with_reducible apply pure_evolves | with_reducible apply evolves_ite | (split)

theorem offsetOf_evolves {c : Ctx} {n : Nat} : (offsetOf c n : Op Nat).evolves := by
  unfold offsetOf
  repeat' first
    | intro _ | with_reducible apply bind_evolves | with_reducible apply pure_evolves | with_reducible apply get_evolves
    | with_reducible apply throw_evolves | (split)

theorem advance_evolves {c : Ctx} {n : Nat} {by_ : Nat} : (advance c n by_ : Op Unit).evolves := by
  unfold advance
  repeat' first
    | intro _ | with_reducible exact Evolves.refl _ | with_reducible apply setScalar_evolves
    | with_reducible apply upd_evolves | with_reducible apply evolves_ite

theorem stcolBytes_evolves {c : Ctx} {f : Insn} {src : Src} {row : Nat} : (stcolBytes c f src row : Op (List Byte)).evolves := by
  unfold stcolBytes
  repeat' first
    | intro _ | with_reducible apply textBytes_evolves | with_reducible apply freeBytes_evolves
    | with_reducible apply laneBytes_evolves | with_reducible apply bind_evolves | with_reducible apply pure_evolves
    | (split)

theorem opStcol_evolves {c : Ctx} {f : Insn} : (opStcol c f : Op Unit).evolves := by
  unfold opStcol
  repeat' first
    | intro _ | with_reducible apply offsetOf_evolves | with_reducible apply stcolBytes_evolves
    | with_reducible apply advance_evolves | with_reducible apply Bnd.putBitmap_evolves
    | with_reducible apply Bnd.write_evolves | with_reducible apply bind_evolves | with_reducible apply pure_evolves
    | with_reducible apply get_evolves | with_reducible apply throw_evolves | with_reducible apply mapM_evolves
    | with_reducible apply forIn_evolves | simp only [evolves_mk] | (split)

theorem strecField_evolves {c : Ctx} {l : Layout} {fd : LField} {src : Src} {row : Nat} : (strecField c l fd src row : Op (List Byte)).evolves := by
  unfold strecField
  repeat' first
    | intro _ | with_reducible apply Ctx.fault_evolves | with_reducible apply textBytes_evolves
    | with_reducible apply Ctx.countDec_evolves | with_reducible apply bind_evolves | with_reducible apply pure_evolves
    | simp only [evolves_mk] | (split)

theorem strecFields_evolves {c : Ctx} {s : State} {l : Layout} {row : Nat} {a4 : List LField} {a5 : Nat} {a6 : List Byte} : (strecFields c s l row a4 a5 a6 : Op (List Byte)).evolves := by
  induction a4 generalizing a5 a6 with
  | nil =>
    unfold strecFields
    repeat' first
      | intro _ | with_reducible apply strecField_evolves | with_reducible apply bind_evolves
      | with_reducible apply pure_evolves | with_reducible apply evolves_ite
  | cons x l ih =>
    unfold strecFields
    repeat' first
      | intro _ | with_reducible apply ih | with_reducible apply strecField_evolves | with_reducible apply bind_evolves
      | with_reducible apply pure_evolves | with_reducible apply evolves_ite

theorem strecRow_evolves {c : Ctx} {f : Insn} {l : Layout} {row : Nat} : (strecRow c f l row : Op Unit).evolves := by
  unfold strecRow
  repeat' first
    | intro _ | with_reducible apply strecFields_evolves | with_reducible apply offsetOf_evolves
    | with_reducible apply Bnd.write_evolves | with_reducible apply advance_evolves | with_reducible apply bind_evolves
    | with_reducible apply pure_evolves | with_reducible apply get_evolves | (split)

theorem opStrec_evolves {c : Ctx} {f : Insn} : (opStrec c f : Op Unit).evolves := by
  unfold opStrec
  repeat' first
    | intro _ | with_reducible apply offsetOf_evolves | with_reducible apply strecRow_evolves
    | with_reducible apply bind_evolves | with_reducible apply pure_evolves | with_reducible apply get_evolves
    | with_reducible apply forM_evolves | with_reducible apply evolves_ite | (split)

theorem opStscl_evolves {c : Ctx} {f : Insn} : (opStscl c f : Op Unit).evolves := by
  unfold opStscl
  repeat' first
    | intro _ | with_reducible apply offsetOf_evolves | with_reducible apply Bnd.write_evolves
    | with_reducible apply advance_evolves | with_reducible apply bind_evolves | with_reducible apply get_evolves

theorem payloadBits_evolves {v : Option Nat} : (payloadBits v : Op Nat).evolves := by
  unfold payloadBits
  repeat' first
    | with_reducible apply freeBits_evolves | with_reducible apply pure_evolves | with_reducible apply evolves_ite | (split)

theorem mergeElem_evolves {c : Ctx} {key : Nat} {p0 : Src} {p1 : Src} {row : Nat} : (mergeElem c key p0 p1 row : Op Elem).evolves := by
  unfold mergeElem
  repeat' first
    | intro _ | with_reducible apply freeBits_evolves | with_reducible apply payloadBits_evolves
    | with_reducible apply bind_evolves | with_reducible apply pure_evolves | (split)

theorem mergeAt_evolves {c : Ctx} {k : Src} {p0 : Src} {p1 : Src} {row : Nat} : (mergeAt c k p0 p1 row : Op (Option Elem)).evolves := by
  unfold mergeAt
  repeat' first
    | intro _ | with_reducible apply mergeElem_evolves | with_reducible apply bind_evolves
    | with_reducible apply pure_evolves | with_reducible apply evolves_ite | (split)

theorem opMerge_evolves {c : Ctx} {f : Insn} : (opMerge c f : Op Unit).evolves := by
  unfold opMerge
  repeat' first
    | intro _ | with_reducible exact Evolves.refl _ | with_reducible apply mergeAt_evolves
    | with_reducible apply State.setRun_evolves | with_reducible apply bind_evolves | with_reducible apply get_evolves
    | with_reducible apply upd_evolves | with_reducible apply mapM_evolves

theorem ledgerFail_evolves {α : Type} {num : Nat} {off : Nat} : (ledgerFail num off : Op α).evolves := by
  unfold ledgerFail
  repeat' first
    | with_reducible apply throw_evolves

theorem openLedger_evolves {c : Ctx} {f : Insn} : (openLedger c f : Op Ledger).evolves := by
  unfold openLedger
  repeat' first
    | intro _ | with_reducible exact Evolves.refl _ | with_reducible apply ledgerFail_evolves
    | with_reducible apply readMem_evolves | with_reducible apply State.setRun_evolves | with_reducible apply bind_evolves
    | with_reducible apply pure_evolves | with_reducible apply get_evolves | with_reducible apply upd_evolves
    | simp only [evolves_mk] | (split)

theorem ledgerFor_evolves {c : Ctx} {f : Insn} : (ledgerFor c f : Op Ledger).evolves := by
  unfold ledgerFor
  repeat' first
    | intro _ | with_reducible apply openLedger_evolves | with_reducible apply bind_evolves
    | with_reducible apply pure_evolves | with_reducible apply get_evolves | (split)

theorem State.setTxn_evolves {s0 s : State} {n : Nat} {f : Txn → Txn} (h : Evolves s0 s) : Evolves s0 (State.setTxn s n f) := by
  unfold State.setTxn
  repeat' first
    | with_reducible assumption | with_reducible apply evolves_ite | simp only [evolves_mk]

theorem formRow_evolves {c : Ctx} {l : Ledger} {kind : Nat} {addr : Nat} {aux : Nat} {payload : List Byte} : (formRow c l kind addr aux payload : Op Unit).evolves := by
  unfold formRow
  repeat' first
    | intro _ | with_reducible exact Evolves.refl _ | with_reducible apply State.setJob_evolves
    | with_reducible apply upd_evolves | with_reducible apply evolves_ite

theorem appendRow_evolves {c : Ctx} {f : Insn} {l : Ledger} {row : Nat} {prior : Nat} : (appendRow c f l row prior : Op Unit).evolves := by
  unfold appendRow
  repeat' first
    | intro _ | with_reducible exact Evolves.refl _ | with_reducible apply ledgerPart_evolves
    | with_reducible apply atomicMem_evolves | with_reducible apply freeBits_evolves
    | with_reducible apply ledgerLane_evolves | with_reducible apply ledgerStamps_evolves
    | with_reducible apply writeMem_evolves | with_reducible apply State.setTxn_evolves
    | with_reducible apply formRow_evolves | with_reducible apply bind_evolves | with_reducible apply pure_evolves
    | with_reducible apply get_evolves | with_reducible apply upd_evolves | with_reducible apply throw_evolves
    | with_reducible apply mapM_evolves | with_reducible apply evolves_ite | simp only [evolves_mk] | (split)

theorem checkPrior_evolves {c : Ctx} {l : Ledger} {p : Nat} {row : Nat} : (checkPrior c l p row : Op Unit).evolves := by
  unfold checkPrior
  repeat' first
    | intro _ | with_reducible apply ledgerPart_evolves | with_reducible apply bind_evolves
    | with_reducible apply pure_evolves | with_reducible apply throw_evolves | (split)

theorem tappendAt_evolves {c : Ctx} {f : Insn} {s : State} {l : Ledger} {row : Nat} : (tappendAt c f s l row : Op Unit).evolves := by
  unfold tappendAt
  repeat' first
    | intro _ | with_reducible apply appendRow_evolves | with_reducible apply checkPrior_evolves
    | with_reducible apply formRow_evolves | with_reducible apply bind_evolves | (split)

theorem opTappend_evolves {c : Ctx} {f : Insn} : (opTappend c f : Op Unit).evolves := by
  unfold opTappend
  repeat' first
    | intro _ | with_reducible apply ledgerFor_evolves | with_reducible apply tappendAt_evolves
    | with_reducible apply bind_evolves | with_reducible apply get_evolves | with_reducible apply forM_evolves

end Sys2Proof.Machine
end

