-- ==== Sys2Proof/Laws/EvJournal.lean ====
section
/-! SUPPORT. The functions of Machine/Journal.lean only evolve the state (Safety.lean, Evolves). -/

namespace Sys2Proof.Machine

theorem mpdWrite_evolves {s0 s : State} {off : Nat} {b : List Byte} (h : Evolves s0 s) : Evolves s0 (mpdWrite s off b) := by
  have hw : ∀ (m : Mpd) (k : Nat), (wearExchange m k).cells = m.cells := by
    intro m k
    unfold wearExchange
    dsimp only
    repeat' split
    all_goals rfl
  have hf : ∀ (l : List Nat) (m : Mpd), (l.foldl (fun m g =>
      wearExchange { m with writes := tupd (fun _ => 0) m.writes (physBlock m (g / 1024)) (· + 1) } (g / 1024)) m).cells = m.cells := by
    intro l
    induction l with
    | nil => exact fun _ => rfl
    | cons g l ih =>
      intro m
      rw [List.foldl_cons, ih, hw]
  have hc : ∀ (l : List (Nat × Byte)) (cs : List Host.Cell), twf (fun _ => (0 : Byte)) cs = true →
      twf (fun _ => (0 : Byte)) (l.foldl (fun cs p => tset (fun _ => (0 : Byte)) cs (off + p.1) p.2) cs) = true := by
    intro l
    induction l with
    | nil => exact fun _ x => x
    | cons g l ih => exact fun cs x => ih _ (twf_tset _ _ x)
  refine h.trans ⟨rfl, Nat.le_refl _, fun g => ⟨g.1, g.2.1, ?_, g.2.2.2⟩, List.prefix_rfl, fun _ g => ⟨g, fun _ _ => rfl⟩, id⟩
  show twf _ (mpdWrite s off b).mpd.cells = true
  unfold mpdWrite
  dsimp only
  rw [hf]
  exact hc _ _ g.2.2.1

theorem spaceUpdate_evolves {s0 s : State} (h : Evolves s0 s) : Evolves s0 (spaceUpdate s) := by
  unfold spaceUpdate
  repeat' first
    | with_reducible assumption | with_reducible apply setFld_evolves | with_reducible apply State.devEvent_evolves
    | with_reducible apply setFlag_evolves | with_reducible apply evolves_ite | simp only [evolves_mk]

theorem placeRecord_evolves {s0 s : State} {n : JNew} {epoch : Nat} (h : Evolves s0 s) : Evolves s0 (placeRecord s n epoch).2 := by
  unfold placeRecord
  repeat' first
    | with_reducible assumption | with_reducible apply chainTap_evolves | with_reducible apply mpdWrite_evolves
    | with_reducible apply State.count_evolves | with_reducible apply setReg_evolves
    | with_reducible apply spaceUpdate_evolves | simp only [evolves_mk] | (split)

theorem setGrp_evolves {s0 s : State} {f : Group → Group} (h : Evolves s0 s) : Evolves s0 (setGrp s f) := by
  unfold setGrp
  repeat' first
    | with_reducible assumption | with_reducible apply evolves_ite | simp only [evolves_mk]

theorem padEnd_evolves {s0 s : State} {size : Nat} {epoch : Nat} (h : Evolves s0 s) : Evolves s0 (padEnd s size epoch) := by
  unfold padEnd
  repeat' first
    | with_reducible assumption | with_reducible apply placeRecord_evolves | with_reducible apply setGrp_evolves
    | with_reducible apply evolves_ite  | simp only [evolves_mk]

theorem openGroup_evolves {s0 s : State} {epoch : Nat} (h : Evolves s0 s) : Evolves s0 (openGroup s epoch) := by
  unfold openGroup
  repeat' first
    | with_reducible assumption | with_reducible apply setReg_evolves | simp only [evolves_mk]

theorem groupNext_evolves {s0 s : State} {epoch : Nat} {reopen : Bool} (h : Evolves s0 s) : Evolves s0 (groupNext s epoch reopen) := by
  unfold groupNext
  repeat' first
    | with_reducible assumption | with_reducible apply openGroup_evolves | simp only [evolves_mk] | (split)

theorem sealGroup_evolves {s0 s : State} {g : Group} (h : Evolves s0 s) : Evolves s0 (sealGroup s g) := by
  have key : ∀ (x : JRec × State) c, Evolves s0 x.2 → Evolves s0 { x.2 with mpd := { x.2.mpd with closed := c } } :=
    fun x c hx => evolves_same hx rfl rfl rfl rfl rfl rfl rfl rfl rfl
  unfold sealGroup
  exact State.count_evolves (key _ _ (placeRecord_evolves h))

theorem closeGroup_evolves {s0 s : State} {reopen : Bool} (h : Evolves s0 s) : Evolves s0 (closeGroup s reopen) := by
  unfold closeGroup
  repeat' first
    | with_reducible assumption | with_reducible apply groupNext_evolves | with_reducible apply State.count_evolves
    | with_reducible apply sealGroup_evolves | with_reducible apply padEnd_evolves | (split)

theorem joinNow_evolves {s0 s : State} {n : JNew} (h : Evolves s0 s) : Evolves s0 (joinNow s n).2 := by
  unfold joinNow
  repeat' first
    | with_reducible assumption | with_reducible apply closeGroup_evolves | with_reducible apply padEnd_evolves
    | with_reducible apply placeRecord_evolves | with_reducible apply State.count_evolves
    | with_reducible apply setGrp_evolves | simp only [evolves_mk] | (split)

theorem journalWait_evolves {s0 s : State} (h : Evolves s0 s) : Evolves s0 (journalWait s) := by
  unfold journalWait
  repeat' first
    | with_reducible assumption | with_reducible apply setFlag_evolves | with_reducible apply State.devEvent_evolves
    | with_reducible apply evolves_ite  | simp only [evolves_mk]

theorem dirtyCount_evolves {s0 s : State} (h : Evolves s0 s) : Evolves s0 (dirtyCount s) := by
  unfold dirtyCount
  repeat' first
    | with_reducible assumption | with_reducible apply setFld_evolves

theorem markDirty_evolves {s0 s : State} {r : JRec} (h : Evolves s0 s) : Evolves s0 (markDirty s r) := by
  unfold markDirty
  repeat' first
    | with_reducible assumption | with_reducible apply dirtyCount_evolves | with_reducible apply State.count_evolves
    | with_reducible apply evolves_ite  | simp only [evolves_mk]

theorem truncate_evolves {s0 s : State} (h : Evolves s0 s) : Evolves s0 (truncate s) := by
  unfold truncate
  repeat' first
    | with_reducible assumption | with_reducible apply mpdWrite_evolves | with_reducible apply setReg_evolves
    | with_reducible apply spaceUpdate_evolves | with_reducible apply evolves_ite | simp only [evolves_mk]

theorem updateLow_evolves {s0 s : State} (h : Evolves s0 s) : Evolves s0 (updateLow s) := by
  unfold updateLow
  repeat' first
    | with_reducible assumption | with_reducible apply setReg_evolves

theorem putStamp_evolves {r : Req} {v : Nat} {st : Stamp} : (putStamp r v st : Op Unit).evolves := by
  unfold putStamp
  repeat' first
    | with_reducible assumption | with_reducible apply writeMem_evolves

theorem putStamps_evolves {s0 s : State} {r : Req} {v : Nat} {l : List Stamp} (h : Evolves s0 s) : Evolves s0 (putStamps r v l s).2 := by
  induction l generalizing s with
  | nil => exact h
  | cons st l ih =>
    unfold putStamps
    split
    · exact ih (evolves_exec (by assumption) putStamp_evolves h)
    · exact ih (evolves_exec (by assumption) putStamp_evolves h)

theorem openTxn_evolves {s0 s : State} {slice : Nat} {gq : Nat} {st : Nat} {failed : Bool} (h : Evolves s0 s) : Evolves s0 (openTxn s slice gq st failed).2 := by
  unfold openTxn
  repeat' first
    | with_reducible assumption | simp only [evolves_mk]

theorem endTxn_evolves {s0 s : State} {n : Nat} (h : Evolves s0 s) : Evolves s0 (endTxn s n) := by
  unfold endTxn
  repeat' first
    | with_reducible assumption | with_reducible apply updateLow_evolves | simp only [evolves_mk]

theorem abortTxn_evolves {s0 s : State} {n : Nat} {tag : Nat} (h : Evolves s0 s) : Evolves s0 (abortTxn s n tag) := by
  unfold abortTxn
  repeat' first
    | intro _ | with_reducible assumption | with_reducible apply putStamps_evolves | with_reducible apply State.count_evolves
    | with_reducible apply State.setTxn_evolves | with_reducible apply evolves_foldl | simp only [evolves_mk] | (split)

theorem claimPlace_evolves {t : Txn} {r : JRec} {row : Nat} : (claimPlace t r row : Op (Nat × Nat)).evolves := by
  unfold claimPlace
  repeat' first
    | intro _ | with_reducible apply readNum_evolves | with_reducible apply ledgerPart_evolves
    | with_reducible apply ledgerStamps_evolves | with_reducible apply bind_evolves | with_reducible apply get_evolves

theorem claimRow_evolves {t : Txn} {r : JRec} {row : Nat} : (claimRow t r row : Op Claim).evolves := by
  unfold claimRow
  repeat' first
    | intro _ | with_reducible assumption | with_reducible exact Evolves.refl _ | with_reducible apply claimPlace_evolves
    | with_reducible apply readNum_evolves | with_reducible apply atomicMem_evolves
    | with_reducible apply State.setTxn_evolves | with_reducible apply bind_evolves | with_reducible apply pure_evolves
    | with_reducible apply get_evolves | with_reducible apply upd_evolves | with_reducible apply throw_evolves
    | with_reducible apply ite_op_evolves | with_reducible apply modifyGet_evolves | with_reducible apply ask_evolves
    | with_reducible apply attempt_evolves | with_reducible apply mapM_evolves | with_reducible apply forM_evolves
    | with_reducible apply forIn_evolves | with_reducible apply foldlM_evolves | with_reducible apply evolves_ite
    | with_reducible apply evolves_foldl  | with_reducible apply evolves_foldl_snd | with_reducible apply evolves_foldl_fst
    | with_reducible refine evolves_snd (by assumption) ?_ | with_reducible refine evolves_fst (by assumption) ?_
    | with_reducible refine evolves_exec (by assumption) ?_ ?_ | with_reducible refine evolves_ok (by assumption) ?_ ?_
    | with_reducible refine evolves_error (by assumption) ?_ ?_ | simp only [evolves_mk] | (split)

theorem claimAll_evolves {t : Txn} {a1 : List (JRec × Nat)} : (claimAll t a1 : Op Claim).evolves := by
  induction a1 with
  | nil =>
    unfold claimAll
    repeat' first
      | intro _ | with_reducible apply claimRow_evolves | with_reducible apply bind_evolves | with_reducible apply pure_evolves
      | (split)
  | cons x l ih =>
    unfold claimAll
    repeat' first
      | intro _ | with_reducible apply ih | with_reducible apply claimRow_evolves | with_reducible apply bind_evolves | with_reducible apply pure_evolves
      | (split)

theorem outcomeAt_evolves {s0 s : State} {job : Nat} {o : Outc} {epoch : Nat} (h : Evolves s0 s) : Evolves s0 (outcomeAt s job o epoch) := by
  unfold outcomeAt
  repeat' first
    | with_reducible assumption | with_reducible apply finishJob_evolves | simp only [evolves_mk] | (split)

theorem claimsUndone_evolves {s0 s : State} {n : Nat} (h : Evolves s0 s) : Evolves s0 (claimsUndone s n) := by
  unfold claimsUndone
  repeat' first
    | intro _ | with_reducible assumption | with_reducible exact Evolves.refl _ | with_reducible apply abortTxn_evolves
    | with_reducible apply putStamps_evolves | with_reducible apply evolves_ite | with_reducible apply evolves_foldl
    | with_reducible apply evolves_foldl_snd | with_reducible apply evolves_foldl_fst
    | with_reducible refine evolves_snd (by assumption) ?_ | with_reducible refine evolves_fst (by assumption) ?_
    | simp only [evolves_mk] | (split)

theorem commitMade_evolves {s0 s : State} {n : Nat} {e : Nat} (h : Evolves s0 s) : Evolves s0 (commitMade s n e) := by
  unfold commitMade
  repeat' first
    | with_reducible assumption | with_reducible apply State.setTxn_evolves | simp only [evolves_mk]

theorem commitClaims_evolves {s0 s : State} (h : Evolves s0 s) : Evolves s0 (commitClaims s) := by
  unfold commitClaims
  repeat' first
    | with_reducible assumption | with_reducible apply exec_evolves | with_reducible apply claimAll_evolves
    | with_reducible apply finishJob_evolves | with_reducible apply claimsUndone_evolves
    | with_reducible apply outcomeAt_evolves | with_reducible apply State.count_evolves
    | with_reducible apply joinNow_evolves | with_reducible apply State.setJob_evolves
    | with_reducible apply commitMade_evolves | with_reducible apply evolves_foldl
    | with_reducible refine evolves_exec (by assumption) ?_ ?_ | simp only [evolves_mk] | (split)

theorem groupClose_evolves {s0 s : State} (h : Evolves s0 s) : Evolves s0 (groupClose s) := by
  unfold groupClose
  repeat' first
    | with_reducible assumption | with_reducible apply closeGroup_evolves | with_reducible apply clockTo_evolves | (split)

theorem sealDurable_evolves {s0 s : State} (h : Evolves s0 s) : Evolves s0 (sealDurable s) := by
  unfold sealDurable
  repeat' first
    | with_reducible assumption | with_reducible apply evolves_ite | simp only [evolves_mk] | (split)

theorem replaceStamps_evolves {s0 s : State} {e : Nat} {n : Nat} (h : Evolves s0 s) : Evolves s0 (replaceStamps s e n) := by
  unfold replaceStamps
  repeat' first
    | intro _ | with_reducible assumption | with_reducible apply putStamps_evolves | with_reducible apply State.count_evolves
    | with_reducible apply State.setTxn_evolves | with_reducible apply evolves_foldl | (split)

theorem raiseApplied_evolves {s0 s : State} (h : Evolves s0 s) : Evolves s0 (raiseApplied s) := by
  unfold raiseApplied
  repeat' first
    | intro _ | with_reducible assumption | with_reducible apply setReg_evolves | with_reducible apply evolves_foldl

theorem wakeOutcomes_evolves {s0 s : State} (h : Evolves s0 s) : Evolves s0 (wakeOutcomes s) := by
  unfold wakeOutcomes
  repeat' first
    | intro _ | with_reducible assumption | with_reducible apply finishJob_evolves | with_reducible apply evolves_foldl
    | simp only [evolves_mk]

theorem wakeFlushes_evolves {s0 s : State} (h : Evolves s0 s) : Evolves s0 (wakeFlushes s) := by
  unfold wakeFlushes
  repeat' first
    | intro _ | with_reducible assumption | with_reducible apply okJob_evolves | with_reducible apply evolves_foldl | (split)

theorem epochPublish_evolves {s0 s : State} (h : Evolves s0 s) : Evolves s0 (epochPublish s) := by
  unfold epochPublish
  repeat' first
    | intro _ | with_reducible assumption | with_reducible apply replaceStamps_evolves
    | with_reducible apply State.count_evolves | with_reducible apply setReg_evolves | with_reducible apply markDirty_evolves
    | with_reducible apply truncate_evolves | with_reducible apply updateLow_evolves
    | with_reducible apply wakeFlushes_evolves | with_reducible apply wakeOutcomes_evolves
    | with_reducible apply raiseApplied_evolves | with_reducible apply evolves_ite | with_reducible apply evolves_foldl
    | simp only [evolves_mk] | (split)

theorem waitFlags_evolves {s0 s : State} (h : Evolves s0 s) : Evolves s0 (waitFlags s) := by
  unfold waitFlags
  repeat' first
    | intro _ | with_reducible assumption | with_reducible exact Evolves.refl _ | with_reducible apply journalWait_evolves
    | with_reducible apply setFlag_evolves | with_reducible apply evolves_ite | with_reducible apply evolves_foldl
    | with_reducible apply evolves_foldl_snd | with_reducible apply evolves_foldl_fst
    | with_reducible refine evolves_snd (by assumption) ?_ | with_reducible refine evolves_fst (by assumption) ?_
    | simp only [evolves_mk] | (split)

theorem dropJoins_evolves {s0 s : State} {id : Nat} (h : Evolves s0 s) : Evolves s0 (dropJoins s id) := by
  unfold dropJoins
  repeat' first
    | intro _ | with_reducible assumption | with_reducible exact Evolves.refl _ | with_reducible apply waitFlags_evolves
    | with_reducible apply evolves_ite  | with_reducible apply evolves_foldl | with_reducible apply evolves_foldl_snd
    | with_reducible apply evolves_foldl_fst | with_reducible refine evolves_snd (by assumption) ?_
    | with_reducible refine evolves_fst (by assumption) ?_ | simp only [evolves_mk] | (split)

theorem volumeEnd_evolves {s0 s : State} {id : Nat} (h : Evolves s0 s) : Evolves s0 (volumeEnd s id) := by
  unfold volumeEnd
  repeat' first
    | intro _ | with_reducible assumption | with_reducible exact Evolves.refl _ | with_reducible apply okJob_evolves
    | with_reducible apply outcomeAt_evolves | with_reducible apply evolves_ite | with_reducible apply evolves_foldl
    | with_reducible apply evolves_foldl_snd | with_reducible apply evolves_foldl_fst
    | with_reducible refine evolves_snd (by assumption) ?_ | with_reducible refine evolves_fst (by assumption) ?_
    | simp only [evolves_mk] | (split)

theorem joinedFor_evolves {s0 s : State} {id : Nat} {commit : Bool} {epoch : Nat} (h : Evolves s0 s) : Evolves s0 (joinedFor s id commit epoch) := by
  unfold joinedFor
  repeat' first
    | intro _ | with_reducible assumption | with_reducible exact Evolves.refl _ | with_reducible apply State.setJob_evolves
    | with_reducible apply volumeEnd_evolves | with_reducible apply evolves_ite | with_reducible apply evolves_foldl
    | with_reducible apply evolves_foldl_snd | with_reducible apply evolves_foldl_fst
    | with_reducible refine evolves_snd (by assumption) ?_ | with_reducible refine evolves_fst (by assumption) ?_
    | simp only [evolves_mk] | (split)

theorem recordJoin_evolves {s0 s : State} (h : Evolves s0 s) : Evolves s0 (recordJoin s) := by
  unfold recordJoin
  repeat' first
    | with_reducible assumption | with_reducible apply waitFlags_evolves | with_reducible apply joinNow_evolves
    | with_reducible apply joinedFor_evolves | with_reducible apply evolves_ite | simp only [evolves_mk] | (split)

theorem checkpoint_evolves {s0 s : State} {c : Nat} (h : Evolves s0 s) : Evolves s0 (checkpoint s c) := by
  unfold checkpoint
  repeat' first
    | with_reducible assumption | with_reducible apply joinNow_evolves | with_reducible apply setReg_evolves
    | with_reducible apply truncate_evolves | with_reducible apply evolves_ite

end Sys2Proof.Machine
end

