-- ==== Sys2Proof/Laws/EvChannels.lean ====
section
/-! SUPPORT. The functions of Machine/Channels.lean only evolve the state (Safety.lean, Evolves). -/

namespace Sys2Proof.Machine

theorem State.setSlu_evolves {s0 s : State} {c : Nat} {f : Chan → Chan} (h : Evolves s0 s) : Evolves s0 (State.setSlu s c f) := by
  unfold State.setSlu
  repeat' first
    | with_reducible assumption | with_reducible apply evolves_ite | simp only [evolves_mk]

theorem State.emptyBuf_evolves {s0 s : State} {c : Nat} (h : Evolves s0 s) : Evolves s0 (State.emptyBuf s c) := by
  unfold State.emptyBuf
  repeat' first
    | intro _ | with_reducible assumption | with_reducible exact Evolves.refl _ | with_reducible apply setFld_evolves
    | with_reducible apply State.setSlu_evolves | with_reducible apply evolves_ite | with_reducible apply evolves_foldl
    | with_reducible apply evolves_foldl_snd | with_reducible apply evolves_foldl_fst
    | with_reducible refine evolves_snd (by assumption) ?_ | with_reducible refine evolves_fst (by assumption) ?_
    | simp only [evolves_mk] | (split)

theorem chanStart_evolves {s0 s : State} {c : Nat} {source : Nat} {level : Nat} {slice : Nat} (h : Evolves s0 s) : Evolves s0 (chanStart s c source level slice) := by
  unfold chanStart
  repeat' first
    | with_reducible assumption | with_reducible apply State.emptyBuf_evolves | with_reducible apply setFld_evolves

theorem chanIdle_evolves {s0 s : State} {c : Nat} (h : Evolves s0 s) : Evolves s0 (chanIdle s c) := by
  unfold chanIdle
  repeat' first
    | with_reducible assumption | with_reducible apply setFld_evolves | with_reducible apply State.setSlu_evolves

theorem loadActive_evolves {s0 s : State} {c : Nat} {d : Desc} (h : Evolves s0 s) : Evolves s0 (loadActive s c d) := by
  unfold loadActive
  repeat' first
    | with_reducible assumption | with_reducible apply State.emptyBuf_evolves | with_reducible apply setReg_evolves

theorem takeEngineChan_evolves {s0 s t : State} {j : Job} {part unit : Nat} {e : Engine} (hs : takeEngineChan s j part unit e = some t)
    (h : Evolves s0 s) : Evolves s0 t := by
  unfold takeEngineChan at hs
  obtain ⟨c, _, hs⟩ := Option.map_eq_some_iff.mp hs
  cases hs
  exact State.setSlu_evolves (chanStart_evolves h)

theorem freeEngineChan_evolves {s0 s : State} {id : Nat} {part : Nat} (h : Evolves s0 s) : Evolves s0 (freeEngineChan s id part) := by
  unfold freeEngineChan
  repeat' first
    | with_reducible assumption | with_reducible apply State.setSlu_evolves | with_reducible apply chanIdle_evolves | (split)

theorem takeCmdChan_evolves {s0 s : State} {id : Nat} (h : Evolves s0 s) : Evolves s0 (takeCmdChan s id) := by
  unfold takeCmdChan
  repeat' first
    | intro _ | with_reducible assumption | with_reducible exact Evolves.refl _ | with_reducible apply State.setSlu_evolves
    | with_reducible apply chanStart_evolves | with_reducible apply evolves_ite | with_reducible apply evolves_foldl
    | with_reducible apply evolves_foldl_snd | with_reducible apply evolves_foldl_fst
    | with_reducible refine evolves_snd (by assumption) ?_ | with_reducible refine evolves_fst (by assumption) ?_
    | simp only [evolves_mk] | (split)

theorem sweepChans_evolves {s0 s : State} (h : Evolves s0 s) : Evolves s0 (sweepChans s) := by
  unfold sweepChans
  repeat' first
    | intro _ | with_reducible assumption | with_reducible exact Evolves.refl _ | with_reducible apply chanIdle_evolves
    | with_reducible apply evolves_ite  | with_reducible apply evolves_foldl | with_reducible apply evolves_foldl_snd
    | with_reducible apply evolves_foldl_fst | with_reducible refine evolves_snd (by assumption) ?_
    | with_reducible refine evolves_fst (by assumption) ?_ | simp only [evolves_mk] | (split)

theorem keepCmds_evolves {s0 s : State} {keep : DCmd → Bool} (h : Evolves s0 s) : Evolves s0 (keepCmds s keep) := by
  unfold keepCmds
  repeat' first
    | intro _ | with_reducible assumption | with_reducible exact Evolves.refl _ | with_reducible apply sweepChans_evolves
    | with_reducible apply evolves_ite  | with_reducible apply evolves_foldl | with_reducible apply evolves_foldl_snd
    | with_reducible apply evolves_foldl_fst | with_reducible refine evolves_snd (by assumption) ?_
    | with_reducible refine evolves_fst (by assumption) ?_ | simp only [evolves_mk] | (split)

theorem startTransfers_evolves {s0 s : State} (h : Evolves s0 s) : Evolves s0 (startTransfers s) := by
  unfold startTransfers
  repeat' first
    | intro _ | with_reducible assumption | with_reducible exact Evolves.refl _ | with_reducible apply takeCmdChan_evolves
    | with_reducible apply evolves_ite  | with_reducible apply evolves_foldl | with_reducible apply evolves_foldl_snd
    | with_reducible apply evolves_foldl_fst | with_reducible refine evolves_snd (by assumption) ?_
    | with_reducible refine evolves_fst (by assumption) ?_ | simp only [evolves_mk] | (split)

end Sys2Proof.Machine
end

