-- ==== Sys2Proof/Laws/EvVolumes.lean ====
section
/-! SUPPORT. The functions of Machine/Volumes.lean only evolve the state (Safety.lean, Evolves). -/

namespace Sys2Proof.Machine

theorem State.setDrive_evolves {s0 s : State} {p : Nat} {f : Drive → Drive} (h : Evolves s0 s) : Evolves s0 (State.setDrive s p f) := by
  unfold State.setDrive
  repeat' first
    | with_reducible assumption | with_reducible apply evolves_ite | simp only [evolves_mk]

theorem State.setVolOp_evolves {s0 s : State} {v : Nat} {o : Option VolOp} (h : Evolves s0 s) : Evolves s0 (State.setVolOp s v o) := by
  unfold State.setVolOp
  repeat' first
    | with_reducible assumption | with_reducible apply evolves_ite | simp only [evolves_mk]

theorem driveRead_evolves {s0 s : State} {p v lba : Nat} (h : Evolves s0 s) : Evolves s0 (driveRead s p v lba).2 := by
  unfold driveRead
  split
  · exact openBytes_evolves h
  · exact h

theorem driveWrite_evolves {s0 s : State} {p : Nat} {v : Nat} {lba : Nat} {b : List Byte} (h : Evolves s0 s) : Evolves s0 (driveWrite s p v lba b) := by
  unfold driveWrite
  repeat' first
    | with_reducible assumption | with_reducible apply State.setDrive_evolves

theorem driveDrop_evolves {s0 s : State} {p : Nat} {v : Nat} {lo : Nat} {n : Nat} (h : Evolves s0 s) : Evolves s0 (driveDrop s p v lo n) := by
  unfold driveDrop
  repeat' first
    | with_reducible assumption | with_reducible apply State.setDrive_evolves

theorem tableCopy_evolves {s0 s : State} {p : Nat} (h : Evolves s0 s) : Evolves s0 (tableCopy s p) := by
  unfold tableCopy
  repeat' first
    | intro _ | with_reducible assumption | with_reducible exact Evolves.refl _ | with_reducible apply State.setDrive_evolves
    | with_reducible apply evolves_ite  | with_reducible apply evolves_foldl | with_reducible apply evolves_foldl_snd
    | with_reducible apply evolves_foldl_fst | with_reducible refine evolves_snd (by assumption) ?_
    | with_reducible refine evolves_fst (by assumption) ?_ | simp only [evolves_mk] | (split)

theorem tableRewrite_evolves {s0 s : State} (h : Evolves s0 s) : Evolves s0 (tableRewrite s) := by
  unfold tableRewrite
  repeat' first
    | intro _ | with_reducible assumption | with_reducible apply tableCopy_evolves | with_reducible apply evolves_foldl
    | simp only [evolves_mk] | (split)

theorem setVol_evolves {s0 s : State} {v : Nat} {e : Option VolEnt} (h : Evolves s0 s) : Evolves s0 (setVol s v e) := by
  unfold setVol
  repeat' first
    | with_reducible assumption | with_reducible apply tableRewrite_evolves | simp only [evolves_mk]

theorem dropDirty_evolves {s0 s : State} {v : Nat} (h : Evolves s0 s) : Evolves s0 (dropDirty s v) := by
  unfold dropDirty
  repeat' first
    | with_reducible assumption | with_reducible apply waitFlags_evolves | with_reducible apply dirtyCount_evolves
    | simp only [evolves_mk]

theorem issueCmd_evolves {s0 s : State} {c : DCmd} (h : Evolves s0 s) : Evolves s0 (issueCmd s c) := by
  unfold issueCmd
  repeat' first
    | with_reducible assumption | with_reducible apply startTransfers_evolves | with_reducible apply evolves_ite
    | simp only [evolves_mk]

theorem volumeOp_evolves {s0 s : State} {id : Nat} {op : Nat} (h : Evolves s0 s) : Evolves s0 (volumeOp s id op) := by
  unfold volumeOp
  repeat' first
    | with_reducible assumption | with_reducible apply finishJob_evolves | with_reducible apply setTasks_evolves | (split)

theorem flushOp_evolves {s0 s : State} {id : Nat} (h : Evolves s0 s) : Evolves s0 (flushOp s id) := by
  unfold flushOp
  repeat' first
    | with_reducible assumption | with_reducible apply finishJob_evolves | with_reducible apply okJob_evolves
    | with_reducible apply wakeFlushes_evolves | with_reducible apply State.setJob_evolves | (split)

theorem plainImage_evolves {key : List Byte} {e : VolEnt} {sector : Nat} {r : JRec} : (plainImage key e sector r : Op (List Byte)).evolves := by
  unfold plainImage
  repeat' first
    | with_reducible apply freeBytes_evolves | with_reducible apply pure_evolves | with_reducible apply evolves_ite | (split)

theorem tapVolume_evolves {j : Job} {e : VolEnt} {sector : Nat} {b : List Byte} : (tapVolume j e sector b : Op Unit).evolves := by
  unfold tapVolume
  repeat' first
    | intro _ | with_reducible assumption | with_reducible exact Evolves.refl _ | with_reducible apply tapSector_evolves
    | with_reducible apply bind_evolves | with_reducible apply pure_evolves | with_reducible apply get_evolves
    | with_reducible apply upd_evolves | with_reducible apply throw_evolves | with_reducible apply ite_op_evolves
    | with_reducible apply modifyGet_evolves | with_reducible apply ask_evolves | with_reducible apply attempt_evolves
    | with_reducible apply mapM_evolves | with_reducible apply forM_evolves | with_reducible apply forIn_evolves
    | with_reducible apply foldlM_evolves | with_reducible apply evolves_ite | with_reducible apply evolves_foldl
    | with_reducible apply evolves_foldl_snd | with_reducible apply evolves_foldl_fst
    | with_reducible refine evolves_snd (by assumption) ?_ | with_reducible refine evolves_fst (by assumption) ?_
    | with_reducible refine evolves_exec (by assumption) ?_ ?_ | with_reducible refine evolves_ok (by assumption) ?_ ?_
    | with_reducible refine evolves_error (by assumption) ?_ ?_ | simp only [evolves_mk] | (split)

theorem storeSector_evolves {j : Job} {e : VolEnt} {port : Nat} {sector : Nat} {b : List Byte} : (storeSector j e port sector b : Op Unit).evolves := by
  unfold storeSector
  repeat' first
    | intro _ | with_reducible assumption | with_reducible exact Evolves.refl _ | with_reducible apply jobWrite_evolves
    | with_reducible apply tapVolume_evolves | with_reducible apply bind_evolves | with_reducible apply pure_evolves
    | with_reducible apply get_evolves | with_reducible apply upd_evolves | with_reducible apply throw_evolves
    | with_reducible apply ite_op_evolves | with_reducible apply modifyGet_evolves | with_reducible apply ask_evolves
    | with_reducible apply attempt_evolves | with_reducible apply mapM_evolves | with_reducible apply forM_evolves
    | with_reducible apply forIn_evolves | with_reducible apply foldlM_evolves | with_reducible apply evolves_ite
    | with_reducible apply evolves_foldl  | with_reducible apply evolves_foldl_snd | with_reducible apply evolves_foldl_fst
    | with_reducible refine evolves_snd (by assumption) ?_ | with_reducible refine evolves_fst (by assumption) ?_
    | with_reducible refine evolves_exec (by assumption) ?_ ?_ | with_reducible refine evolves_ok (by assumption) ?_ ?_
    | with_reducible refine evolves_error (by assumption) ?_ ?_ | simp only [evolves_mk] | (split)

theorem spoilRead_evolves {s0 s : State} {j : Job} {from_ : Nat} (h : Evolves s0 s) : Evolves s0 (spoilRead s j from_) := by
  unfold spoilRead
  repeat' first
    | intro _ | with_reducible assumption | with_reducible exact Evolves.refl _ | with_reducible apply exec_evolves
    | with_reducible apply freeBytes_evolves | with_reducible apply jobWrite_evolves | with_reducible apply evolves_ite
    | with_reducible apply evolves_foldl  | with_reducible apply evolves_foldl_snd | with_reducible apply evolves_foldl_fst
    | with_reducible refine evolves_snd (by assumption) ?_ | with_reducible refine evolves_fst (by assumption) ?_
    | with_reducible refine evolves_exec (by assumption) ?_ ?_ | with_reducible refine evolves_ok (by assumption) ?_ ?_
    | with_reducible refine evolves_error (by assumption) ?_ ?_ | with_reducible apply bind_evolves
    | with_reducible apply pure_evolves | with_reducible apply get_evolves | with_reducible apply upd_evolves
    | with_reducible apply throw_evolves | with_reducible apply ite_op_evolves | with_reducible apply modifyGet_evolves
    | with_reducible apply ask_evolves | with_reducible apply attempt_evolves | with_reducible apply mapM_evolves
    | with_reducible apply forM_evolves | with_reducible apply forIn_evolves | with_reducible apply foldlM_evolves
    | simp only [evolves_mk] | (split)

theorem readDispatch_evolves {s0 s : State} {j : Job} {e : VolEnt} (h : Evolves s0 s) : Evolves s0 (readDispatch s j e) := by
  unfold readDispatch
  repeat' first
    | intro _ | with_reducible assumption | with_reducible apply plainImage_evolves
    | with_reducible apply storeSector_evolves | with_reducible apply failJob_evolves | with_reducible apply exec_evolves
    | with_reducible apply issueCmd_evolves | with_reducible apply evolves_ite | with_reducible apply evolves_foldl
    | with_reducible refine evolves_exec (by assumption) ?_ ?_ | with_reducible apply bind_evolves
    | with_reducible apply pure_evolves | with_reducible apply get_evolves | with_reducible apply forM_evolves | (split)

theorem takeTxn_evolves {s0 s : State} (h : Evolves s0 s) : Evolves s0 (takeTxn s).2 := by
  unfold takeTxn
  repeat' first
    | with_reducible assumption | simp only [evolves_mk]

theorem formSector_evolves {s0 s : State} {j : Job} {kind : Nat} {addr : Nat} {aux : Nat} {payload : List Byte} (h : Evolves s0 s) : Evolves s0 (formSector s j kind addr aux payload) := by
  unfold formSector
  repeat' first
    | intro _ | with_reducible assumption | with_reducible exact Evolves.refl _ | with_reducible apply takeTxn_evolves
    | with_reducible apply evolves_ite  | with_reducible apply evolves_foldl | with_reducible apply evolves_foldl_snd
    | with_reducible apply evolves_foldl_fst | with_reducible refine evolves_snd (by assumption) ?_
    | with_reducible refine evolves_fst (by assumption) ?_ | simp only [evolves_mk] | (split)

theorem writeSector_evolves {j : Job} {e : VolEnt} {i : Nat} : (writeSector j e i : Op Unit).evolves := by
  unfold writeSector
  repeat' first
    | intro _ | with_reducible assumption | with_reducible exact Evolves.refl _ | with_reducible apply readMem_evolves
    | with_reducible apply tapVolume_evolves | with_reducible apply issueCmd_evolves
    | with_reducible apply formSector_evolves | with_reducible apply bind_evolves | with_reducible apply pure_evolves
    | with_reducible apply get_evolves | with_reducible apply upd_evolves | with_reducible apply throw_evolves
    | with_reducible apply ite_op_evolves | with_reducible apply modifyGet_evolves | with_reducible apply ask_evolves
    | with_reducible apply attempt_evolves | with_reducible apply mapM_evolves | with_reducible apply forM_evolves
    | with_reducible apply forIn_evolves | with_reducible apply foldlM_evolves | with_reducible apply evolves_ite
    | with_reducible apply evolves_foldl  | with_reducible apply evolves_foldl_snd | with_reducible apply evolves_foldl_fst
    | with_reducible refine evolves_snd (by assumption) ?_ | with_reducible refine evolves_fst (by assumption) ?_
    | with_reducible refine evolves_exec (by assumption) ?_ ?_ | with_reducible refine evolves_ok (by assumption) ?_ ?_
    | with_reducible refine evolves_error (by assumption) ?_ ?_ | simp only [evolves_mk] | (split)

theorem writeDispatch_evolves {s0 s : State} {j : Job} {e : VolEnt} (h : Evolves s0 s) : Evolves s0 (writeDispatch s j e) := by
  unfold writeDispatch
  repeat' first
    | intro _ | with_reducible assumption | with_reducible exact Evolves.refl _ | with_reducible apply failJob_evolves
    | with_reducible apply exec_evolves | with_reducible apply writeSector_evolves | with_reducible apply evolves_ite
    | with_reducible apply evolves_foldl  | with_reducible apply evolves_foldl_snd | with_reducible apply evolves_foldl_fst
    | with_reducible refine evolves_snd (by assumption) ?_ | with_reducible refine evolves_fst (by assumption) ?_
    | with_reducible refine evolves_exec (by assumption) ?_ ?_ | with_reducible refine evolves_ok (by assumption) ?_ ?_
    | with_reducible refine evolves_error (by assumption) ?_ ?_ | with_reducible apply bind_evolves
    | with_reducible apply pure_evolves | with_reducible apply get_evolves | with_reducible apply upd_evolves
    | with_reducible apply throw_evolves | with_reducible apply ite_op_evolves | with_reducible apply modifyGet_evolves
    | with_reducible apply ask_evolves | with_reducible apply attempt_evolves | with_reducible apply mapM_evolves
    | with_reducible apply forM_evolves | with_reducible apply forIn_evolves | with_reducible apply foldlM_evolves
    | simp only [evolves_mk] | (split)

theorem trimDispatch_evolves {s0 s : State} {j : Job} {e : VolEnt} (h : Evolves s0 s) : Evolves s0 (trimDispatch s j e) := by
  unfold trimDispatch
  repeat' first
    | intro _ | with_reducible assumption | with_reducible apply issueCmd_evolves | with_reducible apply formSector_evolves
    | with_reducible apply evolves_ite  | with_reducible apply evolves_foldl

theorem volDispatch_evolves {s0 s : State} {j : Job} (h : Evolves s0 s) : Evolves s0 (volDispatch s j) := by
  unfold volDispatch
  repeat' first
    | with_reducible assumption | with_reducible apply failJob_evolves | with_reducible apply readDispatch_evolves
    | with_reducible apply writeDispatch_evolves | with_reducible apply trimDispatch_evolves | (split)

theorem landImage_evolves {s0 s : State} {v : Nat} {g : Nat} {e : VolEnt} (h : Evolves s0 s) : Evolves s0 (landImage s v g e).2 := by
  unfold landImage
  repeat' first
    | intro _ | with_reducible assumption | with_reducible apply driveRead_evolves | with_reducible apply openBytes_evolves
    | with_reducible apply evolves_foldl_snd | simp only [evolves_mk] | (split)

theorem writeback_evolves {s0 s : State} {v : Nat} {g : Nat} (h : Evolves s0 s) : Evolves s0 (writeback s v g) := by
  unfold writeback
  repeat' first
    | intro _ | with_reducible assumption | with_reducible apply landImage_evolves | with_reducible apply issueCmd_evolves
    | with_reducible apply evolves_ite  | with_reducible apply evolves_foldl | (split)

theorem imagesLand_evolves {s0 s : State} {v : Nat} {g : Nat} {e : VolEnt} {seqs : List Nat} (h : Evolves s0 s) : Evolves s0 (imagesLand s v g e seqs) := by
  unfold imagesLand
  repeat' first
    | intro _ | with_reducible assumption | with_reducible exact Evolves.refl _ | with_reducible apply waitFlags_evolves
    | with_reducible apply dirtyCount_evolves | with_reducible apply evolves_ite | with_reducible apply evolves_foldl
    | with_reducible apply evolves_foldl_snd | with_reducible apply evolves_foldl_fst
    | with_reducible refine evolves_snd (by assumption) ?_ | with_reducible refine evolves_fst (by assumption) ?_
    | simp only [evolves_mk] | (split)

theorem landed_evolves {s0 s : State} {v : Nat} {g : Nat} {e : VolEnt} {seqs : List Nat} (h : Evolves s0 s) : Evolves s0 (landed s v g e seqs) := by
  unfold landed
  repeat' first
    | with_reducible assumption | with_reducible apply truncate_evolves | with_reducible apply wakeFlushes_evolves
    | with_reducible apply imagesLand_evolves | with_reducible apply evolves_ite | simp only [evolves_mk]

theorem copyUnit_evolves {s0 s : State} {c : DCmd} {q : Nat} (h : Evolves s0 s) : Evolves s0 (copyUnit s c q) := by
  unfold copyUnit
  repeat' first
    | intro _ | with_reducible assumption | with_reducible exact Evolves.refl _ | with_reducible apply State.setDrive_evolves
    | with_reducible apply evolves_ite  | with_reducible apply evolves_foldl | with_reducible apply evolves_foldl_snd
    | with_reducible apply evolves_foldl_fst | with_reducible refine evolves_snd (by assumption) ?_
    | with_reducible refine evolves_fst (by assumption) ?_ | simp only [evolves_mk] | (split)

theorem transfer_evolves {s0 s : State} {c : DCmd} (h : Evolves s0 s) : Evolves s0 (transfer s c) := by
  unfold transfer
  split
  · cases copySource s c with
    | none => exact h
    | some q => exact copyUnit_evolves h
  · exact driveWrite_evolves h
  · exact driveDrop_evolves h
  · exact driveDrop_evolves h
  · exact h

theorem readEnd_evolves {s0 s : State} {job : Nat} (h : Evolves s0 s) : Evolves s0 (readEnd s job) := by
  unfold readEnd
  repeat' first
    | intro _ | with_reducible assumption | with_reducible exact Evolves.refl _ | with_reducible apply failJob_evolves
    | with_reducible apply spoilRead_evolves | with_reducible apply evolves_ite | with_reducible apply evolves_foldl
    | with_reducible apply evolves_foldl_snd | with_reducible apply evolves_foldl_fst
    | with_reducible refine evolves_snd (by assumption) ?_ | with_reducible refine evolves_fst (by assumption) ?_
    | simp only [evolves_mk] | (split)

theorem readDone_evolves {s0 s : State} {c : DCmd} {job : Nat} {mask : Nat} {failed : Option Nat} (h : Evolves s0 s) : Evolves s0 (readDone s c job mask failed) := by
  unfold readDone
  repeat' first
    | intro _ | with_reducible assumption | with_reducible apply failJob_evolves | with_reducible apply driveRead_evolves
    | with_reducible apply issueCmd_evolves | with_reducible apply exec_evolves | with_reducible apply storeSector_evolves
    | with_reducible apply readEnd_evolves | with_reducible refine evolves_exec (by assumption) ?_ ?_
    | with_reducible apply forM_evolves | simp only [evolves_mk] | (split)

theorem readFailed_evolves {s0 s : State} {c : DCmd} {job : Nat} {mask : Nat} {failed : Option Nat} (h : Evolves s0 s) : Evolves s0 (readFailed s c job mask failed) := by
  unfold readFailed
  repeat' first
    | with_reducible assumption | with_reducible apply issueCmd_evolves | with_reducible apply readEnd_evolves
    | with_reducible apply State.setJob_evolves | simp only [evolves_mk] | (split)

theorem recordProgress_evolves {s0 s : State} {v : Nat} (h : Evolves s0 s) : Evolves s0 (recordProgress s v) := by
  unfold recordProgress
  repeat' first
    | with_reducible assumption | with_reducible apply mpdWrite_evolves | (split)

theorem issueUnit_evolves {s0 s : State} {v : Nat} (h : Evolves s0 s) : Evolves s0 (issueUnit s v) := by
  unfold issueUnit
  repeat' first
    | intro _ | with_reducible assumption | with_reducible apply issueCmd_evolves | with_reducible apply evolves_foldl
    | (split)

theorem startRebuild_evolves {s0 s : State} {v : Nat} {e : VolEnt} {p : Nat} {more : List Nat} (h : Evolves s0 s) : Evolves s0 (startRebuild s v e p more) := by
  unfold startRebuild
  repeat' first
    | intro _ | with_reducible assumption | with_reducible exact Evolves.refl _ | with_reducible apply issueUnit_evolves
    | with_reducible apply recordProgress_evolves | with_reducible apply State.setVolOp_evolves
    | with_reducible apply evolves_ite  | with_reducible apply evolves_foldl | with_reducible apply evolves_foldl_snd
    | with_reducible apply evolves_foldl_fst | with_reducible refine evolves_snd (by assumption) ?_
    | with_reducible refine evolves_fst (by assumption) ?_ | simp only [evolves_mk] | (split)

theorem opDone_evolves {s0 s : State} {v : Nat} {o : VolOp} (h : Evolves s0 s) : Evolves s0 (opDone s v o) := by
  unfold opDone
  repeat' first
    | intro _ | with_reducible assumption | with_reducible exact Evolves.refl _ | with_reducible apply recordProgress_evolves
    | with_reducible apply State.setVolOp_evolves | with_reducible apply startRebuild_evolves
    | with_reducible apply evolves_ite  | with_reducible apply evolves_foldl | with_reducible apply evolves_foldl_snd
    | with_reducible apply evolves_foldl_fst | with_reducible refine evolves_snd (by assumption) ?_
    | with_reducible refine evolves_fst (by assumption) ?_ | simp only [evolves_mk] | (split)

theorem opEnd_evolves {s0 s : State} {v : Nat} {o : VolOp} (h : Evolves s0 s) : Evolves s0 (opEnd s v o) := by
  unfold opEnd
  repeat' first
    | with_reducible assumption | with_reducible apply okJob_evolves | with_reducible apply opDone_evolves | (split)

theorem unitDone_evolves {s0 s : State} {v : Nat} (h : Evolves s0 s) : Evolves s0 (unitDone s v) := by
  unfold unitDone
  repeat' first
    | with_reducible assumption | with_reducible apply recordProgress_evolves | with_reducible apply State.setVolOp_evolves
    | with_reducible apply opEnd_evolves | with_reducible apply issueUnit_evolves | with_reducible apply evolves_ite
    | (split)

theorem cmdDone_evolves {s0 s : State} {c : DCmd} (h : Evolves s0 s) : Evolves s0 (cmdDone s c) := by
  unfold cmdDone
  repeat' first
    | with_reducible assumption | with_reducible apply readDone_evolves | with_reducible apply lateDiscard_evolves
    | with_reducible apply unitDone_evolves | with_reducible apply landed_evolves | simp only [evolves_mk] | (split)

theorem dropCmd_evolves {s0 s : State} {id : Nat} (h : Evolves s0 s) : Evolves s0 (dropCmd s id) := by
  unfold dropCmd
  repeat' first
    | with_reducible assumption | with_reducible apply keepCmds_evolves | with_reducible apply evolves_ite
    | simp only [evolves_mk]

theorem cmdLost_evolves {s0 s : State} {c : DCmd} (h : Evolves s0 s) : Evolves s0 (cmdLost s c) := by
  unfold cmdLost
  repeat' first
    | with_reducible assumption | with_reducible apply issueCmd_evolves | with_reducible apply failJob_evolves | (split)

theorem rebuildLost_evolves {s0 s : State} {p : Nat} {x : Nat × VolOp} (h : Evolves s0 s) : Evolves s0 (rebuildLost p s x) := by
  unfold rebuildLost
  repeat' first
    | intro _ | with_reducible assumption | with_reducible exact Evolves.refl _ | with_reducible apply startRebuild_evolves
    | with_reducible apply State.setVolOp_evolves | with_reducible apply evolves_ite | with_reducible apply evolves_foldl
    | with_reducible apply evolves_foldl_snd | with_reducible apply evolves_foldl_fst
    | with_reducible refine evolves_snd (by assumption) ?_ | with_reducible refine evolves_fst (by assumption) ?_
    | simp only [evolves_mk] | (split)

theorem portDown_evolves {s0 s : State} {p : Nat} (h : Evolves s0 s) : Evolves s0 (portDown s p) := by
  unfold portDown
  repeat' first
    | intro _ | with_reducible assumption | with_reducible exact Evolves.refl _ | with_reducible apply State.devEvent_evolves
    | with_reducible apply setFld_evolves | with_reducible apply keepCmds_evolves
    | with_reducible apply State.setDrive_evolves | with_reducible apply rebuildLost_evolves
    | with_reducible apply cmdLost_evolves | with_reducible apply evolves_ite | with_reducible apply evolves_foldl
    | with_reducible apply evolves_foldl_snd | with_reducible apply evolves_foldl_fst
    | with_reducible refine evolves_snd (by assumption) ?_ | with_reducible refine evolves_fst (by assumption) ?_
    | simp only [evolves_mk] | (split)

theorem driveComplete_evolves {s0 s : State} {port : Nat} {id : Nat} {res : DriveResult} (h : Evolves s0 s) : Evolves s0 (driveComplete s port id res) := by
  unfold driveComplete
  repeat' first
    | with_reducible assumption | with_reducible apply startTransfers_evolves | with_reducible apply dropCmd_evolves
    | with_reducible apply State.bwAdd_evolves | with_reducible apply State.count_evolves
    | with_reducible apply cmdDone_evolves | with_reducible apply transfer_evolves | with_reducible apply readFailed_evolves
    | with_reducible apply issueCmd_evolves | with_reducible apply portDown_evolves | simp only [evolves_mk] | (split)

theorem commandTimeout_evolves {s0 s : State} {port : Nat} {id : Nat} {retryOk : Bool} (h : Evolves s0 s) :
    Evolves s0 (commandTimeout s port id retryOk) := by
  unfold commandTimeout
  have h1 : Evolves s0 ((s.count ⟨0xA10, 1, none, none, none⟩).count ⟨0xA11, 1, none, none, none⟩) := State.count_evolves (State.count_evolves h)
  generalize (s.count ⟨0xA10, 1, none, none, none⟩).count ⟨0xA11, 1, none, none, none⟩ = t at h1 ⊢
  split
  · exact h
  · cases retryOk
    · simp only [Bool.false_eq_true, if_false]
      exact portDown_evolves h1
    · simp only [if_true]
      exact driveComplete_evolves h1

theorem createSpaces_evolves {s0 s : State} {j : Job} (h : Evolves s0 s) : Evolves s0 (createSpaces s j) := by
  unfold createSpaces
  repeat' first
    | intro _ | with_reducible assumption | with_reducible apply State.setDrive_evolves | with_reducible apply evolves_foldl

theorem volumeCreate_evolves {s0 s : State} {id : Nat} (h : Evolves s0 s) : Evolves s0 (volumeCreate s id) := by
  unfold volumeCreate
  repeat' first
    | with_reducible assumption | with_reducible apply finishJob_evolves | with_reducible apply okJob_evolves
    | with_reducible apply setVol_evolves | with_reducible apply createSpaces_evolves | with_reducible apply evolves_foldl
    | simp only [evolves_mk] | (split)

theorem clearProjs_evolves {s0 s : State} {v : Nat} (h : Evolves s0 s) : Evolves s0 (clearProjs s v) := by
  unfold clearProjs
  repeat' first
    | intro _ | with_reducible assumption | with_reducible apply setFlag_evolves | with_reducible apply evolves_foldl
    | simp only [evolves_mk]

theorem dropVolume_evolves {s0 s : State} {v : Nat} (h : Evolves s0 s) : Evolves s0 (dropVolume s v) := by
  unfold dropVolume
  repeat' first
    | intro _ | with_reducible assumption | with_reducible apply dropDirty_evolves | with_reducible apply clearProjs_evolves
    | with_reducible apply State.setDrive_evolves | with_reducible apply driveDrop_evolves
    | with_reducible apply keepCmds_evolves | with_reducible apply recordProgress_evolves
    | with_reducible apply State.setVolOp_evolves | with_reducible apply setVol_evolves | with_reducible apply evolves_ite
    | with_reducible apply evolves_foldl  | simp only [evolves_mk]

theorem volumeDelete_evolves {s0 s : State} {id : Nat} (h : Evolves s0 s) : Evolves s0 (volumeDelete s id) := by
  unfold volumeDelete
  repeat' first
    | with_reducible assumption | with_reducible apply truncate_evolves | with_reducible apply okJob_evolves
    | with_reducible apply dropVolume_evolves | with_reducible apply evolves_ite | with_reducible apply evolves_foldl
    | (split)

theorem phaseTwo_evolves {s0 s : State} {v : Nat} {e : VolEnt} (h : Evolves s0 s) : Evolves s0 (phaseTwo s v e) := by
  unfold phaseTwo
  repeat' first
    | with_reducible assumption | with_reducible apply setVol_evolves | with_reducible apply dropDirty_evolves
    | with_reducible apply keepCmds_evolves | with_reducible apply State.setVolOp_evolves
    | with_reducible apply issueUnit_evolves | with_reducible apply recordProgress_evolves | simp only [evolves_mk] | (split)

theorem formatOp_evolves {s0 s : State} {id : Nat} (h : Evolves s0 s) : Evolves s0 (formatOp s id) := by
  unfold formatOp
  repeat' first
    | with_reducible assumption | with_reducible apply phaseTwo_evolves | with_reducible apply State.setJob_evolves
    | simp only [evolves_mk] | (split)

theorem volumeOpDone_evolves {s0 s : State} {v : Nat} (h : Evolves s0 s) : Evolves s0 (volumeOpDone s v) := by
  unfold volumeOpDone
  repeat' first
    | with_reducible assumption | with_reducible apply State.devEvent_evolves | with_reducible apply opDone_evolves | (split)

theorem rebuildDone_evolves {s0 s : State} {v : Nat} (h : Evolves s0 s) : Evolves s0 (rebuildDone s v) := by
  unfold rebuildDone
  repeat' first
    | with_reducible assumption | with_reducible apply State.devEvent_evolves | with_reducible apply opDone_evolves | (split)

theorem setPort_evolves {s0 s : State} {p : Nat} {state : Nat} {reason : Nat} {speed : Nat} {width : Nat} (h : Evolves s0 s) : Evolves s0 (setPort s p state reason speed width) := by
  unfold setPort
  repeat' first
    | intro _ | with_reducible assumption | with_reducible exact Evolves.refl _ | with_reducible apply setFld_evolves
    | with_reducible apply evolves_ite  | with_reducible apply evolves_foldl | with_reducible apply evolves_foldl_snd
    | with_reducible apply evolves_foldl_fst | with_reducible refine evolves_snd (by assumption) ?_
    | with_reducible refine evolves_fst (by assumption) ?_ | simp only [evolves_mk] | (split)

theorem qualifyPort_evolves {s0 s : State} {p : Nat} (h : Evolves s0 s) : Evolves s0 (qualifyPort s p) := by
  unfold qualifyPort
  repeat' first
    | intro _ | with_reducible assumption | with_reducible exact Evolves.refl _ | with_reducible apply setPort_evolves
    | with_reducible apply State.setDrive_evolves | with_reducible apply evolves_ite | with_reducible apply evolves_foldl
    | with_reducible apply evolves_foldl_snd | with_reducible apply evolves_foldl_fst
    | with_reducible refine evolves_snd (by assumption) ?_ | with_reducible refine evolves_fst (by assumption) ?_
    | simp only [evolves_mk] | (split)

theorem remakeSpace_evolves {s0 s : State} {v : Nat} {e : VolEnt} {p : Nat} (h : Evolves s0 s) : Evolves s0 (remakeSpace s v e p) := by
  unfold remakeSpace
  repeat' first
    | intro _ | with_reducible assumption | with_reducible exact Evolves.refl _ | with_reducible apply State.setDrive_evolves
    | with_reducible apply driveDrop_evolves | with_reducible apply evolves_ite | with_reducible apply evolves_foldl
    | with_reducible apply evolves_foldl_snd | with_reducible apply evolves_foldl_fst
    | with_reducible refine evolves_snd (by assumption) ?_ | with_reducible refine evolves_fst (by assumption) ?_
    | simp only [evolves_mk] | (split)

theorem portReturns_evolves {s0 s : State} {p : Nat} {x : Nat × VolEnt} (h : Evolves s0 s) : Evolves s0 (portReturns p s x) := by
  unfold portReturns
  repeat' first
    | intro _ | with_reducible assumption | with_reducible exact Evolves.refl _ | with_reducible apply issueUnit_evolves
    | with_reducible apply remakeSpace_evolves | with_reducible apply startRebuild_evolves
    | with_reducible apply State.setVolOp_evolves | with_reducible apply evolves_ite | with_reducible apply evolves_foldl
    | with_reducible apply evolves_foldl_snd | with_reducible apply evolves_foldl_fst
    | with_reducible refine evolves_snd (by assumption) ?_ | with_reducible refine evolves_fst (by assumption) ?_
    | simp only [evolves_mk] | (split)

theorem portAttach_evolves {s0 s : State} {p : Nat} (h : Evolves s0 s) : Evolves s0 (portAttach s p) := by
  unfold portAttach
  repeat' first
    | intro _ | with_reducible assumption | with_reducible apply qualifyPort_evolves | with_reducible apply tableCopy_evolves
    | with_reducible apply portReturns_evolves | with_reducible apply evolves_ite | with_reducible apply evolves_foldl

theorem drivePort_evolves {s0 s : State} {p : Nat} {low : Bool} (h : Evolves s0 s) : Evolves s0 (drivePort s p low) := by
  unfold drivePort
  repeat' first
    | with_reducible assumption | with_reducible apply evolves_ite | simp only [evolves_mk]

theorem portCtlWrite_evolves {s0 s : State} {p : Nat} {value : Nat} (h : Evolves s0 s) : Evolves s0 (portCtlWrite s p value) := by
  unfold portCtlWrite
  repeat' first
    | with_reducible assumption | with_reducible apply setFld_evolves | with_reducible apply drivePort_evolves
    | with_reducible apply portDown_evolves | with_reducible apply portAttach_evolves | with_reducible apply evolves_ite

end Sys2Proof.Machine
end

