-- ==== Sys2Proof/Laws/EvKeys.lean ====
section
/-! SUPPORT. The functions of Machine/Keys.lean only evolve the state (Safety.lean, Evolves). -/

namespace Sys2Proof.Machine

theorem State.setSlot_evolves {s0 s : State} {n : Nat} {k : KeySlot} (h : Evolves s0 s) : Evolves s0 (State.setSlot s n k) := by
  unfold State.setSlot
  repeat' first
    | with_reducible assumption | with_reducible apply evolves_ite | simp only [evolves_mk]

theorem randomBytes_evolves {s0 s : State} {a1 : Nat} (h : Evolves s0 s) : Evolves s0 (randomBytes s a1).2 := by
  induction a1 generalizing s with
  | zero =>
    unfold randomBytes
    repeat' first
      | intro _ | with_reducible assumption | with_reducible apply drawEntropy_evolves
  | succ n ih =>
    unfold randomBytes
    repeat' first
      | intro _ | with_reducible apply ih | with_reducible assumption | with_reducible apply drawEntropy_evolves

theorem writeKeyRec_evolves {s0 s : State} {n : Nat} {k : KeySlot} (h : Evolves s0 s) : Evolves s0 (writeKeyRec s n k) := by
  unfold writeKeyRec
  repeat' first
    | with_reducible assumption | with_reducible apply mpdWrite_evolves

theorem zeroKeyData_evolves {s0 s : State} (h : Evolves s0 s) : Evolves s0 (zeroKeyData s) := by
  unfold zeroKeyData
  repeat' first
    | intro _ | with_reducible assumption | with_reducible apply setReg_evolves | with_reducible apply evolves_foldl

theorem keyRefused_evolves {s0 s : State} (h : Evolves s0 s) : Evolves s0 (keyRefused s) := by
  unfold keyRefused
  repeat' first
    | with_reducible assumption | with_reducible apply zeroKeyData_evolves | with_reducible apply setFlag_evolves

theorem keyStart_evolves {s0 s : State} {n : Nat} {k : KeySlot} {new : Bool} (h : Evolves s0 s) : Evolves s0 (keyStart s n k new) := by
  unfold keyStart
  repeat' first
    | with_reducible assumption | with_reducible apply setFlag_evolves | simp only [evolves_mk]

theorem keyReplaced_evolves {s0 s : State} {n : Nat} (h : Evolves s0 s) : Evolves s0 (keyReplaced s n) := by
  unfold keyReplaced
  repeat' first
    | intro _ | with_reducible assumption | with_reducible exact Evolves.refl _ | with_reducible apply evolves_ite
    | with_reducible apply evolves_foldl  | with_reducible apply evolves_foldl_snd | with_reducible apply evolves_foldl_fst
    | with_reducible refine evolves_snd (by assumption) ?_ | with_reducible refine evolves_fst (by assumption) ?_
    | simp only [evolves_mk] | (split)

theorem keyGenerate_evolves {s0 s : State} (h : Evolves s0 s) : Evolves s0 (keyGenerate s) := by
  unfold keyGenerate
  repeat' first
    | with_reducible assumption | with_reducible apply keyRefused_evolves | with_reducible apply randomBytes_evolves
    | with_reducible apply keyStart_evolves | with_reducible apply evolves_ite

theorem keyImport_evolves {s0 s : State} (h : Evolves s0 s) : Evolves s0 (keyImport s) := by
  unfold keyImport
  repeat' first
    | with_reducible assumption | with_reducible apply keyRefused_evolves | with_reducible apply keyStart_evolves
    | with_reducible apply evolves_ite 

theorem keyClear_evolves {s0 s : State} (h : Evolves s0 s) : Evolves s0 (keyClear s) := by
  unfold keyClear
  repeat' first
    | with_reducible assumption | with_reducible apply keyRefused_evolves | with_reducible apply keyStart_evolves
    | with_reducible apply evolves_ite 

theorem keyGrant_evolves {s0 s : State} (h : Evolves s0 s) : Evolves s0 (keyGrant s) := by
  unfold keyGrant
  repeat' first
    | with_reducible assumption | with_reducible apply keyRefused_evolves | with_reducible apply keyStart_evolves
    | with_reducible apply evolves_ite 

theorem keyCtlWrite_evolves {s0 s : State} {value : Nat} (h : Evolves s0 s) : Evolves s0 (keyCtlWrite s value) := by
  unfold keyCtlWrite
  repeat' first
    | with_reducible assumption | with_reducible apply setFlag_evolves | with_reducible apply setFld_evolves
    | with_reducible apply keyGenerate_evolves | with_reducible apply keyImport_evolves
    | with_reducible apply keyClear_evolves | with_reducible apply keyGrant_evolves | with_reducible apply keyRefused_evolves
    | (split)

theorem keyOpDone_evolves {s0 s : State} (h : Evolves s0 s) : Evolves s0 (keyOpDone s) := by
  unfold keyOpDone
  repeat' first
    | with_reducible assumption | with_reducible apply State.setSlot_evolves | with_reducible apply writeKeyRec_evolves
    | with_reducible apply keyReplaced_evolves | with_reducible apply zeroKeyData_evolves
    | with_reducible apply setFlag_evolves | with_reducible apply evolves_ite | simp only [evolves_mk] | (split)

theorem loadKeys_evolves {s0 s : State} (h : Evolves s0 s) : Evolves s0 (loadKeys s).2 := by
  unfold loadKeys
  repeat' first
    | intro _ | with_reducible assumption | with_reducible apply State.setSlot_evolves | with_reducible apply evolves_foldl
    | simp only [evolves_mk] | (split)

theorem freshKey_evolves {s0 s : State} {n : Nat} (h : Evolves s0 s) : Evolves s0 (freshKey s n) := by
  unfold freshKey
  repeat' first
    | with_reducible assumption | with_reducible apply randomBytes_evolves | with_reducible apply writeKeyRec_evolves
    | with_reducible apply State.setSlot_evolves

theorem sanitiseOp_evolves {s0 s : State} {id : Nat} (h : Evolves s0 s) : Evolves s0 (sanitiseOp s id) := by
  unfold sanitiseOp
  repeat' first
    | with_reducible assumption | with_reducible apply phaseTwo_evolves | with_reducible apply freshKey_evolves
    | with_reducible apply State.setJob_evolves | with_reducible apply evolves_ite | simp only [evolves_mk] | (split)

end Sys2Proof.Machine
end

