-- ==== Sys2Proof/Laws/EvBrake.lean ====
section
/-! SUPPORT. The functions of Machine/Brake.lean only evolve the state (Safety.lean, Evolves). -/

namespace Sys2Proof.Machine

theorem keyHeader_evolves {s0 s : State} {erased : Bool} {erases : Nat} {restores : Nat} (h : Evolves s0 s) : Evolves s0 (keyHeader s erased erases restores) := by
  unfold keyHeader
  repeat' first
    | with_reducible assumption | with_reducible apply mpdWrite_evolves

theorem consumeChallenge_evolves {s0 s : State} (h : Evolves s0 s) : Evolves s0 (consumeChallenge s) := by
  unfold consumeChallenge
  repeat' first
    | with_reducible assumption | with_reducible apply mpdWrite_evolves

theorem eraseCtx_evolves {s0 s : State} {x : Nat × Option TollCtx} (h : Evolves s0 s) : Evolves s0 (eraseCtx s x) := by
  unfold eraseCtx
  repeat' first
    | with_reducible assumption | with_reducible apply State.setCtx_evolves | with_reducible apply failJob_evolves | (split)

theorem eraseKeys_evolves {s0 s : State} (h : Evolves s0 s) : Evolves s0 (eraseKeys s) := by
  unfold eraseKeys
  repeat' first
    | with_reducible assumption | with_reducible apply keyRefused_evolves | with_reducible apply setFlag_evolves
    | with_reducible apply eraseCtx_evolves | with_reducible apply keyHeader_evolves
    | with_reducible apply State.devEvent_evolves | with_reducible apply evolves_ite | with_reducible apply evolves_foldl
    | simp only [evolves_mk]

theorem abandonRestore_evolves {s0 s : State} (h : Evolves s0 s) : Evolves s0 (abandonRestore s) := by
  unfold abandonRestore
  repeat' first
    | with_reducible assumption | with_reducible apply consumeChallenge_evolves | with_reducible apply setFlag_evolves
    | (split)

theorem brakeLog_evolves {s0 s : State} {mask : Nat} {strongest : Nat} (h : Evolves s0 s) : Evolves s0 (brakeLog s mask strongest) := by
  unfold brakeLog
  repeat' first
    | with_reducible assumption | with_reducible apply setReg_evolves | (split)

theorem brakeApply_evolves {s0 s : State} {sensors : Nat} (h : Evolves s0 s) : Evolves s0 (brakeApply s sensors).2 := by
  unfold brakeApply
  repeat' first
    | with_reducible assumption | with_reducible apply abandonRestore_evolves | with_reducible apply setFld_evolves
    | with_reducible apply State.devEvent_evolves | with_reducible apply brakeLog_evolves
    | with_reducible apply eraseKeys_evolves | simp only [evolves_mk] | (split)

theorem brkRespWrite_evolves {s0 s : State} {value : Nat} (h : Evolves s0 s) : Evolves s0 (brkRespWrite s value) := by
  unfold brkRespWrite
  repeat' first
    | intro _ | with_reducible assumption | with_reducible apply setFld_evolves | with_reducible apply setFlag_evolves
    | with_reducible apply evolves_ite  | with_reducible apply evolves_foldl

theorem restoreChallenge_evolves {s0 s : State} (h : Evolves s0 s) : Evolves s0 (restoreChallenge s) := by
  unfold restoreChallenge
  repeat' first
    | with_reducible assumption | with_reducible apply setFlag_evolves | with_reducible apply randomBytes_evolves
    | with_reducible apply setFld_evolves | with_reducible apply mpdWrite_evolves | simp only [evolves_mk] | (split)

theorem restoreData_evolves {s0 s : State} {value : Nat} (h : Evolves s0 s) : Evolves s0 (restoreData s value) := by
  unfold restoreData
  repeat' first
    | with_reducible assumption | with_reducible apply setFld_evolves | simp only [evolves_mk] | (split)

theorem restoreVerify_evolves {s0 s : State} (h : Evolves s0 s) : Evolves s0 (restoreVerify s) := by
  unfold restoreVerify
  repeat' first
    | with_reducible assumption | with_reducible apply setFlag_evolves | (split)

theorem restoreCtlWrite_evolves {s0 s : State} {value : Nat} (h : Evolves s0 s) : Evolves s0 (restoreCtlWrite s value) := by
  unfold restoreCtlWrite
  repeat' first
    | with_reducible assumption | with_reducible apply setFlag_evolves | with_reducible apply restoreChallenge_evolves
    | with_reducible apply restoreVerify_evolves | (split)

theorem unwrapAll_evolves {s0 s : State} (h : Evolves s0 s) : Evolves s0 (unwrapAll s).2.2 := by
  unfold unwrapAll
  have g : ∀ (l : List Nat) (acc : Nat × Nat × State), Evolves s0 acc.2.2 →
      Evolves s0 (l.foldl (fun acc n =>
        match readKeyRec s n with
        | some k => if k.usage = 0 then acc else (acc.1 + 1, acc.2.1, acc.2.2.setSlot n k)
        | none => (acc.1, acc.2.1 + 1, acc.2.2)) acc).2.2 := by
    intro l
    induction l with
    | nil => exact fun _ x => x
    | cons n l ih =>
      intro acc x
      apply ih
      dsimp only
      split
      · split
        · exact x
        · exact State.setSlot_evolves x
      · exact x
  exact g _ _ h

theorem keysRestored_evolves {s0 s : State} (h : Evolves s0 s) : Evolves s0 (keysRestored s) := by
  unfold keysRestored
  repeat' first
    | with_reducible assumption | with_reducible apply setFlag_evolves | with_reducible apply unwrapAll_evolves
    | with_reducible apply keyHeader_evolves | with_reducible apply consumeChallenge_evolves
    | with_reducible apply State.devEvent_evolves | with_reducible apply setFld_evolves | with_reducible apply evolves_ite

end Sys2Proof.Machine
end

