-- ==== Sys2Proof/Laws/EvOtp.lean ====
section
/-! SUPPORT. The functions of Machine/Otp.lean only evolve the state (Safety.lean, Evolves). -/

namespace Sys2Proof.Machine

theorem loadProfile_evolves {s0 s : State} (h : Evolves s0 s) : Evolves s0 (loadProfile s) := by
  unfold loadProfile
  repeat' first
    | with_reducible assumption | with_reducible apply setReg_evolves | with_reducible apply setFld_evolves

theorem loadLock_evolves {s0 s : State} (h : Evolves s0 s) : Evolves s0 (loadLock s) := by
  unfold loadLock
  repeat' first
    | with_reducible assumption | with_reducible apply setFlag_evolves | (split)

theorem loadResponses_evolves {s0 s : State} (h : Evolves s0 s) : Evolves s0 (loadResponses s) := by
  unfold loadResponses
  repeat' first
    | with_reducible assumption | with_reducible apply setReg_evolves

theorem otpLoad_evolves {s0 s : State} (h : Evolves s0 s) : Evolves s0 (otpLoad s) := by
  unfold otpLoad
  repeat' first
    | with_reducible assumption | with_reducible apply loadProfile_evolves | with_reducible apply setFld_evolves
    | simp only [evolves_mk]

theorem otpResult_evolves {s0 s : State} {g : Nat} {k : Nat} {code : Nat} (h : Evolves s0 s) : Evolves s0 (otpResult s g k code) := by
  unfold otpResult
  repeat' first
    | with_reducible assumption | with_reducible apply setFld_evolves | with_reducible apply State.devEvent_evolves
    | with_reducible apply evolves_ite 

theorem otpStart_evolves {s0 s : State} {g : Nat} (h : Evolves s0 s) : Evolves s0 (otpStart s g) := by
  unfold otpStart
  dsimp only
  split
  · exact otpResult_evolves (setFld_evolves h)
  · split
    · exact otpResult_evolves (setFld_evolves h)
    · split
      · exact otpResult_evolves (setFld_evolves h)
      · rename_i n hn
        refine h.trans ((setFlag_evolves (setFld_evolves (Evolves.refl s))).trans
          ⟨rfl, Nat.le_refl _, id, List.prefix_rfl, fun _ x => ⟨?_, fun _ _ => rfl⟩, id⟩)
        intro o ho
        cases ho
        have hz := List.find?_some hn
        simp only [Bool.and_eq_true, beq_iff_eq] at hz
        exact hz.2

theorem otpCtlWrite_evolves {s0 s : State} {value : Nat} (h : Evolves s0 s) : Evolves s0 (otpCtlWrite s value) := by
  unfold otpCtlWrite
  repeat' first
    | with_reducible assumption | with_reducible apply setFld_evolves | with_reducible apply otpStart_evolves
    | with_reducible apply evolves_ite 

theorem otpSettle_evolves {s0 s : State} {o : OtpOp} {lost : Nat} (ho : s.otpOp = some o) (h : Evolves s0 s) :
    Evolves s0 (otpSettle s o lost) := by
  refine h.trans ⟨rfl, Nat.le_refl _, fun g => ⟨g.1, g.2.1, g.2.2.1, twf_tset _ _ g.2.2.2⟩, List.prefix_rfl, ?_, id⟩
  intro c g
  refine ⟨fun x hx => (by cases hx), fun k hk => ?_⟩
  have hne : k ≠ o.group * 4 + o.gen := fun e => hk (e ▸ g o ho)
  exact tget_tset_other (lo := 0) c.2.2.2 hne

theorem otpProgrammed_evolves {s0 s : State} {lost : Nat} (h : Evolves s0 s) : Evolves s0 (otpProgrammed s lost) := by
  unfold otpProgrammed
  split
  · exact h
  · rename_i o ho
    exact otpResult_evolves (setFlag_evolves (otpSettle_evolves ho h))

theorem otpCut_evolves {s0 s : State} (h : Evolves s0 s) : Evolves s0 (otpCut s) := by
  unfold otpCut
  split
  · exact h
  · rename_i o ho
    exact otpSettle_evolves (s := s.drawFree.2) ho (drawFree_evolves h)

end Sys2Proof.Machine
end

