-- ==== Sys2Proof/Laws/EvMergeUnit.lean ====
section
/-! SUPPORT. The functions of Machine/MergeUnit.lean only evolve the state (Safety.lean, Evolves). -/

namespace Sys2Proof.Machine

theorem openMerge_evolves {c : Ctx} : (openMerge c : Op (Option MergeCtx)).evolves := by
  unfold openMerge
  repeat' first
    | intro _ | with_reducible apply Bnd.read_evolves | with_reducible apply bind_evolves | with_reducible apply pure_evolves
    | with_reducible apply throw_evolves | simp only [evolves_mk] | (split)

theorem writeRun_evolves {c : Ctx} {m : MergeCtx} {es : List Elem} {nulls : Nat} : (writeRun c m es nulls : Op Unit).evolves := by
  unfold writeRun
  repeat' first
    | intro _ | with_reducible apply Bnd.write_evolves | with_reducible apply bind_evolves
    | with_reducible apply pure_evolves | with_reducible apply throw_evolves | with_reducible apply forIn_evolves
    | simp only [evolves_mk] | (split)

theorem sortRun_evolves {c : Ctx} {m : MergeCtx} : (sortRun c m : Op Unit).evolves := by
  unfold sortRun
  repeat' first
    | intro _ | with_reducible assumption | with_reducible exact Evolves.refl _ | with_reducible apply freeBytes_evolves
    | with_reducible apply State.countReq_evolves | with_reducible apply writeRun_evolves
    | with_reducible apply Bnd.write_evolves | with_reducible apply bind_evolves | with_reducible apply pure_evolves
    | with_reducible apply get_evolves | with_reducible apply upd_evolves | with_reducible apply throw_evolves
    | with_reducible apply ite_op_evolves | with_reducible apply modifyGet_evolves | with_reducible apply ask_evolves
    | with_reducible apply attempt_evolves | with_reducible apply mapM_evolves | with_reducible apply forM_evolves
    | with_reducible apply forIn_evolves | with_reducible apply foldlM_evolves | with_reducible apply evolves_ite
    | with_reducible apply evolves_foldl  | with_reducible apply evolves_foldl_snd | with_reducible apply evolves_foldl_fst
    | with_reducible refine evolves_snd (by assumption) ?_ | with_reducible refine evolves_fst (by assumption) ?_
    | with_reducible refine evolves_exec (by assumption) ?_ ?_ | with_reducible refine evolves_ok (by assumption) ?_ ?_
    | with_reducible refine evolves_error (by assumption) ?_ ?_ | simp only [evolves_mk] | (split)

theorem mergeFail_evolves {α : Type} {c : Ctx} {off : Nat} : (mergeFail c off : Op α).evolves := by
  unfold mergeFail
  repeat' first
    | with_reducible apply throw_evolves

theorem openRun_evolves {c : Ctx} {sva : Nat} : (openRun c sva : Op RunSlot).evolves := by
  unfold openRun
  repeat' first
    | intro _ | with_reducible apply readMem_evolves | with_reducible apply mergeFail_evolves
    | with_reducible apply bind_evolves | with_reducible apply pure_evolves | simp only [evolves_mk] | (split)

theorem runVal_evolves {c : Ctx} {r : RunSlot} {off : Nat} {t : Tag} {i : Nat} : (runVal c r off t i : Op Nat).evolves := by
  unfold runVal
  repeat' first
    | intro _ | with_reducible apply readNum_evolves | with_reducible apply bind_evolves | with_reducible apply pure_evolves
    | (split)

theorem runOk_evolves {c : Ctx} {r : RunSlot} {off : Nat} {t : Tag} {i : Nat} : (runOk c r off t i : Op Bool).evolves := by
  unfold runOk
  repeat' first
    | intro _ | with_reducible apply readNum_evolves | with_reducible apply bind_evolves | with_reducible apply pure_evolves

theorem runElem_evolves {c : Ctx} {r : RunSlot} {i : Nat} : (runElem c r i : Op Elem).evolves := by
  unfold runElem
  repeat' first
    | intro _ | with_reducible apply runVal_evolves | with_reducible apply runOk_evolves | with_reducible apply bind_evolves
    | with_reducible apply pure_evolves | (split)

theorem combineRuns_evolves {c : Ctx} {m : MergeCtx} : (combineRuns c m : Op Unit).evolves := by
  unfold combineRuns
  repeat' first
    | intro _ | with_reducible assumption | with_reducible exact Evolves.refl _ | with_reducible apply readMem_evolves
    | with_reducible apply openRun_evolves | with_reducible apply mergeFail_evolves | with_reducible apply runElem_evolves
    | with_reducible apply State.countReq_evolves | with_reducible apply writeRun_evolves | with_reducible apply bind_evolves
    | with_reducible apply pure_evolves | with_reducible apply get_evolves | with_reducible apply upd_evolves
    | with_reducible apply throw_evolves | with_reducible apply ite_op_evolves | with_reducible apply modifyGet_evolves
    | with_reducible apply ask_evolves | with_reducible apply attempt_evolves | with_reducible apply mapM_evolves
    | with_reducible apply forM_evolves | with_reducible apply forIn_evolves | with_reducible apply foldlM_evolves
    | with_reducible apply evolves_ite  | with_reducible apply evolves_foldl | with_reducible apply evolves_foldl_snd
    | with_reducible apply evolves_foldl_fst | with_reducible refine evolves_snd (by assumption) ?_
    | with_reducible refine evolves_fst (by assumption) ?_ | with_reducible refine evolves_exec (by assumption) ?_ ?_
    | with_reducible refine evolves_ok (by assumption) ?_ ?_ | with_reducible refine evolves_error (by assumption) ?_ ?_
    | simp only [evolves_mk] | (split)

theorem readImage_evolves {c : Ctx} {u : Upd} {off : Nat} : (readImage c u off : Op (Option (List Byte))).evolves := by
  unfold readImage
  repeat' first
    | intro _ | with_reducible apply readMem_evolves | with_reducible apply bind_evolves | with_reducible apply pure_evolves
    | simp only [evolves_mk] | (split)

theorem recKey_evolves {c : Ctx} {u : Upd} {rec_ : List Byte} {ord : Nat} : (recKey c u rec_ ord : Op (Option Int)).evolves := by
  unfold recKey
  repeat' first
    | with_reducible apply pure_evolves | with_reducible apply throw_evolves | (split)

theorem readTarget_evolves {c : Ctx} {u : Upd} {e : Elem} {fno : Nat} {ord : Nat} {rec_ : List Byte} : (readTarget c u e fno ord rec_ : Op Unit).evolves := by
  unfold readTarget
  repeat' first
    | intro _ | with_reducible assumption | with_reducible exact Evolves.refl _ | with_reducible apply bind_evolves
    | with_reducible apply pure_evolves | with_reducible apply get_evolves | with_reducible apply upd_evolves
    | with_reducible apply throw_evolves | with_reducible apply ite_op_evolves | with_reducible apply modifyGet_evolves
    | with_reducible apply ask_evolves | with_reducible apply attempt_evolves | with_reducible apply mapM_evolves
    | with_reducible apply forM_evolves | with_reducible apply forIn_evolves | with_reducible apply foldlM_evolves
    | with_reducible apply evolves_ite  | with_reducible apply evolves_foldl | with_reducible apply evolves_foldl_snd
    | with_reducible apply evolves_foldl_fst | with_reducible refine evolves_snd (by assumption) ?_
    | with_reducible refine evolves_fst (by assumption) ?_ | with_reducible refine evolves_exec (by assumption) ?_ ?_
    | with_reducible refine evolves_ok (by assumption) ?_ ?_ | with_reducible refine evolves_error (by assumption) ?_ ?_
    | simp only [evolves_mk] | (split)

theorem countPost_evolves {c : Ctx} {u : Upd} {e : Elem} {set : Bool} {fno : Nat} {rec_ : List Byte} : (countPost c u e set fno rec_ : Op Unit).evolves := by
  unfold countPost
  repeat' first
    | intro _ | with_reducible apply Ctx.countDec_evolves | with_reducible apply bind_evolves
    | with_reducible apply pure_evolves | with_reducible apply evolves_ite | (split)

theorem actOn_evolves {c : Ctx} {u : Upd} {key : Int} {ord : Nat} {e : Elem} {cur : Option (List Byte)} : (actOn c u key ord e cur : Op (Except Excn (Option (List Byte)))).evolves := by
  unfold actOn
  repeat' first
    | intro _ | with_reducible assumption | with_reducible exact Evolves.refl _ | with_reducible apply readTarget_evolves
    | with_reducible apply countPost_evolves | with_reducible apply readImage_evolves | with_reducible apply recKey_evolves
    | with_reducible apply bind_evolves | with_reducible apply pure_evolves | with_reducible apply get_evolves
    | with_reducible apply upd_evolves | with_reducible apply throw_evolves | with_reducible apply ite_op_evolves
    | with_reducible apply modifyGet_evolves | with_reducible apply ask_evolves | with_reducible apply attempt_evolves
    | with_reducible apply mapM_evolves | with_reducible apply forM_evolves | with_reducible apply forIn_evolves
    | with_reducible apply foldlM_evolves | with_reducible apply evolves_ite | with_reducible apply evolves_foldl
    | with_reducible apply evolves_foldl_snd | with_reducible apply evolves_foldl_fst
    | with_reducible refine evolves_snd (by assumption) ?_ | with_reducible refine evolves_fst (by assumption) ?_
    | with_reducible refine evolves_exec (by assumption) ?_ ?_ | with_reducible refine evolves_ok (by assumption) ?_ ?_
    | with_reducible refine evolves_error (by assumption) ?_ ?_ | simp only [evolves_mk] | (split)

theorem writeMaster_evolves {c : Ctx} {u : Upd} {n : Nat} {rec_ : List Byte} : (writeMaster c u n rec_ : Op Unit).evolves := by
  unfold writeMaster
  repeat' first
    | intro _ | with_reducible apply Bnd.write_evolves | with_reducible apply bind_evolves
    | with_reducible apply throw_evolves | with_reducible apply evolves_ite | simp only [evolves_mk] | (split)

theorem fillSlack_evolves {c : Ctx} {u : Upd} {n : Nat} : (fillSlack c u n : Op Unit).evolves := by
  unfold fillSlack
  repeat' first
    | intro _ | with_reducible assumption | with_reducible exact Evolves.refl _ | with_reducible apply Bnd.write_evolves
    | with_reducible apply bind_evolves | with_reducible apply pure_evolves | with_reducible apply get_evolves
    | with_reducible apply upd_evolves | with_reducible apply throw_evolves | with_reducible apply ite_op_evolves
    | with_reducible apply modifyGet_evolves | with_reducible apply ask_evolves | with_reducible apply attempt_evolves
    | with_reducible apply mapM_evolves | with_reducible apply forM_evolves | with_reducible apply forIn_evolves
    | with_reducible apply foldlM_evolves | with_reducible apply evolves_ite | with_reducible apply evolves_foldl
    | with_reducible apply evolves_foldl_snd | with_reducible apply evolves_foldl_fst
    | with_reducible refine evolves_snd (by assumption) ?_ | with_reducible refine evolves_fst (by assumption) ?_
    | with_reducible refine evolves_exec (by assumption) ?_ ?_ | with_reducible refine evolves_ok (by assumption) ?_ ?_
    | with_reducible refine evolves_error (by assumption) ?_ ?_ | simp only [evolves_mk] | (split)

theorem writeExc_evolves {c : Ctx} {u : Upd} {n : Nat} {key : Int} {e : Elem} {reason : Excn} {ord : Nat} : (writeExc c u n key e reason ord : Op Unit).evolves := by
  unfold writeExc
  repeat' first
    | intro _ | with_reducible apply Bnd.write_evolves | with_reducible apply bind_evolves
    | with_reducible apply throw_evolves | with_reducible apply evolves_ite | simp only [evolves_mk] | (split)

theorem actGroup_evolves {c : Ctx} {u : Upd} {key : Int} {ord : Nat} {a4 : List (Nat × Elem)} {a5 : Option (List Byte)} : (actGroup c u key ord a4 a5 : Op (List (Option Excn) × Option (List Byte))).evolves := by
  induction a4 generalizing a5 with
  | nil =>
    unfold actGroup
    repeat' first
      | intro _ | with_reducible apply actOn_evolves | with_reducible apply bind_evolves | with_reducible apply pure_evolves
      | with_reducible apply throw_evolves | simp only [evolves_mk] | (split)
  | cons x l ih =>
    unfold actGroup
    repeat' first
      | intro _ | with_reducible apply ih | with_reducible apply actOn_evolves | with_reducible apply bind_evolves | with_reducible apply pure_evolves
      | with_reducible apply throw_evolves | simp only [evolves_mk] | (split)

theorem applyGroup_evolves {c : Ctx} {u : Upd} {a : UpdAcc} {key : Int} {g : List (Nat × Elem)} {rec_ : Option (List Byte)} {ord : Nat} : (applyGroup c u a key g rec_ ord : Op UpdAcc).evolves := by
  unfold applyGroup
  repeat' first
    | intro _ | with_reducible exact Evolves.refl _ | with_reducible apply actGroup_evolves
    | with_reducible apply writeMaster_evolves | with_reducible apply writeExc_evolves
    | with_reducible apply State.countReq_evolves | with_reducible apply bind_evolves | with_reducible apply pure_evolves
    | with_reducible apply upd_evolves | with_reducible apply forIn_evolves | with_reducible apply evolves_ite
    | simp only [evolves_mk] | (split)

theorem lowerBound_evolves {c : Ctx} {r : RunSlot} {k : Int} {a3 : Nat} {a4 : Nat} {a5 : Nat} : (lowerBound c r k a3 a4 a5 : Op Nat).evolves := by
  induction a3 generalizing a4 a5 with
  | zero =>
    unfold lowerBound
    repeat' first
      | intro _ | with_reducible apply runVal_evolves | with_reducible apply bind_evolves | with_reducible apply pure_evolves
      | (split)
  | succ n ih =>
    unfold lowerBound
    repeat' first
      | intro _ | with_reducible apply ih | with_reducible apply runVal_evolves | with_reducible apply bind_evolves | with_reducible apply pure_evolves
      | (split)

theorem takeBelow_evolves {c : Ctx} {r : RunSlot} {k : Int} {a3 : Nat} {a4 : Nat} : (takeBelow c r k a3 a4 : Op (List (Nat × Elem))).evolves := by
  induction a3 generalizing a4 with
  | zero =>
    unfold takeBelow
    repeat' first
      | intro _ | with_reducible apply runElem_evolves | with_reducible apply bind_evolves | with_reducible apply pure_evolves
      | (split)
  | succ n ih =>
    unfold takeBelow
    repeat' first
      | intro _ | with_reducible apply ih | with_reducible apply runElem_evolves | with_reducible apply bind_evolves | with_reducible apply pure_evolves
      | (split)

theorem applyBelow_evolves {c : Ctx} {u : Upd} {k : Int} {a3 : List (Int × List (Nat × Elem))} {a4 : UpdAcc} : (applyBelow c u k a3 a4 : Op (UpdAcc × List (Int × List (Nat × Elem)))).evolves := by
  induction a3 generalizing a4 with
  | nil =>
    unfold applyBelow
    repeat' first
      | with_reducible assumption | with_reducible apply applyGroup_evolves | with_reducible apply bind_evolves
      | with_reducible apply pure_evolves | with_reducible apply evolves_ite | (split)
  | cons x l ih =>
    unfold applyBelow
    repeat' first
      | with_reducible assumption | with_reducible apply applyGroup_evolves | with_reducible apply bind_evolves
      | with_reducible apply pure_evolves | with_reducible apply evolves_ite | (split)

theorem updMasters_evolves {c : Ctx} {u : Upd} {base : Nat} {lo : Int} {hi : Int} {a5 : Nat} {a6 : Nat} {a7 : Option Int} {a8 : List (Int × List (Nat × Elem))} {a9 : UpdAcc} : (updMasters c u base lo hi a5 a6 a7 a8 a9 : Op (UpdAcc × List (Int × List (Nat × Elem)))).evolves := by
  induction a5 generalizing a6 a7 a8 a9 with
  | zero =>
    unfold updMasters
    repeat' first
      | intro _ | with_reducible apply readMem_evolves | with_reducible apply recKey_evolves
      | with_reducible apply applyBelow_evolves | with_reducible apply applyGroup_evolves
      | with_reducible apply Ctx.fault_evolves | with_reducible apply bind_evolves | with_reducible apply pure_evolves
      | with_reducible apply throw_evolves | with_reducible apply evolves_ite | simp only [evolves_mk] | (split)
  | succ n ih =>
    unfold updMasters
    repeat' first
      | intro _ | with_reducible apply ih | with_reducible apply readMem_evolves | with_reducible apply recKey_evolves
      | with_reducible apply applyBelow_evolves | with_reducible apply applyGroup_evolves
      | with_reducible apply Ctx.fault_evolves | with_reducible apply bind_evolves | with_reducible apply pure_evolves
      | with_reducible apply throw_evolves | with_reducible apply evolves_ite | simp only [evolves_mk] | (split)

theorem mergeUpdate_evolves {c : Ctx} {m : MergeCtx} : (mergeUpdate c m : Op Unit).evolves := by
  unfold mergeUpdate
  repeat' first
    | intro _ | with_reducible apply readMem_evolves | with_reducible apply mergeFail_evolves
    | with_reducible apply openRun_evolves | with_reducible apply lowerBound_evolves | with_reducible apply takeBelow_evolves
    | with_reducible apply updMasters_evolves | with_reducible apply applyBelow_evolves
    | with_reducible apply fillSlack_evolves | with_reducible apply Bnd.write_evolves | with_reducible apply bind_evolves
    | with_reducible apply pure_evolves | simp only [evolves_mk] | (split)

end Sys2Proof.Machine
end

