-- ==== Sys2Proof/Laws/EvStoneSeq.lean ====
section
/-! SUPPORT. The functions of Machine/StoneSeq.lean only evolve the state (Safety.lean, Evolves). -/

namespace Sys2Proof.Machine

theorem issue_evolves {op : Nat} {c : Ctx} {f : Insn} : (issue op c f : Op Unit).evolves := by
  unfold issue
  repeat' first
    | with_reducible apply opMovs_evolves | with_reducible apply opSalu_evolves | with_reducible apply opDcol_evolves
    | with_reducible apply opDrec_evolves | with_reducible apply opDrowid_evolves | with_reducible apply opCmp_evolves
    | with_reducible apply opTcmp_evolves | with_reducible apply opInset_evolves | with_reducible apply opIsnull_evolves
    | with_reducible apply opLogic_evolves | with_reducible apply opMnot_evolves | with_reducible apply opSel_evolves
    | with_reducible apply opUnary_evolves | with_reducible apply opMov_evolves | with_reducible apply opCsel_evolves
    | with_reducible apply opCoalesce_evolves | with_reducible apply opDpart_evolves | with_reducible apply opDadd_evolves
    | with_reducible apply opHashk_evolves | with_reducible apply opBuild_evolves | with_reducible apply opProbe_evolves
    | with_reducible apply opPart_evolves | with_reducible apply opAgg_evolves | with_reducible apply opGagg_evolves
    | with_reducible apply opAfin_evolves | with_reducible apply opStcol_evolves | with_reducible apply opStrec_evolves
    | with_reducible apply opStscl_evolves | with_reducible apply opMerge_evolves | with_reducible apply opTappend_evolves
    | with_reducible apply opArith_evolves | with_reducible apply pure_evolves | with_reducible apply evolves_ite | (split)

theorem recordStnFault_evolves {s0 s : State} {c : Ctx} {e : Err} (h : Evolves s0 s) : Evolves s0 (recordStnFault s c e) := by
  unfold recordStnFault
  repeat' first
    | with_reducible assumption | with_reducible apply setReg_evolves | (split)

theorem countFault_evolves {s0 s : State} {c : Ctx} {e : Err} (h : Evolves s0 s) : Evolves s0 (countFault s c e) := by
  unfold countFault
  repeat' first
    | with_reducible assumption | with_reducible apply State.countReq_evolves | (split)

theorem counting_evolves {α : Type} {c : Ctx} {o : Op α} (ho : o.evolves) : (counting c o : Op α).evolves := by
  constructor
  intro s
  have h := ho.from_any s
  unfold counting
  split <;> simp_all only [stateOf]
  exact countFault_evolves h

theorem faulting_evolves {c : Ctx} {o : Op Unit} (ho : o.evolves) : (faulting c o : Op Unit).evolves := by
  constructor
  intro s
  have h := ho.from_any s
  unfold faulting
  split <;> simp_all only [stateOf]
  exact recordStnFault_evolves (countFault_evolves h)

theorem runPart_evolves {a0 : Nat} {a1 : Ctx} {a2 : Nat} {a3 : List (Nat × Nat)} : (runPart a0 a1 a2 a3 : Op Unit).evolves := by
  induction a0 generalizing a1 a2 a3 with
  | zero =>
    unfold runPart
    repeat' first
      | intro _ | with_reducible exact Evolves.refl _ | with_reducible apply State.countReq_evolves
      | with_reducible apply faulting_evolves | with_reducible apply issue_evolves | with_reducible apply bind_evolves
      | with_reducible apply pure_evolves | with_reducible apply get_evolves | with_reducible apply upd_evolves | (split)
  | succ n ih =>
    unfold runPart
    repeat' first
      | intro _ | with_reducible apply ih | with_reducible exact Evolves.refl _ | with_reducible apply State.countReq_evolves
      | with_reducible apply faulting_evolves | with_reducible apply issue_evolves | with_reducible apply bind_evolves
      | with_reducible apply pure_evolves | with_reducible apply get_evolves | with_reducible apply upd_evolves | (split)

theorem runStagePart_evolves {c : Ctx} : (runStagePart c : Op Unit).evolves := by
  unfold runStagePart
  repeat' first
    | with_reducible apply runPart_evolves | with_reducible apply pure_evolves | with_reducible apply evolves_ite
    | simp only [evolves_mk] | (split)

theorem runAll_evolves {c : Ctx} {part : Nat} : (runAll c part : Op Unit).evolves := by
  unfold runAll
  repeat' first
    | intro _ | with_reducible apply runStagePart_evolves | with_reducible apply forM_evolves

theorem loadStatics_evolves {c : Ctx} : (loadStatics c : Op Unit).evolves := by
  unfold loadStatics
  repeat' first
    | intro _ | with_reducible exact Evolves.refl _ | with_reducible apply readMem_evolves
    | with_reducible apply setScalar_evolves | with_reducible apply bind_evolves | with_reducible apply pure_evolves
    | with_reducible apply upd_evolves | with_reducible apply throw_evolves | with_reducible apply forIn_evolves
    | simp only [evolves_mk] | (split)

theorem fetchProgram_evolves {c : Ctx} : (fetchProgram c : Op Unit).evolves := by
  unfold fetchProgram
  repeat' first
    | intro _ | with_reducible exact Evolves.refl _ | with_reducible apply State.setStone_evolves
    | with_reducible apply State.countReq_evolves | with_reducible apply readMem_evolves | with_reducible apply bind_evolves
    | with_reducible apply pure_evolves | with_reducible apply get_evolves | with_reducible apply upd_evolves
    | with_reducible apply forIn_evolves | simp only [evolves_mk] | (split)

theorem initAccs_evolves {c : Ctx} : (initAccs c : Op Unit).evolves := by
  unfold initAccs
  repeat' first
    | intro _ | with_reducible exact Evolves.refl _ | with_reducible apply writeAcc_evolves
    | with_reducible apply upd_evolves | with_reducible apply forM_evolves | with_reducible apply evolves_ite

theorem startOps_evolves {c : Ctx} : (startOps c : Op Unit).evolves := by
  unfold startOps
  repeat' first
    | intro _ | with_reducible exact Evolves.refl _ | with_reducible apply fetchProgram_evolves
    | with_reducible apply initAccs_evolves | with_reducible apply openMerge_evolves
    | with_reducible apply State.setRun_evolves | with_reducible apply runAll_evolves | with_reducible apply counting_evolves
    | with_reducible apply loadStatics_evolves | with_reducible apply bind_evolves | with_reducible apply upd_evolves
    | (split)

theorem stoneError_evolves {s0 s : State} {job : Nat} {e : Err} (h : Evolves s0 s) : Evolves s0 (stoneError s job e) := by
  unfold stoneError
  repeat' first
    | with_reducible assumption | with_reducible apply failJob_evolves

theorem stoneOp_evolves {s0 s : State} {job : Nat} {o : Op Unit} (ho : o.evolves) (h : Evolves s0 s) : Evolves s0 (stoneOp s job o) := by
  unfold stoneOp
  repeat' first
    | with_reducible assumption | with_reducible apply stoneError_evolves | with_reducible apply ho
    | with_reducible refine evolves_ok (by assumption) ?_ ?_ | with_reducible refine evolves_error (by assumption) ?_ ?_
    | (split)

theorem freshRegs_evolves {s0 s : State} {stone : Nat} {r : Run} {cols : Nat} (h : Evolves s0 s) : Evolves s0 (freshRegs s stone r cols) := by
  unfold freshRegs
  exact State.setStone_evolves (h.trans ⟨rfl, by dsimp only; omega, id, List.prefix_rfl, fun _ g => ⟨g, fun _ _ => rfl⟩, id⟩)

theorem beginRun_evolves {s0 s : State} {stone : Nat} {j : Job} {t : Task} {base : Nat} {avail : Nat} {bank : Nat} (h : Evolves s0 s) : Evolves s0 (beginRun s stone j t base avail bank) := by
  unfold beginRun
  repeat' first
    | with_reducible assumption | with_reducible apply State.setStone_evolves | with_reducible apply freshRegs_evolves
    | with_reducible apply stoneOp_evolves | with_reducible apply startOps_evolves | with_reducible apply evolves_ite
    | simp only [evolves_mk] | (split)

theorem dispatched_evolves {s0 s : State} {stone : Nat} {j : Job} {t : Task} {kind : Nat} {mill : Nat} {code : Nat} (h : Evolves s0 s) : Evolves s0 (dispatched s stone j t kind mill code) := by
  unfold dispatched
  repeat' first
    | with_reducible assumption | with_reducible apply State.setTask_evolves | with_reducible apply setFlag_evolves
    | with_reducible apply setFld_evolves | with_reducible apply State.trace_evolves
    | with_reducible apply State.count_evolves | with_reducible apply evolves_ite | (split)

theorem startIdle_evolves {s0 s : State} {stone : Nat} {j : Job} {t : Task} (h : Evolves s0 s) : Evolves s0 (startIdle s stone j t) := by
  unfold startIdle
  repeat' first
    | with_reducible assumption | with_reducible apply beginRun_evolves

theorem clearWanted_evolves {s0 s : State} {stone : Nat} (h : Evolves s0 s) : Evolves s0 (clearWanted s stone) := by
  unfold clearWanted
  repeat' first
    | with_reducible assumption | with_reducible apply State.setStone_evolves | with_reducible apply fanCounts_evolves
    | with_reducible apply dropTasks_evolves | with_reducible apply evolves_ite | (split)

theorem freeStone_evolves {s0 s : State} {stone : Nat} (h : Evolves s0 s) : Evolves s0 (freeStone s stone) := by
  unfold freeStone
  repeat' first
    | with_reducible assumption | with_reducible apply State.setStone_evolves | with_reducible apply clearWanted_evolves
    | with_reducible apply startIdle_evolves | with_reducible apply evolves_ite | simp only [evolves_mk] | (split)

theorem openInput_evolves {c : Ctx} : (openInput c : Op Unit).evolves := by
  unfold openInput
  repeat' first
    | intro _ | with_reducible exact Evolves.refl _ | with_reducible apply scanFault_evolves
    | with_reducible apply readDir_evolves | with_reducible apply State.setRun_evolves | with_reducible apply bind_evolves
    | with_reducible apply pure_evolves | with_reducible apply upd_evolves | (split)

theorem admitOps_evolves {c : Ctx} {frame : Nat} {next : Nat} : (admitOps c frame next : Op Unit).evolves := by
  unfold admitOps
  repeat' first
    | intro _ | with_reducible exact Evolves.refl _ | with_reducible apply readStamps_evolves
    | with_reducible apply State.setRun_evolves | with_reducible apply State.countReq_evolves
    | with_reducible apply openInput_evolves | with_reducible apply bind_evolves | with_reducible apply pure_evolves
    | with_reducible apply get_evolves | with_reducible apply upd_evolves | with_reducible apply evolves_ite | (split)

theorem batchAdmit_evolves {s0 s : State} {stone : Nat} (h : Evolves s0 s) : Evolves s0 (batchAdmit s stone) := by
  unfold batchAdmit
  repeat' first
    | with_reducible assumption | with_reducible apply stoneOp_evolves | with_reducible apply admitOps_evolves | (split)

theorem takeBatch_evolves {s0 s : State} {c : Ctx} {k : Nat} {b : Batch} (h : Evolves s0 s) : Evolves s0 (takeBatch s c k b) := by
  unfold takeBatch
  repeat' first
    | with_reducible assumption | with_reducible apply State.setRun_evolves | with_reducible apply State.countReq_evolves
    | with_reducible apply evolves_ite 

theorem stepEnds_evolves {s0 s : State} {c : Ctx} (h : Evolves s0 s) : Evolves s0 (stepEnds s c) := by
  unfold stepEnds
  repeat' first
    | with_reducible assumption | with_reducible apply State.setRun_evolves

theorem bodyOps_evolves {c : Ctx} {st : Stage} : (bodyOps c st : Op Unit).evolves := by
  unfold bodyOps
  repeat' first
    | intro _ | with_reducible exact Evolves.refl _ | with_reducible apply stepEnds_evolves
    | with_reducible apply runPart_evolves | with_reducible apply runStagePart_evolves
    | with_reducible apply State.countReq_evolves | with_reducible apply bind_evolves | with_reducible apply get_evolves
    | with_reducible apply upd_evolves | with_reducible apply evolves_ite | simp only [evolves_mk] | (split)

theorem passBatch_evolves {s0 s : State} {stone : Nat} {k : Nat} (h : Evolves s0 s) : Evolves s0 (passBatch s stone k) := by
  unfold passBatch
  repeat' first
    | with_reducible assumption | with_reducible apply State.setRun_evolves | simp only [evolves_mk] | (split)

theorem passOn_evolves {s0 s : State} {stone : Nat} {k : Nat} (h : Evolves s0 s) : Evolves s0 (passOn s stone k) := by
  unfold passOn
  repeat' first
    | intro _ | with_reducible assumption | with_reducible exact Evolves.refl _ | with_reducible apply passBatch_evolves
    | with_reducible apply evolves_ite  | with_reducible apply evolves_foldl | with_reducible apply evolves_foldl_snd
    | with_reducible apply evolves_foldl_fst | with_reducible refine evolves_snd (by assumption) ?_
    | with_reducible refine evolves_fst (by assumption) ?_ | simp only [evolves_mk] | (split)

theorem stepFault_evolves {s0 s : State} {c : Ctx} {e : Err} (h : Evolves s0 s) : Evolves s0 (stepFault s c e) := by
  unfold stepFault
  repeat' first
    | intro _ | with_reducible assumption | with_reducible exact Evolves.refl _ | with_reducible apply stoneError_evolves
    | with_reducible apply State.setRun_evolves | with_reducible apply evolves_ite | with_reducible apply evolves_foldl
    | with_reducible apply evolves_foldl_snd | with_reducible apply evolves_foldl_fst
    | with_reducible refine evolves_snd (by assumption) ?_ | with_reducible refine evolves_fst (by assumption) ?_
    | simp only [evolves_mk] | (split)

theorem stepBody_evolves {s0 s : State} {stone : Nat} {c : Ctx} {st : Stage} (h : Evolves s0 s) : Evolves s0 (stepBody s stone c st) := by
  unfold stepBody
  repeat' first
    | with_reducible assumption | with_reducible apply bodyOps_evolves | with_reducible apply passOn_evolves
    | with_reducible apply stepFault_evolves | with_reducible apply evolves_ite
    | with_reducible refine evolves_ok (by assumption) ?_ ?_ | with_reducible refine evolves_error (by assumption) ?_ ?_
    | (split)

theorem insnOps_evolves {c : Ctx} {op : Nat} {act : Ctx → Insn → Op Unit} {f : Insn} {loops : List (Nat × Nat)} (ha : ∀ c f, (act c f).evolves) : (insnOps c op act f loops : Op Unit).evolves := by
  unfold insnOps
  repeat' first
    | intro _ | with_reducible exact Evolves.refl _ | with_reducible apply State.countReq_evolves
    | with_reducible apply faulting_evolves | with_reducible apply stepEnds_evolves
    | with_reducible apply State.setRun_evolves | with_reducible apply ha | with_reducible apply bind_evolves
    | with_reducible apply get_evolves | with_reducible apply upd_evolves | (split)

theorem issueInsn_evolves {s0 s : State} {stone : Nat} {k : Nat} {op : Nat} {act : Ctx → Insn → Op Unit} {f : Insn} {c : Ctx} {st : Stage} (ha : ∀ c f, (act c f).evolves) (h : Evolves s0 s) : Evolves s0 (issueInsn s stone k op act f c st) := by
  unfold issueInsn
  repeat' first
    | with_reducible assumption | with_reducible apply insnOps_evolves | with_reducible apply passOn_evolves
    | with_reducible apply stepFault_evolves | with_reducible apply ha
    | with_reducible refine evolves_ok (by assumption) ?_ ?_ | with_reducible refine evolves_error (by assumption) ?_ ?_
    | simp only [evolves_mk] | (split)

theorem arriveInsn_evolves {s0 s : State} {stone : Nat} {k : Nat} {op : Nat} {act : Ctx → Insn → Op Unit} {f : Insn} {c : Ctx} {b : Batch} (ha : ∀ c f, (act c f).evolves) (h : Evolves s0 s) : Evolves s0 (arriveInsn s stone k op act f c b) := by
  unfold arriveInsn
  repeat' first
    | with_reducible assumption | with_reducible apply takeBatch_evolves | with_reducible apply issueInsn_evolves
    | with_reducible apply stepBody_evolves | with_reducible apply ha | simp only [evolves_mk] | (split)

theorem insnStep_evolves {s0 s : State} {stone : Nat} {k : Nat} {op : Nat} {act : Ctx → Insn → Op Unit} {f : Insn} (ha : ∀ c f, (act c f).evolves) (h : Evolves s0 s) : Evolves s0 (insnStep s stone k op act f) := by
  unfold insnStep
  repeat' first
    | with_reducible assumption | with_reducible apply issueInsn_evolves | with_reducible apply arriveInsn_evolves
    | with_reducible apply ha | simp only [evolves_mk] | (split)

theorem finishInsn_evolves {s0 s : State} {stone : Nat} {k : Nat} {c : Ctx} {st : Stage} (h : Evolves s0 s) : Evolves s0 (finishInsn s stone k c st) := by
  unfold finishInsn
  repeat' first
    | intro _ | with_reducible assumption | with_reducible exact Evolves.refl _ | with_reducible apply issueInsn_evolves
    | with_reducible apply issue_evolves | with_reducible apply evolves_ite | with_reducible apply evolves_foldl
    | with_reducible apply evolves_foldl_snd | with_reducible apply evolves_foldl_fst
    | with_reducible refine evolves_snd (by assumption) ?_ | with_reducible refine evolves_fst (by assumption) ?_
    | with_reducible refine evolves_exec (by assumption) ?_ ?_ | with_reducible refine evolves_ok (by assumption) ?_ ?_
    | with_reducible refine evolves_error (by assumption) ?_ ?_ | with_reducible apply bind_evolves
    | with_reducible apply pure_evolves | with_reducible apply get_evolves | with_reducible apply upd_evolves
    | with_reducible apply throw_evolves | with_reducible apply ite_op_evolves | with_reducible apply modifyGet_evolves
    | with_reducible apply ask_evolves | with_reducible apply attempt_evolves | with_reducible apply mapM_evolves
    | with_reducible apply forM_evolves | with_reducible apply forIn_evolves | with_reducible apply foldlM_evolves
    | simp only [evolves_mk] | (split)

theorem stageRuns_evolves {s0 s : State} {stone : Nat} {k : Nat} {r : Run} {c : Ctx} (h : Evolves s0 s) : Evolves s0 (stageRuns s stone k r c) := by
  unfold stageRuns
  repeat' first
    | intro _ | with_reducible assumption | with_reducible exact Evolves.refl _ | with_reducible apply stepBody_evolves
    | with_reducible apply finishInsn_evolves | with_reducible apply takeBatch_evolves | with_reducible apply evolves_ite
    | with_reducible apply evolves_foldl  | with_reducible apply evolves_foldl_snd | with_reducible apply evolves_foldl_fst
    | with_reducible refine evolves_snd (by assumption) ?_ | with_reducible refine evolves_fst (by assumption) ?_
    | simp only [evolves_mk] | (split)

theorem stageChecked_evolves {s0 s : State} {stone : Nat} {k : Nat} {check : StoneCheck} {r : Run} {c : Ctx} (h : Evolves s0 s) : Evolves s0 (stageChecked s stone k check r c) := by
  unfold stageChecked
  repeat' first
    | intro _ | with_reducible assumption | with_reducible exact Evolves.refl _ | with_reducible apply stageRuns_evolves
    | with_reducible apply stepFault_evolves | with_reducible apply recordStnFault_evolves
    | with_reducible apply evolves_ite  | with_reducible apply evolves_foldl | with_reducible apply evolves_foldl_snd
    | with_reducible apply evolves_foldl_fst | with_reducible refine evolves_snd (by assumption) ?_
    | with_reducible refine evolves_fst (by assumption) ?_ | simp only [evolves_mk] | (split)

theorem stageStep_evolves {s0 s : State} {stone : Nat} {k : Nat} {check : StoneCheck} (h : Evolves s0 s) : Evolves s0 (stageStep s stone k check) := by
  unfold stageStep
  repeat' first
    | with_reducible assumption | with_reducible apply passBatch_evolves | with_reducible apply stageChecked_evolves
    | with_reducible apply evolves_ite  | simp only [evolves_mk] | (split)

theorem mergeWork_evolves {s0 s : State} {job : Nat} {part : Nat} {mode : Nat} {work : Ctx → MergeCtx → Op Unit} (hw : ∀ c m, (work c m).evolves) (h : Evolves s0 s) : Evolves s0 (mergeWork s job part mode work) := by
  unfold mergeWork
  repeat' first
    | intro _ | with_reducible assumption | with_reducible exact Evolves.refl _ | with_reducible apply stoneOp_evolves
    | with_reducible apply counting_evolves | with_reducible apply State.setRun_evolves | with_reducible apply hw
    | with_reducible apply bind_evolves | with_reducible apply upd_evolves | (split)

theorem taskStop_evolves {s0 s : State} {stone : Nat} (h : Evolves s0 s) : Evolves s0 (taskStop s stone) := by
  unfold taskStop
  repeat' first
    | with_reducible assumption | with_reducible apply fanCounts_evolves | with_reducible apply dropTasks_evolves
    | with_reducible apply State.setStone_evolves | with_reducible apply freeStone_evolves | simp only [evolves_mk] | (split)

theorem park_evolves {s0 s : State} {stone : Nat} (h : Evolves s0 s) : Evolves s0 (park s stone) := by
  unfold park
  repeat' first
    | with_reducible assumption | with_reducible apply clearWanted_evolves | with_reducible apply State.setStone_evolves
    | with_reducible apply beginRun_evolves | with_reducible apply evolves_ite | simp only [evolves_mk] | (split)

theorem preempt_evolves {s0 s : State} {mill : Nat} (h : Evolves s0 s) : Evolves s0 (preempt s mill) := by
  unfold preempt
  repeat' first
    | with_reducible assumption | with_reducible apply dispatched_evolves | with_reducible apply State.setStone_evolves
    | (split)

theorem dispatchStone_evolves {s0 s : State} {stone : Nat} (h : Evolves s0 s) : Evolves s0 (dispatchStone s stone) := by
  unfold dispatchStone
  repeat' first
    | with_reducible assumption | with_reducible apply startIdle_evolves | with_reducible apply dispatched_evolves | (split)

theorem steal_evolves {s0 s : State} {stone : Nat} (h : Evolves s0 s) : Evolves s0 (steal s stone) := by
  unfold steal
  repeat' first
    | with_reducible assumption | with_reducible apply startIdle_evolves | with_reducible apply dispatched_evolves
    | with_reducible apply evolves_ite  | (split)

theorem dispatchAffinity_evolves {s0 s : State} {job : Nat} {part : Nat} (h : Evolves s0 s) : Evolves s0 (dispatchAffinity s job part) := by
  unfold dispatchAffinity
  repeat' first
    | with_reducible assumption | with_reducible apply startIdle_evolves | with_reducible apply dispatched_evolves
    | with_reducible apply evolves_ite  | (split)

theorem enterList_evolves {s0 s : State} {job : Nat} {part : Nat} {counter : Nat} (h : Evolves s0 s) : Evolves s0 (enterList s job part counter) := by
  unfold enterList
  repeat' first
    | with_reducible assumption | with_reducible apply State.setTask_evolves | with_reducible apply State.trace_evolves
    | (split)

theorem affinityEnd_evolves {s0 s : State} {job : Nat} {part : Nat} (h : Evolves s0 s) : Evolves s0 (affinityEnd s job part) := by
  unfold affinityEnd
  repeat' first
    | intro _ | with_reducible assumption | with_reducible exact Evolves.refl _
    | with_reducible apply dispatchAffinity_evolves | with_reducible apply clockTo_evolves
    | with_reducible apply enterList_evolves | with_reducible apply evolves_ite | with_reducible apply evolves_foldl
    | with_reducible apply evolves_foldl_snd | with_reducible apply evolves_foldl_fst
    | with_reducible refine evolves_snd (by assumption) ?_ | with_reducible refine evolves_fst (by assumption) ?_
    | simp only [evolves_mk] | (split)

end Sys2Proof.Machine
end

