-- ==== Sys2Proof/Laws/EvLoader.lean ====
section
/-! SUPPORT. The functions of Machine/Loader.lean only evolve the state (Safety.lean, Evolves). -/

namespace Sys2Proof.Machine

theorem check_evolves {o : Option Outc} : (check o : Op Unit).evolves := by
  unfold check
  repeat' first
    | with_reducible apply pure_evolves | with_reducible apply throw_evolves | (split)

theorem cacheProgram_evolves {s0 s : State} {key : ProgKey} {p : Prog} (h : Evolves s0 s) : Evolves s0 (cacheProgram s key p) := by
  unfold cacheProgram
  repeat' first
    | with_reducible assumption | with_reducible apply evolves_ite | simp only [evolves_mk]

theorem loadProgram_evolves {j : Job} : (loadProgram j : Op (ProgKey × Prog)).evolves := by
  unfold loadProgram
  repeat' first
    | intro _ | with_reducible exact Evolves.refl _ | with_reducible apply readMem_evolves
    | with_reducible apply check_evolves | with_reducible apply cacheProgram_evolves | with_reducible apply bind_evolves
    | with_reducible apply pure_evolves | with_reducible apply get_evolves | with_reducible apply upd_evolves
    | with_reducible apply throw_evolves | simp only [evolves_mk] | (split)

theorem readAppends_evolves {j : Job} : (readAppends j : Op Bool).evolves := by
  unfold readAppends
  repeat' first
    | intro _ | with_reducible assumption | with_reducible exact Evolves.refl _ | with_reducible apply readMem_evolves
    | with_reducible apply bind_evolves | with_reducible apply pure_evolves | with_reducible apply get_evolves
    | with_reducible apply upd_evolves | with_reducible apply throw_evolves | with_reducible apply ite_op_evolves
    | with_reducible apply modifyGet_evolves | with_reducible apply ask_evolves | with_reducible apply attempt_evolves
    | with_reducible apply mapM_evolves | with_reducible apply forM_evolves | with_reducible apply forIn_evolves
    | with_reducible apply foldlM_evolves | with_reducible apply evolves_ite | with_reducible apply evolves_foldl
    | with_reducible apply evolves_foldl_snd | with_reducible apply evolves_foldl_fst
    | with_reducible refine evolves_snd (by assumption) ?_ | with_reducible refine evolves_fst (by assumption) ?_
    | with_reducible refine evolves_exec (by assumption) ?_ ?_ | with_reducible refine evolves_ok (by assumption) ?_ ?_
    | with_reducible refine evolves_error (by assumption) ?_ ?_ | simp only [evolves_mk] | (split)

theorem readPart_evolves {j : Job} {pj : PipeJob} {n : Nat} : (readPart j pj n : Op Part).evolves := by
  unfold readPart
  repeat' first
    | intro _ | with_reducible apply readMem_evolves | with_reducible apply bind_evolves | with_reducible apply pure_evolves
    | with_reducible apply throw_evolves | simp only [evolves_mk] | (split)

theorem taskCreate_evolves {s0 s : State} (h : Evolves s0 s) : Evolves s0 (taskCreate s) := by
  unfold taskCreate
  repeat' first
    | with_reducible assumption | with_reducible apply createTask_evolves | with_reducible apply exec_evolves
    | with_reducible apply readPart_evolves | with_reducible apply failJob_evolves
    | with_reducible apply State.setJob_evolves | with_reducible apply evolves_ite
    | with_reducible refine evolves_exec (by assumption) ?_ ?_ | (split)

theorem homeMill_evolves {s0 s : State} {j : Job} {input : Option Nat} (h : Evolves s0 s) : Evolves s0 (homeMill s j input).2 := by
  unfold homeMill
  repeat' first
    | with_reducible assumption | simp only [evolves_mk] | (split)

theorem rereadRows_evolves {s : State} {j : Job} {job : Nat} {part : Nat} : (rereadRows s j job part : Op Unit).evolves := by
  unfold rereadRows
  repeat' first
    | intro _ | with_reducible exact Evolves.refl _ | with_reducible apply readNum_evolves
    | with_reducible apply State.setJob_evolves | with_reducible apply bind_evolves | with_reducible apply pure_evolves
    | with_reducible apply upd_evolves | with_reducible apply evolves_ite | (split)

theorem becomeReady_evolves {s0 s : State} {j : Job} {t : Task} {job : Nat} {part : Nat} {home : Nat} (h : Evolves s0 s) : Evolves s0 (becomeReady s j t job part home) := by
  unfold becomeReady
  repeat' first
    | intro _ | with_reducible assumption | with_reducible exact Evolves.refl _ | with_reducible apply State.count_evolves
    | with_reducible apply fanCounts_evolves | with_reducible apply State.setTask_evolves
    | with_reducible apply enterList_evolves | with_reducible apply evolves_ite | with_reducible apply evolves_foldl
    | with_reducible apply evolves_foldl_snd | with_reducible apply evolves_foldl_fst
    | with_reducible refine evolves_snd (by assumption) ?_ | with_reducible refine evolves_fst (by assumption) ?_
    | simp only [evolves_mk] | (split)

theorem taskReady_evolves {s0 s : State} {job : Nat} {part : Nat} (h : Evolves s0 s) : Evolves s0 (taskReady s job part) := by
  unfold taskReady
  repeat' first
    | with_reducible assumption | with_reducible apply failJob_evolves | with_reducible apply exec_evolves
    | with_reducible apply rereadRows_evolves | with_reducible apply homeMill_evolves
    | with_reducible apply becomeReady_evolves | with_reducible apply evolves_ite
    | with_reducible refine evolves_exec (by assumption) ?_ ?_ | (split)

end Sys2Proof.Machine
end

