-- ==== Sys2Proof/Laws/EvLookup.lean ====
section
/-! SUPPORT. The functions of Machine/Lookup.lean only evolve the state (Safety.lean, Evolves). -/

namespace Sys2Proof.Machine

theorem chainAll_evolves {b : Bnd} {h : HtHdr} {j : Nat} {hash : Nat} {key : Nat} {a5 : Nat} {a6 : Nat} : (chainAll b h j hash key a5 a6 : Op (List Nat)).evolves := by
  induction a5 generalizing a6 with
  | zero =>
    unfold chainAll
    repeat' first
      | intro _ | with_reducible apply Bnd.num8_evolves | with_reducible apply bind_evolves | with_reducible apply pure_evolves
      | (split)
  | succ n ih =>
    unfold chainAll
    repeat' first
      | intro _ | with_reducible apply ih | with_reducible apply Bnd.num8_evolves | with_reducible apply bind_evolves | with_reducible apply pure_evolves
      | (split)

theorem tableRows_evolves {b : Bnd} {h : HtHdr} {key : Nat} : (tableRows b h key : Op (List Nat)).evolves := by
  unfold tableRows
  repeat' first
    | intro _ | with_reducible apply Bnd.num8_evolves | with_reducible apply chainAll_evolves
    | with_reducible apply payloadOf_evolves | with_reducible apply bind_evolves | with_reducible apply pure_evolves
    | with_reducible apply mapM_evolves

theorem openIndex_evolves {b : Bnd} : (openIndex b : Op HtHdr).evolves := by
  unfold openIndex
  repeat' first
    | intro _ | with_reducible apply Bnd.read_evolves | with_reducible apply openTable_evolves
    | with_reducible apply bind_evolves

theorem lookupDir_evolves {l : LookupJob} {q : Nat} : (lookupDir l q : Op Dir).evolves := by
  unfold lookupDir
  repeat' first
    | intro _ | with_reducible apply readNum_evolves | with_reducible apply readDir_evolves
    | with_reducible apply scanFault_evolves | with_reducible apply bind_evolves | with_reducible apply throw_evolves
    | (split)

theorem lookupVisible_evolves {l : LookupJob} {d : Dir} {q : Nat} {row : Nat} : (lookupVisible l d q row : Op Bool).evolves := by
  unfold lookupVisible
  repeat' first
    | intro _ | with_reducible apply readStamps_evolves | with_reducible apply scanFault_evolves
    | with_reducible apply bind_evolves | with_reducible apply pure_evolves | (split)

theorem lookupField_evolves {l : LookupJob} {d : Dir} {q : Nat} {row : Nat} {column : Nat} : (lookupField l d q row column : Op (List Byte × Bool)).evolves := by
  unfold lookupField
  repeat' first
    | intro _ | with_reducible apply readMem_evolves | with_reducible apply openSeg_evolves
    | with_reducible apply decodeRows_evolves | with_reducible apply freeBytes_evolves
    | with_reducible apply scanFault_evolves | with_reducible apply bind_evolves | with_reducible apply pure_evolves
    | simp only [evolves_mk] | (split)

theorem lookupKey_evolves {l : LookupJob} {cands : List Nat} : (lookupKey l cands : Op (List Byte)).evolves := by
  unfold lookupKey
  repeat' first
    | intro _ | with_reducible apply lookupDir_evolves | with_reducible apply lookupVisible_evolves
    | with_reducible apply lookupField_evolves | with_reducible apply bind_evolves | with_reducible apply pure_evolves
    | with_reducible apply mapM_evolves | (split)

theorem lookupOps_evolves {l : LookupJob} : (lookupOps l : Op Unit).evolves := by
  unfold lookupOps
  repeat' first
    | intro _ | with_reducible exact Evolves.refl _ | with_reducible apply openIndex_evolves
    | with_reducible apply readNum_evolves | with_reducible apply tableRows_evolves
    | with_reducible apply State.countReq_evolves | with_reducible apply lookupKey_evolves
    | with_reducible apply jobWrite_evolves | with_reducible apply bind_evolves | with_reducible apply pure_evolves
    | with_reducible apply upd_evolves | with_reducible apply forIn_evolves | with_reducible apply evolves_ite | (split)

end Sys2Proof.Machine
end

