-- ==== Sys2Proof/Laws/EvToll.lean ====
section
/-! SUPPORT. The functions of Machine/Toll.lean only evolve the state (Safety.lean, Evolves). -/

namespace Sys2Proof.Machine

theorem takeHold_evolves {s0 s : State} (h : Evolves s0 s) : Evolves s0 (takeHold s).2 := by
  unfold takeHold
  repeat' first
    | with_reducible assumption | simp only [evolves_mk]

theorem endHandle_evolves {s0 s : State} {j : Job} (h : Evolves s0 s) : Evolves s0 (endHandle s j) := by
  unfold endHandle
  repeat' first
    | intro _ | with_reducible assumption | with_reducible exact Evolves.refl _ | with_reducible apply State.setCtx_evolves
    | with_reducible apply evolves_ite  | with_reducible apply evolves_foldl | with_reducible apply evolves_foldl_snd
    | with_reducible apply evolves_foldl_fst | with_reducible refine evolves_snd (by assumption) ?_
    | with_reducible refine evolves_fst (by assumption) ?_ | simp only [evolves_mk] | (split)

theorem failDigest_evolves {s0 s : State} {j : Job} {o : Outc} (h : Evolves s0 s) : Evolves s0 (failDigest s j o) := by
  unfold failDigest
  repeat' first
    | intro _ | with_reducible assumption | with_reducible exact Evolves.refl _ | with_reducible apply failJob_evolves
    | with_reducible apply endHandle_evolves | with_reducible apply evolves_ite | with_reducible apply evolves_foldl
    | with_reducible apply evolves_foldl_snd | with_reducible apply evolves_foldl_fst
    | with_reducible refine evolves_snd (by assumption) ?_ | with_reducible refine evolves_fst (by assumption) ?_
    | simp only [evolves_mk] | (split)

theorem digestOp_evolves {s0 s : State} {id : Nat} {op : Nat} (h : Evolves s0 s) : Evolves s0 (digestOp s id op) := by
  unfold digestOp
  repeat' first
    | with_reducible assumption | with_reducible apply finishJob_evolves | with_reducible apply endHandle_evolves
    | with_reducible apply setTasks_evolves | (split)

theorem digestDispatch_evolves {s0 s : State} {j : Job} {part : Nat} (h : Evolves s0 s) : Evolves s0 (digestDispatch s j part) := by
  unfold digestDispatch
  repeat' first
    | with_reducible assumption | with_reducible apply failJob_evolves | with_reducible apply failDigest_evolves
    | with_reducible apply State.setCtx_evolves | with_reducible apply evolves_ite | (split)

theorem contextDispatch_evolves {s0 s : State} {j : Job} {part : Nat} (h : Evolves s0 s) : Evolves s0 (contextDispatch s j part) := by
  unfold contextDispatch
  repeat' first
    | intro _ | with_reducible assumption | with_reducible exact Evolves.refl _ | with_reducible apply State.setCtx_evolves
    | with_reducible apply evolves_ite  | with_reducible apply evolves_foldl | with_reducible apply evolves_foldl_snd
    | with_reducible apply evolves_foldl_fst | with_reducible refine evolves_snd (by assumption) ?_
    | with_reducible refine evolves_fst (by assumption) ?_ | simp only [evolves_mk] | (split)

theorem stageMore_evolves {j : Job} {n : Nat} {k : Nat} {c : TollCtx} : (stageMore j n k c : Op TollCtx).evolves := by
  unfold stageMore
  repeat' first
    | intro _ | with_reducible assumption | with_reducible exact Evolves.refl _ | with_reducible apply readMem_evolves
    | with_reducible apply State.setCtx_evolves | with_reducible apply bind_evolves | with_reducible apply pure_evolves
    | with_reducible apply get_evolves | with_reducible apply upd_evolves | with_reducible apply throw_evolves
    | with_reducible apply ite_op_evolves | with_reducible apply modifyGet_evolves | with_reducible apply ask_evolves
    | with_reducible apply attempt_evolves | with_reducible apply mapM_evolves | with_reducible apply forM_evolves
    | with_reducible apply forIn_evolves | with_reducible apply foldlM_evolves | with_reducible apply evolves_ite
    | with_reducible apply evolves_foldl  | with_reducible apply evolves_foldl_snd | with_reducible apply evolves_foldl_fst
    | with_reducible refine evolves_snd (by assumption) ?_ | with_reducible refine evolves_fst (by assumption) ?_
    | with_reducible refine evolves_exec (by assumption) ?_ ?_ | with_reducible refine evolves_ok (by assumption) ?_ ?_
    | with_reducible refine evolves_error (by assumption) ?_ ?_ | simp only [evolves_mk] | (split)

theorem holdComplete_evolves {s0 s : State} {j : Job} {n : Nat} {c : TollCtx} (h : Evolves s0 s) : Evolves s0 (holdComplete s j n c).2 := by
  unfold holdComplete
  repeat' first
    | intro _ | with_reducible assumption | with_reducible exact Evolves.refl _ | with_reducible apply exec_evolves
    | with_reducible apply stageMore_evolves | with_reducible apply State.setCtx_evolves
    | with_reducible apply takeHold_evolves | with_reducible apply State.count_evolves | with_reducible apply evolves_ite
    | with_reducible apply evolves_ite_snd | with_reducible apply evolves_foldl | with_reducible apply evolves_foldl_snd
    | with_reducible apply evolves_foldl_fst | with_reducible refine evolves_snd (by assumption) ?_
    | with_reducible refine evolves_fst (by assumption) ?_ | with_reducible refine evolves_exec (by assumption) ?_ ?_
    | with_reducible refine evolves_ok (by assumption) ?_ ?_ | with_reducible refine evolves_error (by assumption) ?_ ?_
    | with_reducible apply bind_evolves | with_reducible apply pure_evolves | with_reducible apply get_evolves
    | with_reducible apply upd_evolves | with_reducible apply throw_evolves | with_reducible apply ite_op_evolves
    | with_reducible apply modifyGet_evolves | with_reducible apply ask_evolves | with_reducible apply attempt_evolves
    | with_reducible apply mapM_evolves | with_reducible apply forM_evolves | with_reducible apply forIn_evolves
    | with_reducible apply foldlM_evolves | simp only [evolves_mk] | (split)

theorem digestComplete_evolves {s0 s t : State} {j : Job} {part : Nat} {x} (e : digestComplete s j part = some (x, t))
    (h : Evolves s0 s) : Evolves s0 t := by
  unfold digestComplete at e
  split at e
  · cases e
  · split at e
    · split at e
      · cases e
      · exact evolves_snd (Option.some.inj e) (holdComplete_evolves h)
    · split at e
      · cases e
      · split at e <;> cases e <;> exact State.setCtx_evolves (evolves_exec (by assumption) jobWrite_evolves h)

theorem freeCtxs_evolves {s0 s : State} {id : Nat} (h : Evolves s0 s) : Evolves s0 (freeCtxs s id) := by
  unfold freeCtxs
  repeat' first
    | intro _ | with_reducible assumption | with_reducible exact Evolves.refl _ | with_reducible apply onCtx_evolves
    | with_reducible apply State.setCtx_evolves | with_reducible apply evolves_ite | with_reducible apply evolves_foldl
    | with_reducible apply evolves_foldl_snd | with_reducible apply evolves_foldl_fst
    | with_reducible refine evolves_snd (by assumption) ?_ | with_reducible refine evolves_fst (by assumption) ?_
    | simp only [evolves_mk] | (split)

theorem registerMark_evolves {s0 s : State} {n : Nat} {value : Nat} (h : Evolves s0 s) : Evolves s0 (registerMark s n value) := by
  unfold registerMark
  repeat' first
    | with_reducible assumption | with_reducible apply setFlag_evolves | with_reducible apply State.setCtx_evolves
    | with_reducible apply evolves_ite  | (split)

theorem contextSaveOp_evolves {s0 s : State} {id : Nat} (h : Evolves s0 s) : Evolves s0 (contextSaveOp s id) := by
  unfold contextSaveOp
  repeat' first
    | with_reducible assumption | with_reducible apply finishJob_evolves | with_reducible apply setTasks_evolves
    | with_reducible apply evolves_ite  | (split)

theorem saveWork_evolves {s0 s : State} {j : Job} (h : Evolves s0 s) : Evolves s0 (saveWork s j).2 := by
  unfold saveWork
  repeat' first
    | with_reducible assumption | with_reducible apply State.setCtx_evolves | with_reducible apply exec_evolves
    | with_reducible apply jobWrite_evolves | with_reducible apply State.count_evolves
    | with_reducible refine evolves_exec (by assumption) ?_ ?_ | (split)

theorem contextRestoreOp_evolves {s0 s : State} {id : Nat} (h : Evolves s0 s) : Evolves s0 (contextRestoreOp s id) := by
  unfold contextRestoreOp
  repeat' first
    | with_reducible assumption | with_reducible apply setTasks_evolves | (split)

theorem restoreWork_evolves {s0 s : State} {j : Job} {part : Nat} (h : Evolves s0 s) : Evolves s0 (restoreWork s j part).2 := by
  unfold restoreWork
  repeat' first
    | with_reducible assumption | with_reducible apply exec_evolves | with_reducible apply readMem_evolves
    | with_reducible apply takeHold_evolves | with_reducible apply State.count_evolves
    | with_reducible apply State.setCtx_evolves | with_reducible refine evolves_exec (by assumption) ?_ ?_
    | simp only [evolves_mk] | (split)

theorem vtapWrite_evolves {s0 s : State} {v : Nat} {value : Nat} (h : Evolves s0 s) : Evolves s0 (vtapWrite s v value) := by
  unfold vtapWrite
  repeat' first
    | with_reducible assumption | with_reducible apply setReg_evolves | simp only [evolves_mk] | (split)

theorem tapCfgWrite_evolves {s0 s : State} {slice : Nat} {value : Nat} (h : Evolves s0 s) : Evolves s0 (tapCfgWrite s slice value) := by
  unfold tapCfgWrite
  repeat' first
    | with_reducible assumption | with_reducible apply setFlag_evolves | with_reducible apply setFld_evolves
    | with_reducible apply evolves_ite 

end Sys2Proof.Machine
end

