-- ==== Sys2Proof/Laws/EvSluice.lean ====
section
/-! SUPPORT. The functions of Machine/Sluice.lean only evolve the state (Safety.lean, Evolves). -/

namespace Sys2Proof.Machine

theorem sluiceOp_evolves {s0 s : State} {id : Nat} {op : Nat} (h : Evolves s0 s) : Evolves s0 (sluiceOp s id op) := by
  unfold sluiceOp
  repeat' first
    | with_reducible assumption | with_reducible apply setTasks_evolves | (split)

theorem sluiceDispatch_evolves {s0 s : State} {j : Job} {part : Nat} {c : Nat} (h : Evolves s0 s) : Evolves s0 (sluiceDispatch s j part c) := by
  unfold sluiceDispatch
  repeat' first
    | with_reducible assumption | with_reducible apply State.setSlu_evolves | with_reducible apply chanStart_evolves
    | with_reducible apply loadActive_evolves | with_reducible apply evolves_ite | simp only [evolves_mk] | (split)

theorem readRegion_evolves {s0 s : State} {io : RegIo} {y n : Nat}
    (hr : ∀ s0 s y n, Evolves s0 s → Evolves s0 (io.read s y n).2)
    (_ : ∀ s0 s y b, Evolves s0 s → Evolves s0 (io.write s y b)) (h : Evolves s0 s) : Evolves s0 (readRegion io s y n).2 :=
  evolves_foldl_snd h fun _ _ hq => hr _ _ _ _ hq

theorem writeRegion_evolves {s0 s : State} {io : RegIo} {y : Nat} {b : List Byte} (hr : ∀ s0 s y n, Evolves s0 s → Evolves s0 (io.read s y n).2) (hw : ∀ s0 s y b, Evolves s0 s → Evolves s0 (io.write s y b)) (h : Evolves s0 s) : Evolves s0 (writeRegion io s y b) := by
  unfold writeRegion
  repeat' first
    | intro _ | with_reducible assumption | with_reducible apply hr | with_reducible apply hw
    | with_reducible apply evolves_foldl 

theorem chanRead_evolves {io : RegIo} {r : Req} {sva : Nat} {n : Nat} (hr : ∀ s0 s y n, Evolves s0 s → Evolves s0 (io.read s y n).2) (hw : ∀ s0 s y b, Evolves s0 s → Evolves s0 (io.write s y b)) : (chanRead io r sva n : Op (List Byte)).evolves := by
  unfold chanRead
  repeat' first
    | intro _ | with_reducible assumption | with_reducible exact Evolves.refl _ | with_reducible apply translate_evolves
    | with_reducible apply readRegion_evolves | with_reducible apply granRead_evolves | with_reducible apply hr
    | with_reducible apply hw | with_reducible apply bind_evolves | with_reducible apply pure_evolves
    | with_reducible apply modifyGet_evolves | with_reducible apply mapM_evolves | with_reducible apply evolves_ite | (split)

theorem chanWrite_evolves {io : RegIo} {r : Req} {sva : Nat} {b : List Byte} (hr : ∀ s0 s y n, Evolves s0 s → Evolves s0 (io.read s y n).2) (hw : ∀ s0 s y b, Evolves s0 s → Evolves s0 (io.write s y b)) : (chanWrite io r sva b : Op Bool).evolves := by
  unfold chanWrite
  repeat' first
    | intro _ | with_reducible assumption | with_reducible exact Evolves.refl _ | with_reducible apply translate_evolves
    | with_reducible apply writeRegion_evolves | with_reducible apply granWrite_evolves | with_reducible apply hr
    | with_reducible apply hw | with_reducible apply bind_evolves | with_reducible apply pure_evolves
    | with_reducible apply upd_evolves | with_reducible apply mapM_evolves | with_reducible apply evolves_ite | (split)

theorem atSva_evolves {α : Type} {managed : Bool} {sva : Nat} {o : Op α} (ho : o.evolves) : (atSva managed sva o : Op α).evolves := by
  unfold atSva
  repeat' first
    | intro _ | with_reducible assumption | with_reducible exact Evolves.refl _ | with_reducible apply ho
    | with_reducible apply bind_evolves | with_reducible apply pure_evolves | with_reducible apply get_evolves
    | with_reducible apply upd_evolves | with_reducible apply throw_evolves | with_reducible apply ite_op_evolves
    | with_reducible apply modifyGet_evolves | with_reducible apply ask_evolves | with_reducible apply attempt_evolves
    | with_reducible apply mapM_evolves | with_reducible apply forM_evolves | with_reducible apply forIn_evolves
    | with_reducible apply foldlM_evolves | with_reducible apply evolves_ite | with_reducible apply evolves_foldl
    | with_reducible apply evolves_foldl_snd | with_reducible apply evolves_foldl_fst
    | with_reducible refine evolves_snd (by assumption) ?_ | with_reducible refine evolves_fst (by assumption) ?_
    | with_reducible refine evolves_exec (by assumption) ?_ ?_ | with_reducible refine evolves_ok (by assumption) ?_ ?_
    | with_reducible refine evolves_error (by assumption) ?_ ?_ | simp only [evolves_mk] | (split)

theorem chanFetch_evolves {io : RegIo} {r : Req} {managed : Bool} {sva : Nat} {n : Nat} (hr : ∀ s0 s y n, Evolves s0 s → Evolves s0 (io.read s y n).2) (hw : ∀ s0 s y b, Evolves s0 s → Evolves s0 (io.write s y b)) : (chanFetch io r managed sva n : Op (List Byte)).evolves := by
  unfold chanFetch
  repeat' first
    | intro _ | with_reducible assumption | with_reducible exact Evolves.refl _ | with_reducible apply atSva_evolves
    | with_reducible apply chanRead_evolves | with_reducible apply hr | with_reducible apply hw
    | with_reducible apply bind_evolves | with_reducible apply pure_evolves | with_reducible apply get_evolves
    | with_reducible apply upd_evolves | with_reducible apply throw_evolves | with_reducible apply ite_op_evolves
    | with_reducible apply modifyGet_evolves | with_reducible apply ask_evolves | with_reducible apply attempt_evolves
    | with_reducible apply mapM_evolves | with_reducible apply forM_evolves | with_reducible apply forIn_evolves
    | with_reducible apply foldlM_evolves | with_reducible apply evolves_ite | with_reducible apply evolves_foldl
    | with_reducible apply evolves_foldl_snd | with_reducible apply evolves_foldl_fst
    | with_reducible refine evolves_snd (by assumption) ?_ | with_reducible refine evolves_fst (by assumption) ?_
    | with_reducible refine evolves_exec (by assumption) ?_ ?_ | with_reducible refine evolves_ok (by assumption) ?_ ?_
    | with_reducible refine evolves_error (by assumption) ?_ ?_ | simp only [evolves_mk] | (split)

theorem chanStore_evolves {io : RegIo} {r : Req} {managed : Bool} {sva : Nat} {b : List Byte} (hr : ∀ s0 s y n, Evolves s0 s → Evolves s0 (io.read s y n).2) (hw : ∀ s0 s y b, Evolves s0 s → Evolves s0 (io.write s y b)) : (chanStore io r managed sva b : Op Bool).evolves := by
  unfold chanStore
  repeat' first
    | intro _ | with_reducible assumption | with_reducible exact Evolves.refl _ | with_reducible apply atSva_evolves
    | with_reducible apply chanWrite_evolves | with_reducible apply hr | with_reducible apply hw
    | with_reducible apply bind_evolves | with_reducible apply pure_evolves | with_reducible apply get_evolves
    | with_reducible apply upd_evolves | with_reducible apply throw_evolves | with_reducible apply ite_op_evolves
    | with_reducible apply modifyGet_evolves | with_reducible apply ask_evolves | with_reducible apply attempt_evolves
    | with_reducible apply mapM_evolves | with_reducible apply forM_evolves | with_reducible apply forIn_evolves
    | with_reducible apply foldlM_evolves | with_reducible apply evolves_ite | with_reducible apply evolves_foldl
    | with_reducible apply evolves_foldl_snd | with_reducible apply evolves_foldl_fst
    | with_reducible refine evolves_snd (by assumption) ?_ | with_reducible refine evolves_fst (by assumption) ?_
    | with_reducible refine evolves_exec (by assumption) ?_ ?_ | with_reducible refine evolves_ok (by assumption) ?_ ?_
    | with_reducible refine evolves_error (by assumption) ?_ ?_ | simp only [evolves_mk] | (split)

theorem setBuf_evolves {s0 s : State} {c : Nat} {b : List Byte} (h : Evolves s0 s) : Evolves s0 (setBuf s c b) := by
  unfold setBuf
  repeat' first
    | intro _ | with_reducible assumption | with_reducible exact Evolves.refl _ | with_reducible apply setFld_evolves
    | with_reducible apply State.setSlu_evolves | with_reducible apply evolves_ite | with_reducible apply evolves_foldl
    | with_reducible apply evolves_foldl_snd | with_reducible apply evolves_foldl_fst
    | with_reducible refine evolves_snd (by assumption) ?_ | with_reducible refine evolves_fst (by assumption) ?_
    | simp only [evolves_mk] | (split)

theorem nextBytes_evolves {io : RegIo} {c : Nat} {d : Desc} {n : Nat} (hr : ∀ s0 s y n, Evolves s0 s → Evolves s0 (io.read s y n).2) (hw : ∀ s0 s y b, Evolves s0 s → Evolves s0 (io.write s y b)) : (nextBytes io c d n : Op (List Byte)).evolves := by
  unfold nextBytes
  repeat' first
    | intro _ | with_reducible assumption | with_reducible exact Evolves.refl _ | with_reducible apply chanFetch_evolves
    | with_reducible apply setBuf_evolves | with_reducible apply hr | with_reducible apply hw
    | with_reducible apply bind_evolves | with_reducible apply pure_evolves | with_reducible apply get_evolves
    | with_reducible apply upd_evolves | with_reducible apply throw_evolves | with_reducible apply ite_op_evolves
    | with_reducible apply modifyGet_evolves | with_reducible apply ask_evolves | with_reducible apply attempt_evolves
    | with_reducible apply mapM_evolves | with_reducible apply forM_evolves | with_reducible apply forIn_evolves
    | with_reducible apply foldlM_evolves | with_reducible apply evolves_ite | with_reducible apply evolves_foldl
    | with_reducible apply evolves_foldl_snd | with_reducible apply evolves_foldl_fst
    | with_reducible refine evolves_snd (by assumption) ?_ | with_reducible refine evolves_fst (by assumption) ?_
    | with_reducible refine evolves_exec (by assumption) ?_ ?_ | with_reducible refine evolves_ok (by assumption) ?_ ?_
    | with_reducible refine evolves_error (by assumption) ?_ ?_ | simp only [evolves_mk] | (split)

theorem destBytes_evolves {d : Desc} {b : List Byte} : (destBytes d b : Op (List Byte)).evolves := by
  unfold destBytes
  repeat' first
    | intro _ | with_reducible assumption | with_reducible exact Evolves.refl _ | with_reducible apply freeBytes_evolves
    | with_reducible apply bind_evolves | with_reducible apply pure_evolves | with_reducible apply get_evolves
    | with_reducible apply upd_evolves | with_reducible apply throw_evolves | with_reducible apply ite_op_evolves
    | with_reducible apply modifyGet_evolves | with_reducible apply ask_evolves | with_reducible apply attempt_evolves
    | with_reducible apply mapM_evolves | with_reducible apply forM_evolves | with_reducible apply forIn_evolves
    | with_reducible apply foldlM_evolves | with_reducible apply evolves_ite | with_reducible apply evolves_foldl
    | with_reducible apply evolves_foldl_snd | with_reducible apply evolves_foldl_fst
    | with_reducible refine evolves_snd (by assumption) ?_ | with_reducible refine evolves_fst (by assumption) ?_
    | with_reducible refine evolves_exec (by assumption) ?_ ?_ | with_reducible refine evolves_ok (by assumption) ?_ ?_
    | with_reducible refine evolves_error (by assumption) ?_ ?_ | simp only [evolves_mk] | (split)

theorem noteMoved_evolves {s0 s : State} {c : Nat} {d : Desc} {b : List Byte} {host : Bool} (h : Evolves s0 s) : Evolves s0 (noteMoved s c d b host) := by
  unfold noteMoved
  repeat' first
    | intro _ | with_reducible assumption | with_reducible exact Evolves.refl _ | with_reducible apply State.setSlu_evolves
    | with_reducible apply stageTap_evolves | with_reducible apply State.setJob_evolves
    | with_reducible apply State.countReq_evolves | with_reducible apply setFld_evolves | with_reducible apply evolves_ite
    | with_reducible apply evolves_foldl  | with_reducible apply evolves_foldl_snd | with_reducible apply evolves_foldl_fst
    | with_reducible refine evolves_snd (by assumption) ?_ | with_reducible refine evolves_fst (by assumption) ?_
    | simp only [evolves_mk] | (split)

theorem moveBytes_evolves {io : RegIo} {c : Nat} {d : Desc} {n : Nat} (hr : ∀ s0 s y n, Evolves s0 s → Evolves s0 (io.read s y n).2) (hw : ∀ s0 s y b, Evolves s0 s → Evolves s0 (io.write s y b)) : (moveBytes io c d n : Op Unit).evolves := by
  unfold moveBytes
  repeat' first
    | intro _ | with_reducible assumption | with_reducible exact Evolves.refl _ | with_reducible apply nextBytes_evolves
    | with_reducible apply destBytes_evolves | with_reducible apply chanStore_evolves
    | with_reducible apply noteMoved_evolves | with_reducible apply hr | with_reducible apply hw
    | with_reducible apply bind_evolves | with_reducible apply pure_evolves | with_reducible apply get_evolves
    | with_reducible apply upd_evolves | with_reducible apply throw_evolves | with_reducible apply ite_op_evolves
    | with_reducible apply modifyGet_evolves | with_reducible apply ask_evolves | with_reducible apply attempt_evolves
    | with_reducible apply mapM_evolves | with_reducible apply forM_evolves | with_reducible apply forIn_evolves
    | with_reducible apply foldlM_evolves | with_reducible apply evolves_ite | with_reducible apply evolves_foldl
    | with_reducible apply evolves_foldl_snd | with_reducible apply evolves_foldl_fst
    | with_reducible refine evolves_snd (by assumption) ?_ | with_reducible refine evolves_fst (by assumption) ?_
    | with_reducible refine evolves_exec (by assumption) ?_ ?_ | with_reducible refine evolves_ok (by assumption) ?_ ?_
    | with_reducible refine evolves_error (by assumption) ?_ ?_ | simp only [evolves_mk] | (split)

theorem readAhead_evolves {s0 s : State} {io : RegIo} {c : Nat} {d : Desc} (hr : ∀ s0 s y n, Evolves s0 s → Evolves s0 (io.read s y n).2) (hw : ∀ s0 s y b, Evolves s0 s → Evolves s0 (io.write s y b)) (h : Evolves s0 s) : Evolves s0 (readAhead io s c d) := by
  unfold readAhead
  repeat' first
    | intro _ | with_reducible assumption | with_reducible exact Evolves.refl _ | with_reducible apply exec_evolves
    | with_reducible apply chanFetch_evolves | with_reducible apply setBuf_evolves | with_reducible apply hr
    | with_reducible apply hw | with_reducible apply evolves_ite | with_reducible apply evolves_foldl
    | with_reducible apply evolves_foldl_snd | with_reducible apply evolves_foldl_fst
    | with_reducible refine evolves_snd (by assumption) ?_ | with_reducible refine evolves_fst (by assumption) ?_
    | with_reducible refine evolves_exec (by assumption) ?_ ?_ | with_reducible refine evolves_ok (by assumption) ?_ ?_
    | with_reducible refine evolves_error (by assumption) ?_ ?_ | with_reducible apply bind_evolves
    | with_reducible apply pure_evolves | with_reducible apply get_evolves | with_reducible apply upd_evolves
    | with_reducible apply throw_evolves | with_reducible apply ite_op_evolves | with_reducible apply modifyGet_evolves
    | with_reducible apply ask_evolves | with_reducible apply attempt_evolves | with_reducible apply mapM_evolves
    | with_reducible apply forM_evolves | with_reducible apply forIn_evolves | with_reducible apply foldlM_evolves
    | simp only [evolves_mk] | (split)

theorem moveRest_evolves {io : RegIo} {c : Nat} {d : Desc} {a3 : Nat} (hr : ∀ s0 s y n, Evolves s0 s → Evolves s0 (io.read s y n).2) (hw : ∀ s0 s y b, Evolves s0 s → Evolves s0 (io.write s y b)) : (moveRest io c d a3 : Op Unit).evolves := by
  induction a3 with
  | zero =>
    unfold moveRest
    repeat' first
      | intro _ | with_reducible assumption | with_reducible exact Evolves.refl _ | with_reducible apply moveBytes_evolves
      | with_reducible apply hr | with_reducible apply hw | with_reducible apply bind_evolves
      | with_reducible apply pure_evolves | with_reducible apply get_evolves | with_reducible apply upd_evolves
      | with_reducible apply throw_evolves | with_reducible apply ite_op_evolves | with_reducible apply modifyGet_evolves
      | with_reducible apply ask_evolves | with_reducible apply attempt_evolves | with_reducible apply mapM_evolves
      | with_reducible apply forM_evolves | with_reducible apply forIn_evolves | with_reducible apply foldlM_evolves
      | with_reducible apply evolves_ite  | with_reducible apply evolves_foldl | with_reducible apply evolves_foldl_snd
      | with_reducible apply evolves_foldl_fst | with_reducible refine evolves_snd (by assumption) ?_
      | with_reducible refine evolves_fst (by assumption) ?_ | with_reducible refine evolves_exec (by assumption) ?_ ?_
      | with_reducible refine evolves_ok (by assumption) ?_ ?_ | with_reducible refine evolves_error (by assumption) ?_ ?_
      | simp only [evolves_mk] | (split)
  | succ n ih =>
    unfold moveRest
    repeat' first
      | intro _ | with_reducible apply ih | with_reducible assumption | with_reducible exact Evolves.refl _ | with_reducible apply moveBytes_evolves
      | with_reducible apply hr | with_reducible apply hw | with_reducible apply bind_evolves
      | with_reducible apply pure_evolves | with_reducible apply get_evolves | with_reducible apply upd_evolves
      | with_reducible apply throw_evolves | with_reducible apply ite_op_evolves | with_reducible apply modifyGet_evolves
      | with_reducible apply ask_evolves | with_reducible apply attempt_evolves | with_reducible apply mapM_evolves
      | with_reducible apply forM_evolves | with_reducible apply forIn_evolves | with_reducible apply foldlM_evolves
      | with_reducible apply evolves_ite  | with_reducible apply evolves_foldl | with_reducible apply evolves_foldl_snd
      | with_reducible apply evolves_foldl_fst | with_reducible refine evolves_snd (by assumption) ?_
      | with_reducible refine evolves_fst (by assumption) ?_ | with_reducible refine evolves_exec (by assumption) ?_ ?_
      | with_reducible refine evolves_ok (by assumption) ?_ ?_ | with_reducible refine evolves_error (by assumption) ?_ ?_
      | simp only [evolves_mk] | (split)

theorem moveDesc_evolves {io : RegIo} {c : Nat} {d : Desc} (hr : ∀ s0 s y n, Evolves s0 s → Evolves s0 (io.read s y n).2) (hw : ∀ s0 s y b, Evolves s0 s → Evolves s0 (io.write s y b)) : (moveDesc io c d : Op Unit).evolves := by
  unfold moveDesc
  repeat' first
    | intro _ | with_reducible assumption | with_reducible exact Evolves.refl _ | with_reducible apply moveRest_evolves
    | with_reducible apply hr | with_reducible apply hw | with_reducible apply bind_evolves
    | with_reducible apply pure_evolves | with_reducible apply get_evolves | with_reducible apply upd_evolves
    | with_reducible apply evolves_ite  | (split)

theorem endTap_evolves {s0 s : State} {c : Nat} (h : Evolves s0 s) : Evolves s0 (endTap s c) := by
  unfold endTap
  repeat' first
    | with_reducible assumption | with_reducible apply State.setCtx_evolves | with_reducible apply State.setSlu_evolves
    | with_reducible apply evolves_ite  | (split)

theorem chanFault_evolves {s0 s : State} {c : Nat} {o : Outc} (h : Evolves s0 s) : Evolves s0 (chanFault s c o) := by
  unfold chanFault
  repeat' first
    | with_reducible assumption | with_reducible apply setReg_evolves | with_reducible apply State.setSlu_evolves
    | with_reducible apply setFld_evolves | with_reducible apply setBuf_evolves | with_reducible apply State.devEvent_evolves
    | with_reducible apply endTap_evolves | with_reducible apply evolves_ite

theorem chanRelease_evolves {s0 s : State} {c : Nat} (h : Evolves s0 s) : Evolves s0 (chanRelease s c) := by
  unfold chanRelease
  repeat' first
    | with_reducible assumption | with_reducible apply chanIdle_evolves | with_reducible apply endTap_evolves

theorem dropTask_evolves {s0 s : State} {id : Nat} {part : Nat} (h : Evolves s0 s) : Evolves s0 (dropTask s id part) := by
  unfold dropTask
  repeat' first
    | with_reducible assumption | with_reducible apply fanCounts_evolves | with_reducible apply dropTasks_evolves

theorem chanJobFault_evolves {s0 s : State} {c : Nat} {id : Nat} {part : Nat} {e : Err} (h : Evolves s0 s) : Evolves s0 (chanJobFault s c id part e) := by
  unfold chanJobFault
  repeat' first
    | with_reducible assumption | with_reducible apply dropTask_evolves | with_reducible apply failJob_evolves
    | with_reducible apply chanRelease_evolves | with_reducible apply evolves_ite

theorem swapShadow_evolves {s0 s : State} {c : Nat} (h : Evolves s0 s) : Evolves s0 (swapShadow s c) := by
  have h1 : Evolves s0 ((chanStart s c 2 (s.fld F.sluChCfg_level c) 0).setFlag F.sluChStatus_shadow_armed c false) :=
    setFlag_evolves (chanStart_evolves h)
  unfold swapShadow
  dsimp only
  refine loadActive_evolves (State.setSlu_evolves ?_)
  split
  · rename_i e
    split at e
    · cases e
    · exact grantTap_evolves e h1
  · exact h1

theorem startShadow_evolves {s0 s : State} {c : Nat} (h : Evolves s0 s) : Evolves s0 (startShadow s c) := by
  unfold startShadow
  repeat' first
    | intro _ | with_reducible assumption | with_reducible exact Evolves.refl _ | with_reducible apply swapShadow_evolves
    | with_reducible apply setFld_evolves | with_reducible apply setFlag_evolves | with_reducible apply evolves_ite
    | with_reducible apply evolves_foldl  | with_reducible apply evolves_foldl_snd | with_reducible apply evolves_foldl_fst
    | with_reducible refine evolves_snd (by assumption) ?_ | with_reducible refine evolves_fst (by assumption) ?_
    | simp only [evolves_mk] | (split)

theorem startArmed_evolves {s0 s : State} (h : Evolves s0 s) : Evolves s0 (startArmed s) := by
  unfold startArmed
  repeat' first
    | intro _ | with_reducible assumption | with_reducible exact Evolves.refl _ | with_reducible apply startShadow_evolves
    | with_reducible apply evolves_ite  | with_reducible apply evolves_foldl | with_reducible apply evolves_foldl_snd
    | with_reducible apply evolves_foldl_fst | with_reducible refine evolves_snd (by assumption) ?_
    | with_reducible refine evolves_fst (by assumption) ?_ | simp only [evolves_mk] | (split)

theorem managerNext_evolves {s0 s : State} {c : Nat} (h : Evolves s0 s) : Evolves s0 (managerNext s c) := by
  unfold managerNext
  repeat' first
    | with_reducible assumption | with_reducible apply State.setSlu_evolves | with_reducible apply endTap_evolves
    | with_reducible apply setFld_evolves | with_reducible apply startShadow_evolves | with_reducible apply evolves_ite

theorem managerEnd_evolves {s0 s : State} {c : Nat} {d : Desc} (h : Evolves s0 s) : Evolves s0 (managerEnd s c d) := by
  unfold managerEnd
  repeat' first
    | intro _ | with_reducible assumption | with_reducible exact Evolves.refl _ | with_reducible apply exec_evolves
    | with_reducible apply recordTap_evolves | with_reducible apply chanFault_evolves
    | with_reducible apply managerNext_evolves | with_reducible apply State.devEvent_evolves
    | with_reducible apply evolves_ite  | with_reducible apply evolves_foldl | with_reducible apply evolves_foldl_snd
    | with_reducible apply evolves_foldl_fst | with_reducible refine evolves_snd (by assumption) ?_
    | with_reducible refine evolves_fst (by assumption) ?_ | with_reducible refine evolves_exec (by assumption) ?_ ?_
    | with_reducible refine evolves_ok (by assumption) ?_ ?_ | with_reducible refine evolves_error (by assumption) ?_ ?_
    | with_reducible apply bind_evolves | with_reducible apply pure_evolves | with_reducible apply get_evolves
    | with_reducible apply upd_evolves | with_reducible apply throw_evolves | with_reducible apply ite_op_evolves
    | with_reducible apply modifyGet_evolves | with_reducible apply ask_evolves | with_reducible apply attempt_evolves
    | with_reducible apply mapM_evolves | with_reducible apply forM_evolves | with_reducible apply forIn_evolves
    | with_reducible apply foldlM_evolves | simp only [evolves_mk] | (split)

theorem descDone_evolves {s0 s : State} {c : Nat} {d : Desc} (h : Evolves s0 s) : Evolves s0 (descDone s c d) := by
  unfold descDone
  repeat' first
    | with_reducible assumption | with_reducible apply State.setSlu_evolves | with_reducible apply State.countReq_evolves
    | with_reducible apply addWrap_evolves | with_reducible apply managerEnd_evolves | with_reducible apply closeTap_evolves
    | with_reducible apply State.setJob_evolves | with_reducible apply dropTask_evolves
    | with_reducible apply chanRelease_evolves | with_reducible apply loadActive_evolves
    | with_reducible apply setFld_evolves | simp only [evolves_mk] | (split)

theorem stageBlock_evolves {j : Job} {n : Nat} {c : TollCtx} : (stageBlock j n c : Op TollCtx).evolves := by
  unfold stageBlock
  repeat' first
    | intro _ | with_reducible assumption | with_reducible exact Evolves.refl _ | with_reducible apply stageMore_evolves
    | with_reducible apply bind_evolves | with_reducible apply pure_evolves | with_reducible apply get_evolves
    | with_reducible apply upd_evolves | with_reducible apply throw_evolves | with_reducible apply ite_op_evolves
    | with_reducible apply modifyGet_evolves | with_reducible apply ask_evolves | with_reducible apply attempt_evolves
    | with_reducible apply mapM_evolves | with_reducible apply forM_evolves | with_reducible apply forIn_evolves
    | with_reducible apply foldlM_evolves | with_reducible apply evolves_ite | with_reducible apply evolves_foldl
    | with_reducible apply evolves_foldl_snd | with_reducible apply evolves_foldl_fst
    | with_reducible refine evolves_snd (by assumption) ?_ | with_reducible refine evolves_fst (by assumption) ?_
    | with_reducible refine evolves_exec (by assumption) ?_ ?_ | with_reducible refine evolves_ok (by assumption) ?_ ?_
    | with_reducible refine evolves_error (by assumption) ?_ ?_ | simp only [evolves_mk] | (split)

theorem ctxTurn_evolves {s0 s : State} {n : Nat} {c : TollCtx} (h : Evolves s0 s) : Evolves s0 (ctxTurn s n c) := by
  unfold ctxTurn
  repeat' first
    | intro _ | with_reducible assumption | with_reducible exact Evolves.refl _ | with_reducible apply State.count_evolves
    | with_reducible apply State.setCtx_evolves | with_reducible apply managerEnd_evolves | with_reducible apply evolves_ite
    | with_reducible apply evolves_foldl  | with_reducible apply evolves_foldl_snd | with_reducible apply evolves_foldl_fst
    | with_reducible refine evolves_snd (by assumption) ?_ | with_reducible refine evolves_fst (by assumption) ?_
    | simp only [evolves_mk] | (split)

theorem blockAbsorb_evolves {s0 s : State} (h : Evolves s0 s) : Evolves s0 (blockAbsorb s) := by
  unfold blockAbsorb
  repeat' first
    | with_reducible assumption | with_reducible apply ctxTurn_evolves | with_reducible apply exec_evolves
    | with_reducible apply stageBlock_evolves | with_reducible apply failJob_evolves
    | with_reducible apply State.setCtx_evolves | with_reducible apply evolves_ite
    | with_reducible refine evolves_exec (by assumption) ?_ ?_ | simp only [evolves_mk] | (split)

theorem descBarrier_evolves {s0 s : State} {c : Nat} {d : Desc} (h : Evolves s0 s) : Evolves s0 (descBarrier s c d) := by
  unfold descBarrier
  repeat' first
    | with_reducible assumption | with_reducible apply State.countReq_evolves | with_reducible apply hostRequest_evolves
    | with_reducible apply State.setSlu_evolves | with_reducible apply descDone_evolves | with_reducible apply evolves_ite

theorem cutWrites_evolves {s0 s : State} {c : Nat} {d : Desc} {n : Nat} (h : Evolves s0 s) : Evolves s0 (cutWrites s c d n) := by
  unfold cutWrites
  repeat' first
    | intro _ | with_reducible assumption | with_reducible apply lateDiscard_evolves
    | with_reducible apply State.setSlu_evolves | with_reducible apply evolves_foldl

theorem chanStops_evolves {s0 s : State} {c : Nat} {e : Err} (h : Evolves s0 s) : Evolves s0 (chanStops s c e) := by
  unfold chanStops
  repeat' first
    | intro _ | with_reducible assumption | with_reducible exact Evolves.refl _ | with_reducible apply chanJobFault_evolves
    | with_reducible apply chanFault_evolves | with_reducible apply evolves_ite | with_reducible apply evolves_foldl
    | with_reducible apply evolves_foldl_snd | with_reducible apply evolves_foldl_fst
    | with_reducible refine evolves_snd (by assumption) ?_ | with_reducible refine evolves_fst (by assumption) ?_
    | simp only [evolves_mk] | (split)

theorem moveBurst_evolves {s0 s : State} {io : RegIo} {c : Nat} {d : Desc} {n : Nat} (hr : ∀ s0 s y n, Evolves s0 s → Evolves s0 (io.read s y n).2) (hw : ∀ s0 s y b, Evolves s0 s → Evolves s0 (io.write s y b)) (h : Evolves s0 s) : Evolves s0 (moveBurst io s c d n) := by
  unfold moveBurst
  repeat' first
    | intro _ | with_reducible assumption | with_reducible exact Evolves.refl _ | with_reducible apply State.setSlu_evolves
    | with_reducible apply cutWrites_evolves | with_reducible apply exec_evolves | with_reducible apply moveBytes_evolves
    | with_reducible apply readAhead_evolves | with_reducible apply chanStops_evolves | with_reducible apply hr
    | with_reducible apply hw | with_reducible apply evolves_ite | with_reducible apply evolves_foldl
    | with_reducible apply evolves_foldl_snd | with_reducible apply evolves_foldl_fst
    | with_reducible refine evolves_snd (by assumption) ?_ | with_reducible refine evolves_fst (by assumption) ?_
    | with_reducible refine evolves_exec (by assumption) ?_ ?_ | with_reducible refine evolves_ok (by assumption) ?_ ?_
    | with_reducible refine evolves_error (by assumption) ?_ ?_ | with_reducible apply bind_evolves
    | with_reducible apply pure_evolves | with_reducible apply get_evolves | with_reducible apply upd_evolves
    | with_reducible apply throw_evolves | with_reducible apply ite_op_evolves | with_reducible apply modifyGet_evolves
    | with_reducible apply ask_evolves | with_reducible apply attempt_evolves | with_reducible apply mapM_evolves
    | with_reducible apply forM_evolves | with_reducible apply forIn_evolves | with_reducible apply foldlM_evolves
    | simp only [evolves_mk] | (split)

theorem descriptorComplete_evolves {s0 s : State} {io : RegIo} {c : Nat} (hr : ∀ s0 s y n, Evolves s0 s → Evolves s0 (io.read s y n).2) (hw : ∀ s0 s y b, Evolves s0 s → Evolves s0 (io.write s y b)) (h : Evolves s0 s) : Evolves s0 (descriptorComplete io s c) := by
  unfold descriptorComplete
  repeat' first
    | with_reducible assumption | with_reducible apply dropTask_evolves | with_reducible apply chanRelease_evolves
    | with_reducible apply cutWrites_evolves | with_reducible apply exec_evolves | with_reducible apply moveDesc_evolves
    | with_reducible apply descBarrier_evolves | with_reducible apply chanStops_evolves | with_reducible apply hr
    | with_reducible apply hw | with_reducible refine evolves_exec (by assumption) ?_ ?_ | simp only [evolves_mk] | (split)

theorem finishDescs_evolves {s0 s : State} {io : RegIo} (hr : ∀ s0 s y n, Evolves s0 s → Evolves s0 (io.read s y n).2) (hw : ∀ s0 s y b, Evolves s0 s → Evolves s0 (io.write s y b)) (h : Evolves s0 s) : Evolves s0 (finishDescs io s) := by
  unfold finishDescs
  repeat' first
    | intro _ | with_reducible assumption | with_reducible exact Evolves.refl _ | with_reducible apply exec_evolves
    | with_reducible apply moveDesc_evolves | with_reducible apply hr | with_reducible apply hw
    | with_reducible apply evolves_ite  | with_reducible apply evolves_foldl | with_reducible apply evolves_foldl_snd
    | with_reducible apply evolves_foldl_fst | with_reducible refine evolves_snd (by assumption) ?_
    | with_reducible refine evolves_fst (by assumption) ?_ | with_reducible refine evolves_exec (by assumption) ?_ ?_
    | with_reducible refine evolves_ok (by assumption) ?_ ?_ | with_reducible refine evolves_error (by assumption) ?_ ?_
    | with_reducible apply bind_evolves | with_reducible apply pure_evolves | with_reducible apply get_evolves
    | with_reducible apply upd_evolves | with_reducible apply throw_evolves | with_reducible apply ite_op_evolves
    | with_reducible apply modifyGet_evolves | with_reducible apply ask_evolves | with_reducible apply attempt_evolves
    | with_reducible apply mapM_evolves | with_reducible apply forM_evolves | with_reducible apply forIn_evolves
    | with_reducible apply foldlM_evolves | simp only [evolves_mk] | (split)

theorem chanFlushDone_evolves {s0 s : State} {c : Nat} (h : Evolves s0 s) : Evolves s0 (chanFlushDone s c) := by
  unfold chanFlushDone
  repeat' first
    | with_reducible assumption | with_reducible apply descDone_evolves | with_reducible apply State.setSlu_evolves
    | simp only [evolves_mk] | (split)

theorem giveMover_evolves {s0 s : State} {c : Nat} {m : Nat} (h : Evolves s0 s) : Evolves s0 (giveMover s c m) := by
  unfold giveMover
  repeat' first
    | with_reducible assumption | with_reducible apply State.setSlu_evolves | with_reducible apply setFld_evolves
    | with_reducible apply evolves_ite  | simp only [evolves_mk]

theorem loseMover_evolves {s0 s : State} {c : Nat} {st : Nat} (h : Evolves s0 s) : Evolves s0 (loseMover s c st) := by
  unfold loseMover
  repeat' first
    | with_reducible assumption | with_reducible apply setFld_evolves | with_reducible apply State.setSlu_evolves

theorem sampleLines_evolves {s0 s : State} (h : Evolves s0 s) : Evolves s0 (sampleLines s) := by
  unfold sampleLines
  repeat' first
    | intro _ | with_reducible assumption | with_reducible apply loseMover_evolves | with_reducible apply evolves_foldl

theorem endBurst_evolves {s0 s : State} {io : RegIo} {m : Nat} (hr : ∀ s0 s y n, Evolves s0 s → Evolves s0 (io.read s y n).2) (hw : ∀ s0 s y b, Evolves s0 s → Evolves s0 (io.write s y b)) (h : Evolves s0 s) : Evolves s0 (endBurst io s m) := by
  unfold endBurst
  repeat' first
    | intro _ | with_reducible assumption | with_reducible exact Evolves.refl _ | with_reducible apply moveBurst_evolves
    | with_reducible apply State.setSlu_evolves | with_reducible apply hr | with_reducible apply hw
    | with_reducible apply evolves_ite  | with_reducible apply evolves_foldl | with_reducible apply evolves_foldl_snd
    | with_reducible apply evolves_foldl_fst | with_reducible refine evolves_snd (by assumption) ?_
    | with_reducible refine evolves_fst (by assumption) ?_ | simp only [evolves_mk] | (split)

theorem grantNext_evolves {s0 s : State} {m : Nat} (h : Evolves s0 s) : Evolves s0 (grantNext s m) := by
  unfold grantNext
  repeat' first
    | intro _ | with_reducible assumption | with_reducible exact Evolves.refl _ | with_reducible apply giveMover_evolves
    | with_reducible apply loseMover_evolves | with_reducible apply evolves_ite | with_reducible apply evolves_foldl
    | with_reducible apply evolves_foldl_snd | with_reducible apply evolves_foldl_fst
    | with_reducible refine evolves_snd (by assumption) ?_ | with_reducible refine evolves_fst (by assumption) ?_
    | simp only [evolves_mk] | (split)

theorem moverGrant_evolves {s0 s : State} {io : RegIo} {m : Nat} (hr : ∀ s0 s y n, Evolves s0 s → Evolves s0 (io.read s y n).2) (hw : ∀ s0 s y b, Evolves s0 s → Evolves s0 (io.write s y b)) (h : Evolves s0 s) : Evolves s0 (moverGrant io s m) := by
  unfold moverGrant
  repeat' first
    | with_reducible assumption | with_reducible apply grantNext_evolves | with_reducible apply sampleLines_evolves
    | with_reducible apply startTransfers_evolves | with_reducible apply startArmed_evolves
    | with_reducible apply endBurst_evolves | with_reducible apply hr | with_reducible apply hw
    | with_reducible apply evolves_ite  | simp only [evolves_mk] | (split)

theorem moveBeats_evolves {s0 s : State} {io : RegIo} {o : Nat} {beats : Nat} (hr : ∀ s0 s y n, Evolves s0 s → Evolves s0 (io.read s y n).2) (hw : ∀ s0 s y b, Evolves s0 s → Evolves s0 (io.write s y b)) (h : Evolves s0 s) : Evolves s0 (moveBeats io s o beats) := by
  unfold moveBeats
  repeat' first
    | intro _ | with_reducible assumption | with_reducible exact Evolves.refl _ | with_reducible apply moveBurst_evolves
    | with_reducible apply State.setSlu_evolves | with_reducible apply hr | with_reducible apply hw
    | with_reducible apply evolves_ite  | with_reducible apply evolves_foldl | with_reducible apply evolves_foldl_snd
    | with_reducible apply evolves_foldl_fst | with_reducible refine evolves_snd (by assumption) ?_
    | with_reducible refine evolves_fst (by assumption) ?_ | simp only [evolves_mk] | (split)

theorem moverPreempt_evolves {s0 s : State} {io : RegIo} {c : Nat} {beats : Nat} (hr : ∀ s0 s y n, Evolves s0 s → Evolves s0 (io.read s y n).2) (hw : ∀ s0 s y b, Evolves s0 s → Evolves s0 (io.write s y b)) (h : Evolves s0 s) : Evolves s0 (moverPreempt io s c beats) := by
  unfold moverPreempt
  repeat' first
    | with_reducible assumption | with_reducible apply moveBeats_evolves | with_reducible apply State.countReq_evolves
    | with_reducible apply giveMover_evolves | with_reducible apply loseMover_evolves | with_reducible apply hr
    | with_reducible apply hw | with_reducible apply evolves_ite | (split)

theorem requestLine_evolves {s0 s : State} {l : Nat} {up : Bool} (h : Evolves s0 s) : Evolves s0 (requestLine s l up) := by
  unfold requestLine
  repeat' first
    | intro _ | with_reducible assumption | with_reducible apply setFld_evolves | with_reducible apply evolves_foldl
    | simp only [evolves_mk] | (split)

theorem chanError_evolves {s0 s : State} {c : Nat} (h : Evolves s0 s) : Evolves s0 (chanError s c) := by
  unfold chanError
  repeat' first
    | with_reducible assumption | with_reducible apply setFlag_evolves

theorem armChannel_evolves {s0 s : State} {c : Nat} (h : Evolves s0 s) : Evolves s0 (armChannel s c) := by
  unfold armChannel
  repeat' first
    | with_reducible assumption | with_reducible apply chanError_evolves | with_reducible apply startShadow_evolves
    | with_reducible apply setFlag_evolves | with_reducible apply evolves_ite

theorem stopChannel_evolves {s0 s : State} {c : Nat} (h : Evolves s0 s) : Evolves s0 (stopChannel s c) := by
  unfold stopChannel
  repeat' first
    | with_reducible assumption | with_reducible apply chanError_evolves | with_reducible apply setFld_evolves | (split)

theorem resumeChannel_evolves {s0 s : State} {c : Nat} (h : Evolves s0 s) : Evolves s0 (resumeChannel s c) := by
  unfold resumeChannel
  repeat' first
    | with_reducible assumption | with_reducible apply chanError_evolves | with_reducible apply startShadow_evolves
    | with_reducible apply setFld_evolves | with_reducible apply evolves_ite | (split)

theorem sluCtlWrite_evolves {s0 s : State} {c : Nat} {v : Nat} (h : Evolves s0 s) : Evolves s0 (sluCtlWrite s c v) := by
  unfold sluCtlWrite
  repeat' first
    | with_reducible assumption | with_reducible apply setFlag_evolves | with_reducible apply armChannel_evolves
    | with_reducible apply stopChannel_evolves | with_reducible apply resumeChannel_evolves
    | with_reducible apply evolves_ite 

theorem sluCfgWrite_evolves {s0 s : State} {c : Nat} {v : Nat} (h : Evolves s0 s) : Evolves s0 (sluCfgWrite s c v) := by
  unfold sluCfgWrite
  repeat' first
    | with_reducible assumption | with_reducible apply setFld_evolves | with_reducible apply setFlag_evolves
    | with_reducible apply chanError_evolves | with_reducible apply evolves_ite

theorem shadowWrite_evolves {s0 s : State} {r : Reg} {c : Nat} {v : Nat} (h : Evolves s0 s) : Evolves s0 (shadowWrite s r c v) := by
  unfold shadowWrite
  repeat' first
    | with_reducible assumption | with_reducible apply chanError_evolves | with_reducible apply setReg_evolves
    | with_reducible apply evolves_ite 

end Sys2Proof.Machine
end

