-- ==== Sys2Proof/Laws/EvQuern.lean ====
section
/-! SUPPORT. The functions of Machine/Quern.lean only evolve the state (Safety.lean, Evolves). -/

namespace Sys2Proof.Machine

theorem State.setQuern_evolves {s0 s : State} {q : Nat} {x : Option Quern} (h : Evolves s0 s) : Evolves s0 (State.setQuern s q x) := by
  unfold State.setQuern
  repeat' first
    | with_reducible assumption | with_reducible apply evolves_ite | simp only [evolves_mk]

theorem emptyTap_evolves {s0 s : State} {j : Job} (h : Evolves s0 s) : Evolves s0 (emptyTap s j) := by
  unfold emptyTap
  repeat' first
    | with_reducible assumption | with_reducible apply exec_evolves | with_reducible apply writeTap_evolves
    | with_reducible apply okJob_evolves | with_reducible apply failJob_evolves
    | with_reducible refine evolves_exec (by assumption) ?_ ?_ | (split)

theorem compressOp_evolves {s0 s : State} {id : Nat} (h : Evolves s0 s) : Evolves s0 (compressOp s id) := by
  unfold compressOp
  repeat' first
    | with_reducible assumption | with_reducible apply emptyTap_evolves | with_reducible apply setTasks_evolves
    | with_reducible apply finishJob_evolves | with_reducible apply evolves_ite | (split)

theorem decompressOp_evolves {s0 s : State} {id : Nat} (h : Evolves s0 s) : Evolves s0 (decompressOp s id) := by
  unfold decompressOp
  repeat' first
    | with_reducible assumption | with_reducible apply emptyTap_evolves | with_reducible apply finishJob_evolves
    | with_reducible apply setTasks_evolves | with_reducible apply evolves_ite | (split)

theorem freeQuern_evolves {s0 s : State} {q : Nat} (h : Evolves s0 s) : Evolves s0 (freeQuern s q) := by
  unfold freeQuern
  repeat' first
    | with_reducible assumption | with_reducible apply State.setCtx_evolves | with_reducible apply freeEngineChan_evolves
    | with_reducible apply State.setQuern_evolves | (split)

theorem addTotals_evolves {s0 s : State} {id : Nat} {n : Nat} (h : Evolves s0 s) : Evolves s0 (addTotals s id n) := by
  unfold addTotals
  repeat' first
    | with_reducible assumption | with_reducible apply State.setJob_evolves

theorem codeBlock_evolves {j : Job} {q : Nat} {x : Quern} : (codeBlock j q x : Op Staged).evolves := by
  unfold codeBlock
  repeat' first
    | intro _ | with_reducible exact Evolves.refl _ | with_reducible apply readMem_evolves
    | with_reducible apply State.countReq_evolves | with_reducible apply bind_evolves | with_reducible apply pure_evolves
    | with_reducible apply upd_evolves | with_reducible apply throw_evolves | simp only [evolves_mk] | (split)

theorem unblock_evolves {j : Job} {q : Nat} {x : Quern} : (unblock j q x : Op Staged).evolves := by
  unfold unblock
  repeat' first
    | intro _ | with_reducible exact Evolves.refl _ | with_reducible apply readMem_evolves
    | with_reducible apply State.countReq_evolves | with_reducible apply bind_evolves | with_reducible apply pure_evolves
    | with_reducible apply upd_evolves | with_reducible apply throw_evolves | with_reducible apply ite_op_evolves | (split)

theorem fillStaging_evolves {s0 s : State} {q : Nat} (h : Evolves s0 s) : Evolves s0 (fillStaging s q) := by
  unfold fillStaging
  repeat' first
    | intro _ | with_reducible assumption | with_reducible exact Evolves.refl _ | with_reducible apply exec_evolves
    | with_reducible apply unblock_evolves | with_reducible apply codeBlock_evolves
    | with_reducible apply State.setQuern_evolves | with_reducible apply evolves_ite | with_reducible apply evolves_foldl
    | with_reducible apply evolves_foldl_snd | with_reducible apply evolves_foldl_fst
    | with_reducible refine evolves_snd (by assumption) ?_ | with_reducible refine evolves_fst (by assumption) ?_
    | with_reducible refine evolves_exec (by assumption) ?_ ?_ | with_reducible refine evolves_ok (by assumption) ?_ ?_
    | with_reducible refine evolves_error (by assumption) ?_ ?_ | with_reducible apply bind_evolves
    | with_reducible apply pure_evolves | with_reducible apply get_evolves | with_reducible apply upd_evolves
    | with_reducible apply throw_evolves | with_reducible apply ite_op_evolves | with_reducible apply modifyGet_evolves
    | with_reducible apply ask_evolves | with_reducible apply attempt_evolves | with_reducible apply mapM_evolves
    | with_reducible apply forM_evolves | with_reducible apply forIn_evolves | with_reducible apply foldlM_evolves
    | simp only [evolves_mk] | (split)

theorem quernDispatch_evolves {s0 s : State} {j : Job} {part : Nat} {q : Nat} (h : Evolves s0 s) : Evolves s0 (quernDispatch s j part q) := by
  unfold quernDispatch
  repeat' first
    | with_reducible assumption | with_reducible apply fillStaging_evolves | with_reducible apply State.setQuern_evolves
    | with_reducible refine takeEngineChan_evolves (by assumption) ?_ | (split)

theorem writeStaged_evolves {j : Job} {q : Nat} {x : Quern} {b : Staged} : (writeStaged j q x b : Op Unit).evolves := by
  unfold writeStaged
  repeat' first
    | intro _ | with_reducible assumption | with_reducible exact Evolves.refl _ | with_reducible apply jobWrite_evolves
    | with_reducible apply State.countReq_evolves | with_reducible apply bind_evolves | with_reducible apply pure_evolves
    | with_reducible apply get_evolves | with_reducible apply upd_evolves | with_reducible apply throw_evolves
    | with_reducible apply ite_op_evolves | with_reducible apply modifyGet_evolves | with_reducible apply ask_evolves
    | with_reducible apply attempt_evolves | with_reducible apply mapM_evolves | with_reducible apply forM_evolves
    | with_reducible apply forIn_evolves | with_reducible apply foldlM_evolves | with_reducible apply evolves_ite
    | with_reducible apply evolves_foldl  | with_reducible apply evolves_foldl_snd | with_reducible apply evolves_foldl_fst
    | with_reducible refine evolves_snd (by assumption) ?_ | with_reducible refine evolves_fst (by assumption) ?_
    | with_reducible refine evolves_exec (by assumption) ?_ ?_ | with_reducible refine evolves_ok (by assumption) ?_ ?_
    | with_reducible refine evolves_error (by assumption) ?_ ?_ | simp only [evolves_mk] | (split)

theorem quernError_evolves {s0 s : State} {q : Nat} {j : Job} {o : Outc} (h : Evolves s0 s) : Evolves s0 (quernError s q j o) := by
  unfold quernError
  repeat' first
    | with_reducible assumption | with_reducible apply State.countReq_evolves | with_reducible apply setReg_evolves
    | with_reducible apply evolves_ite 

theorem stagedWork_evolves {j : Job} {q : Nat} {x : Quern} {b : Staged} {rest : List Staged} : (stagedWork j q x b rest : Op Unit).evolves := by
  unfold stagedWork
  repeat' first
    | intro _ | with_reducible assumption | with_reducible exact Evolves.refl _ | with_reducible apply writeStaged_evolves
    | with_reducible apply stageTap_evolves | with_reducible apply addTotals_evolves
    | with_reducible apply State.setQuern_evolves | with_reducible apply closeTap_evolves | with_reducible apply bind_evolves
    | with_reducible apply pure_evolves | with_reducible apply get_evolves | with_reducible apply upd_evolves
    | with_reducible apply throw_evolves | with_reducible apply ite_op_evolves | with_reducible apply modifyGet_evolves
    | with_reducible apply ask_evolves | with_reducible apply attempt_evolves | with_reducible apply mapM_evolves
    | with_reducible apply forM_evolves | with_reducible apply forIn_evolves | with_reducible apply foldlM_evolves
    | with_reducible apply evolves_ite  | with_reducible apply evolves_foldl | with_reducible apply evolves_foldl_snd
    | with_reducible apply evolves_foldl_fst | with_reducible refine evolves_snd (by assumption) ?_
    | with_reducible refine evolves_fst (by assumption) ?_ | with_reducible refine evolves_exec (by assumption) ?_ ?_
    | with_reducible refine evolves_ok (by assumption) ?_ ?_ | with_reducible refine evolves_error (by assumption) ?_ ?_
    | simp only [evolves_mk] | (split)

theorem blockStaged_evolves {s0 s : State} {q : Nat} (h : Evolves s0 s) : Evolves s0 (blockStaged s q) := by
  unfold blockStaged
  repeat' first
    | intro _ | with_reducible assumption | with_reducible exact Evolves.refl _ | with_reducible apply dropTask_evolves
    | with_reducible apply freeQuern_evolves | with_reducible apply fillStaging_evolves | with_reducible apply exec_evolves
    | with_reducible apply stagedWork_evolves | with_reducible apply quernError_evolves
    | with_reducible apply failJob_evolves | with_reducible apply evolves_ite | with_reducible apply evolves_foldl
    | with_reducible apply evolves_foldl_snd | with_reducible apply evolves_foldl_fst
    | with_reducible refine evolves_snd (by assumption) ?_ | with_reducible refine evolves_fst (by assumption) ?_
    | with_reducible refine evolves_exec (by assumption) ?_ ?_ | with_reducible refine evolves_ok (by assumption) ?_ ?_
    | with_reducible refine evolves_error (by assumption) ?_ ?_ | with_reducible apply bind_evolves
    | with_reducible apply pure_evolves | with_reducible apply get_evolves | with_reducible apply upd_evolves
    | with_reducible apply throw_evolves | with_reducible apply ite_op_evolves | with_reducible apply modifyGet_evolves
    | with_reducible apply ask_evolves | with_reducible apply attempt_evolves | with_reducible apply mapM_evolves
    | with_reducible apply forM_evolves | with_reducible apply forIn_evolves | with_reducible apply foldlM_evolves
    | simp only [evolves_mk] | (split)

end Sys2Proof.Machine
end

