-- ==== Sys2Proof/Laws/EvQueues.lean ====
section
/-! SUPPORT. The functions of Machine/Queues.lean only evolve the state (Safety.lean, Evolves). -/

namespace Sys2Proof.Machine

theorem queueEnable_evolves {s0 s : State} {gq : Nat} {value : Nat} (h : Evolves s0 s) : Evolves s0 (queueEnable s gq value) := by
  unfold queueEnable
  repeat' first
    | with_reducible assumption | with_reducible apply setReg_evolves | with_reducible apply setFlag_evolves
    | with_reducible apply setFld_evolves | with_reducible apply State.setQueue_evolves | with_reducible apply evolves_ite

theorem sampleSlot_evolves {s0 s : State} {gq : Nat} {index : Nat} (h : Evolves s0 s) : Evolves s0 (sampleSlot s gq index).2 := by
  unfold sampleSlot
  repeat' first
    | intro _ | with_reducible assumption | with_reducible apply readMem_evolves | with_reducible apply exec_evolves
    | with_reducible refine evolves_exec (by assumption) ?_ ?_ | with_reducible apply bind_evolves
    | with_reducible apply pure_evolves | simp only [evolves_mk] | (split)

theorem issueRead_evolves {s0 s : State} {gq : Nat} (h : Evolves s0 s) : Evolves s0 (issueRead s gq) := by
  unfold issueRead
  repeat' first
    | with_reducible assumption | with_reducible apply sampleSlot_evolves | with_reducible apply State.setQueue_evolves
    | with_reducible apply setFld_evolves | with_reducible apply queueFlags_evolves | with_reducible apply evolves_ite
    | simp only [evolves_mk]

theorem drainChain_evolves {s0 s : State} {gq : Nat} (h : Evolves s0 s) : Evolves s0 (drainChain s gq) := by
  unfold drainChain
  repeat' first
    | with_reducible assumption | with_reducible apply issueRead_evolves | (split)

theorem queueDisable_evolves {s0 s : State} {gq : Nat} {value : Nat} (h : Evolves s0 s) : Evolves s0 (queueDisable s gq value) := by
  unfold queueDisable
  repeat' first
    | with_reducible assumption | with_reducible apply setReg_evolves | with_reducible apply timerCheck_evolves
    | with_reducible apply drainChain_evolves | with_reducible apply evolves_ite

theorem wqCfgWrite_evolves {s0 s : State} {gq : Nat} {value : Nat} (h : Evolves s0 s) : Evolves s0 (wqCfgWrite s gq value) := by
  unfold wqCfgWrite
  repeat' first
    | with_reducible assumption | with_reducible apply queueEnable_evolves | with_reducible apply queueDisable_evolves
    | with_reducible apply setFld_evolves | with_reducible apply setReg_evolves | (split)

theorem doorbell_evolves {s0 s : State} {gq : Nat} {d : Nat} (h : Evolves s0 s) : Evolves s0 (doorbell s gq d) := by
  unfold doorbell
  repeat' first
    | with_reducible assumption | with_reducible apply State.count_evolves | with_reducible apply setFlag_evolves
    | with_reducible apply haltSlice_evolves | with_reducible apply setReg_evolves | with_reducible apply timerStop_evolves
    | with_reducible apply hostSync_evolves | with_reducible apply evolves_ite

theorem poll_evolves {s0 s : State} {gq : Nat} (h : Evolves s0 s) : Evolves s0 (poll s gq) := by
  unfold poll
  repeat' first
    | with_reducible assumption | with_reducible apply exec_evolves | with_reducible apply readMem_evolves
    | with_reducible apply ringFault_evolves | with_reducible apply State.setQueue_evolves
    | with_reducible apply hostSync_evolves | with_reducible apply setReg_evolves | with_reducible apply State.count_evolves
    | with_reducible apply timerStop_evolves | with_reducible apply timerCheck_evolves | with_reducible apply evolves_ite
    | with_reducible refine evolves_exec (by assumption) ?_ ?_ | simp only [evolves_mk] | (split)

theorem turnReads_evolves {s0 a1 : State} {a0 : Nat} {a2 : Nat} (h : Evolves s0 a1) : Evolves s0 (turnReads a0 a1 a2) := by
  induction a0 generalizing a1 with
  | zero =>
    unfold turnReads
    repeat' first
      | intro _ | with_reducible assumption | with_reducible apply issueRead_evolves | with_reducible apply subFld_evolves
      | with_reducible apply evolves_ite 
  | succ n ih =>
    unfold turnReads
    repeat' first
      | intro _ | with_reducible apply ih | with_reducible assumption | with_reducible apply issueRead_evolves | with_reducible apply subFld_evolves
      | with_reducible apply evolves_ite 

theorem passStop_evolves {s0 s : State} {p : Option (Nat × Bool)} (h : Evolves s0 s) : Evolves s0 (passStop s p) := by
  unfold passStop
  repeat' first
    | intro _ | with_reducible assumption | with_reducible exact Evolves.refl _ | with_reducible apply evolves_ite
    | with_reducible apply evolves_foldl  | with_reducible apply evolves_foldl_snd | with_reducible apply evolves_foldl_fst
    | with_reducible refine evolves_snd (by assumption) ?_ | with_reducible refine evolves_fst (by assumption) ?_
    | simp only [evolves_mk] | (split)

theorem visit_evolves {s0 : State} {acc : State × Bool} {gq : Nat} (h : Evolves s0 acc.1) : Evolves s0 (visit acc gq).1 := by
  unfold visit
  dsimp only
  split
  · exact h
  · split
    · exact passStop_evolves h
    · split
      · exact State.count_evolves (State.count_evolves (turnReads_evolves h))
      · exact h

theorem roundEnd_evolves {s0 s : State} (h : Evolves s0 s) : Evolves s0 (roundEnd s) := by
  unfold roundEnd
  repeat' first
    | intro _ | with_reducible assumption | with_reducible apply State.count_evolves | with_reducible apply addWrap_evolves
    | with_reducible apply setFld_evolves | with_reducible apply evolves_ite | with_reducible apply evolves_foldl

theorem weirPass_evolves {s0 s : State} (h : Evolves s0 s) : Evolves s0 (weirPass s) := by
  unfold weirPass
  repeat' first
    | intro _ | with_reducible assumption | with_reducible exact Evolves.refl _ | with_reducible apply visit_evolves
    | with_reducible apply passStop_evolves | with_reducible apply roundEnd_evolves | with_reducible apply evolves_ite
    | with_reducible apply evolves_foldl  | with_reducible apply evolves_foldl_snd | with_reducible apply evolves_foldl_fst
    | with_reducible refine evolves_snd (by assumption) ?_ | with_reducible refine evolves_fst (by assumption) ?_
    | simp only [evolves_mk] | (split)

theorem malformed_evolves {s0 s : State} {x : EntryCtx} {reason : Reason} (h : Evolves s0 s) : Evolves s0 (malformed s x reason) := by
  unfold malformed
  repeat' first
    | with_reducible assumption | with_reducible apply writeStatus_evolves | with_reducible apply closeChain_evolves
    | with_reducible apply State.count_evolves | with_reducible apply haltSlice_evolves | with_reducible apply evolves_ite

theorem handover_evolves {s0 s : State} {x : EntryCtx} {notBefore : EntryCtx → Nat} (h : Evolves s0 s) : Evolves s0 (handover s x notBefore) := by
  unfold handover
  repeat' first
    | with_reducible assumption | with_reducible apply State.setQueue_evolves | with_reducible apply State.count_evolves
    | with_reducible apply addWrap_evolves | with_reducible apply State.trace_evolves
    | with_reducible apply queueFlags_evolves | with_reducible apply fanCounts_evolves | with_reducible apply evolves_ite
    | simp only [evolves_mk]

theorem follow_evolves {s0 s : State} {x : EntryCtx} {c : Chain} (h : Evolves s0 s) : Evolves s0 (follow s x c) := by
  unfold follow
  repeat' first
    | with_reducible assumption | with_reducible apply State.setJob_evolves | with_reducible apply State.setQueue_evolves
    | with_reducible apply queueFlags_evolves

theorem entryFetch_evolves {s0 s : State} {operands : State → EntryCtx → OpRow → Option Nat} {notBefore : EntryCtx → Nat} {onFetch : State → EntryCtx → State} (hf : ∀ t x, Evolves s0 t → Evolves s0 (onFetch t x)) (h : Evolves s0 s) : Evolves s0 (entryFetch operands notBefore onFetch s) := by
  unfold entryFetch
  repeat' first
    | with_reducible assumption | with_reducible apply queueFlags_evolves | with_reducible apply lateDiscard_evolves
    | with_reducible apply haltSlice_evolves | with_reducible apply malformed_evolves | with_reducible apply follow_evolves
    | with_reducible apply handover_evolves | with_reducible apply timerCheck_evolves
    | with_reducible apply drainChain_evolves | with_reducible apply hf | simp only [evolves_mk] | (split)

end Sys2Proof.Machine
end

