-- ==== Sys2Proof/Laws/EvTxns.lean ====
section
/-! SUPPORT. The functions of Machine/Txns.lean only evolve the state (Safety.lean, Evolves). -/

namespace Sys2Proof.Machine

theorem beginFetched_evolves {s0 s : State} {j : Job} (h : Evolves s0 s) : Evolves s0 (beginFetched s j) := by
  unfold beginFetched
  repeat' first
    | with_reducible assumption | with_reducible apply openTxn_evolves | with_reducible apply State.setJob_evolves
    | with_reducible apply setFlag_evolves | with_reducible apply State.setQueue_evolves | with_reducible apply evolves_ite

theorem commitFetched_evolves {s0 s : State} {j : Job} (h : Evolves s0 s) : Evolves s0 (commitFetched s j) := by
  unfold commitFetched
  repeat' first
    | with_reducible assumption | with_reducible apply setFlag_evolves | with_reducible apply State.setQueue_evolves
    | with_reducible apply State.setTxn_evolves | (split)

theorem memberFetched_evolves {s0 s : State} {j : Job} (h : Evolves s0 s) : Evolves s0 (memberFetched s j) := by
  unfold memberFetched
  repeat' first
    | with_reducible assumption | with_reducible apply State.setTxn_evolves | with_reducible apply State.setJob_evolves
    | (split)

theorem beginOp_evolves {s0 s : State} {id : Nat} (h : Evolves s0 s) : Evolves s0 (beginOp s id) := by
  unfold beginOp
  repeat' first
    | with_reducible assumption | with_reducible apply finishJob_evolves | (split)

theorem commitOp_evolves {s0 s : State} {id : Nat} (h : Evolves s0 s) : Evolves s0 (commitOp s id) := by
  unfold commitOp
  repeat' first
    | with_reducible assumption | with_reducible apply finishJob_evolves | with_reducible apply abortTxn_evolves
    | with_reducible apply State.setJob_evolves | with_reducible apply State.setTxn_evolves | simp only [evolves_mk]
    | (split)

theorem snapshotOpen_evolves {s0 s : State} {id : Nat} (h : Evolves s0 s) : Evolves s0 (snapshotOpen s id) := by
  unfold snapshotOpen
  repeat' first
    | with_reducible assumption | with_reducible apply finishJob_evolves | with_reducible apply updateLow_evolves
    | with_reducible apply okJob_evolves | with_reducible apply State.setJob_evolves | simp only [evolves_mk] | (split)

theorem snapshotClose_evolves {s0 s : State} {id : Nat} (h : Evolves s0 s) : Evolves s0 (snapshotClose s id) := by
  unfold snapshotClose
  repeat' first
    | with_reducible assumption | with_reducible apply updateLow_evolves | with_reducible apply okJob_evolves
    | with_reducible apply State.setJob_evolves | with_reducible apply evolves_ite | simp only [evolves_mk] | (split)

theorem memberReleased_evolves {s0 s : State} {j : Job} {o : Outc} (h : Evolves s0 s) : Evolves s0 (memberReleased s j o) := by
  unfold memberReleased
  repeat' first
    | with_reducible assumption | with_reducible apply State.setTxn_evolves | (split)

theorem txnReleased_evolves {s0 s : State} {j : Job} (h : Evolves s0 s) : Evolves s0 (txnReleased s j) := by
  unfold txnReleased
  repeat' first
    | with_reducible assumption | with_reducible apply endTxn_evolves | with_reducible apply abortTxn_evolves | (split)

theorem sealAll_evolves {s0 s : State} (h : Evolves s0 s) : Evolves s0 (sealAll s) := by
  unfold sealAll
  repeat' first
    | intro _ | with_reducible assumption | with_reducible apply closeGroup_evolves
    | with_reducible apply sealDurable_evolves | with_reducible apply evolves_ite | with_reducible apply evolves_foldl
    | simp only [evolves_mk]

theorem powerFail_evolves {s0 s : State} (h : Evolves s0 s) : Evolves s0 (powerFail s) := by
  unfold powerFail
  repeat' first
    | with_reducible assumption | with_reducible apply sealAll_evolves | with_reducible apply setFlag_evolves
    | with_reducible apply evolves_ite  | simp only [evolves_mk]

theorem formatMpd_evolves {s0 s : State} (h : Evolves s0 s) : Evolves s0 (formatMpd s) := by
  unfold formatMpd
  repeat' first
    | with_reducible assumption | with_reducible apply mpdWrite_evolves

theorem landNow_evolves {s0 s : State} {v : Nat} {g : Nat} (h : Evolves s0 s) : Evolves s0 (landNow s v g) := by
  unfold landNow
  repeat' first
    | intro _ | with_reducible assumption | with_reducible apply landImage_evolves | with_reducible apply driveWrite_evolves
    | with_reducible apply driveDrop_evolves | with_reducible apply imagesLand_evolves | with_reducible apply evolves_ite
    | with_reducible apply evolves_foldl  | simp only [evolves_mk] | (split)

theorem landAll_evolves {s0 s : State} (h : Evolves s0 s) : Evolves s0 (landAll s) := by
  unfold landAll
  repeat' first
    | intro _ | with_reducible assumption | with_reducible apply landNow_evolves | with_reducible apply evolves_foldl

theorem recoverJournal_evolves {s0 s : State} (h : Evolves s0 s) : Evolves s0 (recoverJournal s) := by
  unfold recoverJournal
  repeat' first
    | with_reducible assumption | with_reducible apply setReg_evolves | with_reducible apply State.devEvent_evolves
    | with_reducible apply setFlag_evolves | with_reducible apply spaceUpdate_evolves
    | with_reducible apply openGroup_evolves | with_reducible apply evolves_ite | simp only [evolves_mk]

theorem recoverVolumes_evolves {s0 s : State} (h : Evolves s0 s) : Evolves s0 (recoverVolumes s) := by
  unfold recoverVolumes
  repeat' first
    | with_reducible assumption | with_reducible apply markDirty_evolves | with_reducible apply dirtyCount_evolves
    | with_reducible apply landAll_evolves | with_reducible apply evolves_ite | with_reducible apply evolves_foldl
    | simp only [evolves_mk]

end Sys2Proof.Machine
end

