-- ==== Sys2Proof/Laws/EvJobs.lean ====
section
/-! SUPPORT. The functions of Machine/Jobs.lean only evolve the state (Safety.lean, Evolves). -/

namespace Sys2Proof.Machine

theorem volOpFetched_evolves {s0 s : State} {j : Job} (h : Evolves s0 s) : Evolves s0 (volOpFetched s j) := by
  unfold volOpFetched
  repeat' first
    | with_reducible assumption | with_reducible apply keepCmds_evolves | with_reducible apply State.setJob_evolves
    | with_reducible apply recordProgress_evolves | with_reducible apply State.setVolOp_evolves | simp only [evolves_mk]

theorem volFetched_evolves {s0 s : State} {j : Job} (h : Evolves s0 s) : Evolves s0 (volFetched s j) := by
  unfold volFetched
  repeat' first
    | with_reducible assumption | with_reducible apply fixJob_evolves | with_reducible apply volOpFetched_evolves
    | with_reducible apply State.setJob_evolves | simp only [evolves_mk] | (split)

theorem epochFetched_evolves {s0 s : State} {j : Job} (h : Evolves s0 s) : Evolves s0 (epochFetched s j) := by
  unfold epochFetched
  repeat' first
    | with_reducible assumption | with_reducible apply fixJob_evolves | simp only [evolves_mk] | (split)

theorem vtapFetched_evolves {s0 s : State} {j : Job} (h : Evolves s0 s) : Evolves s0 (vtapFetched s j) := by
  unfold vtapFetched
  repeat' first
    | intro _ | with_reducible assumption | with_reducible exact Evolves.refl _ | with_reducible apply State.setJob_evolves
    | with_reducible apply evolves_ite  | with_reducible apply evolves_foldl | with_reducible apply evolves_foldl_snd
    | with_reducible apply evolves_foldl_fst | with_reducible refine evolves_snd (by assumption) ?_
    | with_reducible refine evolves_fst (by assumption) ?_ | simp only [evolves_mk] | (split)

theorem firstFetched_evolves {s0 s : State} {x : EntryCtx} (h : Evolves s0 s) : Evolves s0 (firstFetched s x) := by
  unfold firstFetched
  repeat' first
    | with_reducible assumption | with_reducible apply beginFetched_evolves | with_reducible apply commitFetched_evolves
    | with_reducible apply memberFetched_evolves | with_reducible apply State.setJob_evolves
    | with_reducible apply volFetched_evolves | with_reducible apply vtapFetched_evolves
    | with_reducible apply epochFetched_evolves | with_reducible apply evolves_ite | (split)

theorem fetchEntry_evolves {s0 s : State} (h : Evolves s0 s) : Evolves s0 (fetchEntry s) := by
  unfold fetchEntry
  repeat' first
    | with_reducible assumption | with_reducible apply entryFetch_evolves | with_reducible apply firstFetched_evolves

theorem nopOp_evolves {s0 s : State} {id : Nat} (h : Evolves s0 s) : Evolves s0 (nopOp s id) := by
  unfold nopOp
  repeat' first
    | with_reducible assumption | with_reducible apply okJob_evolves | (split)

theorem fenceOp_evolves {s0 s : State} {id : Nat} (h : Evolves s0 s) : Evolves s0 (fenceOp s id) := by
  unfold fenceOp
  repeat' first
    | with_reducible assumption | with_reducible apply okJob_evolves | (split)

theorem queryOp_evolves {s0 s : State} {id : Nat} (h : Evolves s0 s) : Evolves s0 (queryOp s id) := by
  unfold queryOp
  repeat' first
    | with_reducible assumption | with_reducible apply okJob_evolves | (split)

theorem dropHeld_evolves {s0 s : State} {t : Job} (h : Evolves s0 s) : Evolves s0 (dropHeld s t) := by
  unfold dropHeld
  repeat' first
    | with_reducible assumption | with_reducible apply State.setCtx_evolves | with_reducible apply endHandle_evolves
    | (split)

theorem abortTarget_evolves {s0 s : State} {t : Job} (h : Evolves s0 s) : Evolves s0 (abortTarget s t) := by
  unfold abortTarget
  repeat' first
    | with_reducible assumption | with_reducible apply closeChain_evolves | with_reducible apply spoilRead_evolves
    | with_reducible apply failJob_evolves | with_reducible apply State.setJob_evolves
    | with_reducible apply dropHeld_evolves | with_reducible apply dropJoins_evolves | with_reducible apply evolves_ite
    | simp only [evolves_mk]

theorem abortOp_evolves {s0 s : State} {id : Nat} (h : Evolves s0 s) : Evolves s0 (abortOp s id) := by
  unfold abortOp
  repeat' first
    | with_reducible assumption | with_reducible apply finishJob_evolves | with_reducible apply State.setJob_evolves
    | with_reducible apply abortTarget_evolves | (split)

theorem leaveTxn_evolves {s0 s : State} {j : Job} (h : Evolves s0 s) : Evolves s0 (leaveTxn s j) := by
  unfold leaveTxn
  repeat' first
    | with_reducible assumption | with_reducible apply State.setJob_evolves | with_reducible apply State.setTxn_evolves
    | (split)

theorem ownTxn_evolves {s0 s : State} {j : Job} (h : Evolves s0 s) : Evolves s0 (ownTxn s j) := by
  unfold ownTxn
  repeat' first
    | with_reducible assumption | with_reducible apply openTxn_evolves | with_reducible apply State.setJob_evolves
    | with_reducible apply State.setTxn_evolves

theorem jobEnd_evolves {s0 s : State} {id : Nat} (h : Evolves s0 s) : Evolves s0 (jobEnd s id) := by
  unfold jobEnd
  repeat' first
    | with_reducible assumption | with_reducible apply State.setTxn_evolves | with_reducible apply okJob_evolves
    | with_reducible apply finishJob_evolves | with_reducible apply volumeEnd_evolves | with_reducible apply evolves_ite
    | simp only [evolves_mk] | (split)

theorem pipeLoad_evolves {s0 s : State} {j : Job} (h : Evolves s0 s) : Evolves s0 (pipeLoad s j) := by
  unfold pipeLoad
  repeat' first
    | with_reducible assumption | with_reducible apply exec_evolves | with_reducible apply loadProgram_evolves
    | with_reducible apply fixJob_evolves | with_reducible apply leaveTxn_evolves | with_reducible apply State.setJob_evolves
    | with_reducible apply evolves_ite  | with_reducible refine evolves_exec (by assumption) ?_ ?_ | (split)

theorem pipeStart_evolves {s0 s : State} {j : Job} {p : Prog} (h : Evolves s0 s) : Evolves s0 (pipeStart s j p) := by
  unfold pipeStart
  repeat' first
    | with_reducible assumption | with_reducible apply finishJob_evolves | with_reducible apply ownTxn_evolves
    | with_reducible apply setTasks_evolves | with_reducible apply State.setJob_evolves | with_reducible apply jobEnd_evolves
    | with_reducible apply evolves_ite 

theorem pipeRunOp_evolves {s0 s : State} {id : Nat} (h : Evolves s0 s) : Evolves s0 (pipeRunOp s id) := by
  unfold pipeRunOp
  split
  · exact h
  · rename_i j _
    have h1 : Evolves s0 (if loadDue s j then pipeLoad s j else s) := evolves_ite (pipeLoad_evolves h) h
    generalize (if loadDue s j then pipeLoad s j else s) = s1 at h1
    dsimp only
    repeat' first
      | with_reducible assumption | with_reducible apply pipeStart_evolves
      | (split)

theorem pipeArgsOp_evolves {s0 s : State} {id : Nat} (h : Evolves s0 s) : Evolves s0 (pipeArgsOp s id) := by
  unfold pipeArgsOp
  repeat' first
    | with_reducible assumption | with_reducible apply State.setJob_evolves

theorem lookupOp_evolves {s0 s : State} {id : Nat} (h : Evolves s0 s) : Evolves s0 (lookupOp s id) := by
  unfold lookupOp
  repeat' first
    | with_reducible assumption | with_reducible apply okJob_evolves | with_reducible apply finishJob_evolves
    | with_reducible apply setTasks_evolves | with_reducible apply evolves_ite | (split)

theorem rowFetchOp_evolves {s0 s : State} {id : Nat} (h : Evolves s0 s) : Evolves s0 (rowFetchOp s id) := by
  unfold rowFetchOp
  repeat' first
    | intro _ | with_reducible assumption | with_reducible exact Evolves.refl _ | with_reducible apply stoneOp_evolves
    | with_reducible apply lookupOps_evolves | with_reducible apply State.setRun_evolves | with_reducible apply evolves_ite
    | with_reducible apply bind_evolves | with_reducible apply upd_evolves | (split)

theorem volumeJob_evolves {s0 s : State} {id : Nat} {op : Nat} (h : Evolves s0 s) : Evolves s0 (volumeJob s id op) := by
  unfold volumeJob
  repeat' first
    | with_reducible assumption | with_reducible apply finishJob_evolves | with_reducible apply volumeOp_evolves | (split)

theorem commitJob_evolves {s0 s : State} {id : Nat} (h : Evolves s0 s) : Evolves s0 (commitJob s id) := by
  unfold commitJob
  repeat' first
    | with_reducible assumption | with_reducible apply finishJob_evolves | with_reducible apply State.setTxn_evolves
    | with_reducible apply commitOp_evolves | with_reducible apply evolves_ite | (split)

theorem invalOp_evolves {s0 s : State} {id : Nat} {op : Nat} (h : Evolves s0 s) : Evolves s0 (invalOp s id op) := by
  unfold invalOp
  repeat' first
    | with_reducible assumption | with_reducible apply okJob_evolves | with_reducible apply State.setJob_evolves
    | with_reducible apply xltPurge_evolves | with_reducible apply evolves_ite | (split)

theorem invalComplete_evolves {s0 s : State} {job : Option Nat} (h : Evolves s0 s) : Evolves s0 (invalComplete s job) := by
  unfold invalComplete
  repeat' first
    | with_reducible assumption | with_reducible apply setFlag_evolves | with_reducible apply okJob_evolves | (split)

theorem delayOut_evolves {s0 s : State} {id : Nat} (h : Evolves s0 s) : Evolves s0 (delayOut s id) := by
  unfold delayOut
  repeat' first
    | with_reducible assumption | with_reducible apply leaveDelay_evolves | with_reducible apply clockTo_evolves | (split)

theorem chainTimeout_evolves {s0 s : State} {gq : Nat} (h : Evolves s0 s) : Evolves s0 (chainTimeout s gq) := by
  unfold chainTimeout
  repeat' first
    | with_reducible assumption | with_reducible apply clockTo_evolves | with_reducible apply chainFail_evolves
    | with_reducible apply timerStop_evolves | with_reducible apply evolves_ite | (split)

theorem storageDispatch_evolves {s0 s : State} {j : Job} {part : Nat} (h : Evolves s0 s) : Evolves s0 (storageDispatch s j part) := by
  unfold storageDispatch
  repeat' first
    | with_reducible assumption | with_reducible apply volDispatch_evolves
    | with_reducible refine takeEngineChan_evolves (by assumption) ?_ | simp only [evolves_mk] | (split)

theorem freeEngine_evolves {s0 s : State} {id : Nat} {part : Nat} (h : Evolves s0 s) : Evolves s0 (freeEngine s id part) := by
  unfold freeEngine
  repeat' first
    | with_reducible assumption | with_reducible apply freeEngineChan_evolves | with_reducible apply freeCtxs_evolves

theorem tollDispatch_evolves {s0 s : State} {j : Job} {part : Nat} (h : Evolves s0 s) : Evolves s0 (tollDispatch s j part) := by
  unfold tollDispatch
  repeat' first
    | with_reducible assumption | with_reducible apply digestDispatch_evolves | with_reducible apply contextDispatch_evolves
    | with_reducible refine takeEngineChan_evolves (by assumption) ?_ | (split)

theorem tapGrant_evolves {s0 s : State} {j : Job} {t : Task} (h : Evolves s0 s) : Evolves s0 (tapGrant s j t) := by
  unfold tapGrant
  repeat' first
    | intro _ | with_reducible assumption | with_reducible exact Evolves.refl _ | with_reducible apply State.setTask_evolves
    | with_reducible apply evolves_ite  | with_reducible apply evolves_foldl | with_reducible apply evolves_foldl_snd
    | with_reducible apply evolves_foldl_fst | with_reducible refine evolves_snd (by assumption) ?_
    | with_reducible refine evolves_fst (by assumption) ?_ | with_reducible refine grantTap_evolves (by assumption) ?_
    | simp only [evolves_mk] | (split)

theorem dispatchEngine_evolves {s0 s : State} {e : Engine} {unit : Nat} (h : Evolves s0 s) : Evolves s0 (dispatchEngine s e unit) := by
  unfold dispatchEngine
  repeat' first
    | with_reducible assumption | with_reducible apply State.setTask_evolves | with_reducible apply tapGrant_evolves
    | with_reducible apply quernDispatch_evolves | with_reducible apply tollDispatch_evolves
    | with_reducible apply sluiceDispatch_evolves | with_reducible apply storageDispatch_evolves | simp only [evolves_mk]
    | (split)

theorem dispatchHome_evolves {s0 s : State} {e : Engine} {unit : Nat} (h : Evolves s0 s) : Evolves s0 (dispatchHome s e unit) := by
  unfold dispatchHome
  repeat' first
    | with_reducible assumption | with_reducible apply dispatchStone_evolves | with_reducible apply dispatchEngine_evolves
    | (split)

theorem endTask_evolves {s0 s : State} {id : Nat} {part : Nat} (h : Evolves s0 s) : Evolves s0 (endTask s id part) := by
  unfold endTask
  repeat' first
    | with_reducible assumption | with_reducible apply jobEnd_evolves | with_reducible apply completeTask_evolves

theorem completeStone_evolves {s0 s : State} {id : Nat} {part : Nat} (h : Evolves s0 s) : Evolves s0 (completeStone s id part) := by
  unfold completeStone
  repeat' first
    | with_reducible assumption | with_reducible apply runAll_evolves | with_reducible apply lookupOps_evolves
    | with_reducible apply exec_evolves | with_reducible apply stoneError_evolves | with_reducible apply endTask_evolves
    | with_reducible apply freeStone_evolves | with_reducible apply evolves_ite
    | with_reducible refine evolves_exec (by assumption) ?_ ?_ | with_reducible apply pure_evolves | simp only [evolves_mk]
    | (split)

theorem tollWork_evolves {s0 s t : State} {j : Job} {part : Nat} {x} (e : tollWork s j part = some (x, t)) (h : Evolves s0 s) :
    Evolves s0 t := by
  unfold tollWork at e
  split at e
  · exact evolves_snd (Option.some.inj e) (saveWork_evolves h)
  · exact evolves_snd (Option.some.inj e) (restoreWork_evolves h)
  · exact digestComplete_evolves e h

theorem completeToll_evolves {s0 s : State} {j : Job} {part : Nat} (h : Evolves s0 s) : Evolves s0 (completeToll s j part) := by
  unfold completeToll
  repeat' first
    | with_reducible assumption | with_reducible apply freeEngineChan_evolves | with_reducible apply dropTask_evolves
    | with_reducible apply failJob_evolves | with_reducible apply freeCtxs_evolves | with_reducible apply endTask_evolves
    | with_reducible apply State.setJob_evolves | with_reducible apply evolves_ite
    | with_reducible refine tollWork_evolves (by assumption) ?_ | (split)

theorem completeStorage_evolves {s0 s : State} {j : Job} {part : Nat} (h : Evolves s0 s) : Evolves s0 (completeStorage s j part) := by
  unfold completeStorage
  repeat' first
    | with_reducible assumption | with_reducible apply exec_evolves | with_reducible apply recordTap_evolves
    | with_reducible apply dropTask_evolves | with_reducible apply failJob_evolves | with_reducible apply freeEngine_evolves
    | with_reducible apply endTask_evolves | with_reducible apply evolves_ite
    | with_reducible refine evolves_exec (by assumption) ?_ ?_ | (split)

theorem completeQuern_evolves {s0 s : State} {j : Job} {part : Nat} (h : Evolves s0 s) : Evolves s0 (completeQuern s j part) := by
  unfold completeQuern
  repeat' first
    | intro _ | with_reducible assumption | with_reducible exact Evolves.refl _ | with_reducible apply exec_evolves
    | with_reducible apply recordTap_evolves | with_reducible apply dropTask_evolves | with_reducible apply freeQuern_evolves
    | with_reducible apply failJob_evolves | with_reducible apply endTask_evolves | with_reducible apply evolves_ite
    | with_reducible apply evolves_foldl  | with_reducible apply evolves_foldl_snd | with_reducible apply evolves_foldl_fst
    | with_reducible refine evolves_snd (by assumption) ?_ | with_reducible refine evolves_fst (by assumption) ?_
    | with_reducible refine evolves_exec (by assumption) ?_ ?_ | with_reducible refine evolves_ok (by assumption) ?_ ?_
    | with_reducible refine evolves_error (by assumption) ?_ ?_ | with_reducible apply bind_evolves
    | with_reducible apply pure_evolves | with_reducible apply get_evolves | with_reducible apply upd_evolves
    | with_reducible apply throw_evolves | with_reducible apply ite_op_evolves | with_reducible apply modifyGet_evolves
    | with_reducible apply ask_evolves | with_reducible apply attempt_evolves | with_reducible apply mapM_evolves
    | with_reducible apply forM_evolves | with_reducible apply forIn_evolves | with_reducible apply foldlM_evolves
    | simp only [evolves_mk] | (split)

theorem completeSluice_evolves {s0 s : State} {j : Job} {part : Nat} (h : Evolves s0 s) : Evolves s0 (completeSluice s j part) := by
  unfold completeSluice
  repeat' first
    | intro _ | with_reducible assumption | with_reducible exact Evolves.refl _ | with_reducible apply endTask_evolves
    | with_reducible apply exec_evolves | with_reducible apply recordTap_evolves | with_reducible apply chanJobFault_evolves
    | with_reducible apply chanRelease_evolves | with_reducible apply evolves_ite | with_reducible apply evolves_foldl
    | with_reducible apply evolves_foldl_snd | with_reducible apply evolves_foldl_fst
    | with_reducible refine evolves_snd (by assumption) ?_ | with_reducible refine evolves_fst (by assumption) ?_
    | with_reducible refine evolves_exec (by assumption) ?_ ?_ | with_reducible refine evolves_ok (by assumption) ?_ ?_
    | with_reducible refine evolves_error (by assumption) ?_ ?_ | with_reducible apply bind_evolves
    | with_reducible apply pure_evolves | with_reducible apply get_evolves | with_reducible apply upd_evolves
    | with_reducible apply throw_evolves | with_reducible apply ite_op_evolves | with_reducible apply modifyGet_evolves
    | with_reducible apply ask_evolves | with_reducible apply attempt_evolves | with_reducible apply mapM_evolves
    | with_reducible apply forM_evolves | with_reducible apply forIn_evolves | with_reducible apply foldlM_evolves
    | simp only [evolves_mk] | (split)

theorem stopEngineTask_evolves {s0 s : State} {t : Task} (h : Evolves s0 s) : Evolves s0 (stopEngineTask s t) := by
  unfold stopEngineTask
  repeat' first
    | with_reducible assumption | with_reducible apply dropTask_evolves | with_reducible apply chanRelease_evolves
    | with_reducible apply freeQuern_evolves | with_reducible apply freeEngine_evolves | with_reducible apply evolves_ite
    | (split)

theorem taskComplete_evolves {s0 s : State} {id : Nat} {part : Nat} (h : Evolves s0 s) : Evolves s0 (taskComplete s id part) := by
  unfold taskComplete
  repeat' first
    | with_reducible assumption | with_reducible apply completeStone_evolves | with_reducible apply stopEngineTask_evolves
    | with_reducible apply completeQuern_evolves | with_reducible apply completeToll_evolves
    | with_reducible apply completeSluice_evolves | with_reducible apply completeStorage_evolves | (split)

theorem flowRelease_evolves {s0 s : State} {id : Nat} {part : Nat} (h : Evolves s0 s) : Evolves s0 (flowRelease s id part) := by
  unfold flowRelease
  repeat' first
    | with_reducible assumption | with_reducible apply jobEnd_evolves | with_reducible apply releaseTask_evolves
    | with_reducible apply State.trace_evolves | with_reducible apply evolves_ite | (split)

theorem volWaiters_evolves {s0 s : State} {id : Nat} (h : Evolves s0 s) : Evolves s0 (volWaiters s id) := by
  unfold volWaiters
  repeat' first
    | with_reducible assumption | with_reducible apply evolves_ite | simp only [evolves_mk]

theorem afterRelease_evolves {s0 s : State} {j : Job} {o : Outc} (h : Evolves s0 s) : Evolves s0 (afterRelease s j o) := by
  unfold afterRelease
  repeat' first
    | with_reducible assumption | with_reducible apply truncate_evolves | with_reducible apply updateLow_evolves
    | with_reducible apply volWaiters_evolves | with_reducible apply txnReleased_evolves
    | with_reducible apply memberReleased_evolves | with_reducible apply freeCtxs_evolves | with_reducible apply evolves_ite

theorem jobRelease_evolves {s0 s : State} {id : Nat} (h : Evolves s0 s) : Evolves s0 (jobRelease s id) := by
  unfold jobRelease
  repeat' first
    | with_reducible assumption | with_reducible apply tryRelease_evolves | with_reducible apply afterRelease_evolves
    | with_reducible apply evolves_ite  | (split)

theorem flushReadDone_evolves {s0 s : State} {t : FlushTarget} (h : Evolves s0 s) : Evolves s0 (flushReadDone s t) := by
  unfold flushReadDone
  repeat' first
    | with_reducible assumption | with_reducible apply jobRelease_evolves | with_reducible apply State.setJob_evolves
    | with_reducible apply chanFlushDone_evolves | (split)

theorem stoneReadFault_evolves {s0 s : State} {id : Nat} {e : Err} (h : Evolves s0 s) : Evolves s0 (stoneReadFault s id e) := by
  unfold stoneReadFault
  repeat' first
    | intro _ | with_reducible assumption | with_reducible exact Evolves.refl _ | with_reducible apply recordStnFault_evolves
    | with_reducible apply State.setRun_evolves | with_reducible apply evolves_ite | with_reducible apply evolves_foldl
    | with_reducible apply evolves_foldl_snd | with_reducible apply evolves_foldl_fst
    | with_reducible refine evolves_snd (by assumption) ?_ | with_reducible refine evolves_fst (by assumption) ?_
    | simp only [evolves_mk] | (split)

theorem accessFault_evolves {s0 s : State} {id : Nat} {cls : Nat} (h : Evolves s0 s) : Evolves s0 (accessFault s id cls) := by
  unfold accessFault
  repeat' first
    | intro _ | with_reducible assumption | with_reducible exact Evolves.refl _ | with_reducible apply finishJob_evolves
    | with_reducible apply claimsUndone_evolves | with_reducible apply failJob_evolves
    | with_reducible apply stoneReadFault_evolves | with_reducible apply evolves_ite | with_reducible apply evolves_foldl
    | with_reducible apply evolves_foldl_snd | with_reducible apply evolves_foldl_fst
    | with_reducible refine evolves_snd (by assumption) ?_ | with_reducible refine evolves_fst (by assumption) ?_
    | simp only [evolves_mk] | (split)

theorem hostCompletion_evolves {s0 s : State} {r : HostRead} {error : Bool} (h : Evolves s0 s) : Evolves s0 (hostCompletion s r error) := by
  unfold hostCompletion
  repeat' first
    | intro _ | with_reducible assumption | with_reducible exact Evolves.refl _ | with_reducible apply accessFault_evolves
    | with_reducible apply State.count_evolves | with_reducible apply evolves_ite | with_reducible apply evolves_foldl
    | with_reducible apply evolves_foldl_snd | with_reducible apply evolves_foldl_fst
    | with_reducible refine evolves_snd (by assumption) ?_ | with_reducible refine evolves_fst (by assumption) ?_
    | simp only [evolves_mk] | (split)

end Sys2Proof.Machine
end

