-- ==== Sys2Proof/Laws/EvMemEvents.lean ====
section
/-! SUPPORT. The functions of Machine/MemEvents.lean only evolve the state (Safety.lean, Evolves). -/

namespace Sys2Proof.Machine

theorem failAccess_evolves {s0 s : State} {job : Option Nat} {cls : Nat} (h : Evolves s0 s) : Evolves s0 (failAccess s job cls) := by
  unfold failAccess
  repeat' first
    | with_reducible assumption | with_reducible apply accessFault_evolves | (split)

theorem granError_evolves {s0 s : State} {line : Nat} {dirty : Bool} (h : Evolves s0 s) : Evolves s0 (granError s line dirty) := by
  unfold granError
  repeat' first
    | with_reducible assumption | with_reducible apply setReg_evolves | with_reducible apply State.devEvent_evolves
    | with_reducible apply evolves_ite 

theorem lineOp_evolves {s : State} {a : LineAccess} : (lineOp s a : Op Unit).evolves := by
  unfold lineOp
  repeat' first
    | intro _ | with_reducible apply granRead_evolves | with_reducible apply granWrite_evolves
    | with_reducible apply bind_evolves | with_reducible apply pure_evolves | (split)

theorem lineDo_evolves {s0 s : State} {a : LineAccess} (h : Evolves s0 s) : Evolves s0 (lineDo s a) := by
  unfold lineDo
  repeat' first
    | with_reducible assumption | with_reducible apply exec_evolves | with_reducible apply lineOp_evolves
    | with_reducible apply failJob_evolves | with_reducible apply evolves_ite
    | with_reducible refine evolves_exec (by assumption) ?_ ?_ | (split)

theorem lineStart_evolves {s0 s : State} {a : LineAccess} (h : Evolves s0 s) : Evolves s0 (lineStart s a) := by
  unfold lineStart
  repeat' first
    | with_reducible assumption | with_reducible apply State.count_evolves | with_reducible apply addSat_evolves
    | with_reducible apply lineDo_evolves | with_reducible apply evolves_ite | simp only [evolves_mk]

theorem granDropAll_evolves {s0 s : State} (h : Evolves s0 s) : Evolves s0 (granDropAll s) := by
  unfold granDropAll
  repeat' first
    | with_reducible assumption | with_reducible apply setFld_evolves | simp only [evolves_mk]

theorem granDrained_evolves {s0 s : State} (h : Evolves s0 s) : Evolves s0 (granDrained s) := by
  unfold granDrained
  repeat' first
    | intro _ | with_reducible assumption | with_reducible exact Evolves.refl _ | with_reducible apply setFld_evolves
    | with_reducible apply granDropAll_evolves | with_reducible apply evolves_ite | with_reducible apply evolves_foldl
    | with_reducible apply evolves_foldl_snd | with_reducible apply evolves_foldl_fst
    | with_reducible refine evolves_snd (by assumption) ?_ | with_reducible refine evolves_fst (by assumption) ?_
    | simp only [evolves_mk] | (split)

theorem lineFill_evolves {s0 s : State} {a : LineAccess} (h : Evolves s0 s) : Evolves s0 (lineFill s a) := by
  unfold lineFill
  repeat' first
    | with_reducible assumption | with_reducible apply lineStart_evolves | with_reducible apply State.count_evolves
    | with_reducible apply addSat_evolves | with_reducible apply State.setWay_evolves | with_reducible apply drawFree_evolves
    | with_reducible apply failAccess_evolves | with_reducible apply granDrained_evolves
    | with_reducible apply granError_evolves | with_reducible apply dramWrite_evolves | with_reducible apply evolves_ite
    | (split)

theorem releaseHolds.lineRelease_evolves {s0 t : State} {a : LineAccess} (h : Evolves s0 t) : Evolves s0 (releaseHolds.lineRelease t a) := by
  unfold releaseHolds.lineRelease
  repeat' first
    | with_reducible assumption | with_reducible apply lineDo_evolves | simp only [evolves_mk] | (split)

theorem releaseHolds_evolves {s0 s : State} (h : Evolves s0 s) : Evolves s0 (releaseHolds s) := by
  unfold releaseHolds
  repeat' first
    | with_reducible assumption | with_reducible apply releaseHolds.lineRelease_evolves | with_reducible apply evolves_ite
    | with_reducible apply evolves_foldl  | simp only [evolves_mk]

theorem tick_evolves {s0 s : State} (h : Evolves s0 s) : Evolves s0 (tick s) := by
  unfold tick
  repeat' first
    | with_reducible assumption | with_reducible apply releaseHolds_evolves | with_reducible apply nextTick_evolves

theorem granClean_evolves {s0 s : State} {k : Nat} {l : GLine} (h : Evolves s0 s) : Evolves s0 (granClean s k l) := by
  unfold granClean
  repeat' first
    | with_reducible assumption | with_reducible apply State.setWay_evolves | with_reducible apply dramWrite_evolves
    | with_reducible apply evolves_ite 

theorem maintLine_evolves {s0 s : State} {op : Nat} {base : Nat} {len : Nat} {x : Nat × GLine} (h : Evolves s0 s) : Evolves s0 (maintLine op base len s x) := by
  unfold maintLine
  repeat' first
    | with_reducible assumption | with_reducible apply State.count_evolves | with_reducible apply granClean_evolves
    | with_reducible apply State.setWay_evolves | with_reducible apply evolves_ite

theorem zeroMemory_evolves {s0 s : State} {a : Nat} {n : Nat} (h : Evolves s0 s) : Evolves s0 (zeroMemory s a n) := by
  unfold zeroMemory
  repeat' first
    | with_reducible assumption | with_reducible apply hostWrite_evolves | with_reducible apply dramMerge_evolves
    | with_reducible apply evolves_ite 

theorem zeroLine_evolves {s0 s : State} {base : Nat} {len : Nat} {line : Nat} (h : Evolves s0 s) : Evolves s0 (zeroLine base len s line) := by
  unfold zeroLine
  repeat' first
    | with_reducible assumption | with_reducible apply State.count_evolves | with_reducible apply zeroMemory_evolves
    | with_reducible apply State.setWay_evolves | with_reducible apply evolves_ite | simp only [evolves_mk] | (split)

theorem maintGo_evolves {s0 s : State} {op : Nat} (h : Evolves s0 s) : Evolves s0 (maintGo s op) := by
  unfold maintGo
  repeat' first
    | with_reducible assumption | with_reducible apply setFld_evolves | with_reducible apply setFlag_evolves
    | with_reducible apply addWrap_evolves | with_reducible apply evolves_ite | simp only [evolves_mk]

theorem maintWrite_evolves {s0 s : State} {value : Nat} (h : Evolves s0 s) : Evolves s0 (maintWrite s value) := by
  unfold maintWrite
  repeat' first
    | with_reducible assumption | with_reducible apply setFlag_evolves | with_reducible apply maintGo_evolves
    | with_reducible apply setFld_evolves | with_reducible apply evolves_ite

theorem maintComplete_evolves {s0 s : State} (h : Evolves s0 s) : Evolves s0 (maintComplete s) := by
  unfold maintComplete
  repeat' first
    | intro _ | with_reducible assumption | with_reducible apply zeroLine_evolves | with_reducible apply maintLine_evolves
    | with_reducible apply granDrained_evolves | with_reducible apply addWrap_evolves | with_reducible apply setFlag_evolves
    | with_reducible apply evolves_foldl  | simp only [evolves_mk] | (split)

theorem granDisable_evolves {s0 s : State} (h : Evolves s0 s) : Evolves s0 (granDisable s) := by
  unfold granDisable
  repeat' first
    | with_reducible assumption | with_reducible apply setFlag_evolves | with_reducible apply granDrained_evolves
    | with_reducible apply setFld_evolves | with_reducible apply evolves_ite

theorem granEnable_evolves {s0 s : State} (h : Evolves s0 s) : Evolves s0 (granEnable s) := by
  unfold granEnable
  repeat' first
    | with_reducible assumption | with_reducible apply setFld_evolves | with_reducible apply setFlag_evolves

theorem grnCtlWrite_evolves {s0 s : State} {value : Nat} (h : Evolves s0 s) : Evolves s0 (grnCtlWrite s value) := by
  unfold grnCtlWrite
  repeat' first
    | with_reducible assumption | with_reducible apply hostSync_evolves | with_reducible apply granEnable_evolves
    | with_reducible apply granDisable_evolves | with_reducible apply evolves_ite

theorem drainComplete_evolves {s0 s : State} (h : Evolves s0 s) : Evolves s0 (drainComplete s) := by
  unfold drainComplete
  repeat' first
    | intro _ | with_reducible assumption | with_reducible apply granDrained_evolves | with_reducible apply granClean_evolves
    | with_reducible apply evolves_ite  | with_reducible apply evolves_foldl

theorem correctedDemand_evolves {s0 s : State} {dpa : Nat} (h : Evolves s0 s) : Evolves s0 (correctedDemand s dpa) := by
  unfold correctedDemand
  repeat' first
    | with_reducible assumption | with_reducible apply dramWrite_evolves | with_reducible apply State.count_evolves
    | with_reducible apply addSat_evolves | with_reducible apply State.devEvent_evolves
    | with_reducible apply State.setChan_evolves | simp only [evolves_mk] | (split)

theorem ceRead_evolves {s0 s : State} {c : Nat} (h : Evolves s0 s) : Evolves s0 (ceRead s c) := by
  unfold ceRead
  repeat' first
    | with_reducible assumption | with_reducible apply State.setChan_evolves

theorem dramUncorrectable_evolves {s0 s : State} {dpa : Nat} {kind : Nat} {source : Nat} {mask : Nat} {data : List Byte} (h : Evolves s0 s) : Evolves s0 (dramUncorrectable s dpa kind source mask data) := by
  unfold dramUncorrectable
  repeat' first
    | with_reducible assumption | with_reducible apply State.devEvent_evolves | with_reducible apply dramWrite_evolves
    | with_reducible apply dmcRecord_evolves | with_reducible apply evolves_ite

theorem dramReadEvent_evolves {s0 s : State} {a : DramAccess} (h : Evolves s0 s) : Evolves s0 (dramReadEvent s a) := by
  unfold dramReadEvent
  repeat' first
    | with_reducible assumption | with_reducible apply dramMerge_evolves | with_reducible apply State.count_evolves
    | with_reducible apply dramFetch_evolves | with_reducible apply State.devEvent_evolves
    | with_reducible apply dmcRecord_evolves | with_reducible apply failAccess_evolves
    | with_reducible apply dramWrite_evolves | with_reducible apply correctedDemand_evolves
    | with_reducible apply dramUncorrectable_evolves | with_reducible apply evolves_ite | (split)

theorem writeDrain_evolves {s0 s : State} {c : Nat} (h : Evolves s0 s) : Evolves s0 (writeDrain s c) := by
  unfold writeDrain
  repeat' first
    | with_reducible assumption | with_reducible apply dramDrain_evolves | (split)

theorem pageClose_evolves {s0 s : State} {c : Nat} {bank : Nat} (h : Evolves s0 s) : Evolves s0 (pageClose s c bank) := by
  unfold pageClose
  repeat' first
    | with_reducible assumption | with_reducible apply State.setChan_evolves

theorem refresh_evolves {s0 s : State} {c : Nat} {temp : Int} (h : Evolves s0 s) : Evolves s0 (refresh s c temp) := by
  unfold refresh
  repeat' first
    | intro _ | with_reducible assumption | with_reducible apply setFld_evolves | with_reducible apply setFlag_evolves
    | with_reducible apply State.count_evolves | with_reducible apply State.setChan_evolves
    | with_reducible apply evolves_ite  | with_reducible apply evolves_foldl

theorem zqCalibrate_evolves {s0 s : State} {c : Nat} (h : Evolves s0 s) : Evolves s0 (zqCalibrate s c) := by
  unfold zqCalibrate
  repeat' first
    | with_reducible assumption | with_reducible apply State.setChan_evolves | (split)

theorem bandSwitch_evolves {s0 s : State} {band : Nat} (h : Evolves s0 s) : Evolves s0 (bandSwitch s band) := by
  unfold bandSwitch
  repeat' first
    | intro _ | with_reducible assumption | with_reducible apply State.devEvent_evolves
    | with_reducible apply State.setChan_evolves | with_reducible apply setFld_evolves | with_reducible apply evolves_ite
    | with_reducible apply evolves_foldl 

theorem tempPoll_evolves {s0 s : State} {temp : Int} (h : Evolves s0 s) : Evolves s0 (tempPoll s temp) := by
  unfold tempPoll
  repeat' first
    | with_reducible assumption | with_reducible apply bandSwitch_evolves | simp only [evolves_mk] | (split)

theorem scrubIssue_evolves {s0 s : State} (h : Evolves s0 s) : Evolves s0 (scrubIssue s) := by
  unfold scrubIssue
  repeat' first
    | with_reducible assumption | with_reducible apply dramWrite_evolves | simp only [evolves_mk] | (split)

theorem patrolRead_evolves {s0 s : State} {b : Burst} (h : Evolves s0 s) : Evolves s0 (patrolRead s b) := by
  unfold patrolRead
  repeat' first
    | with_reducible assumption | with_reducible apply dramFetch_evolves | with_reducible apply State.count_evolves
    | with_reducible apply scrubIssue_evolves | with_reducible apply setReg_evolves
    | with_reducible apply dramUncorrectable_evolves | simp only [evolves_mk] | (split)

theorem chanSleep_evolves {s0 s : State} {c : Nat} (h : Evolves s0 s) : Evolves s0 (chanSleep s c) := by
  unfold chanSleep
  repeat' first
    | with_reducible assumption | with_reducible apply State.setChan_evolves | with_reducible apply dramDrain_evolves
    | with_reducible apply setFlag_evolves | with_reducible apply evolves_ite

theorem srReentry_evolves {s0 s : State} {c : Nat} (h : Evolves s0 s) : Evolves s0 (srReentry s c) := by
  unfold srReentry
  repeat' first
    | with_reducible assumption | with_reducible apply chanSleep_evolves | (split)

theorem srRequest_evolves {s0 s : State} (h : Evolves s0 s) : Evolves s0 (srRequest s) := by
  unfold srRequest
  repeat' first
    | with_reducible assumption | with_reducible apply setFlag_evolves | with_reducible apply chanSleep_evolves
    | with_reducible apply scrubIssue_evolves | with_reducible apply evolves_ite | with_reducible apply evolves_foldl

theorem srRelease_evolves {s0 s : State} (h : Evolves s0 s) : Evolves s0 (srRelease s) := by
  unfold srRelease
  repeat' first
    | intro _ | with_reducible assumption | with_reducible apply setFlag_evolves | with_reducible apply State.setChan_evolves
    | with_reducible apply evolves_foldl 

theorem dmcPwrWrite_evolves {s0 s : State} {value : Nat} (h : Evolves s0 s) : Evolves s0 (dmcPwrWrite s value) := by
  unfold dmcPwrWrite
  repeat' first
    | with_reducible assumption | with_reducible apply setFlag_evolves | with_reducible apply srRequest_evolves
    | with_reducible apply srRelease_evolves | with_reducible apply evolves_ite

end Sys2Proof.Machine
end

