-- ==== Sys2Proof/Laws/EvResets.lean ====
section
/-! SUPPORT. The functions of Machine/Resets.lean only evolve the state (Safety.lean, Evolves). -/

namespace Sys2Proof.Machine

theorem warmRegs_evolves {s0 s : State} (h : Evolves s0 s) : Evolves s0 (warmRegs s) := by
  unfold warmRegs
  repeat' first
    | with_reducible assumption | with_reducible apply resetRegs_evolves | with_reducible apply setReg_evolves
    | with_reducible apply setFlag_evolves | with_reducible apply evolves_ite

theorem memorySettle_evolves {s0 s : State} (h : Evolves s0 s) : Evolves s0 (memorySettle s) := by
  unfold memorySettle
  repeat' first
    | intro _ | with_reducible assumption | with_reducible apply granDropAll_evolves | with_reducible apply granClean_evolves
    | with_reducible apply chanSleep_evolves | with_reducible apply evolves_ite | with_reducible apply evolves_foldl
    | simp only [evolves_mk]

theorem clearVolatile_evolves {s0 s : State} (h : Evolves s0 s) : Evolves s0 (clearVolatile s) := by
  unfold clearVolatile
  repeat' first
    | with_reducible assumption | with_reducible apply evolves_ite | simp only [evolves_mk]

theorem settleRestore_evolves {s0 s : State} (h : Evolves s0 s) : Evolves s0 (settleRestore s) := by
  unfold settleRestore
  repeat' first
    | with_reducible assumption | with_reducible apply consumeChallenge_evolves | with_reducible apply evolves_ite

theorem warmClear_evolves {s0 s : State} (h : Evolves s0 s) : Evolves s0 (warmClear s) := by
  unfold warmClear
  dsimp only
  refine loadLock_evolves (loadResponses_evolves (warmRegs_evolves (clearVolatile_evolves (memorySettle_evolves (sealAll_evolves
    (settleRestore_evolves (otpProgrammed_evolves (finishDescs_evolves ?_ ?_ h))))))))
  · exact fun _ _ _ _ g => g
  · exact fun _ _ _ _ g => g

theorem powerOff_evolves {s0 s : State} (h : Evolves s0 s) : Evolves s0 (powerOff s) := by
  refine h.trans ((otpCut_evolves (Evolves.refl s)).trans ⟨rfl, Nat.le_refl _, fun g => ?_, List.prefix_rfl, fun _ _ => ?_, fun _ => ?_⟩)
  · exact ⟨twf_filter _ g.1, rfl, g.2.2.1, g.2.2.2⟩
  · exact ⟨fun o ho => (by cases ho), fun _ _ => rfl⟩
  · exact ⟨(by decide : 30 ≤ 36), (by decide : 36 ≤ 41)⟩

end Sys2Proof.Machine
end

