-- ==== Sys2Proof/Laws/EvBoot.lean ====
section
/-! SUPPORT. The functions of Machine/Boot.lean only evolve the state (Safety.lean, Evolves). -/

namespace Sys2Proof.Machine

theorem setStepRec_evolves {s0 s : State} {k : Nat} {r : StepRec} (h : Evolves s0 s) : Evolves s0 (setStepRec s k r) := by
  unfold setStepRec
  repeat' first
    | with_reducible assumption | with_reducible apply mpdWrite_evolves

theorem setBootHeader_evolves {s0 s : State} {preferred : Nat} {boots : Nat} {powers : Nat} (h : Evolves s0 s) : Evolves s0 (setBootHeader s preferred boots powers) := by
  unfold setBootHeader
  repeat' first
    | with_reducible assumption | with_reducible apply mpdWrite_evolves

theorem clearSteps_evolves {s0 s : State} {mask : Nat} (h : Evolves s0 s) : Evolves s0 (clearSteps s mask) := by
  unfold clearSteps
  repeat' first
    | intro _ | with_reducible assumption | with_reducible apply setStepRec_evolves | with_reducible apply evolves_foldl

theorem recordFailure_evolves {s0 s : State} {k : Nat} {outcome : Nat} {detail : Nat} (h : Evolves s0 s) : Evolves s0 (recordFailure s k outcome detail) := by
  unfold recordFailure
  repeat' first
    | intro _ | with_reducible assumption | with_reducible apply setFld_evolves | with_reducible apply setStepRec_evolves
    | with_reducible apply evolves_ite  | with_reducible apply evolves_foldl

theorem bootStop_evolves {s0 s : State} {k : Nat} {limit : Bool} (h : Evolves s0 s) : Evolves s0 (bootStop s k limit) := by
  unfold bootStop
  repeat' first
    | with_reducible assumption | with_reducible apply setFld_evolves | with_reducible apply setFlag_evolves
    | simp only [evolves_mk]

theorem markRunning_evolves {s0 s : State} {k : Nat} (h : Evolves s0 s) : Evolves s0 (markRunning s k) := by
  unfold markRunning
  repeat' first
    | with_reducible assumption | with_reducible apply setStepRec_evolves

theorem startStep_evolves {s0 s : State} {k : Nat} (h : Evolves s0 s) : Evolves s0 (startStep s k) := by
  unfold startStep
  repeat' first
    | with_reducible assumption | with_reducible apply bootStop_evolves | with_reducible apply markRunning_evolves
    | with_reducible apply setFld_evolves | with_reducible apply evolves_ite | with_reducible apply evolves_foldl
    | simp only [evolves_mk] | (split)

theorem startBoot_evolves {s0 s : State} {powered : Bool} (h : Evolves s0 s) : Evolves s0 (startBoot s powered) := by
  unfold startBoot
  repeat' first
    | with_reducible assumption | with_reducible apply startStep_evolves | with_reducible apply setBootHeader_evolves

theorem reboot_evolves {s0 s : State} {cause restarts : Nat} {keepLink : Bool} (h : Evolves s0 s) :
    Evolves s0 (reboot s cause restarts keepLink) := by
  unfold reboot
  dsimp only
  apply startBoot_evolves
  have g : ∀ t b, Evolves s0 t → Evolves s0 { t with boot := b, bar4 := if keepLink = true then t.bar4 else 36 } := by
    intro t b ht
    refine ht.trans ⟨rfl, Nat.le_refl _, id, List.prefix_rfl, fun _ g => ⟨g, fun _ _ => rfl⟩, fun x => ?_⟩
    show 30 ≤ (if keepLink = true then t.bar4 else 36) ∧ (if keepLink = true then t.bar4 else 36) ≤ 41
    split
    · exact x
    · exact ⟨by decide, by decide⟩
  refine g _ _ ?_
  apply evolves_ite
  · exact setFld_evolves (setFld_evolves (setFld_evolves (setReg_evolves (warmClear_evolves h))))
  · exact setFld_evolves (setFld_evolves (setReg_evolves (warmClear_evolves h)))

theorem bootRestart_evolves {s0 s : State} (h : Evolves s0 s) : Evolves s0 (bootRestart s) := by
  unfold bootRestart
  repeat' first
    | with_reducible assumption | with_reducible apply reboot_evolves

theorem warmReset_evolves {s0 s : State} {cause : Nat} (h : Evolves s0 s) : Evolves s0 (warmReset s cause) := by
  unfold warmReset
  repeat' first
    | with_reducible assumption | with_reducible apply reboot_evolves | (split)

theorem failSteps_evolves {s0 s : State} {fs : List (Nat × Nat × Nat)} (h : Evolves s0 s) : Evolves s0 (failSteps s fs) := by
  unfold failSteps
  repeat' first
    | intro _ | with_reducible assumption | with_reducible apply bootRestart_evolves | with_reducible apply setFld_evolves
    | with_reducible apply recordFailure_evolves | with_reducible apply evolves_ite | with_reducible apply evolves_foldl

theorem workOtp_evolves {s0 s : State} (h : Evolves s0 s) : Evolves s0 (workOtp s) := by
  unfold workOtp
  repeat' first
    | with_reducible assumption | with_reducible apply loadLock_evolves | with_reducible apply loadResponses_evolves
    | with_reducible apply otpLoad_evolves | with_reducible apply evolves_ite

theorem openMillpond_evolves {s0 s : State} (h : Evolves s0 s) : Evolves s0 (openMillpond s) := by
  unfold openMillpond
  repeat' first
    | with_reducible assumption | with_reducible apply keyHeader_evolves | with_reducible apply formatMpd_evolves
    | with_reducible apply setFlag_evolves | with_reducible apply evolves_ite

theorem openRecords_evolves {s0 s : State} (h : Evolves s0 s) : Evolves s0 (openRecords s).1 := by
  unfold openRecords
  repeat' first
    | intro _ | with_reducible assumption | with_reducible apply setStepRec_evolves
    | with_reducible apply openMillpond_evolves | with_reducible apply evolves_foldl

theorem workImage_evolves {s0 s : State} (h : Evolves s0 s) : Evolves s0 (workImage s).1 := by
  unfold workImage
  repeat' first
    | with_reducible assumption | with_reducible apply State.setCtx_evolves | with_reducible apply setFlag_evolves
    | with_reducible apply setFld_evolves | simp only [evolves_mk] | (split)

theorem dramInit_evolves {s0 s : State} {speed : Nat} (h : Evolves s0 s) : Evolves s0 (dramInit s speed) := by
  unfold dramInit
  refine evolves_foldl ?_ fun t x ht => State.setChan_evolves (setReg_evolves ht)
  exact setReg_evolves (evolves_mem h (fun g => twf_filter _ g) rfl rfl rfl rfl rfl rfl rfl rfl)

theorem dramWake_evolves {s0 s : State} (h : Evolves s0 s) : Evolves s0 (dramWake s) := by
  unfold dramWake
  repeat' first
    | intro _ | with_reducible assumption | with_reducible apply setFlag_evolves | with_reducible apply State.setChan_evolves
    | with_reducible apply evolves_foldl 

theorem workDram_evolves {s0 s : State} (h : Evolves s0 s) : Evolves s0 (workDram s).1 := by
  unfold workDram
  repeat' first
    | with_reducible assumption | with_reducible apply dramWake_evolves | with_reducible apply dramInit_evolves
    | simp only [evolves_mk] | (split)

theorem workKeys_evolves {s0 s : State} (h : Evolves s0 s) : Evolves s0 (workKeys s).1 := by
  unfold workKeys
  repeat' first
    | with_reducible assumption | with_reducible apply loadKeys_evolves
    | with_reducible refine evolves_snd (by assumption) ?_ | simp only [evolves_mk] | (split)

theorem workPort_evolves {s0 s : State} {p : Nat} (h : Evolves s0 s) : Evolves s0 (workPort s p).1 := by
  unfold workPort
  repeat' first
    | with_reducible assumption | with_reducible apply qualifyPort_evolves | with_reducible apply drivePort_evolves
    | with_reducible apply setPort_evolves | simp only [evolves_mk] | (split)

theorem workTable_evolves {s0 s : State} (h : Evolves s0 s) : Evolves s0 (workTable s) := by
  unfold workTable
  repeat' first
    | intro _ | with_reducible assumption | with_reducible apply tableCopy_evolves | with_reducible apply evolves_foldl
    | simp only [evolves_mk]

theorem workWriteback_evolves {s0 s : State} (h : Evolves s0 s) : Evolves s0 (workWriteback s) := by
  unfold workWriteback
  repeat' first
    | with_reducible assumption | with_reducible apply recoverVolumes_evolves | with_reducible apply setFlag_evolves
    | simp only [evolves_mk]

theorem resumeOp_evolves {s0 s : State} {v : Nat} {o : VolOp} (h : Evolves s0 s) : Evolves s0 (resumeOp s v o) := by
  unfold resumeOp
  repeat' first
    | intro _ | with_reducible assumption | with_reducible exact Evolves.refl _ | with_reducible apply issueUnit_evolves
    | with_reducible apply phaseTwo_evolves | with_reducible apply freshKey_evolves | with_reducible apply evolves_ite
    | with_reducible apply evolves_foldl  | with_reducible apply evolves_foldl_snd | with_reducible apply evolves_foldl_fst
    | with_reducible refine evolves_snd (by assumption) ?_ | with_reducible refine evolves_fst (by assumption) ?_
    | simp only [evolves_mk] | (split)

theorem workResume_evolves {s0 s : State} (h : Evolves s0 s) : Evolves s0 (workResume s) := by
  unfold workResume
  repeat' first
    | intro _ | with_reducible assumption | with_reducible apply resumeOp_evolves | with_reducible apply evolves_foldl
    | (split)

theorem workReady_evolves {s0 s : State} (h : Evolves s0 s) : Evolves s0 (workReady s) := by
  unfold workReady
  repeat' first
    | with_reducible assumption | with_reducible apply State.setCtx_evolves | with_reducible apply setFlag_evolves
    | with_reducible apply msixSend_evolves | with_reducible apply evolves_ite | simp only [evolves_mk]

theorem stepWork_evolves {s0 s : State} {dump : State → State} {k : Nat} (hd : ∀ s0 s, Evolves s0 s → Evolves s0 (dump s)) (h : Evolves s0 s) : Evolves s0 (stepWork dump s k).1 := by
  unfold stepWork
  repeat' first
    | with_reducible assumption | with_reducible apply workOtp_evolves | with_reducible apply workImage_evolves
    | with_reducible apply workKeys_evolves | with_reducible apply workDram_evolves
    | with_reducible apply recoverJournal_evolves | with_reducible apply workPort_evolves
    | with_reducible apply workTable_evolves | with_reducible apply workWriteback_evolves
    | with_reducible apply workResume_evolves | with_reducible apply hd | with_reducible apply evolves_ite
    | with_reducible apply evolves_ite_fst | simp only [evolves_mk] | (split)

theorem recordOk_evolves {s0 s : State} {k : Nat} (h : Evolves s0 s) : Evolves s0 (recordOk s k) := by
  unfold recordOk
  repeat' first
    | with_reducible assumption | with_reducible apply setStepRec_evolves | (split)

theorem runSteps_evolves {s0 s : State} {dump : State → State} {ks : List Nat} (hd : ∀ s0 s, Evolves s0 s → Evolves s0 (dump s)) (h : Evolves s0 s) : Evolves s0 (runSteps dump ks s).1 := by
  unfold runSteps
  repeat' first
    | intro _ | with_reducible assumption | with_reducible apply stepWork_evolves | with_reducible apply recordOk_evolves
    | with_reducible apply hd | with_reducible apply evolves_foldl | with_reducible apply evolves_foldl_fst
    | with_reducible refine evolves_fst (by assumption) ?_ | (split)

theorem brakeBoot_evolves {s0 s : State} (h : Evolves s0 s) : Evolves s0 (brakeBoot s) := by
  unfold brakeBoot
  repeat' first
    | with_reducible assumption | with_reducible apply failSteps_evolves | (split)

theorem sensorsLive_evolves {s0 s : State} {live : Nat} (h : Evolves s0 s) : Evolves s0 (sensorsLive s live) := by
  unfold sensorsLive
  repeat' first
    | with_reducible assumption | with_reducible apply setFld_evolves | simp only [evolves_mk]

theorem brakeTrip_evolves {s0 s : State} {sensors : Nat} {live : Nat} (h : Evolves s0 s) : Evolves s0 (brakeTrip s sensors live) := by
  unfold brakeTrip
  repeat' first
    | with_reducible assumption | with_reducible apply brakeApply_evolves | with_reducible apply sensorsLive_evolves
    | with_reducible apply deviceHalt_evolves | with_reducible apply brakeBoot_evolves | with_reducible apply evolves_ite

theorem afterSteps_evolves {s0 s : State} {k : Nat} (h : Evolves s0 s) : Evolves s0 (afterSteps s k) := by
  unfold afterSteps
  repeat' first
    | with_reducible assumption | with_reducible apply openRecords_evolves | with_reducible apply startStep_evolves
    | with_reducible apply failSteps_evolves | with_reducible apply workReady_evolves | with_reducible apply evolves_ite
    | (split)

theorem armBrake_evolves {s0 s : State} (h : Evolves s0 s) : Evolves s0 (armBrake s) := by
  unfold armBrake
  repeat' first
    | with_reducible assumption | with_reducible apply brakeApply_evolves | with_reducible apply brakeBoot_evolves
    | with_reducible apply evolves_ite  | simp only [evolves_mk]

theorem bootAdvance_evolves {s0 s : State} {dump : State → State} (hd : ∀ s0 s, Evolves s0 s → Evolves s0 (dump s)) (h : Evolves s0 s) : Evolves s0 (bootAdvance dump s) := by
  unfold bootAdvance
  repeat' first
    | with_reducible assumption | with_reducible apply armBrake_evolves | with_reducible apply runSteps_evolves
    | with_reducible apply afterSteps_evolves | with_reducible apply failSteps_evolves | with_reducible apply hd
    | with_reducible apply evolves_ite  | (split)

theorem stepTimeout_evolves {s0 s : State} {dump : State → State} {k : Nat} (hd : ∀ s0 s, Evolves s0 s → Evolves s0 (dump s)) (h : Evolves s0 s) : Evolves s0 (stepTimeout dump s k) := by
  unfold stepTimeout
  repeat' first
    | with_reducible assumption | with_reducible apply runSteps_evolves | with_reducible apply failSteps_evolves
    | with_reducible apply hd | with_reducible apply evolves_ite

theorem fitDrives_evolves {s0 s : State} {board : Board} (h : Evolves s0 s) : Evolves s0 (fitDrives s board) := by
  unfold fitDrives
  repeat' first
    | intro _ | with_reducible assumption | with_reducible apply State.setDrive_evolves | with_reducible apply evolves_foldl

theorem bringUp_evolves {s0 s : State} {board : Board} (h : Evolves s0 s) : Evolves s0 (bringUp s board) := by
  unfold bringUp
  repeat' first
    | with_reducible assumption | with_reducible apply fitDrives_evolves | with_reducible apply startBoot_evolves
    | with_reducible apply evolves_ite  | simp only [evolves_mk]

theorem powerOn_evolves {s0 s : State} {board : Board} (h : Evolves s0 s) : Evolves s0 (powerOn s board) := by
  unfold powerOn
  repeat' first
    | with_reducible assumption | with_reducible apply bringUp_evolves | with_reducible apply powerOff_evolves
    | simp only [evolves_mk] | (split)

theorem perstRise_evolves {s0 s : State} (h : Evolves s0 s) : Evolves s0 (perstRise s) := by
  unfold perstRise
  repeat' first
    | with_reducible assumption | with_reducible apply evolves_ite | simp only [evolves_mk]

theorem pwrFailPin_evolves {s0 s : State} (h : Evolves s0 s) : Evolves s0 (pwrFailPin s) := by
  unfold pwrFailPin
  repeat' first
    | with_reducible assumption | with_reducible apply powerFail_evolves | simp only [evolves_mk] | (split)

end Sys2Proof.Machine
end

