-- ==== Sys2Proof/Laws/EvProjection.lean ====
section
/-! SUPPORT. The functions of Machine/Projection.lean only evolve the state (Safety.lean, Evolves). -/

namespace Sys2Proof.Machine

theorem readProj_evolves {s : State} {table : Nat} {slice : Nat} {vol : Nat} {sva : Nat} : (readProj s table slice vol sva : Op (Option Proj)).evolves := by
  unfold readProj
  repeat' first
    | intro _ | with_reducible apply readMem_evolves | with_reducible apply bind_evolves | with_reducible apply pure_evolves
    | simp only [evolves_mk] | (split)

theorem projHeldLane_evolves {r : Req} {dir : Nat} {k : Nat} {n : Nat} {w : Nat} {t : Tag} : (projHeldLane r dir k n w t : Op (Nat × Bool)).evolves := by
  unfold projHeldLane
  repeat' first
    | intro _ | with_reducible apply ledgerSeg_evolves | with_reducible apply readNum_evolves
    | with_reducible apply bind_evolves | with_reducible apply pure_evolves | (split)

theorem projLane_evolves {r : Req} {dir : Nat} {k : Nat} {n : Nat} {w : Nat} {t : Tag} {v : Option Nat} : (projLane r dir k n w t v : Op Unit).evolves := by
  unfold projLane
  repeat' first
    | intro _ | with_reducible apply ledgerSeg_evolves | with_reducible apply freeBits_evolves
    | with_reducible apply writeBitAt_evolves | with_reducible apply writeMem_evolves | with_reducible apply bind_evolves
    | with_reducible apply pure_evolves | (split)

theorem rowStamps_evolves {r : Req} {ptable : Nat} {row : Nat} : (rowStamps r ptable row : Op (Nat × Nat)).evolves := by
  unfold rowStamps
  repeat' first
    | intro _ | with_reducible apply ledgerPart_evolves | with_reducible apply ledgerStamps_evolves
    | with_reducible apply bind_evolves

theorem claimSlot_evolves {p : Proj} : (claimSlot p : Op (Option Nat)).evolves := by
  unfold claimSlot
  repeat' first
    | intro _ | with_reducible apply readMem_evolves | with_reducible apply ledgerPart_evolves
    | with_reducible apply writeMem_evolves | with_reducible apply bind_evolves | with_reducible apply pure_evolves | (split)

theorem indexInsert_evolves {p : Proj} {rec : List Byte} {row : Nat} : (indexInsert p rec row : Op Unit).evolves := by
  unfold indexInsert
  repeat' first
    | intro _ | with_reducible apply Bnd.read_evolves | with_reducible apply buildRow_evolves
    | with_reducible apply bind_evolves | with_reducible apply pure_evolves | with_reducible apply attempt_evolves | (split)

theorem reclaimable_evolves {p : Proj} {h : HtHdr} {low : Nat} {j : Nat} {e : Nat} : (reclaimable p h low j e : Op Bool).evolves := by
  unfold reclaimable
  repeat' first
    | intro _ | with_reducible assumption | with_reducible exact Evolves.refl _ | with_reducible apply payloadOf_evolves
    | with_reducible apply rowStamps_evolves | with_reducible apply readNum_evolves | with_reducible apply bind_evolves
    | with_reducible apply pure_evolves | with_reducible apply get_evolves | with_reducible apply upd_evolves
    | with_reducible apply throw_evolves | with_reducible apply ite_op_evolves | with_reducible apply modifyGet_evolves
    | with_reducible apply ask_evolves | with_reducible apply attempt_evolves | with_reducible apply mapM_evolves
    | with_reducible apply forM_evolves | with_reducible apply forIn_evolves | with_reducible apply foldlM_evolves
    | with_reducible apply evolves_ite  | with_reducible apply evolves_foldl | with_reducible apply evolves_foldl_snd
    | with_reducible apply evolves_foldl_fst | with_reducible refine evolves_snd (by assumption) ?_
    | with_reducible refine evolves_fst (by assumption) ?_ | with_reducible refine evolves_exec (by assumption) ?_ ?_
    | with_reducible refine evolves_ok (by assumption) ?_ ?_ | with_reducible refine evolves_error (by assumption) ?_ ?_
    | simp only [evolves_mk] | (split)

theorem reclaimIndex_evolves {p : Proj} {low : Nat} : (reclaimIndex p low : Op Unit).evolves := by
  unfold reclaimIndex
  repeat' first
    | intro _ | with_reducible assumption | with_reducible exact Evolves.refl _ | with_reducible apply Bnd.read_evolves
    | with_reducible apply unlinkChain_evolves | with_reducible apply reclaimable_evolves | with_reducible apply bind_evolves
    | with_reducible apply pure_evolves | with_reducible apply get_evolves | with_reducible apply upd_evolves
    | with_reducible apply throw_evolves | with_reducible apply ite_op_evolves | with_reducible apply modifyGet_evolves
    | with_reducible apply ask_evolves | with_reducible apply attempt_evolves | with_reducible apply mapM_evolves
    | with_reducible apply forM_evolves | with_reducible apply forIn_evolves | with_reducible apply foldlM_evolves
    | with_reducible apply evolves_ite  | with_reducible apply evolves_foldl | with_reducible apply evolves_foldl_snd
    | with_reducible apply evolves_foldl_fst | with_reducible refine evolves_snd (by assumption) ?_
    | with_reducible refine evolves_fst (by assumption) ?_ | with_reducible refine evolves_exec (by assumption) ?_ ?_
    | with_reducible refine evolves_ok (by assumption) ?_ ?_ | with_reducible refine evolves_error (by assumption) ?_ ?_
    | simp only [evolves_mk] | (split)

theorem countBad_evolves {vol : Nat} {n : Nat} : (countBad vol n : Op Unit).evolves := by
  unfold countBad
  repeat' first
    | intro _ | with_reducible exact Evolves.refl _ | with_reducible apply addWrap_evolves | with_reducible apply upd_evolves

theorem applyRecord_evolves {p : Proj} {vol : Nat} {e : Nat} {n : Nat} {rec : List Byte} : (applyRecord p vol e n rec : Op Bool).evolves := by
  unfold applyRecord
  repeat' first
    | intro _ | with_reducible apply readNum_evolves | with_reducible apply ledgerPart_evolves
    | with_reducible apply projHeldLane_evolves | with_reducible apply claimSlot_evolves
    | with_reducible apply projLane_evolves | with_reducible apply countBad_evolves
    | with_reducible apply ledgerStamps_evolves | with_reducible apply writeMem_evolves
    | with_reducible apply indexInsert_evolves | with_reducible apply rowStamps_evolves | with_reducible apply bind_evolves
    | with_reducible apply pure_evolves | with_reducible apply mapM_evolves | with_reducible apply forM_evolves | (split)

theorem endRecord_evolves {p : Proj} {e : Nat} {n : Nat} : (endRecord p e n : Op Unit).evolves := by
  unfold endRecord
  repeat' first
    | intro _ | with_reducible apply readNum_evolves | with_reducible apply rowStamps_evolves
    | with_reducible apply writeMem_evolves | with_reducible apply bind_evolves | with_reducible apply pure_evolves | (split)

theorem applyAll_evolves {f : Nat → Op Bool} {a1 : List Nat} (hf : ∀ n, (f n).evolves) : (applyAll f a1 : Op Bool).evolves := by
  induction a1 with
  | nil =>
    unfold applyAll
    repeat' first
      | intro _ | with_reducible apply hf | with_reducible apply hf | with_reducible apply bind_evolves
      | with_reducible apply pure_evolves | (split)
  | cons x l ih =>
    unfold applyAll
    repeat' first
      | intro _ | with_reducible apply ih | with_reducible apply hf | with_reducible apply hf | with_reducible apply bind_evolves
      | with_reducible apply pure_evolves | (split)

theorem applyJournal_evolves {p : Proj} {e : VolEnt} {key : List Byte} {r : JRec} {epoch : Nat} : (applyJournal p e key r epoch : Op Bool).evolves := by
  unfold applyJournal
  repeat' first
    | intro _ | with_reducible apply applyAll_evolves | with_reducible apply applyRecord_evolves
    | with_reducible apply endRecord_evolves | with_reducible apply bind_evolves | with_reducible apply pure_evolves
    | with_reducible apply forM_evolves | with_reducible apply evolves_ite | simp only [evolves_mk] | (split)

theorem markApplied_evolves {s0 s : State} {seq : Nat} (h : Evolves s0 s) : Evolves s0 (markApplied s seq) := by
  unfold markApplied
  repeat' first
    | with_reducible assumption | with_reducible apply evolves_ite | simp only [evolves_mk]

theorem applyNext_evolves {s0 s : State} {v : Nat} (h : Evolves s0 s) : Evolves s0 (applyNext s v) := by
  unfold applyNext
  repeat' first
    | with_reducible assumption | with_reducible apply raiseApplied_evolves | with_reducible apply exec_evolves
    | with_reducible apply applyJournal_evolves | with_reducible apply State.count_evolves
    | with_reducible apply setFlag_evolves | with_reducible apply markApplied_evolves
    | with_reducible apply State.devEvent_evolves | with_reducible refine evolves_exec (by assumption) ?_ ?_ | (split)

theorem reclaimNow_evolves {s0 s : State} {v : Nat} (h : Evolves s0 s) : Evolves s0 (reclaimNow s v) := by
  unfold reclaimNow
  repeat' first
    | intro _ | with_reducible assumption | with_reducible exact Evolves.refl _ | with_reducible apply quiet_evolves
    | with_reducible apply reclaimIndex_evolves | with_reducible apply evolves_ite | with_reducible apply evolves_foldl
    | with_reducible apply evolves_foldl_snd | with_reducible apply evolves_foldl_fst
    | with_reducible refine evolves_snd (by assumption) ?_ | with_reducible refine evolves_fst (by assumption) ?_
    | with_reducible refine evolves_exec (by assumption) ?_ ?_ | with_reducible refine evolves_ok (by assumption) ?_ ?_
    | with_reducible refine evolves_error (by assumption) ?_ ?_ | with_reducible apply bind_evolves
    | with_reducible apply pure_evolves | with_reducible apply get_evolves | with_reducible apply upd_evolves
    | with_reducible apply throw_evolves | with_reducible apply ite_op_evolves | with_reducible apply modifyGet_evolves
    | with_reducible apply ask_evolves | with_reducible apply attempt_evolves | with_reducible apply mapM_evolves
    | with_reducible apply forM_evolves | with_reducible apply forIn_evolves | with_reducible apply foldlM_evolves
    | simp only [evolves_mk] | (split)

theorem projectionApply_evolves {s0 s : State} {v : Nat} (h : Evolves s0 s) : Evolves s0 (projectionApply s v) := by
  unfold projectionApply
  repeat' first
    | with_reducible assumption | with_reducible apply reclaimNow_evolves | with_reducible apply applyNext_evolves | (split)

theorem registerProj_evolves {s0 s : State} {n : Nat} {v : Nat} {p : Proj} (h : Evolves s0 s) : Evolves s0 (registerProj s n v p) := by
  unfold registerProj
  repeat' first
    | with_reducible assumption | with_reducible apply raiseApplied_evolves | with_reducible apply setReg_evolves
    | with_reducible apply setFlag_evolves | with_reducible apply setFld_evolves | simp only [evolves_mk]

theorem tableCfgWrite_evolves {s0 s : State} {n : Nat} {value : Nat} (h : Evolves s0 s) : Evolves s0 (tableCfgWrite s n value) := by
  unfold tableCfgWrite
  repeat' first
    | with_reducible assumption | with_reducible apply setReg_evolves | with_reducible apply setFlag_evolves
    | with_reducible apply exec_evolves | with_reducible apply readProj_evolves | with_reducible apply registerProj_evolves
    | with_reducible refine evolves_exec (by assumption) ?_ ?_ | simp only [evolves_mk] | (split)

theorem replayStart_evolves {s0 s : State} {value : Nat} (h : Evolves s0 s) : Evolves s0 (replayStart s value) := by
  unfold replayStart
  repeat' first
    | with_reducible assumption | with_reducible apply setFlag_evolves | (split)

theorem replayRow_evolves {s : State} {r : JRec} {e : Nat} : (replayRow s r e : Op Unit).evolves := by
  unfold replayRow
  repeat' first
    | intro _ | with_reducible apply readMem_evolves | with_reducible apply rowStamps_evolves
    | with_reducible apply writeMem_evolves | with_reducible apply ledgerPart_evolves
    | with_reducible apply ledgerLane_evolves | with_reducible apply ledgerStamps_evolves
    | with_reducible apply readNum_evolves | with_reducible apply bind_evolves | with_reducible apply pure_evolves
    | with_reducible apply forM_evolves | with_reducible apply evolves_ite | simp only [evolves_mk] | (split)

theorem replayProj_evolves {s0 s : State} {r : JRec} (h : Evolves s0 s) : Evolves s0 (replayProj s r).2 := by
  unfold replayProj
  repeat' first
    | intro _ | with_reducible assumption | with_reducible exact Evolves.refl _ | with_reducible apply exec_evolves
    | with_reducible apply applyJournal_evolves | with_reducible apply markApplied_evolves
    | with_reducible apply State.devEvent_evolves | with_reducible apply setFlag_evolves | with_reducible apply evolves_ite
    | with_reducible apply evolves_ite_snd | with_reducible apply evolves_foldl | with_reducible apply evolves_foldl_snd
    | with_reducible apply evolves_foldl_fst | with_reducible refine evolves_snd (by assumption) ?_
    | with_reducible refine evolves_fst (by assumption) ?_ | with_reducible refine evolves_exec (by assumption) ?_ ?_
    | with_reducible refine evolves_ok (by assumption) ?_ ?_ | with_reducible refine evolves_error (by assumption) ?_ ?_
    | with_reducible apply bind_evolves | with_reducible apply pure_evolves | with_reducible apply get_evolves
    | with_reducible apply upd_evolves | with_reducible apply throw_evolves | with_reducible apply ite_op_evolves
    | with_reducible apply modifyGet_evolves | with_reducible apply ask_evolves | with_reducible apply attempt_evolves
    | with_reducible apply mapM_evolves | with_reducible apply forM_evolves | with_reducible apply forIn_evolves
    | with_reducible apply foldlM_evolves | simp only [evolves_mk] | (split)

theorem replayAll_evolves {s0 a2 : State} {a0 : List Nat} {a1 : List JRec} (h : Evolves s0 a2) : Evolves s0 (replayAll a0 a1 a2) := by
  induction a1 generalizing a0 a2 with
  | nil =>
    unfold replayAll
    repeat' first
      | intro _ | with_reducible assumption | with_reducible exact Evolves.refl _ | with_reducible apply replayRow_evolves
      | with_reducible apply replayProj_evolves | with_reducible apply quiet_evolves | with_reducible apply setReg_evolves
      | with_reducible apply evolves_ite  | with_reducible apply evolves_foldl | with_reducible apply evolves_foldl_snd
      | with_reducible apply evolves_foldl_fst | with_reducible refine evolves_snd (by assumption) ?_
      | with_reducible refine evolves_fst (by assumption) ?_ | simp only [evolves_mk] | (split)
  | cons x l ih =>
    unfold replayAll
    repeat' first
      | intro _ | with_reducible apply ih | with_reducible assumption | with_reducible exact Evolves.refl _ | with_reducible apply replayRow_evolves
      | with_reducible apply replayProj_evolves | with_reducible apply quiet_evolves | with_reducible apply setReg_evolves
      | with_reducible apply evolves_ite  | with_reducible apply evolves_foldl | with_reducible apply evolves_foldl_snd
      | with_reducible apply evolves_foldl_fst | with_reducible refine evolves_snd (by assumption) ?_
      | with_reducible refine evolves_fst (by assumption) ?_ | simp only [evolves_mk] | (split)

theorem replayDone_evolves {s0 s : State} (h : Evolves s0 s) : Evolves s0 (replayDone s) := by
  unfold replayDone
  repeat' first
    | with_reducible assumption | with_reducible apply raiseApplied_evolves | with_reducible apply replayAll_evolves
    | with_reducible apply State.devEvent_evolves | with_reducible apply setFlag_evolves | with_reducible apply evolves_ite
    | with_reducible apply evolves_foldl 

end Sys2Proof.Machine
end

