-- ==== Sys2Proof/Laws/EvSlices.lean ====
section
/-! SUPPORT. The functions of Machine/Slices.lean only evolve the state (Safety.lean, Evolves). -/

namespace Sys2Proof.Machine

theorem bucketFill_evolves {s0 s : State} {n : Nat} (h : Evolves s0 s) : Evolves s0 (bucketFill s n) := by
  unfold bucketFill
  repeat' first
    | with_reducible assumption | with_reducible apply setFld_evolves

theorem createQueue_evolves {s0 s : State} {n : Nat} {f : List Byte} (h : Evolves s0 s) : Evolves s0 (createQueue s n f) := by
  unfold createQueue
  repeat' first
    | with_reducible assumption | with_reducible apply setReg_evolves | with_reducible apply setFld_evolves
    | with_reducible apply queueEnable_evolves | with_reducible apply evolves_ite

theorem sliceConfig_evolves {s0 s : State} {n : Nat} {e : List Byte} (h : Evolves s0 s) : Evolves s0 (sliceConfig s n e) := by
  unfold sliceConfig
  repeat' first
    | with_reducible assumption | with_reducible apply setFlag_evolves | with_reducible apply setFld_evolves
    | with_reducible apply setReg_evolves | with_reducible apply bucketFill_evolves
    | with_reducible apply State.setLimit_evolves

theorem sliceCreate_evolves {s0 s : State} {id : Nat} (h : Evolves s0 s) : Evolves s0 (sliceCreate s id) := by
  unfold sliceCreate
  repeat' first
    | intro _ | with_reducible assumption | with_reducible apply createQueue_evolves
    | with_reducible apply sliceConfig_evolves | with_reducible apply okJob_evolves
    | with_reducible apply State.setJob_evolves | with_reducible apply setFld_evolves | with_reducible apply evolves_ite
    | with_reducible apply evolves_foldl  | (split)

theorem clearSlicePending_evolves {s0 s : State} {n : Nat} (h : Evolves s0 s) : Evolves s0 (clearSlicePending s n) := by
  unfold clearSlicePending
  repeat' first
    | intro _ | with_reducible assumption | with_reducible apply State.setVector_evolves | with_reducible apply evolves_ite
    | with_reducible apply evolves_foldl 

theorem resetJob_evolves {s0 s : State} {old : Nat} {k : Job} (h : Evolves s0 s) : Evolves s0 (resetJob s old k) := by
  unfold resetJob
  repeat' first
    | with_reducible assumption | with_reducible apply State.setJob_evolves | with_reducible apply leaveDelay_evolves
    | with_reducible apply finishJob_evolves | with_reducible apply failJob_evolves | with_reducible apply dropJoins_evolves
    | with_reducible apply evolves_ite 

theorem resetTxns_evolves {s0 s : State} {n : Nat} (h : Evolves s0 s) : Evolves s0 (resetTxns s n) := by
  unfold resetTxns
  repeat' first
    | intro _ | with_reducible assumption | with_reducible apply endTxn_evolves | with_reducible apply abortTxn_evolves
    | with_reducible apply evolves_foldl 

theorem resetReads_evolves {s0 s : State} {n : Nat} (h : Evolves s0 s) : Evolves s0 (resetReads s n) := by
  unfold resetReads
  repeat' first
    | with_reducible assumption | with_reducible apply evolves_ite | simp only [evolves_mk]

theorem freeHeld_evolves {s0 s : State} {n : Nat} (h : Evolves s0 s) : Evolves s0 (freeHeld s n) := by
  unfold freeHeld
  repeat' first
    | intro _ | with_reducible assumption | with_reducible apply State.setCtx_evolves | with_reducible apply evolves_foldl
    | (split)

theorem dropHolds_evolves {s0 s : State} {n : Nat} (h : Evolves s0 s) : Evolves s0 (dropHolds s n) := by
  unfold dropHolds
  repeat' first
    | intro _ | with_reducible assumption | with_reducible apply lateDiscard_evolves | with_reducible apply evolves_foldl
    | simp only [evolves_mk]

theorem resetBegin_evolves {s0 s : State} {id : Nat} {n : Nat} {destroy : Bool} {report : Bool} (h : Evolves s0 s) : Evolves s0 (resetBegin s id n destroy report) := by
  unfold resetBegin
  repeat' first
    | intro _ | with_reducible assumption | with_reducible apply closeChain_evolves | with_reducible apply setFld_evolves
    | with_reducible apply resetReads_evolves | with_reducible apply dropHolds_evolves
    | with_reducible apply resetJob_evolves | with_reducible apply dropTasks_evolves | with_reducible apply fanCounts_evolves
    | with_reducible apply stopTasks_evolves | with_reducible apply freeHeld_evolves
    | with_reducible apply clearSlicePending_evolves | with_reducible apply updateLow_evolves
    | with_reducible apply resetTxns_evolves | with_reducible apply State.setJob_evolves | with_reducible apply evolves_ite
    | with_reducible apply evolves_foldl  | simp only [evolves_mk]

theorem sliceReset_evolves {s0 s : State} {id : Nat} (h : Evolves s0 s) : Evolves s0 (sliceReset s id) := by
  unfold sliceReset
  repeat' first
    | with_reducible assumption | with_reducible apply okJob_evolves | with_reducible apply resetBegin_evolves
    | with_reducible apply evolves_ite  | (split)

theorem reportSlots_evolves {s0 a3 : State} {gq : Nat} {old : Nat} {a2 : List (Nat × Nat × Nat)} (h : Evolves s0 a3) : Evolves s0 (reportSlots gq old a2 a3).2 := by
  induction a2 generalizing a3 with
  | nil =>
    unfold reportSlots
    repeat' first
      | intro _ | with_reducible assumption | with_reducible apply writeStatus_evolves
      | with_reducible refine evolves_snd (by assumption) ?_ | (split)
  | cons x l ih =>
    unfold reportSlots
    repeat' first
      | intro _ | with_reducible apply ih | with_reducible assumption | with_reducible apply writeStatus_evolves
      | with_reducible refine evolves_snd (by assumption) ?_ | (split)

theorem reportQueue_evolves {s0 s : State} {gq : Nat} {old : Nat} (h : Evolves s0 s) : Evolves s0 (reportQueue s gq old) := by
  unfold reportQueue
  repeat' first
    | with_reducible assumption | with_reducible apply reportSlots_evolves | with_reducible apply exec_evolves
    | with_reducible apply writeMem_evolves | with_reducible apply evolves_ite
    | with_reducible refine evolves_snd (by assumption) ?_ | simp only [evolves_mk] | (split)

theorem purgePrograms_evolves {s0 s : State} {n : Nat} (h : Evolves s0 s) : Evolves s0 (purgePrograms s n) := by
  unfold purgePrograms
  repeat' first
    | with_reducible assumption | with_reducible apply evolves_ite | simp only [evolves_mk]

theorem clearFlows_evolves {s0 s : State} {n : Nat} (h : Evolves s0 s) : Evolves s0 (clearFlows s n) := by
  unfold clearFlows
  repeat' first
    | intro _ | with_reducible assumption | with_reducible apply setFld_evolves | with_reducible apply setFlag_evolves
    | with_reducible apply evolves_ite  | with_reducible apply evolves_foldl

theorem resetSliceRegs_evolves {s0 s : State} {n : Nat} (h : Evolves s0 s) : Evolves s0 (resetSliceRegs s n) := by
  unfold resetSliceRegs
  repeat' first
    | intro _ | with_reducible assumption | with_reducible apply resetReg_evolves | with_reducible apply evolves_foldl
    | simp only [evolves_mk] | (split)

theorem dropSliceJobs_evolves {s0 s : State} {n : Nat} (h : Evolves s0 s) : Evolves s0 (dropSliceJobs s n) := by
  unfold dropSliceJobs
  repeat' first
    | intro _ | with_reducible assumption | with_reducible apply freeHeld_evolves | with_reducible apply volWaiters_evolves
    | with_reducible apply freeCtxs_evolves | with_reducible apply updateLow_evolves | with_reducible apply fanCounts_evolves
    | with_reducible apply endTxn_evolves | with_reducible apply evolves_foldl | simp only [evolves_mk]

theorem resetDrained_evolves {s0 s : State} {n : Nat} (h : Evolves s0 s) : Evolves s0 (resetDrained s n) := by
  unfold resetDrained
  repeat' first
    | intro _ | with_reducible assumption | with_reducible apply reportQueue_evolves | with_reducible apply truncate_evolves
    | with_reducible apply dropSliceJobs_evolves | with_reducible apply xltPurge_evolves
    | with_reducible apply resetSliceRegs_evolves | with_reducible apply clearFlows_evolves
    | with_reducible apply purgePrograms_evolves | with_reducible apply State.setLimit_evolves
    | with_reducible apply resetReg_evolves | with_reducible apply bucketFill_evolves | with_reducible apply setFld_evolves
    | with_reducible apply State.count_evolves | with_reducible apply addWrap_evolves | with_reducible apply okJob_evolves
    | with_reducible apply evolves_foldl  | simp only [evolves_mk] | (split)

theorem slcCfgWrite_evolves {s0 s : State} {n : Nat} {value : Nat} (h : Evolves s0 s) : Evolves s0 (slcCfgWrite s n value) := by
  unfold slcCfgWrite
  repeat' first
    | with_reducible assumption | with_reducible apply setFlag_evolves | simp only [evolves_mk] | (split)

theorem slcPasidWrite_evolves {s0 s : State} {n : Nat} {value : Nat} (h : Evolves s0 s) : Evolves s0 (slcPasidWrite s n value) := by
  unfold slcPasidWrite
  repeat' first
    | with_reducible assumption | with_reducible apply setFld_evolves | with_reducible apply setFlag_evolves
    | with_reducible apply evolves_ite 

theorem slcBwWrite_evolves {s0 s : State} {n : Nat} {value : Nat} (h : Evolves s0 s) : Evolves s0 (slcBwWrite s n value) := by
  unfold slcBwWrite
  repeat' first
    | with_reducible assumption | with_reducible apply setFld_evolves | simp only [evolves_mk] | (split)

theorem msixReset_evolves {s0 s : State} (h : Evolves s0 s) : Evolves s0 (msixReset s) := by
  unfold msixReset
  repeat' first
    | with_reducible assumption | with_reducible apply evolves_ite | simp only [evolves_mk]

end Sys2Proof.Machine
end

