-- ==== Sys2Proof/Laws/EvWrites.lean ====
section
/-! SUPPORT. The functions of Machine/Writes.lean only evolve the state (Safety.lean, Evolves). -/

namespace Sys2Proof.Machine

theorem fatalError_evolves {s0 s : State} {cls : Nat} (h : Evolves s0 s) : Evolves s0 (fatalError s cls) := by
  unfold fatalError
  repeat' first
    | with_reducible assumption | with_reducible apply stopTasks_evolves | simp only [evolves_mk] | (split)

theorem releaseInOrder_evolves {s0 s : State} {n : Nat} (h : Evolves s0 s) : Evolves s0 (releaseInOrder s n) := by
  unfold releaseInOrder
  repeat' first
    | with_reducible assumption | with_reducible apply jobRelease_evolves | with_reducible apply evolves_foldl

theorem releaseHeld_evolves {s0 s : State} {n : Nat} (h : Evolves s0 s) : Evolves s0 (releaseHeld s n) := by
  unfold releaseHeld
  repeat' first
    | with_reducible assumption | with_reducible apply jobRelease_evolves | with_reducible apply setFlag_evolves
    | with_reducible apply State.setTail_evolves | with_reducible apply evolves_ite | with_reducible apply evolves_foldl

theorem evHeadWrite_evolves {s0 s : State} {n : Nat} {value : Nat} (h : Evolves s0 s) : Evolves s0 (evHeadWrite s n value) := by
  unfold evHeadWrite
  repeat' first
    | with_reducible assumption | with_reducible apply setFlag_evolves | with_reducible apply releaseInOrder_evolves
    | with_reducible apply tailDrain_evolves | with_reducible apply setReg_evolves | with_reducible apply evolves_ite

theorem evCfgFields_evolves {s0 s : State} {n : Nat} {value : Nat} (h : Evolves s0 s) : Evolves s0 (evCfgFields s n value) := by
  unfold evCfgFields
  repeat' first
    | with_reducible assumption | with_reducible apply setFlag_evolves | with_reducible apply setFld_evolves
    | with_reducible apply evolves_ite 

theorem evEnable_evolves {s0 s : State} {n : Nat} (h : Evolves s0 s) : Evolves s0 (evEnable s n) := by
  unfold evEnable
  repeat' first
    | with_reducible assumption | with_reducible apply tailDrain_evolves | with_reducible apply setReg_evolves
    | with_reducible apply setFlag_evolves | with_reducible apply evolves_ite

theorem evCfgWrite_evolves {s0 s : State} {n : Nat} {value : Nat} (h : Evolves s0 s) : Evolves s0 (evCfgWrite s n value) := by
  unfold evCfgWrite
  repeat' first
    | with_reducible assumption | with_reducible apply evCfgFields_evolves | with_reducible apply evEnable_evolves
    | with_reducible apply setFlag_evolves | with_reducible apply releaseHeld_evolves | simp only [evolves_mk] | (split)

theorem profileWrite_evolves {s0 s : State} {value : Nat} (h : Evolves s0 s) : Evolves s0 (profileWrite s value) := by
  unfold profileWrite
  repeat' first
    | with_reducible assumption | with_reducible apply setReg_evolves | with_reducible apply setFld_evolves
    | with_reducible apply setFlag_evolves | with_reducible apply evolves_ite

theorem devCfgWrite_evolves {s0 s : State} {value : Nat} (h : Evolves s0 s) : Evolves s0 (devCfgWrite s value) := by
  unfold devCfgWrite
  repeat' first
    | with_reducible assumption | with_reducible apply setReg_evolves | (split)

theorem flowCfgWrite_evolves {s0 s : State} {f : Nat} {value : Nat} (h : Evolves s0 s) : Evolves s0 (flowCfgWrite s f value) := by
  unfold flowCfgWrite
  repeat' first
    | with_reducible assumption | with_reducible apply setFld_evolves | with_reducible apply setFlag_evolves
    | with_reducible apply evolves_ite 

theorem traceCfgWrite_evolves {s0 s : State} {value : Nat} (h : Evolves s0 s) : Evolves s0 (traceCfgWrite s value) := by
  unfold traceCfgWrite
  repeat' first
    | with_reducible assumption | with_reducible apply setReg_evolves | with_reducible apply setFlag_evolves
    | with_reducible apply evolves_ite 

theorem preemptApply_evolves {s0 s : State} (h : Evolves s0 s) : Evolves s0 (preemptApply s) := by
  unfold preemptApply
  repeat' first
    | with_reducible assumption | with_reducible apply setFld_evolves | (split)

theorem stnCfgWrite_evolves {s0 s : State} {value : Nat} (h : Evolves s0 s) : Evolves s0 (stnCfgWrite s value) := by
  unfold stnCfgWrite
  repeat' first
    | with_reducible assumption | with_reducible apply preemptApply_evolves | with_reducible apply setFld_evolves
    | with_reducible apply evolves_ite 

theorem checkCtlWrite_evolves {s0 s : State} {value : Nat} (h : Evolves s0 s) : Evolves s0 (checkCtlWrite s value) := by
  unfold checkCtlWrite
  repeat' first
    | with_reducible assumption | with_reducible apply evolves_ite | simp only [evolves_mk]

theorem hostAdUpdate_evolves {s0 s : State} (h : Evolves s0 s) : Evolves s0 (hostAdUpdate s) := by
  unfold hostAdUpdate
  repeat' first
    | with_reducible assumption | with_reducible apply setFlag_evolves

theorem xltCfgWrite_evolves {s0 s : State} {value : Nat} (h : Evolves s0 s) : Evolves s0 (xltCfgWrite s value) := by
  unfold xltCfgWrite
  repeat' first
    | with_reducible assumption | with_reducible apply hostAdUpdate_evolves | with_reducible apply setFlag_evolves

theorem atomicEnable_evolves {s0 s : State} {b : Bool} (h : Evolves s0 s) : Evolves s0 (atomicEnable s b) := by
  unfold atomicEnable
  repeat' first
    | with_reducible assumption | with_reducible apply hostAdUpdate_evolves | with_reducible apply setFlag_evolves

theorem xltInvalWrite_evolves {s0 s : State} {value : Nat} (h : Evolves s0 s) : Evolves s0 (xltInvalWrite s value) := by
  unfold xltInvalWrite
  repeat' first
    | with_reducible assumption | with_reducible apply hostSync_evolves | with_reducible apply setFlag_evolves
    | with_reducible apply setReg_evolves | with_reducible apply xltPurge_evolves | with_reducible apply evolves_ite

theorem groupCfgWrite_evolves {s0 s : State} {value : Nat} (h : Evolves s0 s) : Evolves s0 (groupCfgWrite s value) := by
  unfold groupCfgWrite
  repeat' first
    | with_reducible assumption | with_reducible apply setFld_evolves | simp only [evolves_mk] | (split)

theorem spaceWrite_evolves {s0 s : State} {value : Nat} (h : Evolves s0 s) : Evolves s0 (spaceWrite s value) := by
  unfold spaceWrite
  repeat' first
    | with_reducible assumption | with_reducible apply spaceUpdate_evolves | with_reducible apply setFld_evolves
    | with_reducible apply evolves_ite 

theorem sckEvtWrite_evolves {s0 s : State} {c : Nat} {value : Nat} (h : Evolves s0 s) : Evolves s0 (sckEvtWrite s c value) := by
  unfold sckEvtWrite
  repeat' first
    | with_reducible assumption | with_reducible apply setReg_evolves | with_reducible apply setFlag_evolves
    | with_reducible apply evolves_ite 

theorem sckClear_evolves {s0 s : State} (h : Evolves s0 s) : Evolves s0 (sckClear s) := by
  unfold sckClear
  repeat' first
    | with_reducible assumption | with_reducible apply setReg_evolves | with_reducible apply resetRegs_evolves

theorem sckCtlWrite_evolves {s0 s : State} {value : Nat} (h : Evolves s0 s) : Evolves s0 (sckCtlWrite s value) := by
  unfold sckCtlWrite
  repeat' first
    | with_reducible assumption | with_reducible apply setReg_evolves | with_reducible apply sckClear_evolves
    | with_reducible apply evolves_ite 

theorem sckCntWrite_evolves {s0 s : State} {c : Nat} {value : Nat} (h : Evolves s0 s) : Evolves s0 (sckCntWrite s c value) := by
  unfold sckCntWrite
  repeat' first
    | with_reducible assumption | with_reducible apply setFld_evolves

theorem sckOverflow_evolves {s0 s : State} {c : Nat} (h : Evolves s0 s) : Evolves s0 (sckOverflow s c) := by
  unfold sckOverflow
  repeat' first
    | with_reducible assumption | with_reducible apply State.devEvent_evolves | simp only [evolves_mk] | (split)

theorem zeroPeaks_evolves {s0 s : State} (h : Evolves s0 s) : Evolves s0 (zeroPeaks s) := by
  unfold zeroPeaks
  repeat' first
    | with_reducible assumption | with_reducible apply resetRegs_evolves

theorem bwCfgWrite_evolves {s0 s : State} {value : Nat} (h : Evolves s0 s) : Evolves s0 (bwCfgWrite s value) := by
  unfold bwCfgWrite
  repeat' first
    | with_reducible assumption | with_reducible apply zeroPeaks_evolves | with_reducible apply setFld_evolves
    | with_reducible apply evolves_ite  | simp only [evolves_mk]

theorem bwCtlWrite_evolves {s0 s : State} {value : Nat} (h : Evolves s0 s) : Evolves s0 (bwCtlWrite s value) := by
  unfold bwCtlWrite
  repeat' first
    | with_reducible assumption | with_reducible apply evolves_ite | simp only [evolves_mk]

theorem windowPort_evolves {s0 s : State} {p : Nat} (h : Evolves s0 s) : Evolves s0 (windowPort s p) := by
  unfold windowPort
  repeat' first
    | with_reducible assumption | with_reducible apply setReg_evolves | simp only [evolves_mk] | (split)

theorem windowEnd_evolves {s0 s : State} (h : Evolves s0 s) : Evolves s0 (windowEnd s) := by
  unfold windowEnd
  repeat' first
    | with_reducible assumption | with_reducible apply clockTo_evolves | with_reducible apply zeroPeaks_evolves
    | with_reducible apply windowPort_evolves | with_reducible apply evolves_ite | with_reducible apply evolves_foldl
    | simp only [evolves_mk]

theorem bootImageWrite_evolves {s0 s : State} {value : Nat} (h : Evolves s0 s) : Evolves s0 (bootImageWrite s value) := by
  unfold bootImageWrite
  repeat' first
    | with_reducible assumption | with_reducible apply setBootHeader_evolves

theorem bootDumpWrite_evolves {s0 s : State} {value : Nat} (h : Evolves s0 s) : Evolves s0 (bootDumpWrite s value) := by
  unfold bootDumpWrite
  repeat' first
    | with_reducible assumption | with_reducible apply fatalError_evolves | (split)

end Sys2Proof.Machine
end

