-- ==== Sys2Proof/Laws/EvHostAccess.lean ====
section
/-! SUPPORT. The functions of Machine/HostAccess.lean only evolve the state (Safety.lean, Evolves). -/

namespace Sys2Proof.Machine

theorem regPlain_evolves {s0 s : State} {w : RegRow} {i : Nat} {e : Nat} (h : Evolves s0 s) : Evolves s0 (regPlain s w i e) := by
  unfold regPlain
  repeat' first
    | with_reducible assumption | with_reducible apply setReg_evolves

theorem writeReg_evolves {s0 s : State} {w : RegRow} {i : Nat} {v : Nat} {wm : Nat} (h : Evolves s0 s) : Evolves s0 (writeReg s w i v wm) := by
  unfold writeReg
  repeat' first
    | with_reducible assumption | with_reducible apply profileWrite_evolves | with_reducible apply devCfgWrite_evolves
    | with_reducible apply wqCfgWrite_evolves | with_reducible apply regPlain_evolves
    | with_reducible apply evCfgWrite_evolves | with_reducible apply flowCfgWrite_evolves
    | with_reducible apply traceCfgWrite_evolves | with_reducible apply stnCfgWrite_evolves
    | with_reducible apply checkCtlWrite_evolves | with_reducible apply grnCtlWrite_evolves
    | with_reducible apply maintWrite_evolves | with_reducible apply dmcPwrWrite_evolves
    | with_reducible apply sluCfgWrite_evolves | with_reducible apply sluCtlWrite_evolves
    | with_reducible apply shadowWrite_evolves | with_reducible apply registerMark_evolves
    | with_reducible apply tapCfgWrite_evolves | with_reducible apply vtapWrite_evolves
    | with_reducible apply xltCfgWrite_evolves | with_reducible apply xltInvalWrite_evolves
    | with_reducible apply slcCfgWrite_evolves | with_reducible apply slcPasidWrite_evolves
    | with_reducible apply slcBwWrite_evolves | with_reducible apply portCtlWrite_evolves
    | with_reducible apply groupCfgWrite_evolves | with_reducible apply spaceWrite_evolves
    | with_reducible apply checkpoint_evolves | with_reducible apply replayStart_evolves
    | with_reducible apply tableCfgWrite_evolves | with_reducible apply otpCtlWrite_evolves
    | with_reducible apply brkRespWrite_evolves | with_reducible apply keyCtlWrite_evolves
    | with_reducible apply restoreCtlWrite_evolves | with_reducible apply restoreData_evolves
    | with_reducible apply sckCtlWrite_evolves | with_reducible apply sckEvtWrite_evolves
    | with_reducible apply bwCfgWrite_evolves | with_reducible apply bwCtlWrite_evolves
    | with_reducible apply sckCntWrite_evolves | with_reducible apply clearSteps_evolves
    | with_reducible apply bootImageWrite_evolves | with_reducible apply bootDumpWrite_evolves
    | with_reducible apply doorbell_evolves | with_reducible apply evHeadWrite_evolves | with_reducible apply evolves_ite
    | (split)

theorem clearRead_evolves {s0 s : State} {w : RegRow} {i : Nat} {o : Nat} {n : Nat} (h : Evolves s0 s) : Evolves s0 (clearRead s w i o n) := by
  unfold clearRead
  repeat' first
    | intro _ | with_reducible assumption | with_reducible apply setFld_evolves | with_reducible apply ceRead_evolves
    | with_reducible apply evolves_ite  | with_reducible apply evolves_foldl

theorem slotRead_evolves {s0 s : State} {image : Bool} {bar2 : Bool} {off : Nat} {n : Nat} (h : Evolves s0 s) : Evolves s0 (slotRead image bar2 s off n).2 := by
  unfold slotRead
  repeat' first
    | with_reducible assumption | with_reducible apply clearRead_evolves | (split)

theorem busRead_evolves {s0 s : State} {image : Bool} {bar2 : Bool} {off : Nat} {n : Nat} (h : Evolves s0 s) : Evolves s0 (busRead image bar2 s off n).2 := by
  unfold busRead
  repeat' first
    | intro _ | with_reducible assumption | with_reducible apply slotRead_evolves | with_reducible apply evolves_foldl_snd

theorem msixWrite_evolves {s0 s : State} {off : Nat} {b : List Byte} (h : Evolves s0 s) : Evolves s0 (msixWrite s off b) := by
  unfold msixWrite
  repeat' first
    | with_reducible assumption | with_reducible apply State.setVector_evolves | with_reducible apply msixUnmask_evolves
    | simp only [evolves_mk] | (split)

theorem slotWrite_evolves {s0 s : State} {bar2 : Bool} {off : Nat} {b : List Byte} (h : Evolves s0 s) : Evolves s0 (slotWrite bar2 s off b) := by
  unfold slotWrite
  repeat' first
    | with_reducible assumption | with_reducible apply writeReg_evolves | simp only [evolves_mk] | (split)

theorem busWrite_evolves {s0 s : State} {image : Bool} {bar2 : Bool} {off : Nat} {b : List Byte} (h : Evolves s0 s) : Evolves s0 (busWrite image bar2 s off b) := by
  unfold busWrite
  repeat' first
    | with_reducible assumption | with_reducible apply msixWrite_evolves | with_reducible apply slotWrite_evolves
    | with_reducible apply evolves_ite 

theorem hostIn_evolves {s0 s : State} {n : Nat} (h : Evolves s0 s) : Evolves s0 (hostIn s n) := by
  unfold hostIn
  repeat' first
    | with_reducible assumption | with_reducible apply State.count_evolves | with_reducible apply State.bwAdd_evolves

theorem hostOut_evolves {s0 s : State} {n : Nat} (h : Evolves s0 s) : Evolves s0 (hostOut s n) := by
  unfold hostOut
  repeat' first
    | with_reducible assumption | with_reducible apply State.count_evolves | with_reducible apply State.bwAdd_evolves

theorem hostSet_evolves {s0 s : State} {r : Reg} {i : Nat} {v : Nat} (h : Evolves s0 s) : Evolves s0 (hostSet s r i v) := by
  unfold hostSet
  repeat' first
    | with_reducible assumption | with_reducible apply writeReg_evolves | with_reducible apply hostIn_evolves
    | with_reducible apply evolves_ite 

theorem hostWriteReg_evolves {s0 s : State} {a : RegWrite} (h : Evolves s0 s) : Evolves s0 (hostWriteReg s a) := by
  unfold hostWriteReg
  repeat' first
    | with_reducible assumption | with_reducible apply busWrite_evolves | with_reducible apply hostIn_evolves
    | with_reducible apply evolves_ite 

theorem hostReadReg_evolves {s0 s : State} {a : RegRead} (h : Evolves s0 s) : Evolves s0 (hostReadReg s a) := by
  unfold hostReadReg
  repeat' first
    | with_reducible assumption | with_reducible apply busRead_evolves | with_reducible apply hostOut_evolves
    | with_reducible apply evolves_ite  | simp only [evolves_mk]

theorem bar4Line_evolves {s0 s : State} {dpa : Nat} {n : Nat} (h : Evolves s0 s) : Evolves s0 (bar4Line s dpa n).2 := by
  unfold bar4Line
  repeat' first
    | with_reducible assumption | with_reducible apply exec_evolves | with_reducible apply granRead_evolves
    | with_reducible apply openBytes_evolves | with_reducible refine evolves_exec (by assumption) ?_ ?_ | (split)

theorem bar4Read_evolves {s0 s : State} {off n : Nat} (h : Evolves s0 s) : Evolves s0 (bar4Read s off n).2 := by
  unfold bar4Read
  exact evolves_foldl_snd h fun _ _ hq => pair_evolves (bar4Line_evolves hq)

theorem bar4Write_evolves {s0 s : State} {off : Nat} {b : List Byte} (h : Evolves s0 s) : Evolves s0 (bar4Write s off b) := by
  unfold bar4Write
  repeat' first
    | intro _ | with_reducible assumption | with_reducible apply quiet_evolves | with_reducible apply granWrite_evolves
    | with_reducible apply hostIn_evolves | with_reducible apply evolves_ite | with_reducible apply evolves_foldl

theorem answerHost_evolves {s0 : State} {x : List Byte × State} {n : Nat} (h : Evolves s0 x.2) : Evolves s0 (answerHost x n) := by
  unfold answerHost
  simp only [evolves_mk]
  exact hostOut_evolves h

theorem bar4Access_evolves {s0 s : State} {a : BarAccess} (h : Evolves s0 s) : Evolves s0 (bar4Access s a) := by
  unfold bar4Access
  repeat' first
    | with_reducible assumption | with_reducible apply bar4Write_evolves | with_reducible apply answerHost_evolves
    | with_reducible apply bar4Read_evolves | with_reducible apply evolves_ite | (split)

theorem bar4Resize_evolves {s0 s : State} {log2 : Nat} (h : Evolves s0 s) : Evolves s0 (bar4Resize s log2) := by
  unfold bar4Resize
  split
  · rename_i g
    simp only [Bool.and_eq_true, decide_eq_true_eq] at g
    exact h.trans ⟨rfl, Nat.le_refl _, id, List.prefix_rfl, fun _ x => ⟨x, fun _ _ => rfl⟩, fun _ => g.2⟩
  · exact h

end Sys2Proof.Machine
end

