-- ==== Sys2Proof/Laws/EvOutside.lean ====
section
/-! SUPPORT. The functions of Machine/Outside.lean only evolve the state (Safety.lean, Evolves). -/

namespace Sys2Proof.Machine

theorem smbusReply_evolves {s0 s : State} {b : List Byte} (h : Evolves s0 s) : Evolves s0 (smbusReply s b) := by
  unfold smbusReply
  repeat' first
    | with_reducible assumption | with_reducible apply evolves_ite | simp only [evolves_mk]

theorem smbusStatus_evolves {s0 s : State} {q : SmbusReq} (h : Evolves s0 s) : Evolves s0 (smbusStatus s q) := by
  unfold smbusStatus
  repeat' first
    | with_reducible assumption | with_reducible apply smbusReply_evolves | (split)

theorem smbusTemp_evolves {s0 s : State} {q : SmbusReq} (h : Evolves s0 s) : Evolves s0 (smbusTemp s q) := by
  unfold smbusTemp
  repeat' first
    | with_reducible assumption | with_reducible apply smbusReply_evolves | (split)

theorem smbusDumpTrigger_evolves {s0 s : State} {q : SmbusReq} (h : Evolves s0 s) : Evolves s0 (smbusDumpTrigger s q) := by
  unfold smbusDumpTrigger
  repeat' first
    | with_reducible assumption | with_reducible apply fatalError_evolves | (split)

theorem smbusClearBoot_evolves {s0 s : State} {q : SmbusReq} (h : Evolves s0 s) : Evolves s0 (smbusClearBoot s q) := by
  unfold smbusClearBoot
  repeat' first
    | with_reducible assumption | with_reducible apply clearSteps_evolves | (split)

theorem smbusStep_evolves {s0 s : State} {q : SmbusReq} (h : Evolves s0 s) : Evolves s0 (smbusStep s q) := by
  unfold smbusStep
  repeat' first
    | with_reducible assumption | with_reducible apply smbusReply_evolves | with_reducible apply openBytes_evolves | (split)

theorem thermTrip_evolves {s0 s : State} {temp : Int} (h : Evolves s0 s) : Evolves s0 (thermTrip s temp) := by
  unfold thermTrip
  repeat' first
    | with_reducible assumption | with_reducible apply evolves_ite | simp only [evolves_mk]

theorem fatalEvent_evolves {s0 s : State} {cls : Nat} (h : Evolves s0 s) : Evolves s0 (fatalEvent s cls) := by
  unfold fatalEvent
  repeat' first
    | with_reducible assumption | with_reducible apply fatalError_evolves | (split)

end Sys2Proof.Machine
end

