-- ==== Sys2Proof/Laws/EvSpillway.lean ====
section
/-! SUPPORT. The functions of Machine/Spillway.lean only evolve the state (Safety.lean, Evolves). -/

namespace Sys2Proof.Machine

theorem dumpSections_evolves {s0 s : State} (h : Evolves s0 s) : Evolves s0 (dumpSections s).2 := by
  unfold dumpSections
  repeat' first
    | with_reducible assumption | with_reducible apply openBytes_evolves

theorem spillWrite_evolves {s0 s : State} {dpa : Nat} {b : List Byte} (h : Evolves s0 s) : Evolves s0 (spillWrite s dpa b) := by
  unfold spillWrite
  repeat' first
    | intro _ | with_reducible assumption | with_reducible apply quiet_evolves | with_reducible apply granWrite_evolves
    | with_reducible apply evolves_foldl 

theorem setDumpFlags_evolves {s0 s : State} {f : Nat} (h : Evolves s0 s) : Evolves s0 (setDumpFlags s f) := by
  unfold setDumpFlags
  repeat' first
    | with_reducible assumption | with_reducible apply mpdWrite_evolves

theorem writeDump_evolves {s0 s : State} {cls : Nat} (h : Evolves s0 s) : Evolves s0 (writeDump s cls) := by
  unfold writeDump
  repeat' first
    | intro _ | with_reducible assumption | with_reducible apply mpdWrite_evolves | with_reducible apply dumpSections_evolves
    | with_reducible apply spillWrite_evolves | with_reducible apply setDumpFlags_evolves | with_reducible apply evolves_ite
    | with_reducible apply evolves_foldl 

theorem fatalSettle_evolves {s0 s : State} (h : Evolves s0 s) : Evolves s0 (fatalSettle s) := by
  unfold fatalSettle
  repeat' first
    | with_reducible assumption | with_reducible apply sealAll_evolves | with_reducible apply writeDump_evolves
    | simp only [evolves_mk] | (split)

theorem workDump_evolves {s0 s : State} (h : Evolves s0 s) : Evolves s0 (workDump s) := by
  unfold workDump
  repeat' first
    | with_reducible assumption | with_reducible apply setDumpFlags_evolves | (split)

theorem regionBytes_evolves {r : Req} {base : Nat} {off : Nat} {n : Nat} : (regionBytes r base off n : Op (List Byte)).evolves := by
  unfold regionBytes
  repeat' first
    | intro _ | with_reducible assumption | with_reducible exact Evolves.refl _ | with_reducible apply granRead_evolves
    | with_reducible apply bind_evolves | with_reducible apply pure_evolves | with_reducible apply get_evolves
    | with_reducible apply upd_evolves | with_reducible apply throw_evolves | with_reducible apply ite_op_evolves
    | with_reducible apply modifyGet_evolves | with_reducible apply ask_evolves | with_reducible apply attempt_evolves
    | with_reducible apply mapM_evolves | with_reducible apply forM_evolves | with_reducible apply forIn_evolves
    | with_reducible apply foldlM_evolves | with_reducible apply evolves_ite | with_reducible apply evolves_foldl
    | with_reducible apply evolves_foldl_snd | with_reducible apply evolves_foldl_fst
    | with_reducible refine evolves_snd (by assumption) ?_ | with_reducible refine evolves_fst (by assumption) ?_
    | with_reducible refine evolves_exec (by assumption) ?_ ?_ | with_reducible refine evolves_ok (by assumption) ?_ ?_
    | with_reducible refine evolves_error (by assumption) ?_ ?_ | simp only [evolves_mk] | (split)

theorem dumpBytes_evolves {r : Req} {off : Nat} {n : Nat} : (dumpBytes r off n : Op (List Byte)).evolves := by
  unfold dumpBytes
  repeat' first
    | intro _ | with_reducible assumption | with_reducible exact Evolves.refl _ | with_reducible apply regionBytes_evolves
    | with_reducible apply bind_evolves | with_reducible apply pure_evolves | with_reducible apply get_evolves
    | with_reducible apply upd_evolves | with_reducible apply throw_evolves | with_reducible apply ite_op_evolves
    | with_reducible apply modifyGet_evolves | with_reducible apply ask_evolves | with_reducible apply attempt_evolves
    | with_reducible apply mapM_evolves | with_reducible apply forM_evolves | with_reducible apply forIn_evolves
    | with_reducible apply foldlM_evolves | with_reducible apply evolves_ite | with_reducible apply evolves_foldl
    | with_reducible apply evolves_foldl_snd | with_reducible apply evolves_foldl_fst
    | with_reducible refine evolves_snd (by assumption) ?_ | with_reducible refine evolves_fst (by assumption) ?_
    | with_reducible refine evolves_exec (by assumption) ?_ ?_ | with_reducible refine evolves_ok (by assumption) ?_ ?_
    | with_reducible refine evolves_error (by assumption) ?_ ?_ | simp only [evolves_mk] | (split)

theorem dumpReadOp_evolves {s0 s : State} {id : Nat} (h : Evolves s0 s) : Evolves s0 (dumpReadOp s id) := by
  unfold dumpReadOp
  repeat' first
    | intro _ | with_reducible assumption | with_reducible exact Evolves.refl _ | with_reducible apply finishJob_evolves
    | with_reducible apply okJob_evolves | with_reducible apply exec_evolves | with_reducible apply dumpBytes_evolves
    | with_reducible apply jobWrite_evolves | with_reducible apply State.setJob_evolves
    | with_reducible apply setDumpFlags_evolves | with_reducible apply evolves_ite | with_reducible apply evolves_foldl
    | with_reducible apply evolves_foldl_snd | with_reducible apply evolves_foldl_fst
    | with_reducible refine evolves_snd (by assumption) ?_ | with_reducible refine evolves_fst (by assumption) ?_
    | with_reducible refine evolves_exec (by assumption) ?_ ?_ | with_reducible refine evolves_ok (by assumption) ?_ ?_
    | with_reducible refine evolves_error (by assumption) ?_ ?_ | with_reducible apply bind_evolves
    | with_reducible apply pure_evolves | with_reducible apply get_evolves | with_reducible apply upd_evolves
    | with_reducible apply throw_evolves | with_reducible apply ite_op_evolves | with_reducible apply modifyGet_evolves
    | with_reducible apply ask_evolves | with_reducible apply attempt_evolves | with_reducible apply mapM_evolves
    | with_reducible apply forM_evolves | with_reducible apply forIn_evolves | with_reducible apply foldlM_evolves
    | simp only [evolves_mk] | (split)

end Sys2Proof.Machine
end

