-- ==== Sys2Proof/Laws/EvSettle.lean ====
section
/-! SUPPORT. The functions of Machine/Settle.lean only evolve the state (Safety.lean, Evolves). -/

namespace Sys2Proof.Machine

theorem preemptSettle_evolves {s0 s : State} (h : Evolves s0 s) : Evolves s0 (preemptSettle s) := by
  unfold preemptSettle
  repeat' first
    | with_reducible assumption | with_reducible apply setFld_evolves | (split)

theorem settleRounds_evolves {s0 s : State} {n : Nat} (h : Evolves s0 s) : Evolves s0 (settleRounds n s) := by
  induction n generalizing s with
  | zero => exact evolves_same h rfl rfl rfl rfl rfl rfl rfl rfl rfl
  | succ n ih =>
    unfold settleRounds
    exact evolves_ite (ih (settleEvents_evolves (fatalSettle_evolves h))) h

theorem settle_evolves {s0 s : State} (h : Evolves s0 s) : Evolves s0 (settle s) := by
  unfold settle
  repeat' first
    | with_reducible assumption | with_reducible apply preemptSettle_evolves | with_reducible apply settleRounds_evolves
    | with_reducible apply evolves_ite 

theorem hostUnmask_evolves {s0 s : State} {v : Nat} (h : Evolves s0 s) : Evolves s0 (hostUnmask s v) := by
  unfold hostUnmask
  repeat' first
    | with_reducible assumption | with_reducible apply msixUnmask_evolves | with_reducible apply hostIn_evolves
    | with_reducible apply evolves_ite 

theorem opNeg_evolves {c : Ctx} {f : Insn} : (opNeg c f : Op Unit).evolves := by
  unfold opNeg
  repeat' first
    | with_reducible apply opUnary_evolves

theorem opAbs_evolves {c : Ctx} {f : Insn} : (opAbs c f : Op Unit).evolves := by
  unfold opAbs
  repeat' first
    | with_reducible apply opUnary_evolves

theorem opCvt_evolves {c : Ctx} {f : Insn} : (opCvt c f : Op Unit).evolves := by
  unfold opCvt
  repeat' first
    | with_reducible apply opUnary_evolves

end Sys2Proof.Machine
end

