-- ==== Sys2Proof/Laws/EvIdle.lean ====
section
/-! SUPPORT. The functions of Machine/Idle.lean only evolve the state (Safety.lean, Evolves). -/

namespace Sys2Proof.Machine

theorem idle_evolves {s0 s : State} (h : Evolves s0 s) : Evolves s0 (idle s) := by
  unfold idle
  repeat' first
    | with_reducible assumption | with_reducible apply settle_evolves | with_reducible apply tick_evolves
    | with_reducible apply bootAdvance_evolves | with_reducible apply workDump_evolves | (split)

end Sys2Proof.Machine
end

