-- ==== Sys2Proof/Laws/Commands.lean ====
section
/-! SUPPORT. Every command's meaning is an effect that only evolves the state (Safety.lean, Evolves), settled. -/

namespace Sys2Proof.Machine

/-- Reading registers through the REGISTER region. -/
theorem registerIo_read_evolves (s0 s : State) (y n : Nat) (h : Evolves s0 s) : Evolves s0 (registerIo.read s y n).2 := by
  show Evolves s0 (if y < 0x1000000 then busRead true false s y n
    else if y < 0x1400000 then busRead true true s (y - 0x1000000) n else (zeros n, s)).2
  exact evolves_ite_snd (busRead_evolves h) (evolves_ite_snd (busRead_evolves h) (pair_evolves h))

/-- Writing registers through the REGISTER region. -/
theorem registerIo_write_evolves (s0 s : State) (y : Nat) (b : List Byte) (h : Evolves s0 s) :
    Evolves s0 (registerIo.write s y b) := by
  show Evolves s0 (if y < 0x1000000 then busWrite true false s y b
    else if y < 0x1400000 then busWrite true true s (y - 0x1000000) b else s)
  exact evolves_ite (busWrite_evolves h) (evolves_ite (busWrite_evolves h) h)

theorem execNop_done {s : State} {job : Nat} : ∃ u, execNop job s = done u ∧ Evolves s u :=
  ⟨_, rfl, nopOp_evolves (.refl s)⟩

theorem execFence_done {s : State} {job : Nat} : ∃ u, execFence job s = done u ∧ Evolves s u :=
  ⟨_, rfl, fenceOp_evolves (.refl s)⟩

theorem execAbort_done {s : State} {job : Nat} : ∃ u, execAbort job s = done u ∧ Evolves s u :=
  ⟨_, rfl, abortOp_evolves (.refl s)⟩

theorem execQuery_done {s : State} {job : Nat} : ∃ u, execQuery job s = done u ∧ Evolves s u :=
  ⟨_, rfl, queryOp_evolves (.refl s)⟩

theorem execPipeRun_done {s : State} {job : Nat} : ∃ u, execPipeRun job s = done u ∧ Evolves s u :=
  ⟨_, rfl, pipeRunOp_evolves (.refl s)⟩

theorem execPipeArgs_done {s : State} {job : Nat} : ∃ u, execPipeArgs job s = done u ∧ Evolves s u :=
  ⟨_, rfl, pipeArgsOp_evolves (.refl s)⟩

theorem execIndexLookup_done {s : State} {job : Nat} : ∃ u, execIndexLookup job s = done u ∧ Evolves s u :=
  ⟨_, rfl, lookupOp_evolves (.refl s)⟩

theorem execRowFetch_done {s : State} {job : Nat} : ∃ u, execRowFetch job s = done u ∧ Evolves s u :=
  ⟨_, rfl, rowFetchOp_evolves (.refl s)⟩

theorem execCopy_done {s : State} {job : Nat} : ∃ u, execCopy job s = done u ∧ Evolves s u :=
  ⟨_, rfl, sluiceOp_evolves (.refl s)⟩

theorem execFill_done {s : State} {job : Nat} : ∃ u, execFill job s = done u ∧ Evolves s u :=
  ⟨_, rfl, sluiceOp_evolves (.refl s)⟩

theorem execCopyList_done {s : State} {job : Nat} : ∃ u, execCopyList job s = done u ∧ Evolves s u :=
  ⟨_, rfl, sluiceOp_evolves (.refl s)⟩

theorem execCompress_done {s : State} {job : Nat} : ∃ u, execCompress job s = done u ∧ Evolves s u :=
  ⟨_, rfl, compressOp_evolves (.refl s)⟩

theorem execDecompress_done {s : State} {job : Nat} : ∃ u, execDecompress job s = done u ∧ Evolves s u :=
  ⟨_, rfl, decompressOp_evolves (.refl s)⟩

theorem execDigest_done {s : State} {job : Nat} : ∃ u, execDigest job s = done u ∧ Evolves s u :=
  ⟨_, rfl, digestOp_evolves (.refl s)⟩

theorem execDigestKeyed_done {s : State} {job : Nat} : ∃ u, execDigestKeyed job s = done u ∧ Evolves s u :=
  ⟨_, rfl, digestOp_evolves (.refl s)⟩

theorem execContextSave_done {s : State} {job : Nat} : ∃ u, execContextSave job s = done u ∧ Evolves s u :=
  ⟨_, rfl, contextSaveOp_evolves (.refl s)⟩

theorem execContextRestore_done {s : State} {job : Nat} : ∃ u, execContextRestore job s = done u ∧ Evolves s u :=
  ⟨_, rfl, contextRestoreOp_evolves (.refl s)⟩

theorem execRead_done {s : State} {job : Nat} : ∃ u, execRead job s = done u ∧ Evolves s u :=
  ⟨_, rfl, volumeJob_evolves (.refl s)⟩

theorem execWrite_done {s : State} {job : Nat} : ∃ u, execWrite job s = done u ∧ Evolves s u :=
  ⟨_, rfl, volumeJob_evolves (.refl s)⟩

theorem execFlush_done {s : State} {job : Nat} : ∃ u, execFlush job s = done u ∧ Evolves s u :=
  ⟨_, rfl, flushOp_evolves (.refl s)⟩

theorem execTrim_done {s : State} {job : Nat} : ∃ u, execTrim job s = done u ∧ Evolves s u :=
  ⟨_, rfl, volumeJob_evolves (.refl s)⟩

theorem execBegin_done {s : State} {job : Nat} : ∃ u, execBegin job s = done u ∧ Evolves s u :=
  ⟨_, rfl, beginOp_evolves (.refl s)⟩

theorem execCommit_done {s : State} {job : Nat} : ∃ u, execCommit job s = done u ∧ Evolves s u :=
  ⟨_, rfl, commitJob_evolves (.refl s)⟩

theorem execSnapshotOpen_done {s : State} {job : Nat} : ∃ u, execSnapshotOpen job s = done u ∧ Evolves s u :=
  ⟨_, rfl, snapshotOpen_evolves (.refl s)⟩

theorem execSnapshotClose_done {s : State} {job : Nat} : ∃ u, execSnapshotClose job s = done u ∧ Evolves s u :=
  ⟨_, rfl, snapshotClose_evolves (.refl s)⟩

theorem execSliceCreate_done {s : State} {job : Nat} : ∃ u, execSliceCreate job s = done u ∧ Evolves s u :=
  ⟨_, rfl, sliceCreate_evolves (.refl s)⟩

theorem execSliceReset_done {s : State} {job : Nat} : ∃ u, execSliceReset job s = done u ∧ Evolves s u :=
  ⟨_, rfl, sliceReset_evolves (.refl s)⟩

theorem execVolumeCreate_done {s : State} {job : Nat} : ∃ u, execVolumeCreate job s = done u ∧ Evolves s u :=
  ⟨_, rfl, volumeCreate_evolves (.refl s)⟩

theorem execVolumeDelete_done {s : State} {job : Nat} : ∃ u, execVolumeDelete job s = done u ∧ Evolves s u :=
  ⟨_, rfl, volumeDelete_evolves (.refl s)⟩

theorem execSanitise_done {s : State} {job : Nat} : ∃ u, execSanitise job s = done u ∧ Evolves s u :=
  ⟨_, rfl, sanitiseOp_evolves (.refl s)⟩

theorem execFormat_done {s : State} {job : Nat} : ∃ u, execFormat job s = done u ∧ Evolves s u :=
  ⟨_, rfl, formatOp_evolves (.refl s)⟩

theorem execDumpRead_done {s : State} {job : Nat} : ∃ u, execDumpRead job s = done u ∧ Evolves s u :=
  ⟨_, rfl, dumpReadOp_evolves (.refl s)⟩

theorem execTlbInvalAddr_done {s : State} {job : Nat} : ∃ u, execTlbInvalAddr job s = done u ∧ Evolves s u :=
  ⟨_, rfl, invalOp_evolves (.refl s)⟩

theorem execTlbInvalTag_done {s : State} {job : Nat} : ∃ u, execTlbInvalTag job s = done u ∧ Evolves s u :=
  ⟨_, rfl, invalOp_evolves (.refl s)⟩

theorem execTlbInvalAll_done {s : State} {job : Nat} : ∃ u, execTlbInvalAll job s = done u ∧ Evolves s u :=
  ⟨_, rfl, invalOp_evolves (.refl s)⟩

theorem execEndPart_done {s : State} {stone stage : Nat} {f : Insn} : ∃ u, execEndPart stone stage f s = done u ∧ Evolves s u :=
  ⟨_, rfl, insnStep_evolves (fun _ _ => pure_evolves _) (.refl s)⟩

theorem execInstrNop_done {s : State} {stone stage : Nat} {f : Insn} : ∃ u, execInstrNop stone stage f s = done u ∧ Evolves s u :=
  ⟨_, rfl, insnStep_evolves (fun _ _ => pure_evolves _) (.refl s)⟩

theorem execBr_done {s : State} {stone stage : Nat} {f : Insn} : ∃ u, execBr stone stage f s = done u ∧ Evolves s u :=
  ⟨_, rfl, insnStep_evolves (fun _ _ => pure_evolves _) (.refl s)⟩

theorem execLoop_done {s : State} {stone stage : Nat} {f : Insn} : ∃ u, execLoop stone stage f s = done u ∧ Evolves s u :=
  ⟨_, rfl, insnStep_evolves (fun _ _ => pure_evolves _) (.refl s)⟩

theorem execEndloop_done {s : State} {stone stage : Nat} {f : Insn} : ∃ u, execEndloop stone stage f s = done u ∧ Evolves s u :=
  ⟨_, rfl, insnStep_evolves (fun _ _ => pure_evolves _) (.refl s)⟩

theorem execMovs_done {s : State} {stone stage : Nat} {f : Insn} : ∃ u, execMovs stone stage f s = done u ∧ Evolves s u :=
  ⟨_, rfl, insnStep_evolves (fun _ _ => opMovs_evolves) (.refl s)⟩

theorem execSalu_done {s : State} {stone stage : Nat} {f : Insn} : ∃ u, execSalu stone stage f s = done u ∧ Evolves s u :=
  ⟨_, rfl, insnStep_evolves (fun _ _ => opSalu_evolves) (.refl s)⟩

theorem execDcol_done {s : State} {stone stage : Nat} {f : Insn} : ∃ u, execDcol stone stage f s = done u ∧ Evolves s u :=
  ⟨_, rfl, insnStep_evolves (fun _ _ => opDcol_evolves) (.refl s)⟩

theorem execDrec_done {s : State} {stone stage : Nat} {f : Insn} : ∃ u, execDrec stone stage f s = done u ∧ Evolves s u :=
  ⟨_, rfl, insnStep_evolves (fun _ _ => opDrec_evolves) (.refl s)⟩

theorem execDrowid_done {s : State} {stone stage : Nat} {f : Insn} : ∃ u, execDrowid stone stage f s = done u ∧ Evolves s u :=
  ⟨_, rfl, insnStep_evolves (fun _ _ => opDrowid_evolves) (.refl s)⟩

theorem execCmp_done {s : State} {stone stage : Nat} {f : Insn} : ∃ u, execCmp stone stage f s = done u ∧ Evolves s u :=
  ⟨_, rfl, insnStep_evolves (fun _ _ => opCmp_evolves) (.refl s)⟩

theorem execTcmp_done {s : State} {stone stage : Nat} {f : Insn} : ∃ u, execTcmp stone stage f s = done u ∧ Evolves s u :=
  ⟨_, rfl, insnStep_evolves (fun _ _ => opTcmp_evolves) (.refl s)⟩

theorem execInset_done {s : State} {stone stage : Nat} {f : Insn} : ∃ u, execInset stone stage f s = done u ∧ Evolves s u :=
  ⟨_, rfl, insnStep_evolves (fun _ _ => opInset_evolves) (.refl s)⟩

theorem execIsnull_done {s : State} {stone stage : Nat} {f : Insn} : ∃ u, execIsnull stone stage f s = done u ∧ Evolves s u :=
  ⟨_, rfl, insnStep_evolves (fun _ _ => opIsnull_evolves) (.refl s)⟩

theorem execMand_done {s : State} {stone stage : Nat} {f : Insn} : ∃ u, execMand stone stage f s = done u ∧ Evolves s u :=
  ⟨_, rfl, insnStep_evolves (fun _ _ => opLogic_evolves) (.refl s)⟩

theorem execMor_done {s : State} {stone stage : Nat} {f : Insn} : ∃ u, execMor stone stage f s = done u ∧ Evolves s u :=
  ⟨_, rfl, insnStep_evolves (fun _ _ => opLogic_evolves) (.refl s)⟩

theorem execMnot_done {s : State} {stone stage : Nat} {f : Insn} : ∃ u, execMnot stone stage f s = done u ∧ Evolves s u :=
  ⟨_, rfl, insnStep_evolves (fun _ _ => opMnot_evolves) (.refl s)⟩

theorem execSel_done {s : State} {stone stage : Nat} {f : Insn} : ∃ u, execSel stone stage f s = done u ∧ Evolves s u :=
  ⟨_, rfl, insnStep_evolves (fun _ _ => opSel_evolves) (.refl s)⟩

theorem execAdd_done {s : State} {stone stage : Nat} {f : Insn} : ∃ u, execAdd stone stage f s = done u ∧ Evolves s u :=
  ⟨_, rfl, insnStep_evolves (fun _ _ => opArith_evolves) (.refl s)⟩

theorem execSub_done {s : State} {stone stage : Nat} {f : Insn} : ∃ u, execSub stone stage f s = done u ∧ Evolves s u :=
  ⟨_, rfl, insnStep_evolves (fun _ _ => opArith_evolves) (.refl s)⟩

theorem execMul_done {s : State} {stone stage : Nat} {f : Insn} : ∃ u, execMul stone stage f s = done u ∧ Evolves s u :=
  ⟨_, rfl, insnStep_evolves (fun _ _ => opArith_evolves) (.refl s)⟩

theorem execDiv_done {s : State} {stone stage : Nat} {f : Insn} : ∃ u, execDiv stone stage f s = done u ∧ Evolves s u :=
  ⟨_, rfl, insnStep_evolves (fun _ _ => opArith_evolves) (.refl s)⟩

theorem execRem_done {s : State} {stone stage : Nat} {f : Insn} : ∃ u, execRem stone stage f s = done u ∧ Evolves s u :=
  ⟨_, rfl, insnStep_evolves (fun _ _ => opArith_evolves) (.refl s)⟩

theorem execNeg_done {s : State} {stone stage : Nat} {f : Insn} : ∃ u, execNeg stone stage f s = done u ∧ Evolves s u :=
  ⟨_, rfl, insnStep_evolves (fun _ _ => opNeg_evolves) (.refl s)⟩

theorem execAbs_done {s : State} {stone stage : Nat} {f : Insn} : ∃ u, execAbs stone stage f s = done u ∧ Evolves s u :=
  ⟨_, rfl, insnStep_evolves (fun _ _ => opAbs_evolves) (.refl s)⟩

theorem execMin_done {s : State} {stone stage : Nat} {f : Insn} : ∃ u, execMin stone stage f s = done u ∧ Evolves s u :=
  ⟨_, rfl, insnStep_evolves (fun _ _ => opArith_evolves) (.refl s)⟩

theorem execMax_done {s : State} {stone stage : Nat} {f : Insn} : ∃ u, execMax stone stage f s = done u ∧ Evolves s u :=
  ⟨_, rfl, insnStep_evolves (fun _ _ => opArith_evolves) (.refl s)⟩

theorem execCvt_done {s : State} {stone stage : Nat} {f : Insn} : ∃ u, execCvt stone stage f s = done u ∧ Evolves s u :=
  ⟨_, rfl, insnStep_evolves (fun _ _ => opCvt_evolves) (.refl s)⟩

theorem execMov_done {s : State} {stone stage : Nat} {f : Insn} : ∃ u, execMov stone stage f s = done u ∧ Evolves s u :=
  ⟨_, rfl, insnStep_evolves (fun _ _ => opMov_evolves) (.refl s)⟩

theorem execCsel_done {s : State} {stone stage : Nat} {f : Insn} : ∃ u, execCsel stone stage f s = done u ∧ Evolves s u :=
  ⟨_, rfl, insnStep_evolves (fun _ _ => opCsel_evolves) (.refl s)⟩

theorem execCoalesce_done {s : State} {stone stage : Nat} {f : Insn} : ∃ u, execCoalesce stone stage f s = done u ∧ Evolves s u :=
  ⟨_, rfl, insnStep_evolves (fun _ _ => opCoalesce_evolves) (.refl s)⟩

theorem execDpart_done {s : State} {stone stage : Nat} {f : Insn} : ∃ u, execDpart stone stage f s = done u ∧ Evolves s u :=
  ⟨_, rfl, insnStep_evolves (fun _ _ => opDpart_evolves) (.refl s)⟩

theorem execDadd_done {s : State} {stone stage : Nat} {f : Insn} : ∃ u, execDadd stone stage f s = done u ∧ Evolves s u :=
  ⟨_, rfl, insnStep_evolves (fun _ _ => opDadd_evolves) (.refl s)⟩

theorem execHashk_done {s : State} {stone stage : Nat} {f : Insn} : ∃ u, execHashk stone stage f s = done u ∧ Evolves s u :=
  ⟨_, rfl, insnStep_evolves (fun _ _ => opHashk_evolves) (.refl s)⟩

theorem execBuild_done {s : State} {stone stage : Nat} {f : Insn} : ∃ u, execBuild stone stage f s = done u ∧ Evolves s u :=
  ⟨_, rfl, insnStep_evolves (fun _ _ => opBuild_evolves) (.refl s)⟩

theorem execProbe_done {s : State} {stone stage : Nat} {f : Insn} : ∃ u, execProbe stone stage f s = done u ∧ Evolves s u :=
  ⟨_, rfl, insnStep_evolves (fun _ _ => opProbe_evolves) (.refl s)⟩

theorem execPart_done {s : State} {stone stage : Nat} {f : Insn} : ∃ u, execPart stone stage f s = done u ∧ Evolves s u :=
  ⟨_, rfl, insnStep_evolves (fun _ _ => opPart_evolves) (.refl s)⟩

theorem execAgg_done {s : State} {stone stage : Nat} {f : Insn} : ∃ u, execAgg stone stage f s = done u ∧ Evolves s u :=
  ⟨_, rfl, insnStep_evolves (fun _ _ => opAgg_evolves) (.refl s)⟩

theorem execGagg_done {s : State} {stone stage : Nat} {f : Insn} : ∃ u, execGagg stone stage f s = done u ∧ Evolves s u :=
  ⟨_, rfl, insnStep_evolves (fun _ _ => opGagg_evolves) (.refl s)⟩

theorem execAfin_done {s : State} {stone stage : Nat} {f : Insn} : ∃ u, execAfin stone stage f s = done u ∧ Evolves s u :=
  ⟨_, rfl, insnStep_evolves (fun _ _ => opAfin_evolves) (.refl s)⟩

theorem execStcol_done {s : State} {stone stage : Nat} {f : Insn} : ∃ u, execStcol stone stage f s = done u ∧ Evolves s u :=
  ⟨_, rfl, insnStep_evolves (fun _ _ => opStcol_evolves) (.refl s)⟩

theorem execStrec_done {s : State} {stone stage : Nat} {f : Insn} : ∃ u, execStrec stone stage f s = done u ∧ Evolves s u :=
  ⟨_, rfl, insnStep_evolves (fun _ _ => opStrec_evolves) (.refl s)⟩

theorem execStscl_done {s : State} {stone stage : Nat} {f : Insn} : ∃ u, execStscl stone stage f s = done u ∧ Evolves s u :=
  ⟨_, rfl, insnStep_evolves (fun _ _ => opStscl_evolves) (.refl s)⟩

theorem execMerge_done {s : State} {stone stage : Nat} {f : Insn} : ∃ u, execMerge stone stage f s = done u ∧ Evolves s u :=
  ⟨_, rfl, insnStep_evolves (fun _ _ => opMerge_evolves) (.refl s)⟩

theorem execTappend_done {s : State} {stone stage : Nat} {f : Insn} : ∃ u, execTappend stone stage f s = done u ∧ Evolves s u :=
  ⟨_, rfl, insnStep_evolves (fun _ _ => opTappend_evolves) (.refl s)⟩

theorem execDoorbell_done {s : State} {slice queue value : Nat} : ∃ u, execDoorbell slice queue value s = done u ∧ Evolves s u :=
  ⟨_, rfl, hostSet_evolves (.refl s)⟩

theorem execPoll_done {s : State} {gq : Nat} : ∃ u, execPoll gq s = done u ∧ Evolves s u :=
  ⟨_, rfl, poll_evolves (.refl s)⟩

theorem execWeirPass_done {s : State} : ∃ u, execWeirPass s = done u ∧ Evolves s u :=
  ⟨_, rfl, weirPass_evolves (.refl s)⟩

theorem execEntryFetch_done {s : State} : ∃ u, execEntryFetch s = done u ∧ Evolves s u :=
  ⟨_, rfl, fetchEntry_evolves (.refl s)⟩

theorem execChainTimeout_done {s : State} {gq : Nat} : ∃ u, execChainTimeout gq s = done u ∧ Evolves s u :=
  ⟨_, rfl, chainTimeout_evolves (.refl s)⟩

theorem execTaskCreate_done {s : State} : ∃ u, execTaskCreate s = done u ∧ Evolves s u :=
  ⟨_, rfl, taskCreate_evolves (.refl s)⟩

theorem execTaskReady_done {s : State} {job part : Nat} : ∃ u, execTaskReady job part s = done u ∧ Evolves s u :=
  ⟨_, rfl, taskReady_evolves (.refl s)⟩

theorem execDelayOut_done {s : State} {job : Nat} : ∃ u, execDelayOut job s = done u ∧ Evolves s u :=
  ⟨_, rfl, delayOut_evolves (.refl s)⟩

theorem execDispatchHome_done {s : State} {engine : Engine} {unit : Nat} : ∃ u, execDispatchHome engine unit s = done u ∧ Evolves s u :=
  ⟨_, rfl, dispatchHome_evolves (.refl s)⟩

theorem execDispatchAffinity_done {s : State} {job part : Nat} : ∃ u, execDispatchAffinity job part s = done u ∧ Evolves s u :=
  ⟨_, rfl, dispatchAffinity_evolves (.refl s)⟩

theorem execAffinityWindowEnd_done {s : State} {job part : Nat} : ∃ u, execAffinityWindowEnd job part s = done u ∧ Evolves s u :=
  ⟨_, rfl, affinityEnd_evolves (.refl s)⟩

theorem execSteal_done {s : State} {stone : Nat} : ∃ u, execSteal stone s = done u ∧ Evolves s u :=
  ⟨_, rfl, steal_evolves (.refl s)⟩

theorem execBatchAdmit_done {s : State} {stone : Nat} : ∃ u, execBatchAdmit stone s = done u ∧ Evolves s u :=
  ⟨_, rfl, batchAdmit_evolves (.refl s)⟩

theorem execStageStep_done {s : State} {stone : Nat} {stage : StageRun} : ∃ u, execStageStep stone stage s = done u ∧ Evolves s u :=
  ⟨_, rfl, stageStep_evolves (.refl s)⟩

theorem execTaskComplete_done {s : State} {job part : Nat} : ∃ u, execTaskComplete job part s = done u ∧ Evolves s u :=
  ⟨_, rfl, taskComplete_evolves (.refl s)⟩

theorem execFlowRelease_done {s : State} {job part : Nat} : ∃ u, execFlowRelease job part s = done u ∧ Evolves s u :=
  ⟨_, rfl, flowRelease_evolves (.refl s)⟩

theorem execJobRelease_done {s : State} {job : Nat} : ∃ u, execJobRelease job s = done u ∧ Evolves s u :=
  ⟨_, rfl, jobRelease_evolves (.refl s)⟩

theorem execBarrierFlushDone_done {s : State} {target : FlushTarget} : ∃ u, execBarrierFlushDone target s = done u ∧ Evolves s u :=
  ⟨_, rfl, flushReadDone_evolves (.refl s)⟩

theorem execPreempt_done {s : State} {mill : Nat} : ∃ u, execPreempt mill s = done u ∧ Evolves s u :=
  ⟨_, rfl, preempt_evolves (.refl s)⟩

theorem execPark_done {s : State} {stone : Nat} : ∃ u, execPark stone s = done u ∧ Evolves s u :=
  ⟨_, rfl, park_evolves (.refl s)⟩

theorem execTaskStop_done {s : State} {stone : Nat} : ∃ u, execTaskStop stone s = done u ∧ Evolves s u :=
  ⟨_, rfl, taskStop_evolves (.refl s)⟩

theorem execSortRun_done {s : State} {job part : Nat} : ∃ u, execSortRun job part s = done u ∧ Evolves s u :=
  ⟨_, rfl, mergeWork_evolves (fun _ _ => sortRun_evolves) (.refl s)⟩

theorem execCombine_done {s : State} {job part : Nat} : ∃ u, execCombine job part s = done u ∧ Evolves s u :=
  ⟨_, rfl, mergeWork_evolves (fun _ _ => combineRuns_evolves) (.refl s)⟩

theorem execMergeUpdate_done {s : State} {job part : Nat} : ∃ u, execMergeUpdate job part s = done u ∧ Evolves s u :=
  ⟨_, rfl, mergeWork_evolves (fun _ _ => mergeUpdate_evolves) (.refl s)⟩

theorem execRecordJoin_done {s : State} : ∃ u, execRecordJoin s = done u ∧ Evolves s u :=
  ⟨_, rfl, recordJoin_evolves (.refl s)⟩

theorem execCommitClaims_done {s : State} : ∃ u, execCommitClaims s = done u ∧ Evolves s u :=
  ⟨_, rfl, commitClaims_evolves (.refl s)⟩

theorem execGroupClose_done {s : State} : ∃ u, execGroupClose s = done u ∧ Evolves s u :=
  ⟨_, rfl, groupClose_evolves (.refl s)⟩

theorem execSealDurable_done {s : State} : ∃ u, execSealDurable s = done u ∧ Evolves s u :=
  ⟨_, rfl, sealDurable_evolves (.refl s)⟩

theorem execEpochPublish_done {s : State} : ∃ u, execEpochPublish s = done u ∧ Evolves s u :=
  ⟨_, rfl, epochPublish_evolves (.refl s)⟩

theorem execProjectionApply_done {s : State} {volume : Nat} : ∃ u, execProjectionApply volume s = done u ∧ Evolves s u :=
  ⟨_, rfl, projectionApply_evolves (.refl s)⟩

theorem execWriteback_done {s : State} {volume lba : Nat} : ∃ u, execWriteback volume lba s = done u ∧ Evolves s u :=
  ⟨_, rfl, writeback_evolves (.refl s)⟩

theorem execDriveComplete_done {s : State} {port cmd : Nat} {result : DriveResult} : ∃ u, execDriveComplete port cmd result s = done u ∧ Evolves s u :=
  ⟨_, rfl, driveComplete_evolves (.refl s)⟩

theorem execCommandTimeout_done {s : State} {port cmd : Nat} {retryOk : Bool} : ∃ u, execCommandTimeout port cmd retryOk s = done u ∧ Evolves s u :=
  ⟨_, rfl, commandTimeout_evolves (.refl s)⟩

theorem execRebuildDone_done {s : State} {volume : Nat} : ∃ u, execRebuildDone volume s = done u ∧ Evolves s u :=
  ⟨_, rfl, rebuildDone_evolves (.refl s)⟩

theorem execVolumeOpDone_done {s : State} {volume : Nat} : ∃ u, execVolumeOpDone volume s = done u ∧ Evolves s u :=
  ⟨_, rfl, volumeOpDone_evolves (.refl s)⟩

theorem execReplayDone_done {s : State} : ∃ u, execReplayDone s = done u ∧ Evolves s u :=
  ⟨_, rfl, replayDone_evolves (.refl s)⟩

theorem execDescriptorComplete_done {s : State} {channel : Nat} : ∃ u, execDescriptorComplete channel s = done u ∧ Evolves s u :=
  ⟨_, rfl, descriptorComplete_evolves registerIo_read_evolves registerIo_write_evolves (.refl s)⟩

theorem execMoverGrant_done {s : State} {mover : Nat} : ∃ u, execMoverGrant mover s = done u ∧ Evolves s u :=
  ⟨_, rfl, moverGrant_evolves registerIo_read_evolves registerIo_write_evolves (.refl s)⟩

theorem execMoverPreempt_done {s : State} {channel : Preemption} : ∃ u, execMoverPreempt channel s = done u ∧ Evolves s u :=
  ⟨_, rfl, moverPreempt_evolves registerIo_read_evolves registerIo_write_evolves (.refl s)⟩

theorem execRequestLine_done {s : State} {line : Nat} {level : Bool} : ∃ u, execRequestLine line level s = done u ∧ Evolves s u :=
  ⟨_, rfl, requestLine_evolves (.refl s)⟩

theorem execBlockAbsorb_done {s : State} {core : Nat} : ∃ u, execBlockAbsorb core s = done u ∧ Evolves s u :=
  ⟨_, rfl, evolves_ite (blockAbsorb_evolves (.refl s)) (.refl s)⟩

theorem execLineFill_done {s : State} {access : LineAccess} : ∃ u, execLineFill access s = done u ∧ Evolves s u :=
  ⟨_, rfl, lineFill_evolves (.refl s)⟩

theorem execDramRead_done {s : State} {access : DramAccess} : ∃ u, execDramRead access s = done u ∧ Evolves s u :=
  ⟨_, rfl, dramReadEvent_evolves (.refl s)⟩

theorem execWriteDrain_done {s : State} {channel : Nat} : ∃ u, execWriteDrain channel s = done u ∧ Evolves s u :=
  ⟨_, rfl, writeDrain_evolves (.refl s)⟩

theorem execPageIdleClose_done {s : State} {channel bank : Nat} : ∃ u, execPageIdleClose channel bank s = done u ∧ Evolves s u :=
  ⟨_, rfl, pageClose_evolves (.refl s)⟩

theorem execRefresh_done {s : State} {channel : Nat} {temp : Int} : ∃ u, execRefresh channel temp s = done u ∧ Evolves s u :=
  ⟨_, rfl, refresh_evolves (.refl s)⟩

theorem execZqCalibration_done {s : State} {channel : Nat} : ∃ u, execZqCalibration channel s = done u ∧ Evolves s u :=
  ⟨_, rfl, zqCalibrate_evolves (.refl s)⟩

theorem execTempPoll_done {s : State} {temp : Int} : ∃ u, execTempPoll temp s = done u ∧ Evolves s u :=
  ⟨_, rfl, tempPoll_evolves (.refl s)⟩

theorem execPatrolRead_done {s : State} {burst : Burst} : ∃ u, execPatrolRead burst s = done u ∧ Evolves s u :=
  ⟨_, rfl, patrolRead_evolves (.refl s)⟩

theorem execSrReentry_done {s : State} {channel : Nat} : ∃ u, execSrReentry channel s = done u ∧ Evolves s u :=
  ⟨_, rfl, srReentry_evolves (.refl s)⟩

theorem execPreemptColsApply_done {s : State} : ∃ u, execPreemptColsApply s = done u ∧ Evolves s u :=
  ⟨_, rfl, preemptApply_evolves (.refl s)⟩

theorem execInvalComplete_done {s : State} {job : Option Nat} : ∃ u, execInvalComplete job s = done u ∧ Evolves s u :=
  ⟨_, rfl, invalComplete_evolves (.refl s)⟩

theorem execDrainComplete_done {s : State} : ∃ u, execDrainComplete s = done u ∧ Evolves s u :=
  ⟨_, rfl, drainComplete_evolves (.refl s)⟩

theorem execMaintComplete_done {s : State} : ∃ u, execMaintComplete s = done u ∧ Evolves s u :=
  ⟨_, rfl, maintComplete_evolves (.refl s)⟩

theorem execResetDrained_done {s : State} {slice : Nat} : ∃ u, execResetDrained slice s = done u ∧ Evolves s u :=
  ⟨_, rfl, resetDrained_evolves (.refl s)⟩

theorem execOtpProgrammed_done {s : State} {lost : Nat} : ∃ u, execOtpProgrammed lost s = done u ∧ Evolves s u :=
  ⟨_, rfl, otpProgrammed_evolves (.refl s)⟩

theorem execKeyOpDone_done {s : State} : ∃ u, execKeyOpDone s = done u ∧ Evolves s u :=
  ⟨_, rfl, keyOpDone_evolves (.refl s)⟩

theorem execKeysRestored_done {s : State} : ∃ u, execKeysRestored s = done u ∧ Evolves s u :=
  ⟨_, rfl, keysRestored_evolves (.refl s)⟩

theorem execSckOverflow_done {s : State} {counter : Nat} : ∃ u, execSckOverflow counter s = done u ∧ Evolves s u :=
  ⟨_, rfl, sckOverflow_evolves (.refl s)⟩

theorem execWindowEnd_done {s : State} : ∃ u, execWindowEnd s = done u ∧ Evolves s u :=
  ⟨_, rfl, windowEnd_evolves (.refl s)⟩

theorem execBucketRefill_done {s : State} : ∃ u, execBucketRefill s = done u ∧ Evolves s u :=
  ⟨_, rfl, tick_evolves (.refl s)⟩

theorem execHostReadCompletion_done {s : State} {read : HostRead} {error : Bool} : ∃ u, execHostReadCompletion read error s = done u ∧ Evolves s u :=
  ⟨_, rfl, hostCompletion_evolves (.refl s)⟩

theorem execBlockStaged_done {s : State} {quern : Nat} : ∃ u, execBlockStaged quern s = done u ∧ Evolves s u :=
  ⟨_, rfl, blockStaged_evolves (.refl s)⟩

theorem execAtomicopRequesterEnable_done {s : State} {value : Bool} : ∃ u, execAtomicopRequesterEnable value s = done u ∧ Evolves s u :=
  ⟨_, rfl, atomicEnable_evolves (.refl s)⟩

theorem execQueueEnable_done {s : State} {gq value : Nat} : ∃ u, execQueueEnable gq value s = done u ∧ Evolves s u :=
  ⟨_, rfl, hostSet_evolves (.refl s)⟩

theorem execQueueDisable_done {s : State} {gq value : Nat} : ∃ u, execQueueDisable gq value s = done u ∧ Evolves s u :=
  ⟨_, rfl, hostSet_evolves (.refl s)⟩

theorem execEvHeadWrite_done {s : State} {slice value : Nat} : ∃ u, execEvHeadWrite slice value s = done u ∧ Evolves s u :=
  ⟨_, rfl, hostSet_evolves (.refl s)⟩

theorem execTailraceEnable_done {s : State} {slice value : Nat} : ∃ u, execTailraceEnable slice value s = done u ∧ Evolves s u :=
  ⟨_, rfl, hostSet_evolves (.refl s)⟩

theorem execEvModeChange_done {s : State} {slice value : Nat} : ∃ u, execEvModeChange slice value s = done u ∧ Evolves s u :=
  ⟨_, rfl, hostSet_evolves (.refl s)⟩

theorem execProfileWrite_done {s : State} {value : Nat} : ∃ u, execProfileWrite value s = done u ∧ Evolves s u :=
  ⟨_, rfl, hostSet_evolves (.refl s)⟩

theorem execProfileLock_done {s : State} {value : Nat} : ∃ u, execProfileLock value s = done u ∧ Evolves s u :=
  ⟨_, rfl, hostSet_evolves (.refl s)⟩

theorem execTraceEnable_done {s : State} {value : Nat} : ∃ u, execTraceEnable value s = done u ∧ Evolves s u :=
  ⟨_, rfl, hostSet_evolves (.refl s)⟩

theorem execCheckCacheFlush_done {s : State} {value : Nat} : ∃ u, execCheckCacheFlush value s = done u ∧ Evolves s u :=
  ⟨_, rfl, hostSet_evolves (.refl s)⟩

theorem execCheckpoint_done {s : State} {value : Nat} : ∃ u, execCheckpoint value s = done u ∧ Evolves s u :=
  ⟨_, rfl, hostSet_evolves (.refl s)⟩

theorem execReplayStart_done {s : State} {value : Nat} : ∃ u, execReplayStart value s = done u ∧ Evolves s u :=
  ⟨_, rfl, hostSet_evolves (.refl s)⟩

theorem execTableRegister_done {s : State} {table value : Nat} : ∃ u, execTableRegister table value s = done u ∧ Evolves s u :=
  ⟨_, rfl, hostSet_evolves (.refl s)⟩

theorem execPortAttach_done {s : State} {port value : Nat} : ∃ u, execPortAttach port value s = done u ∧ Evolves s u :=
  ⟨_, rfl, hostSet_evolves (.refl s)⟩

theorem execPortDetach_done {s : State} {port value : Nat} : ∃ u, execPortDetach port value s = done u ∧ Evolves s u :=
  ⟨_, rfl, hostSet_evolves (.refl s)⟩

theorem execRegisterMark_done {s : State} {context value : Nat} : ∃ u, execRegisterMark context value s = done u ∧ Evolves s u :=
  ⟨_, rfl, hostSet_evolves (.refl s)⟩

theorem execInvalOpAddr_done {s : State} {value : Nat} : ∃ u, execInvalOpAddr value s = done u ∧ Evolves s u :=
  ⟨_, rfl, hostSet_evolves (.refl s)⟩

theorem execInvalOpTag_done {s : State} {value : Nat} : ∃ u, execInvalOpTag value s = done u ∧ Evolves s u :=
  ⟨_, rfl, hostSet_evolves (.refl s)⟩

theorem execInvalOpAll_done {s : State} {value : Nat} : ∃ u, execInvalOpAll value s = done u ∧ Evolves s u :=
  ⟨_, rfl, hostSet_evolves (.refl s)⟩

theorem execHostSync_done {s : State} {value : Nat} : ∃ u, execHostSync value s = done u ∧ Evolves s u :=
  ⟨_, rfl, hostSet_evolves (.refl s)⟩

theorem execGranaryDisable_done {s : State} {value : Nat} : ∃ u, execGranaryDisable value s = done u ∧ Evolves s u :=
  ⟨_, rfl, hostSet_evolves (.refl s)⟩

theorem execGranaryEnable_done {s : State} {value : Nat} : ∃ u, execGranaryEnable value s = done u ∧ Evolves s u :=
  ⟨_, rfl, hostSet_evolves (.refl s)⟩

theorem execGranClean_done {s : State} {value : Nat} : ∃ u, execGranClean value s = done u ∧ Evolves s u :=
  ⟨_, rfl, hostSet_evolves (.refl s)⟩

theorem execGranInvalidate_done {s : State} {value : Nat} : ∃ u, execGranInvalidate value s = done u ∧ Evolves s u :=
  ⟨_, rfl, hostSet_evolves (.refl s)⟩

theorem execGranCleanInvalidate_done {s : State} {value : Nat} : ∃ u, execGranCleanInvalidate value s = done u ∧ Evolves s u :=
  ⟨_, rfl, hostSet_evolves (.refl s)⟩

theorem execGranZero_done {s : State} {value : Nat} : ∃ u, execGranZero value s = done u ∧ Evolves s u :=
  ⟨_, rfl, hostSet_evolves (.refl s)⟩

theorem execSrReqSet_done {s : State} {value : Nat} : ∃ u, execSrReqSet value s = done u ∧ Evolves s u :=
  ⟨_, rfl, hostSet_evolves (.refl s)⟩

theorem execSrReqClear_done {s : State} {value : Nat} : ∃ u, execSrReqClear value s = done u ∧ Evolves s u :=
  ⟨_, rfl, hostSet_evolves (.refl s)⟩

theorem execArm_done {s : State} {channel value : Nat} : ∃ u, execArm channel value s = done u ∧ Evolves s u :=
  ⟨_, rfl, hostSet_evolves (.refl s)⟩

theorem execDisarm_done {s : State} {channel value : Nat} : ∃ u, execDisarm channel value s = done u ∧ Evolves s u :=
  ⟨_, rfl, hostSet_evolves (.refl s)⟩

theorem execStopChannel_done {s : State} {channel value : Nat} : ∃ u, execStopChannel channel value s = done u ∧ Evolves s u :=
  ⟨_, rfl, hostSet_evolves (.refl s)⟩

theorem execResumeChannel_done {s : State} {channel value : Nat} : ∃ u, execResumeChannel channel value s = done u ∧ Evolves s u :=
  ⟨_, rfl, hostSet_evolves (.refl s)⟩

theorem execMsixUnmask_done {s : State} {vector : Nat} : ∃ u, execMsixUnmask vector s = done u ∧ Evolves s u :=
  ⟨_, rfl, hostUnmask_evolves (.refl s)⟩

theorem execBar4Access_done {s : State} {access : BarAccess} : ∃ u, execBar4Access access s = done u ∧ Evolves s u :=
  ⟨_, rfl, bar4Access_evolves (.refl s)⟩

theorem execBar4Resize_done {s : State} {log2 : Nat} : ∃ u, execBar4Resize log2 s = done u ∧ Evolves s u :=
  ⟨_, rfl, bar4Resize_evolves (.refl s)⟩

theorem execRcRead_done {s : State} {access : RegRead} : ∃ u, execRcRead access s = done u ∧ Evolves s u :=
  ⟨_, rfl, hostReadReg_evolves (.refl s)⟩

theorem execRegisterWrite_done {s : State} {access : RegWrite} : ∃ u, execRegisterWrite access s = done u ∧ Evolves s u :=
  ⟨_, rfl, hostWriteReg_evolves (.refl s)⟩

theorem execBootClear_done {s : State} {value : Nat} : ∃ u, execBootClear value s = done u ∧ Evolves s u :=
  ⟨_, rfl, hostSet_evolves (.refl s)⟩

theorem execManualTrigger_done {s : State} {value : Nat} : ∃ u, execManualTrigger value s = done u ∧ Evolves s u :=
  ⟨_, rfl, hostSet_evolves (.refl s)⟩

theorem execOtpProgram_done {s : State} {value : Nat} : ∃ u, execOtpProgram value s = done u ∧ Evolves s u :=
  ⟨_, rfl, hostSet_evolves (.refl s)⟩

theorem execGenerateKey_done {s : State} {value : Nat} : ∃ u, execGenerateKey value s = done u ∧ Evolves s u :=
  ⟨_, rfl, hostSet_evolves (.refl s)⟩

theorem execImportKey_done {s : State} {value : Nat} : ∃ u, execImportKey value s = done u ∧ Evolves s u :=
  ⟨_, rfl, hostSet_evolves (.refl s)⟩

theorem execClearKey_done {s : State} {value : Nat} : ∃ u, execClearKey value s = done u ∧ Evolves s u :=
  ⟨_, rfl, hostSet_evolves (.refl s)⟩

theorem execGrantKey_done {s : State} {value : Nat} : ∃ u, execGrantKey value s = done u ∧ Evolves s u :=
  ⟨_, rfl, hostSet_evolves (.refl s)⟩

theorem execChallenge_done {s : State} {value : Nat} : ∃ u, execChallenge value s = done u ∧ Evolves s u :=
  ⟨_, rfl, hostSet_evolves (.refl s)⟩

theorem execRestoreDataWrite_done {s : State} {value : Nat} : ∃ u, execRestoreDataWrite value s = done u ∧ Evolves s u :=
  ⟨_, rfl, hostSet_evolves (.refl s)⟩

theorem execVerify_done {s : State} {value : Nat} : ∃ u, execVerify value s = done u ∧ Evolves s u :=
  ⟨_, rfl, hostSet_evolves (.refl s)⟩

theorem execCounterFreeze_done {s : State} {value : Nat} : ∃ u, execCounterFreeze value s = done u ∧ Evolves s u :=
  ⟨_, rfl, hostSet_evolves (.refl s)⟩

theorem execCounterUnfreeze_done {s : State} {value : Nat} : ∃ u, execCounterUnfreeze value s = done u ∧ Evolves s u :=
  ⟨_, rfl, hostSet_evolves (.refl s)⟩

theorem execCounterClear_done {s : State} {value : Nat} : ∃ u, execCounterClear value s = done u ∧ Evolves s u :=
  ⟨_, rfl, hostSet_evolves (.refl s)⟩

theorem execCounterWrite_done {s : State} {counter value : Nat} : ∃ u, execCounterWrite counter value s = done u ∧ Evolves s u :=
  ⟨_, rfl, hostSet_evolves (.refl s)⟩

theorem execWindowWrite_done {s : State} {value : Nat} : ∃ u, execWindowWrite value s = done u ∧ Evolves s u :=
  ⟨_, rfl, hostSet_evolves (.refl s)⟩

theorem execClearPeak_done {s : State} {value : Nat} : ∃ u, execClearPeak value s = done u ∧ Evolves s u :=
  ⟨_, rfl, hostSet_evolves (.refl s)⟩

theorem execStatusCmd_done {s : State} {req : SmbusReq} : ∃ u, execStatusCmd req s = done u ∧ Evolves s u :=
  ⟨_, rfl, smbusStatus_evolves (.refl s)⟩

theorem execTempCmd_done {s : State} {req : SmbusReq} : ∃ u, execTempCmd req s = done u ∧ Evolves s u :=
  ⟨_, rfl, smbusTemp_evolves (.refl s)⟩

theorem execDumpTriggerCmd_done {s : State} {req : SmbusReq} : ∃ u, execDumpTriggerCmd req s = done u ∧ Evolves s u :=
  ⟨_, rfl, smbusDumpTrigger_evolves (.refl s)⟩

theorem execClearBootCmd_done {s : State} {req : SmbusReq} : ∃ u, execClearBootCmd req s = done u ∧ Evolves s u :=
  ⟨_, rfl, smbusClearBoot_evolves (.refl s)⟩

theorem execStepCmd_done {s : State} {req : SmbusReq} : ∃ u, execStepCmd req s = done u ∧ Evolves s u :=
  ⟨_, rfl, smbusStep_evolves (.refl s)⟩

theorem execPowerOn_done {s : State} {board : Board} : ∃ u, execPowerOn board s = done u ∧ Evolves s u :=
  ⟨_, rfl, powerOn_evolves (.refl s)⟩

theorem execPwrGoodFall_done {s : State} : ∃ u, execPwrGoodFall s = done u ∧ Evolves s u :=
  ⟨_, rfl, powerOff_evolves (.refl s)⟩

theorem execPwrFail_done {s : State} : ∃ u, execPwrFail s = done u ∧ Evolves s u :=
  ⟨_, rfl, pwrFailPin_evolves (.refl s)⟩

theorem execWarmReset_done {s : State} {cause : WarmCause} : ∃ u, execWarmReset cause s = done u ∧ Evolves s u :=
  ⟨_, rfl, warmReset_evolves (.refl s)⟩

theorem execFunctionLevelReset_done {s : State} : ∃ u, execFunctionLevelReset s = done u ∧ Evolves s u :=
  ⟨_, rfl, warmReset_evolves (.refl s)⟩

theorem execBootStepTimeout_done {s : State} {step : Nat} : ∃ u, execBootStepTimeout step s = done u ∧ Evolves s u :=
  ⟨_, rfl, stepTimeout_evolves (fun _ _ h => workDump_evolves h) (.refl s)⟩

theorem execMillerWatchdog_done {s : State} : ∃ u, execMillerWatchdog s = done u ∧ Evolves s u :=
  ⟨_, rfl, fatalError_evolves (.refl s)⟩

theorem execFatalError_done {s : State} {cls : Nat} : ∃ u, execFatalError cls s = done u ∧ Evolves s u :=
  ⟨_, rfl, fatalEvent_evolves (.refl s)⟩

theorem execBrakeTrip_done {s : State} {sensors live : Nat} : ∃ u, execBrakeTrip sensors live s = done u ∧ Evolves s u :=
  ⟨_, rfl, brakeTrip_evolves (.refl s)⟩

theorem execThermTrip_done {s : State} {temp : Int} : ∃ u, execThermTrip temp s = done u ∧ Evolves s u :=
  ⟨_, rfl, thermTrip_evolves (.refl s)⟩

theorem execPerstNRise_done {s : State} : ∃ u, execPerstNRise s = done u ∧ Evolves s u :=
  ⟨_, rfl, perstRise_evolves (.refl s)⟩

end Sys2Proof.Machine
end

