-- ==== Sys2Proof/Laws/State.lean ====
section
/-! SUPPORT. What each update of the state leaves as it is: one lemma per update and field. -/

namespace Sys2Proof.Machine

@[simp] theorem State.setReg_pending (s : State) (r : Reg) (i v : Nat) : (s.setReg r i v).pending = s.pending := rfl
@[simp] theorem State.setReg_mem (s : State) (r : Reg) (i v : Nat) : (s.setReg r i v).mem = s.mem := rfl
@[simp] theorem State.setReg_xlt (s : State) (r : Reg) (i v : Nat) : (s.setReg r i v).xlt = s.xlt := rfl
@[simp] theorem State.setReg_gran (s : State) (r : Reg) (i v : Nat) : (s.setReg r i v).gran = s.gran := rfl
@[simp] theorem State.setReg_dram (s : State) (r : Reg) (i v : Nat) : (s.setReg r i v).dram = s.dram := rfl
@[simp] theorem State.setReg_msix (s : State) (r : Reg) (i v : Nat) : (s.setReg r i v).msix = s.msix := rfl
@[simp] theorem State.setReg_queues (s : State) (r : Reg) (i v : Nat) : (s.setReg r i v).queues = s.queues := rfl
@[simp] theorem State.setReg_issued (s : State) (r : Reg) (i v : Nat) : (s.setReg r i v).issued = s.issued := rfl
@[simp] theorem State.setReg_tails (s : State) (r : Reg) (i v : Nat) : (s.setReg r i v).tails = s.tails := rfl
@[simp] theorem State.setReg_fan (s : State) (r : Reg) (i v : Nat) : (s.setReg r i v).fan = s.fan := rfl
@[simp] theorem State.setReg_pipe (s : State) (r : Reg) (i v : Nat) : (s.setReg r i v).pipe = s.pipe := rfl
@[simp] theorem State.setReg_mpd (s : State) (r : Reg) (i v : Nat) : (s.setReg r i v).mpd = s.mpd := rfl
@[simp] theorem State.setReg_vols (s : State) (r : Reg) (i v : Nat) : (s.setReg r i v).vols = s.vols := rfl
@[simp] theorem State.setReg_units (s : State) (r : Reg) (i v : Nat) : (s.setReg r i v).units = s.units := rfl
@[simp] theorem State.setReg_keys (s : State) (r : Reg) (i v : Nat) : (s.setReg r i v).keys = s.keys := rfl
@[simp] theorem State.setReg_keyOp (s : State) (r : Reg) (i v : Nat) : (s.setReg r i v).keyOp = s.keyOp := rfl
@[simp] theorem State.setReg_restoreBuf (s : State) (r : Reg) (i v : Nat) : (s.setReg r i v).restoreBuf = s.restoreBuf := rfl
@[simp] theorem State.setReg_resets (s : State) (r : Reg) (i v : Nat) : (s.setReg r i v).resets = s.resets := rfl
@[simp] theorem State.setReg_halted (s : State) (r : Reg) (i v : Nat) : (s.setReg r i v).halted = s.halted := rfl
@[simp] theorem State.setReg_haltMsgs (s : State) (r : Reg) (i v : Nat) : (s.setReg r i v).haltMsgs = s.haltMsgs := rfl
@[simp] theorem State.setReg_traceLog (s : State) (r : Reg) (i v : Nat) : (s.setReg r i v).traceLog = s.traceLog := rfl
@[simp] theorem State.setReg_fatal (s : State) (r : Reg) (i v : Nat) : (s.setReg r i v).fatal = s.fatal := rfl
@[simp] theorem State.setReg_readOnly (s : State) (r : Reg) (i v : Nat) : (s.setReg r i v).readOnly = s.readOnly := rfl
@[simp] theorem State.setReg_otp (s : State) (r : Reg) (i v : Nat) : (s.setReg r i v).otp = s.otp := rfl
@[simp] theorem State.setReg_otpOp (s : State) (r : Reg) (i v : Nat) : (s.setReg r i v).otpOp = s.otpOp := rfl
@[simp] theorem State.setReg_boot (s : State) (r : Reg) (i v : Nat) : (s.setReg r i v).boot = s.boot := rfl
@[simp] theorem State.setReg_bar4 (s : State) (r : Reg) (i v : Nat) : (s.setReg r i v).bar4 = s.bar4 := rfl
@[simp] theorem State.setReg_answers (s : State) (r : Reg) (i v : Nat) : (s.setReg r i v).answers = s.answers := rfl
@[simp] theorem State.setReg_bw (s : State) (r : Reg) (i v : Nat) : (s.setReg r i v).bw = s.bw := rfl
@[simp] theorem State.setReg_sckOwed (s : State) (r : Reg) (i v : Nat) : (s.setReg r i v).sckOwed = s.sckOwed := rfl
@[simp] theorem State.setReg_events (s : State) (r : Reg) (i v : Nat) : (s.setReg r i v).events = s.events := rfl
@[simp] theorem State.setReg_cycle (s : State) (r : Reg) (i v : Nat) : (s.setReg r i v).cycle = s.cycle := rfl
@[simp] theorem State.setReg_free (s : State) (r : Reg) (i v : Nat) : (s.setReg r i v).free = s.free := rfl

@[simp] theorem State.setFld_pending (s : State) (f : Fld) (i v : Nat) : (s.setFld f i v).pending = s.pending := rfl
@[simp] theorem State.setFld_mem (s : State) (f : Fld) (i v : Nat) : (s.setFld f i v).mem = s.mem := rfl
@[simp] theorem State.setFld_xlt (s : State) (f : Fld) (i v : Nat) : (s.setFld f i v).xlt = s.xlt := rfl
@[simp] theorem State.setFld_gran (s : State) (f : Fld) (i v : Nat) : (s.setFld f i v).gran = s.gran := rfl
@[simp] theorem State.setFld_dram (s : State) (f : Fld) (i v : Nat) : (s.setFld f i v).dram = s.dram := rfl
@[simp] theorem State.setFld_msix (s : State) (f : Fld) (i v : Nat) : (s.setFld f i v).msix = s.msix := rfl
@[simp] theorem State.setFld_queues (s : State) (f : Fld) (i v : Nat) : (s.setFld f i v).queues = s.queues := rfl
@[simp] theorem State.setFld_issued (s : State) (f : Fld) (i v : Nat) : (s.setFld f i v).issued = s.issued := rfl
@[simp] theorem State.setFld_tails (s : State) (f : Fld) (i v : Nat) : (s.setFld f i v).tails = s.tails := rfl
@[simp] theorem State.setFld_fan (s : State) (f : Fld) (i v : Nat) : (s.setFld f i v).fan = s.fan := rfl
@[simp] theorem State.setFld_pipe (s : State) (f : Fld) (i v : Nat) : (s.setFld f i v).pipe = s.pipe := rfl
@[simp] theorem State.setFld_mpd (s : State) (f : Fld) (i v : Nat) : (s.setFld f i v).mpd = s.mpd := rfl
@[simp] theorem State.setFld_vols (s : State) (f : Fld) (i v : Nat) : (s.setFld f i v).vols = s.vols := rfl
@[simp] theorem State.setFld_units (s : State) (f : Fld) (i v : Nat) : (s.setFld f i v).units = s.units := rfl
@[simp] theorem State.setFld_keys (s : State) (f : Fld) (i v : Nat) : (s.setFld f i v).keys = s.keys := rfl
@[simp] theorem State.setFld_keyOp (s : State) (f : Fld) (i v : Nat) : (s.setFld f i v).keyOp = s.keyOp := rfl
@[simp] theorem State.setFld_restoreBuf (s : State) (f : Fld) (i v : Nat) : (s.setFld f i v).restoreBuf = s.restoreBuf := rfl
@[simp] theorem State.setFld_resets (s : State) (f : Fld) (i v : Nat) : (s.setFld f i v).resets = s.resets := rfl
@[simp] theorem State.setFld_halted (s : State) (f : Fld) (i v : Nat) : (s.setFld f i v).halted = s.halted := rfl
@[simp] theorem State.setFld_haltMsgs (s : State) (f : Fld) (i v : Nat) : (s.setFld f i v).haltMsgs = s.haltMsgs := rfl
@[simp] theorem State.setFld_traceLog (s : State) (f : Fld) (i v : Nat) : (s.setFld f i v).traceLog = s.traceLog := rfl
@[simp] theorem State.setFld_fatal (s : State) (f : Fld) (i v : Nat) : (s.setFld f i v).fatal = s.fatal := rfl
@[simp] theorem State.setFld_readOnly (s : State) (f : Fld) (i v : Nat) : (s.setFld f i v).readOnly = s.readOnly := rfl
@[simp] theorem State.setFld_otp (s : State) (f : Fld) (i v : Nat) : (s.setFld f i v).otp = s.otp := rfl
@[simp] theorem State.setFld_otpOp (s : State) (f : Fld) (i v : Nat) : (s.setFld f i v).otpOp = s.otpOp := rfl
@[simp] theorem State.setFld_boot (s : State) (f : Fld) (i v : Nat) : (s.setFld f i v).boot = s.boot := rfl
@[simp] theorem State.setFld_bar4 (s : State) (f : Fld) (i v : Nat) : (s.setFld f i v).bar4 = s.bar4 := rfl
@[simp] theorem State.setFld_answers (s : State) (f : Fld) (i v : Nat) : (s.setFld f i v).answers = s.answers := rfl
@[simp] theorem State.setFld_bw (s : State) (f : Fld) (i v : Nat) : (s.setFld f i v).bw = s.bw := rfl
@[simp] theorem State.setFld_sckOwed (s : State) (f : Fld) (i v : Nat) : (s.setFld f i v).sckOwed = s.sckOwed := rfl
@[simp] theorem State.setFld_events (s : State) (f : Fld) (i v : Nat) : (s.setFld f i v).events = s.events := rfl
@[simp] theorem State.setFld_cycle (s : State) (f : Fld) (i v : Nat) : (s.setFld f i v).cycle = s.cycle := rfl
@[simp] theorem State.setFld_free (s : State) (f : Fld) (i v : Nat) : (s.setFld f i v).free = s.free := rfl

@[simp] theorem State.setFlag_pending (s : State) (f : Fld) (i : Nat) (b : Bool) : (s.setFlag f i b).pending = s.pending := rfl
@[simp] theorem State.setFlag_mem (s : State) (f : Fld) (i : Nat) (b : Bool) : (s.setFlag f i b).mem = s.mem := rfl
@[simp] theorem State.setFlag_xlt (s : State) (f : Fld) (i : Nat) (b : Bool) : (s.setFlag f i b).xlt = s.xlt := rfl
@[simp] theorem State.setFlag_gran (s : State) (f : Fld) (i : Nat) (b : Bool) : (s.setFlag f i b).gran = s.gran := rfl
@[simp] theorem State.setFlag_dram (s : State) (f : Fld) (i : Nat) (b : Bool) : (s.setFlag f i b).dram = s.dram := rfl
@[simp] theorem State.setFlag_msix (s : State) (f : Fld) (i : Nat) (b : Bool) : (s.setFlag f i b).msix = s.msix := rfl
@[simp] theorem State.setFlag_queues (s : State) (f : Fld) (i : Nat) (b : Bool) : (s.setFlag f i b).queues = s.queues := rfl
@[simp] theorem State.setFlag_issued (s : State) (f : Fld) (i : Nat) (b : Bool) : (s.setFlag f i b).issued = s.issued := rfl
@[simp] theorem State.setFlag_tails (s : State) (f : Fld) (i : Nat) (b : Bool) : (s.setFlag f i b).tails = s.tails := rfl
@[simp] theorem State.setFlag_fan (s : State) (f : Fld) (i : Nat) (b : Bool) : (s.setFlag f i b).fan = s.fan := rfl
@[simp] theorem State.setFlag_pipe (s : State) (f : Fld) (i : Nat) (b : Bool) : (s.setFlag f i b).pipe = s.pipe := rfl
@[simp] theorem State.setFlag_mpd (s : State) (f : Fld) (i : Nat) (b : Bool) : (s.setFlag f i b).mpd = s.mpd := rfl
@[simp] theorem State.setFlag_vols (s : State) (f : Fld) (i : Nat) (b : Bool) : (s.setFlag f i b).vols = s.vols := rfl
@[simp] theorem State.setFlag_units (s : State) (f : Fld) (i : Nat) (b : Bool) : (s.setFlag f i b).units = s.units := rfl
@[simp] theorem State.setFlag_keys (s : State) (f : Fld) (i : Nat) (b : Bool) : (s.setFlag f i b).keys = s.keys := rfl
@[simp] theorem State.setFlag_keyOp (s : State) (f : Fld) (i : Nat) (b : Bool) : (s.setFlag f i b).keyOp = s.keyOp := rfl
@[simp] theorem State.setFlag_restoreBuf (s : State) (f : Fld) (i : Nat) (b : Bool) : (s.setFlag f i b).restoreBuf = s.restoreBuf := rfl
@[simp] theorem State.setFlag_resets (s : State) (f : Fld) (i : Nat) (b : Bool) : (s.setFlag f i b).resets = s.resets := rfl
@[simp] theorem State.setFlag_halted (s : State) (f : Fld) (i : Nat) (b : Bool) : (s.setFlag f i b).halted = s.halted := rfl
@[simp] theorem State.setFlag_haltMsgs (s : State) (f : Fld) (i : Nat) (b : Bool) : (s.setFlag f i b).haltMsgs = s.haltMsgs := rfl
@[simp] theorem State.setFlag_traceLog (s : State) (f : Fld) (i : Nat) (b : Bool) : (s.setFlag f i b).traceLog = s.traceLog := rfl
@[simp] theorem State.setFlag_fatal (s : State) (f : Fld) (i : Nat) (b : Bool) : (s.setFlag f i b).fatal = s.fatal := rfl
@[simp] theorem State.setFlag_readOnly (s : State) (f : Fld) (i : Nat) (b : Bool) : (s.setFlag f i b).readOnly = s.readOnly := rfl
@[simp] theorem State.setFlag_otp (s : State) (f : Fld) (i : Nat) (b : Bool) : (s.setFlag f i b).otp = s.otp := rfl
@[simp] theorem State.setFlag_otpOp (s : State) (f : Fld) (i : Nat) (b : Bool) : (s.setFlag f i b).otpOp = s.otpOp := rfl
@[simp] theorem State.setFlag_boot (s : State) (f : Fld) (i : Nat) (b : Bool) : (s.setFlag f i b).boot = s.boot := rfl
@[simp] theorem State.setFlag_bar4 (s : State) (f : Fld) (i : Nat) (b : Bool) : (s.setFlag f i b).bar4 = s.bar4 := rfl
@[simp] theorem State.setFlag_answers (s : State) (f : Fld) (i : Nat) (b : Bool) : (s.setFlag f i b).answers = s.answers := rfl
@[simp] theorem State.setFlag_bw (s : State) (f : Fld) (i : Nat) (b : Bool) : (s.setFlag f i b).bw = s.bw := rfl
@[simp] theorem State.setFlag_sckOwed (s : State) (f : Fld) (i : Nat) (b : Bool) : (s.setFlag f i b).sckOwed = s.sckOwed := rfl
@[simp] theorem State.setFlag_events (s : State) (f : Fld) (i : Nat) (b : Bool) : (s.setFlag f i b).events = s.events := rfl
@[simp] theorem State.setFlag_cycle (s : State) (f : Fld) (i : Nat) (b : Bool) : (s.setFlag f i b).cycle = s.cycle := rfl
@[simp] theorem State.setFlag_free (s : State) (f : Fld) (i : Nat) (b : Bool) : (s.setFlag f i b).free = s.free := rfl

@[simp] theorem State.addWrap_pending (s : State) (f : Fld) (i n : Nat) : (s.addWrap f i n).pending = s.pending := rfl
@[simp] theorem State.addWrap_mem (s : State) (f : Fld) (i n : Nat) : (s.addWrap f i n).mem = s.mem := rfl
@[simp] theorem State.addWrap_xlt (s : State) (f : Fld) (i n : Nat) : (s.addWrap f i n).xlt = s.xlt := rfl
@[simp] theorem State.addWrap_gran (s : State) (f : Fld) (i n : Nat) : (s.addWrap f i n).gran = s.gran := rfl
@[simp] theorem State.addWrap_dram (s : State) (f : Fld) (i n : Nat) : (s.addWrap f i n).dram = s.dram := rfl
@[simp] theorem State.addWrap_msix (s : State) (f : Fld) (i n : Nat) : (s.addWrap f i n).msix = s.msix := rfl
@[simp] theorem State.addWrap_queues (s : State) (f : Fld) (i n : Nat) : (s.addWrap f i n).queues = s.queues := rfl
@[simp] theorem State.addWrap_issued (s : State) (f : Fld) (i n : Nat) : (s.addWrap f i n).issued = s.issued := rfl
@[simp] theorem State.addWrap_tails (s : State) (f : Fld) (i n : Nat) : (s.addWrap f i n).tails = s.tails := rfl
@[simp] theorem State.addWrap_fan (s : State) (f : Fld) (i n : Nat) : (s.addWrap f i n).fan = s.fan := rfl
@[simp] theorem State.addWrap_pipe (s : State) (f : Fld) (i n : Nat) : (s.addWrap f i n).pipe = s.pipe := rfl
@[simp] theorem State.addWrap_mpd (s : State) (f : Fld) (i n : Nat) : (s.addWrap f i n).mpd = s.mpd := rfl
@[simp] theorem State.addWrap_vols (s : State) (f : Fld) (i n : Nat) : (s.addWrap f i n).vols = s.vols := rfl
@[simp] theorem State.addWrap_units (s : State) (f : Fld) (i n : Nat) : (s.addWrap f i n).units = s.units := rfl
@[simp] theorem State.addWrap_keys (s : State) (f : Fld) (i n : Nat) : (s.addWrap f i n).keys = s.keys := rfl
@[simp] theorem State.addWrap_keyOp (s : State) (f : Fld) (i n : Nat) : (s.addWrap f i n).keyOp = s.keyOp := rfl
@[simp] theorem State.addWrap_restoreBuf (s : State) (f : Fld) (i n : Nat) : (s.addWrap f i n).restoreBuf = s.restoreBuf := rfl
@[simp] theorem State.addWrap_resets (s : State) (f : Fld) (i n : Nat) : (s.addWrap f i n).resets = s.resets := rfl
@[simp] theorem State.addWrap_halted (s : State) (f : Fld) (i n : Nat) : (s.addWrap f i n).halted = s.halted := rfl
@[simp] theorem State.addWrap_haltMsgs (s : State) (f : Fld) (i n : Nat) : (s.addWrap f i n).haltMsgs = s.haltMsgs := rfl
@[simp] theorem State.addWrap_traceLog (s : State) (f : Fld) (i n : Nat) : (s.addWrap f i n).traceLog = s.traceLog := rfl
@[simp] theorem State.addWrap_fatal (s : State) (f : Fld) (i n : Nat) : (s.addWrap f i n).fatal = s.fatal := rfl
@[simp] theorem State.addWrap_readOnly (s : State) (f : Fld) (i n : Nat) : (s.addWrap f i n).readOnly = s.readOnly := rfl
@[simp] theorem State.addWrap_otp (s : State) (f : Fld) (i n : Nat) : (s.addWrap f i n).otp = s.otp := rfl
@[simp] theorem State.addWrap_otpOp (s : State) (f : Fld) (i n : Nat) : (s.addWrap f i n).otpOp = s.otpOp := rfl
@[simp] theorem State.addWrap_boot (s : State) (f : Fld) (i n : Nat) : (s.addWrap f i n).boot = s.boot := rfl
@[simp] theorem State.addWrap_bar4 (s : State) (f : Fld) (i n : Nat) : (s.addWrap f i n).bar4 = s.bar4 := rfl
@[simp] theorem State.addWrap_answers (s : State) (f : Fld) (i n : Nat) : (s.addWrap f i n).answers = s.answers := rfl
@[simp] theorem State.addWrap_bw (s : State) (f : Fld) (i n : Nat) : (s.addWrap f i n).bw = s.bw := rfl
@[simp] theorem State.addWrap_sckOwed (s : State) (f : Fld) (i n : Nat) : (s.addWrap f i n).sckOwed = s.sckOwed := rfl
@[simp] theorem State.addWrap_events (s : State) (f : Fld) (i n : Nat) : (s.addWrap f i n).events = s.events := rfl
@[simp] theorem State.addWrap_cycle (s : State) (f : Fld) (i n : Nat) : (s.addWrap f i n).cycle = s.cycle := rfl
@[simp] theorem State.addWrap_free (s : State) (f : Fld) (i n : Nat) : (s.addWrap f i n).free = s.free := rfl

@[simp] theorem State.subFld_pending (s : State) (f : Fld) (i n : Nat) : (s.subFld f i n).pending = s.pending := rfl
@[simp] theorem State.subFld_mem (s : State) (f : Fld) (i n : Nat) : (s.subFld f i n).mem = s.mem := rfl
@[simp] theorem State.subFld_xlt (s : State) (f : Fld) (i n : Nat) : (s.subFld f i n).xlt = s.xlt := rfl
@[simp] theorem State.subFld_gran (s : State) (f : Fld) (i n : Nat) : (s.subFld f i n).gran = s.gran := rfl
@[simp] theorem State.subFld_dram (s : State) (f : Fld) (i n : Nat) : (s.subFld f i n).dram = s.dram := rfl
@[simp] theorem State.subFld_msix (s : State) (f : Fld) (i n : Nat) : (s.subFld f i n).msix = s.msix := rfl
@[simp] theorem State.subFld_queues (s : State) (f : Fld) (i n : Nat) : (s.subFld f i n).queues = s.queues := rfl
@[simp] theorem State.subFld_issued (s : State) (f : Fld) (i n : Nat) : (s.subFld f i n).issued = s.issued := rfl
@[simp] theorem State.subFld_tails (s : State) (f : Fld) (i n : Nat) : (s.subFld f i n).tails = s.tails := rfl
@[simp] theorem State.subFld_fan (s : State) (f : Fld) (i n : Nat) : (s.subFld f i n).fan = s.fan := rfl
@[simp] theorem State.subFld_pipe (s : State) (f : Fld) (i n : Nat) : (s.subFld f i n).pipe = s.pipe := rfl
@[simp] theorem State.subFld_mpd (s : State) (f : Fld) (i n : Nat) : (s.subFld f i n).mpd = s.mpd := rfl
@[simp] theorem State.subFld_vols (s : State) (f : Fld) (i n : Nat) : (s.subFld f i n).vols = s.vols := rfl
@[simp] theorem State.subFld_units (s : State) (f : Fld) (i n : Nat) : (s.subFld f i n).units = s.units := rfl
@[simp] theorem State.subFld_keys (s : State) (f : Fld) (i n : Nat) : (s.subFld f i n).keys = s.keys := rfl
@[simp] theorem State.subFld_keyOp (s : State) (f : Fld) (i n : Nat) : (s.subFld f i n).keyOp = s.keyOp := rfl
@[simp] theorem State.subFld_restoreBuf (s : State) (f : Fld) (i n : Nat) : (s.subFld f i n).restoreBuf = s.restoreBuf := rfl
@[simp] theorem State.subFld_resets (s : State) (f : Fld) (i n : Nat) : (s.subFld f i n).resets = s.resets := rfl
@[simp] theorem State.subFld_halted (s : State) (f : Fld) (i n : Nat) : (s.subFld f i n).halted = s.halted := rfl
@[simp] theorem State.subFld_haltMsgs (s : State) (f : Fld) (i n : Nat) : (s.subFld f i n).haltMsgs = s.haltMsgs := rfl
@[simp] theorem State.subFld_traceLog (s : State) (f : Fld) (i n : Nat) : (s.subFld f i n).traceLog = s.traceLog := rfl
@[simp] theorem State.subFld_fatal (s : State) (f : Fld) (i n : Nat) : (s.subFld f i n).fatal = s.fatal := rfl
@[simp] theorem State.subFld_readOnly (s : State) (f : Fld) (i n : Nat) : (s.subFld f i n).readOnly = s.readOnly := rfl
@[simp] theorem State.subFld_otp (s : State) (f : Fld) (i n : Nat) : (s.subFld f i n).otp = s.otp := rfl
@[simp] theorem State.subFld_otpOp (s : State) (f : Fld) (i n : Nat) : (s.subFld f i n).otpOp = s.otpOp := rfl
@[simp] theorem State.subFld_boot (s : State) (f : Fld) (i n : Nat) : (s.subFld f i n).boot = s.boot := rfl
@[simp] theorem State.subFld_bar4 (s : State) (f : Fld) (i n : Nat) : (s.subFld f i n).bar4 = s.bar4 := rfl
@[simp] theorem State.subFld_answers (s : State) (f : Fld) (i n : Nat) : (s.subFld f i n).answers = s.answers := rfl
@[simp] theorem State.subFld_bw (s : State) (f : Fld) (i n : Nat) : (s.subFld f i n).bw = s.bw := rfl
@[simp] theorem State.subFld_sckOwed (s : State) (f : Fld) (i n : Nat) : (s.subFld f i n).sckOwed = s.sckOwed := rfl
@[simp] theorem State.subFld_events (s : State) (f : Fld) (i n : Nat) : (s.subFld f i n).events = s.events := rfl
@[simp] theorem State.subFld_cycle (s : State) (f : Fld) (i n : Nat) : (s.subFld f i n).cycle = s.cycle := rfl
@[simp] theorem State.subFld_free (s : State) (f : Fld) (i n : Nat) : (s.subFld f i n).free = s.free := rfl

@[simp] theorem State.resetReg_pending (s : State) (r : Reg) (i : Nat) : (s.resetReg r i).pending = s.pending := rfl
@[simp] theorem State.resetReg_mem (s : State) (r : Reg) (i : Nat) : (s.resetReg r i).mem = s.mem := rfl
@[simp] theorem State.resetReg_xlt (s : State) (r : Reg) (i : Nat) : (s.resetReg r i).xlt = s.xlt := rfl
@[simp] theorem State.resetReg_gran (s : State) (r : Reg) (i : Nat) : (s.resetReg r i).gran = s.gran := rfl
@[simp] theorem State.resetReg_dram (s : State) (r : Reg) (i : Nat) : (s.resetReg r i).dram = s.dram := rfl
@[simp] theorem State.resetReg_msix (s : State) (r : Reg) (i : Nat) : (s.resetReg r i).msix = s.msix := rfl
@[simp] theorem State.resetReg_queues (s : State) (r : Reg) (i : Nat) : (s.resetReg r i).queues = s.queues := rfl
@[simp] theorem State.resetReg_issued (s : State) (r : Reg) (i : Nat) : (s.resetReg r i).issued = s.issued := rfl
@[simp] theorem State.resetReg_tails (s : State) (r : Reg) (i : Nat) : (s.resetReg r i).tails = s.tails := rfl
@[simp] theorem State.resetReg_fan (s : State) (r : Reg) (i : Nat) : (s.resetReg r i).fan = s.fan := rfl
@[simp] theorem State.resetReg_pipe (s : State) (r : Reg) (i : Nat) : (s.resetReg r i).pipe = s.pipe := rfl
@[simp] theorem State.resetReg_mpd (s : State) (r : Reg) (i : Nat) : (s.resetReg r i).mpd = s.mpd := rfl
@[simp] theorem State.resetReg_vols (s : State) (r : Reg) (i : Nat) : (s.resetReg r i).vols = s.vols := rfl
@[simp] theorem State.resetReg_units (s : State) (r : Reg) (i : Nat) : (s.resetReg r i).units = s.units := rfl
@[simp] theorem State.resetReg_keys (s : State) (r : Reg) (i : Nat) : (s.resetReg r i).keys = s.keys := rfl
@[simp] theorem State.resetReg_keyOp (s : State) (r : Reg) (i : Nat) : (s.resetReg r i).keyOp = s.keyOp := rfl
@[simp] theorem State.resetReg_restoreBuf (s : State) (r : Reg) (i : Nat) : (s.resetReg r i).restoreBuf = s.restoreBuf := rfl
@[simp] theorem State.resetReg_resets (s : State) (r : Reg) (i : Nat) : (s.resetReg r i).resets = s.resets := rfl
@[simp] theorem State.resetReg_halted (s : State) (r : Reg) (i : Nat) : (s.resetReg r i).halted = s.halted := rfl
@[simp] theorem State.resetReg_haltMsgs (s : State) (r : Reg) (i : Nat) : (s.resetReg r i).haltMsgs = s.haltMsgs := rfl
@[simp] theorem State.resetReg_traceLog (s : State) (r : Reg) (i : Nat) : (s.resetReg r i).traceLog = s.traceLog := rfl
@[simp] theorem State.resetReg_fatal (s : State) (r : Reg) (i : Nat) : (s.resetReg r i).fatal = s.fatal := rfl
@[simp] theorem State.resetReg_readOnly (s : State) (r : Reg) (i : Nat) : (s.resetReg r i).readOnly = s.readOnly := rfl
@[simp] theorem State.resetReg_otp (s : State) (r : Reg) (i : Nat) : (s.resetReg r i).otp = s.otp := rfl
@[simp] theorem State.resetReg_otpOp (s : State) (r : Reg) (i : Nat) : (s.resetReg r i).otpOp = s.otpOp := rfl
@[simp] theorem State.resetReg_boot (s : State) (r : Reg) (i : Nat) : (s.resetReg r i).boot = s.boot := rfl
@[simp] theorem State.resetReg_bar4 (s : State) (r : Reg) (i : Nat) : (s.resetReg r i).bar4 = s.bar4 := rfl
@[simp] theorem State.resetReg_answers (s : State) (r : Reg) (i : Nat) : (s.resetReg r i).answers = s.answers := rfl
@[simp] theorem State.resetReg_bw (s : State) (r : Reg) (i : Nat) : (s.resetReg r i).bw = s.bw := rfl
@[simp] theorem State.resetReg_sckOwed (s : State) (r : Reg) (i : Nat) : (s.resetReg r i).sckOwed = s.sckOwed := rfl
@[simp] theorem State.resetReg_events (s : State) (r : Reg) (i : Nat) : (s.resetReg r i).events = s.events := rfl
@[simp] theorem State.resetReg_cycle (s : State) (r : Reg) (i : Nat) : (s.resetReg r i).cycle = s.cycle := rfl
@[simp] theorem State.resetReg_free (s : State) (r : Reg) (i : Nat) : (s.resetReg r i).free = s.free := rfl

@[simp] theorem State.devEvent_pending (s : State) (c v : Nat) : (s.devEvent c v).pending = s.pending := rfl
@[simp] theorem State.devEvent_regs (s : State) (c v : Nat) : (s.devEvent c v).regs = s.regs := rfl
@[simp] theorem State.devEvent_mem (s : State) (c v : Nat) : (s.devEvent c v).mem = s.mem := rfl
@[simp] theorem State.devEvent_xlt (s : State) (c v : Nat) : (s.devEvent c v).xlt = s.xlt := rfl
@[simp] theorem State.devEvent_gran (s : State) (c v : Nat) : (s.devEvent c v).gran = s.gran := rfl
@[simp] theorem State.devEvent_dram (s : State) (c v : Nat) : (s.devEvent c v).dram = s.dram := rfl
@[simp] theorem State.devEvent_msix (s : State) (c v : Nat) : (s.devEvent c v).msix = s.msix := rfl
@[simp] theorem State.devEvent_queues (s : State) (c v : Nat) : (s.devEvent c v).queues = s.queues := rfl
@[simp] theorem State.devEvent_issued (s : State) (c v : Nat) : (s.devEvent c v).issued = s.issued := rfl
@[simp] theorem State.devEvent_tails (s : State) (c v : Nat) : (s.devEvent c v).tails = s.tails := rfl
@[simp] theorem State.devEvent_fan (s : State) (c v : Nat) : (s.devEvent c v).fan = s.fan := rfl
@[simp] theorem State.devEvent_pipe (s : State) (c v : Nat) : (s.devEvent c v).pipe = s.pipe := rfl
@[simp] theorem State.devEvent_mpd (s : State) (c v : Nat) : (s.devEvent c v).mpd = s.mpd := rfl
@[simp] theorem State.devEvent_vols (s : State) (c v : Nat) : (s.devEvent c v).vols = s.vols := rfl
@[simp] theorem State.devEvent_units (s : State) (c v : Nat) : (s.devEvent c v).units = s.units := rfl
@[simp] theorem State.devEvent_keys (s : State) (c v : Nat) : (s.devEvent c v).keys = s.keys := rfl
@[simp] theorem State.devEvent_keyOp (s : State) (c v : Nat) : (s.devEvent c v).keyOp = s.keyOp := rfl
@[simp] theorem State.devEvent_restoreBuf (s : State) (c v : Nat) : (s.devEvent c v).restoreBuf = s.restoreBuf := rfl
@[simp] theorem State.devEvent_resets (s : State) (c v : Nat) : (s.devEvent c v).resets = s.resets := rfl
@[simp] theorem State.devEvent_halted (s : State) (c v : Nat) : (s.devEvent c v).halted = s.halted := rfl
@[simp] theorem State.devEvent_haltMsgs (s : State) (c v : Nat) : (s.devEvent c v).haltMsgs = s.haltMsgs := rfl
@[simp] theorem State.devEvent_traceLog (s : State) (c v : Nat) : (s.devEvent c v).traceLog = s.traceLog := rfl
@[simp] theorem State.devEvent_fatal (s : State) (c v : Nat) : (s.devEvent c v).fatal = s.fatal := rfl
@[simp] theorem State.devEvent_readOnly (s : State) (c v : Nat) : (s.devEvent c v).readOnly = s.readOnly := rfl
@[simp] theorem State.devEvent_otp (s : State) (c v : Nat) : (s.devEvent c v).otp = s.otp := rfl
@[simp] theorem State.devEvent_otpOp (s : State) (c v : Nat) : (s.devEvent c v).otpOp = s.otpOp := rfl
@[simp] theorem State.devEvent_boot (s : State) (c v : Nat) : (s.devEvent c v).boot = s.boot := rfl
@[simp] theorem State.devEvent_bar4 (s : State) (c v : Nat) : (s.devEvent c v).bar4 = s.bar4 := rfl
@[simp] theorem State.devEvent_answers (s : State) (c v : Nat) : (s.devEvent c v).answers = s.answers := rfl
@[simp] theorem State.devEvent_bw (s : State) (c v : Nat) : (s.devEvent c v).bw = s.bw := rfl
@[simp] theorem State.devEvent_sckOwed (s : State) (c v : Nat) : (s.devEvent c v).sckOwed = s.sckOwed := rfl
@[simp] theorem State.devEvent_cycle (s : State) (c v : Nat) : (s.devEvent c v).cycle = s.cycle := rfl
@[simp] theorem State.devEvent_free (s : State) (c v : Nat) : (s.devEvent c v).free = s.free := rfl
@[simp] theorem State.devEvent_reg (s : State) (c v : Nat) (q : Reg) (x : Nat) : (s.devEvent c v).reg q x = s.reg q x := rfl
@[simp] theorem State.devEvent_fld (s : State) (c v : Nat) (q : Fld) (x : Nat) : (s.devEvent c v).fld q x = s.fld q x := rfl
@[simp] theorem State.devEvent_flag (s : State) (c v : Nat) (q : Fld) (x : Nat) : (s.devEvent c v).flag q x = s.flag q x := rfl

@[simp] theorem State.setVector_pending (s : State) (v : Nat) (e : MsixEntry) : (s.setVector v e).pending = s.pending := rfl
@[simp] theorem State.setVector_regs (s : State) (v : Nat) (e : MsixEntry) : (s.setVector v e).regs = s.regs := rfl
@[simp] theorem State.setVector_mem (s : State) (v : Nat) (e : MsixEntry) : (s.setVector v e).mem = s.mem := rfl
@[simp] theorem State.setVector_xlt (s : State) (v : Nat) (e : MsixEntry) : (s.setVector v e).xlt = s.xlt := rfl
@[simp] theorem State.setVector_gran (s : State) (v : Nat) (e : MsixEntry) : (s.setVector v e).gran = s.gran := rfl
@[simp] theorem State.setVector_dram (s : State) (v : Nat) (e : MsixEntry) : (s.setVector v e).dram = s.dram := rfl
@[simp] theorem State.setVector_queues (s : State) (v : Nat) (e : MsixEntry) : (s.setVector v e).queues = s.queues := rfl
@[simp] theorem State.setVector_issued (s : State) (v : Nat) (e : MsixEntry) : (s.setVector v e).issued = s.issued := rfl
@[simp] theorem State.setVector_tails (s : State) (v : Nat) (e : MsixEntry) : (s.setVector v e).tails = s.tails := rfl
@[simp] theorem State.setVector_fan (s : State) (v : Nat) (e : MsixEntry) : (s.setVector v e).fan = s.fan := rfl
@[simp] theorem State.setVector_pipe (s : State) (v : Nat) (e : MsixEntry) : (s.setVector v e).pipe = s.pipe := rfl
@[simp] theorem State.setVector_mpd (s : State) (v : Nat) (e : MsixEntry) : (s.setVector v e).mpd = s.mpd := rfl
@[simp] theorem State.setVector_vols (s : State) (v : Nat) (e : MsixEntry) : (s.setVector v e).vols = s.vols := rfl
@[simp] theorem State.setVector_units (s : State) (v : Nat) (e : MsixEntry) : (s.setVector v e).units = s.units := rfl
@[simp] theorem State.setVector_keys (s : State) (v : Nat) (e : MsixEntry) : (s.setVector v e).keys = s.keys := rfl
@[simp] theorem State.setVector_keyOp (s : State) (v : Nat) (e : MsixEntry) : (s.setVector v e).keyOp = s.keyOp := rfl
@[simp] theorem State.setVector_restoreBuf (s : State) (v : Nat) (e : MsixEntry) : (s.setVector v e).restoreBuf = s.restoreBuf := rfl
@[simp] theorem State.setVector_resets (s : State) (v : Nat) (e : MsixEntry) : (s.setVector v e).resets = s.resets := rfl
@[simp] theorem State.setVector_halted (s : State) (v : Nat) (e : MsixEntry) : (s.setVector v e).halted = s.halted := rfl
@[simp] theorem State.setVector_haltMsgs (s : State) (v : Nat) (e : MsixEntry) : (s.setVector v e).haltMsgs = s.haltMsgs := rfl
@[simp] theorem State.setVector_traceLog (s : State) (v : Nat) (e : MsixEntry) : (s.setVector v e).traceLog = s.traceLog := rfl
@[simp] theorem State.setVector_fatal (s : State) (v : Nat) (e : MsixEntry) : (s.setVector v e).fatal = s.fatal := rfl
@[simp] theorem State.setVector_readOnly (s : State) (v : Nat) (e : MsixEntry) : (s.setVector v e).readOnly = s.readOnly := rfl
@[simp] theorem State.setVector_otp (s : State) (v : Nat) (e : MsixEntry) : (s.setVector v e).otp = s.otp := rfl
@[simp] theorem State.setVector_otpOp (s : State) (v : Nat) (e : MsixEntry) : (s.setVector v e).otpOp = s.otpOp := rfl
@[simp] theorem State.setVector_boot (s : State) (v : Nat) (e : MsixEntry) : (s.setVector v e).boot = s.boot := rfl
@[simp] theorem State.setVector_bar4 (s : State) (v : Nat) (e : MsixEntry) : (s.setVector v e).bar4 = s.bar4 := rfl
@[simp] theorem State.setVector_answers (s : State) (v : Nat) (e : MsixEntry) : (s.setVector v e).answers = s.answers := rfl
@[simp] theorem State.setVector_bw (s : State) (v : Nat) (e : MsixEntry) : (s.setVector v e).bw = s.bw := rfl
@[simp] theorem State.setVector_sckOwed (s : State) (v : Nat) (e : MsixEntry) : (s.setVector v e).sckOwed = s.sckOwed := rfl
@[simp] theorem State.setVector_events (s : State) (v : Nat) (e : MsixEntry) : (s.setVector v e).events = s.events := rfl
@[simp] theorem State.setVector_cycle (s : State) (v : Nat) (e : MsixEntry) : (s.setVector v e).cycle = s.cycle := rfl
@[simp] theorem State.setVector_free (s : State) (v : Nat) (e : MsixEntry) : (s.setVector v e).free = s.free := rfl
@[simp] theorem State.setVector_reg (s : State) (v : Nat) (e : MsixEntry) (q : Reg) (x : Nat) : (s.setVector v e).reg q x = s.reg q x := rfl
@[simp] theorem State.setVector_fld (s : State) (v : Nat) (e : MsixEntry) (q : Fld) (x : Nat) : (s.setVector v e).fld q x = s.fld q x := rfl
@[simp] theorem State.setVector_flag (s : State) (v : Nat) (e : MsixEntry) (q : Fld) (x : Nat) : (s.setVector v e).flag q x = s.flag q x := rfl

@[simp] theorem State.setTail_pending (s : State) (n : Nat) (f : Tail → Tail) : (s.setTail n f).pending = s.pending := rfl
@[simp] theorem State.setTail_regs (s : State) (n : Nat) (f : Tail → Tail) : (s.setTail n f).regs = s.regs := rfl
@[simp] theorem State.setTail_mem (s : State) (n : Nat) (f : Tail → Tail) : (s.setTail n f).mem = s.mem := rfl
@[simp] theorem State.setTail_xlt (s : State) (n : Nat) (f : Tail → Tail) : (s.setTail n f).xlt = s.xlt := rfl
@[simp] theorem State.setTail_gran (s : State) (n : Nat) (f : Tail → Tail) : (s.setTail n f).gran = s.gran := rfl
@[simp] theorem State.setTail_dram (s : State) (n : Nat) (f : Tail → Tail) : (s.setTail n f).dram = s.dram := rfl
@[simp] theorem State.setTail_msix (s : State) (n : Nat) (f : Tail → Tail) : (s.setTail n f).msix = s.msix := rfl
@[simp] theorem State.setTail_queues (s : State) (n : Nat) (f : Tail → Tail) : (s.setTail n f).queues = s.queues := rfl
@[simp] theorem State.setTail_issued (s : State) (n : Nat) (f : Tail → Tail) : (s.setTail n f).issued = s.issued := rfl
@[simp] theorem State.setTail_fan (s : State) (n : Nat) (f : Tail → Tail) : (s.setTail n f).fan = s.fan := rfl
@[simp] theorem State.setTail_pipe (s : State) (n : Nat) (f : Tail → Tail) : (s.setTail n f).pipe = s.pipe := rfl
@[simp] theorem State.setTail_mpd (s : State) (n : Nat) (f : Tail → Tail) : (s.setTail n f).mpd = s.mpd := rfl
@[simp] theorem State.setTail_vols (s : State) (n : Nat) (f : Tail → Tail) : (s.setTail n f).vols = s.vols := rfl
@[simp] theorem State.setTail_units (s : State) (n : Nat) (f : Tail → Tail) : (s.setTail n f).units = s.units := rfl
@[simp] theorem State.setTail_keys (s : State) (n : Nat) (f : Tail → Tail) : (s.setTail n f).keys = s.keys := rfl
@[simp] theorem State.setTail_keyOp (s : State) (n : Nat) (f : Tail → Tail) : (s.setTail n f).keyOp = s.keyOp := rfl
@[simp] theorem State.setTail_restoreBuf (s : State) (n : Nat) (f : Tail → Tail) : (s.setTail n f).restoreBuf = s.restoreBuf := rfl
@[simp] theorem State.setTail_resets (s : State) (n : Nat) (f : Tail → Tail) : (s.setTail n f).resets = s.resets := rfl
@[simp] theorem State.setTail_halted (s : State) (n : Nat) (f : Tail → Tail) : (s.setTail n f).halted = s.halted := rfl
@[simp] theorem State.setTail_haltMsgs (s : State) (n : Nat) (f : Tail → Tail) : (s.setTail n f).haltMsgs = s.haltMsgs := rfl
@[simp] theorem State.setTail_traceLog (s : State) (n : Nat) (f : Tail → Tail) : (s.setTail n f).traceLog = s.traceLog := rfl
@[simp] theorem State.setTail_fatal (s : State) (n : Nat) (f : Tail → Tail) : (s.setTail n f).fatal = s.fatal := rfl
@[simp] theorem State.setTail_readOnly (s : State) (n : Nat) (f : Tail → Tail) : (s.setTail n f).readOnly = s.readOnly := rfl
@[simp] theorem State.setTail_otp (s : State) (n : Nat) (f : Tail → Tail) : (s.setTail n f).otp = s.otp := rfl
@[simp] theorem State.setTail_otpOp (s : State) (n : Nat) (f : Tail → Tail) : (s.setTail n f).otpOp = s.otpOp := rfl
@[simp] theorem State.setTail_boot (s : State) (n : Nat) (f : Tail → Tail) : (s.setTail n f).boot = s.boot := rfl
@[simp] theorem State.setTail_bar4 (s : State) (n : Nat) (f : Tail → Tail) : (s.setTail n f).bar4 = s.bar4 := rfl
@[simp] theorem State.setTail_answers (s : State) (n : Nat) (f : Tail → Tail) : (s.setTail n f).answers = s.answers := rfl
@[simp] theorem State.setTail_bw (s : State) (n : Nat) (f : Tail → Tail) : (s.setTail n f).bw = s.bw := rfl
@[simp] theorem State.setTail_sckOwed (s : State) (n : Nat) (f : Tail → Tail) : (s.setTail n f).sckOwed = s.sckOwed := rfl
@[simp] theorem State.setTail_events (s : State) (n : Nat) (f : Tail → Tail) : (s.setTail n f).events = s.events := rfl
@[simp] theorem State.setTail_cycle (s : State) (n : Nat) (f : Tail → Tail) : (s.setTail n f).cycle = s.cycle := rfl
@[simp] theorem State.setTail_free (s : State) (n : Nat) (f : Tail → Tail) : (s.setTail n f).free = s.free := rfl
@[simp] theorem State.setTail_reg (s : State) (n : Nat) (f : Tail → Tail) (q : Reg) (x : Nat) : (s.setTail n f).reg q x = s.reg q x := rfl
@[simp] theorem State.setTail_fld (s : State) (n : Nat) (f : Tail → Tail) (q : Fld) (x : Nat) : (s.setTail n f).fld q x = s.fld q x := rfl
@[simp] theorem State.setTail_flag (s : State) (n : Nat) (f : Tail → Tail) (q : Fld) (x : Nat) : (s.setTail n f).flag q x = s.flag q x := rfl

@[simp] theorem State.setQueue_pending (s : State) (n : Nat) (f : Queue → Queue) : (s.setQueue n f).pending = s.pending := rfl
@[simp] theorem State.setQueue_regs (s : State) (n : Nat) (f : Queue → Queue) : (s.setQueue n f).regs = s.regs := rfl
@[simp] theorem State.setQueue_mem (s : State) (n : Nat) (f : Queue → Queue) : (s.setQueue n f).mem = s.mem := rfl
@[simp] theorem State.setQueue_xlt (s : State) (n : Nat) (f : Queue → Queue) : (s.setQueue n f).xlt = s.xlt := rfl
@[simp] theorem State.setQueue_gran (s : State) (n : Nat) (f : Queue → Queue) : (s.setQueue n f).gran = s.gran := rfl
@[simp] theorem State.setQueue_dram (s : State) (n : Nat) (f : Queue → Queue) : (s.setQueue n f).dram = s.dram := rfl
@[simp] theorem State.setQueue_msix (s : State) (n : Nat) (f : Queue → Queue) : (s.setQueue n f).msix = s.msix := rfl
@[simp] theorem State.setQueue_issued (s : State) (n : Nat) (f : Queue → Queue) : (s.setQueue n f).issued = s.issued := rfl
@[simp] theorem State.setQueue_tails (s : State) (n : Nat) (f : Queue → Queue) : (s.setQueue n f).tails = s.tails := rfl
@[simp] theorem State.setQueue_fan (s : State) (n : Nat) (f : Queue → Queue) : (s.setQueue n f).fan = s.fan := rfl
@[simp] theorem State.setQueue_pipe (s : State) (n : Nat) (f : Queue → Queue) : (s.setQueue n f).pipe = s.pipe := rfl
@[simp] theorem State.setQueue_mpd (s : State) (n : Nat) (f : Queue → Queue) : (s.setQueue n f).mpd = s.mpd := rfl
@[simp] theorem State.setQueue_vols (s : State) (n : Nat) (f : Queue → Queue) : (s.setQueue n f).vols = s.vols := rfl
@[simp] theorem State.setQueue_units (s : State) (n : Nat) (f : Queue → Queue) : (s.setQueue n f).units = s.units := rfl
@[simp] theorem State.setQueue_keys (s : State) (n : Nat) (f : Queue → Queue) : (s.setQueue n f).keys = s.keys := rfl
@[simp] theorem State.setQueue_keyOp (s : State) (n : Nat) (f : Queue → Queue) : (s.setQueue n f).keyOp = s.keyOp := rfl
@[simp] theorem State.setQueue_restoreBuf (s : State) (n : Nat) (f : Queue → Queue) : (s.setQueue n f).restoreBuf = s.restoreBuf := rfl
@[simp] theorem State.setQueue_resets (s : State) (n : Nat) (f : Queue → Queue) : (s.setQueue n f).resets = s.resets := rfl
@[simp] theorem State.setQueue_halted (s : State) (n : Nat) (f : Queue → Queue) : (s.setQueue n f).halted = s.halted := rfl
@[simp] theorem State.setQueue_haltMsgs (s : State) (n : Nat) (f : Queue → Queue) : (s.setQueue n f).haltMsgs = s.haltMsgs := rfl
@[simp] theorem State.setQueue_traceLog (s : State) (n : Nat) (f : Queue → Queue) : (s.setQueue n f).traceLog = s.traceLog := rfl
@[simp] theorem State.setQueue_fatal (s : State) (n : Nat) (f : Queue → Queue) : (s.setQueue n f).fatal = s.fatal := rfl
@[simp] theorem State.setQueue_readOnly (s : State) (n : Nat) (f : Queue → Queue) : (s.setQueue n f).readOnly = s.readOnly := rfl
@[simp] theorem State.setQueue_otp (s : State) (n : Nat) (f : Queue → Queue) : (s.setQueue n f).otp = s.otp := rfl
@[simp] theorem State.setQueue_otpOp (s : State) (n : Nat) (f : Queue → Queue) : (s.setQueue n f).otpOp = s.otpOp := rfl
@[simp] theorem State.setQueue_boot (s : State) (n : Nat) (f : Queue → Queue) : (s.setQueue n f).boot = s.boot := rfl
@[simp] theorem State.setQueue_bar4 (s : State) (n : Nat) (f : Queue → Queue) : (s.setQueue n f).bar4 = s.bar4 := rfl
@[simp] theorem State.setQueue_answers (s : State) (n : Nat) (f : Queue → Queue) : (s.setQueue n f).answers = s.answers := rfl
@[simp] theorem State.setQueue_bw (s : State) (n : Nat) (f : Queue → Queue) : (s.setQueue n f).bw = s.bw := rfl
@[simp] theorem State.setQueue_sckOwed (s : State) (n : Nat) (f : Queue → Queue) : (s.setQueue n f).sckOwed = s.sckOwed := rfl
@[simp] theorem State.setQueue_events (s : State) (n : Nat) (f : Queue → Queue) : (s.setQueue n f).events = s.events := rfl
@[simp] theorem State.setQueue_cycle (s : State) (n : Nat) (f : Queue → Queue) : (s.setQueue n f).cycle = s.cycle := rfl
@[simp] theorem State.setQueue_free (s : State) (n : Nat) (f : Queue → Queue) : (s.setQueue n f).free = s.free := rfl
@[simp] theorem State.setQueue_reg (s : State) (n : Nat) (f : Queue → Queue) (q : Reg) (x : Nat) : (s.setQueue n f).reg q x = s.reg q x := rfl
@[simp] theorem State.setQueue_fld (s : State) (n : Nat) (f : Queue → Queue) (q : Fld) (x : Nat) : (s.setQueue n f).fld q x = s.fld q x := rfl
@[simp] theorem State.setQueue_flag (s : State) (n : Nat) (f : Queue → Queue) (q : Fld) (x : Nat) : (s.setQueue n f).flag q x = s.flag q x := rfl

@[simp] theorem State.setJob_pending (s : State) (id : Nat) (f : Job → Job) : (s.setJob id f).pending = s.pending := rfl
@[simp] theorem State.setJob_regs (s : State) (id : Nat) (f : Job → Job) : (s.setJob id f).regs = s.regs := rfl
@[simp] theorem State.setJob_mem (s : State) (id : Nat) (f : Job → Job) : (s.setJob id f).mem = s.mem := rfl
@[simp] theorem State.setJob_xlt (s : State) (id : Nat) (f : Job → Job) : (s.setJob id f).xlt = s.xlt := rfl
@[simp] theorem State.setJob_gran (s : State) (id : Nat) (f : Job → Job) : (s.setJob id f).gran = s.gran := rfl
@[simp] theorem State.setJob_dram (s : State) (id : Nat) (f : Job → Job) : (s.setJob id f).dram = s.dram := rfl
@[simp] theorem State.setJob_msix (s : State) (id : Nat) (f : Job → Job) : (s.setJob id f).msix = s.msix := rfl
@[simp] theorem State.setJob_queues (s : State) (id : Nat) (f : Job → Job) : (s.setJob id f).queues = s.queues := rfl
@[simp] theorem State.setJob_issued (s : State) (id : Nat) (f : Job → Job) : (s.setJob id f).issued = s.issued := rfl
@[simp] theorem State.setJob_tails (s : State) (id : Nat) (f : Job → Job) : (s.setJob id f).tails = s.tails := rfl
@[simp] theorem State.setJob_pipe (s : State) (id : Nat) (f : Job → Job) : (s.setJob id f).pipe = s.pipe := rfl
@[simp] theorem State.setJob_mpd (s : State) (id : Nat) (f : Job → Job) : (s.setJob id f).mpd = s.mpd := rfl
@[simp] theorem State.setJob_vols (s : State) (id : Nat) (f : Job → Job) : (s.setJob id f).vols = s.vols := rfl
@[simp] theorem State.setJob_units (s : State) (id : Nat) (f : Job → Job) : (s.setJob id f).units = s.units := rfl
@[simp] theorem State.setJob_keys (s : State) (id : Nat) (f : Job → Job) : (s.setJob id f).keys = s.keys := rfl
@[simp] theorem State.setJob_keyOp (s : State) (id : Nat) (f : Job → Job) : (s.setJob id f).keyOp = s.keyOp := rfl
@[simp] theorem State.setJob_restoreBuf (s : State) (id : Nat) (f : Job → Job) : (s.setJob id f).restoreBuf = s.restoreBuf := rfl
@[simp] theorem State.setJob_resets (s : State) (id : Nat) (f : Job → Job) : (s.setJob id f).resets = s.resets := rfl
@[simp] theorem State.setJob_halted (s : State) (id : Nat) (f : Job → Job) : (s.setJob id f).halted = s.halted := rfl
@[simp] theorem State.setJob_haltMsgs (s : State) (id : Nat) (f : Job → Job) : (s.setJob id f).haltMsgs = s.haltMsgs := rfl
@[simp] theorem State.setJob_traceLog (s : State) (id : Nat) (f : Job → Job) : (s.setJob id f).traceLog = s.traceLog := rfl
@[simp] theorem State.setJob_fatal (s : State) (id : Nat) (f : Job → Job) : (s.setJob id f).fatal = s.fatal := rfl
@[simp] theorem State.setJob_readOnly (s : State) (id : Nat) (f : Job → Job) : (s.setJob id f).readOnly = s.readOnly := rfl
@[simp] theorem State.setJob_otp (s : State) (id : Nat) (f : Job → Job) : (s.setJob id f).otp = s.otp := rfl
@[simp] theorem State.setJob_otpOp (s : State) (id : Nat) (f : Job → Job) : (s.setJob id f).otpOp = s.otpOp := rfl
@[simp] theorem State.setJob_boot (s : State) (id : Nat) (f : Job → Job) : (s.setJob id f).boot = s.boot := rfl
@[simp] theorem State.setJob_bar4 (s : State) (id : Nat) (f : Job → Job) : (s.setJob id f).bar4 = s.bar4 := rfl
@[simp] theorem State.setJob_answers (s : State) (id : Nat) (f : Job → Job) : (s.setJob id f).answers = s.answers := rfl
@[simp] theorem State.setJob_bw (s : State) (id : Nat) (f : Job → Job) : (s.setJob id f).bw = s.bw := rfl
@[simp] theorem State.setJob_sckOwed (s : State) (id : Nat) (f : Job → Job) : (s.setJob id f).sckOwed = s.sckOwed := rfl
@[simp] theorem State.setJob_events (s : State) (id : Nat) (f : Job → Job) : (s.setJob id f).events = s.events := rfl
@[simp] theorem State.setJob_cycle (s : State) (id : Nat) (f : Job → Job) : (s.setJob id f).cycle = s.cycle := rfl
@[simp] theorem State.setJob_free (s : State) (id : Nat) (f : Job → Job) : (s.setJob id f).free = s.free := rfl
@[simp] theorem State.setJob_reg (s : State) (id : Nat) (f : Job → Job) (q : Reg) (x : Nat) : (s.setJob id f).reg q x = s.reg q x := rfl
@[simp] theorem State.setJob_fld (s : State) (id : Nat) (f : Job → Job) (q : Fld) (x : Nat) : (s.setJob id f).fld q x = s.fld q x := rfl
@[simp] theorem State.setJob_flag (s : State) (id : Nat) (f : Job → Job) (q : Fld) (x : Nat) : (s.setJob id f).flag q x = s.flag q x := rfl

@[simp] theorem State.setTask_pending (s : State) (job part : Nat) (f : Task → Task) : (s.setTask job part f).pending = s.pending := rfl
@[simp] theorem State.setTask_regs (s : State) (job part : Nat) (f : Task → Task) : (s.setTask job part f).regs = s.regs := rfl
@[simp] theorem State.setTask_mem (s : State) (job part : Nat) (f : Task → Task) : (s.setTask job part f).mem = s.mem := rfl
@[simp] theorem State.setTask_xlt (s : State) (job part : Nat) (f : Task → Task) : (s.setTask job part f).xlt = s.xlt := rfl
@[simp] theorem State.setTask_gran (s : State) (job part : Nat) (f : Task → Task) : (s.setTask job part f).gran = s.gran := rfl
@[simp] theorem State.setTask_dram (s : State) (job part : Nat) (f : Task → Task) : (s.setTask job part f).dram = s.dram := rfl
@[simp] theorem State.setTask_msix (s : State) (job part : Nat) (f : Task → Task) : (s.setTask job part f).msix = s.msix := rfl
@[simp] theorem State.setTask_queues (s : State) (job part : Nat) (f : Task → Task) : (s.setTask job part f).queues = s.queues := rfl
@[simp] theorem State.setTask_issued (s : State) (job part : Nat) (f : Task → Task) : (s.setTask job part f).issued = s.issued := rfl
@[simp] theorem State.setTask_tails (s : State) (job part : Nat) (f : Task → Task) : (s.setTask job part f).tails = s.tails := rfl
@[simp] theorem State.setTask_pipe (s : State) (job part : Nat) (f : Task → Task) : (s.setTask job part f).pipe = s.pipe := rfl
@[simp] theorem State.setTask_mpd (s : State) (job part : Nat) (f : Task → Task) : (s.setTask job part f).mpd = s.mpd := rfl
@[simp] theorem State.setTask_vols (s : State) (job part : Nat) (f : Task → Task) : (s.setTask job part f).vols = s.vols := rfl
@[simp] theorem State.setTask_units (s : State) (job part : Nat) (f : Task → Task) : (s.setTask job part f).units = s.units := rfl
@[simp] theorem State.setTask_keys (s : State) (job part : Nat) (f : Task → Task) : (s.setTask job part f).keys = s.keys := rfl
@[simp] theorem State.setTask_keyOp (s : State) (job part : Nat) (f : Task → Task) : (s.setTask job part f).keyOp = s.keyOp := rfl
@[simp] theorem State.setTask_restoreBuf (s : State) (job part : Nat) (f : Task → Task) : (s.setTask job part f).restoreBuf = s.restoreBuf := rfl
@[simp] theorem State.setTask_resets (s : State) (job part : Nat) (f : Task → Task) : (s.setTask job part f).resets = s.resets := rfl
@[simp] theorem State.setTask_halted (s : State) (job part : Nat) (f : Task → Task) : (s.setTask job part f).halted = s.halted := rfl
@[simp] theorem State.setTask_haltMsgs (s : State) (job part : Nat) (f : Task → Task) : (s.setTask job part f).haltMsgs = s.haltMsgs := rfl
@[simp] theorem State.setTask_traceLog (s : State) (job part : Nat) (f : Task → Task) : (s.setTask job part f).traceLog = s.traceLog := rfl
@[simp] theorem State.setTask_fatal (s : State) (job part : Nat) (f : Task → Task) : (s.setTask job part f).fatal = s.fatal := rfl
@[simp] theorem State.setTask_readOnly (s : State) (job part : Nat) (f : Task → Task) : (s.setTask job part f).readOnly = s.readOnly := rfl
@[simp] theorem State.setTask_otp (s : State) (job part : Nat) (f : Task → Task) : (s.setTask job part f).otp = s.otp := rfl
@[simp] theorem State.setTask_otpOp (s : State) (job part : Nat) (f : Task → Task) : (s.setTask job part f).otpOp = s.otpOp := rfl
@[simp] theorem State.setTask_boot (s : State) (job part : Nat) (f : Task → Task) : (s.setTask job part f).boot = s.boot := rfl
@[simp] theorem State.setTask_bar4 (s : State) (job part : Nat) (f : Task → Task) : (s.setTask job part f).bar4 = s.bar4 := rfl
@[simp] theorem State.setTask_answers (s : State) (job part : Nat) (f : Task → Task) : (s.setTask job part f).answers = s.answers := rfl
@[simp] theorem State.setTask_bw (s : State) (job part : Nat) (f : Task → Task) : (s.setTask job part f).bw = s.bw := rfl
@[simp] theorem State.setTask_sckOwed (s : State) (job part : Nat) (f : Task → Task) : (s.setTask job part f).sckOwed = s.sckOwed := rfl
@[simp] theorem State.setTask_events (s : State) (job part : Nat) (f : Task → Task) : (s.setTask job part f).events = s.events := rfl
@[simp] theorem State.setTask_cycle (s : State) (job part : Nat) (f : Task → Task) : (s.setTask job part f).cycle = s.cycle := rfl
@[simp] theorem State.setTask_free (s : State) (job part : Nat) (f : Task → Task) : (s.setTask job part f).free = s.free := rfl
@[simp] theorem State.setTask_reg (s : State) (job part : Nat) (f : Task → Task) (q : Reg) (x : Nat) : (s.setTask job part f).reg q x = s.reg q x := rfl
@[simp] theorem State.setTask_fld (s : State) (job part : Nat) (f : Task → Task) (q : Fld) (x : Nat) : (s.setTask job part f).fld q x = s.fld q x := rfl
@[simp] theorem State.setTask_flag (s : State) (job part : Nat) (f : Task → Task) (q : Fld) (x : Nat) : (s.setTask job part f).flag q x = s.flag q x := rfl

@[simp] theorem State.setStone_pending (s : State) (n : Nat) (f : Stone → Stone) : (s.setStone n f).pending = s.pending := rfl
@[simp] theorem State.setStone_regs (s : State) (n : Nat) (f : Stone → Stone) : (s.setStone n f).regs = s.regs := rfl
@[simp] theorem State.setStone_mem (s : State) (n : Nat) (f : Stone → Stone) : (s.setStone n f).mem = s.mem := rfl
@[simp] theorem State.setStone_xlt (s : State) (n : Nat) (f : Stone → Stone) : (s.setStone n f).xlt = s.xlt := rfl
@[simp] theorem State.setStone_gran (s : State) (n : Nat) (f : Stone → Stone) : (s.setStone n f).gran = s.gran := rfl
@[simp] theorem State.setStone_dram (s : State) (n : Nat) (f : Stone → Stone) : (s.setStone n f).dram = s.dram := rfl
@[simp] theorem State.setStone_msix (s : State) (n : Nat) (f : Stone → Stone) : (s.setStone n f).msix = s.msix := rfl
@[simp] theorem State.setStone_queues (s : State) (n : Nat) (f : Stone → Stone) : (s.setStone n f).queues = s.queues := rfl
@[simp] theorem State.setStone_issued (s : State) (n : Nat) (f : Stone → Stone) : (s.setStone n f).issued = s.issued := rfl
@[simp] theorem State.setStone_tails (s : State) (n : Nat) (f : Stone → Stone) : (s.setStone n f).tails = s.tails := rfl
@[simp] theorem State.setStone_fan (s : State) (n : Nat) (f : Stone → Stone) : (s.setStone n f).fan = s.fan := rfl
@[simp] theorem State.setStone_mpd (s : State) (n : Nat) (f : Stone → Stone) : (s.setStone n f).mpd = s.mpd := rfl
@[simp] theorem State.setStone_vols (s : State) (n : Nat) (f : Stone → Stone) : (s.setStone n f).vols = s.vols := rfl
@[simp] theorem State.setStone_units (s : State) (n : Nat) (f : Stone → Stone) : (s.setStone n f).units = s.units := rfl
@[simp] theorem State.setStone_keys (s : State) (n : Nat) (f : Stone → Stone) : (s.setStone n f).keys = s.keys := rfl
@[simp] theorem State.setStone_keyOp (s : State) (n : Nat) (f : Stone → Stone) : (s.setStone n f).keyOp = s.keyOp := rfl
@[simp] theorem State.setStone_restoreBuf (s : State) (n : Nat) (f : Stone → Stone) : (s.setStone n f).restoreBuf = s.restoreBuf := rfl
@[simp] theorem State.setStone_resets (s : State) (n : Nat) (f : Stone → Stone) : (s.setStone n f).resets = s.resets := rfl
@[simp] theorem State.setStone_halted (s : State) (n : Nat) (f : Stone → Stone) : (s.setStone n f).halted = s.halted := rfl
@[simp] theorem State.setStone_haltMsgs (s : State) (n : Nat) (f : Stone → Stone) : (s.setStone n f).haltMsgs = s.haltMsgs := rfl
@[simp] theorem State.setStone_traceLog (s : State) (n : Nat) (f : Stone → Stone) : (s.setStone n f).traceLog = s.traceLog := rfl
@[simp] theorem State.setStone_fatal (s : State) (n : Nat) (f : Stone → Stone) : (s.setStone n f).fatal = s.fatal := rfl
@[simp] theorem State.setStone_readOnly (s : State) (n : Nat) (f : Stone → Stone) : (s.setStone n f).readOnly = s.readOnly := rfl
@[simp] theorem State.setStone_otp (s : State) (n : Nat) (f : Stone → Stone) : (s.setStone n f).otp = s.otp := rfl
@[simp] theorem State.setStone_otpOp (s : State) (n : Nat) (f : Stone → Stone) : (s.setStone n f).otpOp = s.otpOp := rfl
@[simp] theorem State.setStone_boot (s : State) (n : Nat) (f : Stone → Stone) : (s.setStone n f).boot = s.boot := rfl
@[simp] theorem State.setStone_bar4 (s : State) (n : Nat) (f : Stone → Stone) : (s.setStone n f).bar4 = s.bar4 := rfl
@[simp] theorem State.setStone_answers (s : State) (n : Nat) (f : Stone → Stone) : (s.setStone n f).answers = s.answers := rfl
@[simp] theorem State.setStone_bw (s : State) (n : Nat) (f : Stone → Stone) : (s.setStone n f).bw = s.bw := rfl
@[simp] theorem State.setStone_sckOwed (s : State) (n : Nat) (f : Stone → Stone) : (s.setStone n f).sckOwed = s.sckOwed := rfl
@[simp] theorem State.setStone_events (s : State) (n : Nat) (f : Stone → Stone) : (s.setStone n f).events = s.events := rfl
@[simp] theorem State.setStone_cycle (s : State) (n : Nat) (f : Stone → Stone) : (s.setStone n f).cycle = s.cycle := rfl
@[simp] theorem State.setStone_free (s : State) (n : Nat) (f : Stone → Stone) : (s.setStone n f).free = s.free := rfl
@[simp] theorem State.setStone_reg (s : State) (n : Nat) (f : Stone → Stone) (q : Reg) (x : Nat) : (s.setStone n f).reg q x = s.reg q x := rfl
@[simp] theorem State.setStone_fld (s : State) (n : Nat) (f : Stone → Stone) (q : Fld) (x : Nat) : (s.setStone n f).fld q x = s.fld q x := rfl
@[simp] theorem State.setStone_flag (s : State) (n : Nat) (f : Stone → Stone) (q : Fld) (x : Nat) : (s.setStone n f).flag q x = s.flag q x := rfl

@[simp] theorem State.setRun_pending (s : State) (n : Nat) (f : Run → Run) : (s.setRun n f).pending = s.pending := rfl
@[simp] theorem State.setRun_regs (s : State) (n : Nat) (f : Run → Run) : (s.setRun n f).regs = s.regs := rfl
@[simp] theorem State.setRun_mem (s : State) (n : Nat) (f : Run → Run) : (s.setRun n f).mem = s.mem := rfl
@[simp] theorem State.setRun_xlt (s : State) (n : Nat) (f : Run → Run) : (s.setRun n f).xlt = s.xlt := rfl
@[simp] theorem State.setRun_gran (s : State) (n : Nat) (f : Run → Run) : (s.setRun n f).gran = s.gran := rfl
@[simp] theorem State.setRun_dram (s : State) (n : Nat) (f : Run → Run) : (s.setRun n f).dram = s.dram := rfl
@[simp] theorem State.setRun_msix (s : State) (n : Nat) (f : Run → Run) : (s.setRun n f).msix = s.msix := rfl
@[simp] theorem State.setRun_queues (s : State) (n : Nat) (f : Run → Run) : (s.setRun n f).queues = s.queues := rfl
@[simp] theorem State.setRun_issued (s : State) (n : Nat) (f : Run → Run) : (s.setRun n f).issued = s.issued := rfl
@[simp] theorem State.setRun_tails (s : State) (n : Nat) (f : Run → Run) : (s.setRun n f).tails = s.tails := rfl
@[simp] theorem State.setRun_fan (s : State) (n : Nat) (f : Run → Run) : (s.setRun n f).fan = s.fan := rfl
@[simp] theorem State.setRun_mpd (s : State) (n : Nat) (f : Run → Run) : (s.setRun n f).mpd = s.mpd := rfl
@[simp] theorem State.setRun_vols (s : State) (n : Nat) (f : Run → Run) : (s.setRun n f).vols = s.vols := rfl
@[simp] theorem State.setRun_units (s : State) (n : Nat) (f : Run → Run) : (s.setRun n f).units = s.units := rfl
@[simp] theorem State.setRun_keys (s : State) (n : Nat) (f : Run → Run) : (s.setRun n f).keys = s.keys := rfl
@[simp] theorem State.setRun_keyOp (s : State) (n : Nat) (f : Run → Run) : (s.setRun n f).keyOp = s.keyOp := rfl
@[simp] theorem State.setRun_restoreBuf (s : State) (n : Nat) (f : Run → Run) : (s.setRun n f).restoreBuf = s.restoreBuf := rfl
@[simp] theorem State.setRun_resets (s : State) (n : Nat) (f : Run → Run) : (s.setRun n f).resets = s.resets := rfl
@[simp] theorem State.setRun_halted (s : State) (n : Nat) (f : Run → Run) : (s.setRun n f).halted = s.halted := rfl
@[simp] theorem State.setRun_haltMsgs (s : State) (n : Nat) (f : Run → Run) : (s.setRun n f).haltMsgs = s.haltMsgs := rfl
@[simp] theorem State.setRun_traceLog (s : State) (n : Nat) (f : Run → Run) : (s.setRun n f).traceLog = s.traceLog := rfl
@[simp] theorem State.setRun_fatal (s : State) (n : Nat) (f : Run → Run) : (s.setRun n f).fatal = s.fatal := rfl
@[simp] theorem State.setRun_readOnly (s : State) (n : Nat) (f : Run → Run) : (s.setRun n f).readOnly = s.readOnly := rfl
@[simp] theorem State.setRun_otp (s : State) (n : Nat) (f : Run → Run) : (s.setRun n f).otp = s.otp := rfl
@[simp] theorem State.setRun_otpOp (s : State) (n : Nat) (f : Run → Run) : (s.setRun n f).otpOp = s.otpOp := rfl
@[simp] theorem State.setRun_boot (s : State) (n : Nat) (f : Run → Run) : (s.setRun n f).boot = s.boot := rfl
@[simp] theorem State.setRun_bar4 (s : State) (n : Nat) (f : Run → Run) : (s.setRun n f).bar4 = s.bar4 := rfl
@[simp] theorem State.setRun_answers (s : State) (n : Nat) (f : Run → Run) : (s.setRun n f).answers = s.answers := rfl
@[simp] theorem State.setRun_bw (s : State) (n : Nat) (f : Run → Run) : (s.setRun n f).bw = s.bw := rfl
@[simp] theorem State.setRun_sckOwed (s : State) (n : Nat) (f : Run → Run) : (s.setRun n f).sckOwed = s.sckOwed := rfl
@[simp] theorem State.setRun_events (s : State) (n : Nat) (f : Run → Run) : (s.setRun n f).events = s.events := rfl
@[simp] theorem State.setRun_cycle (s : State) (n : Nat) (f : Run → Run) : (s.setRun n f).cycle = s.cycle := rfl
@[simp] theorem State.setRun_free (s : State) (n : Nat) (f : Run → Run) : (s.setRun n f).free = s.free := rfl
@[simp] theorem State.setRun_reg (s : State) (n : Nat) (f : Run → Run) (q : Reg) (x : Nat) : (s.setRun n f).reg q x = s.reg q x := rfl
@[simp] theorem State.setRun_fld (s : State) (n : Nat) (f : Run → Run) (q : Fld) (x : Nat) : (s.setRun n f).fld q x = s.fld q x := rfl
@[simp] theorem State.setRun_flag (s : State) (n : Nat) (f : Run → Run) (q : Fld) (x : Nat) : (s.setRun n f).flag q x = s.flag q x := rfl

@[simp] theorem State.setCtx_pending (s : State) (n : Nat) (c : Option TollCtx) : (s.setCtx n c).pending = s.pending := rfl
@[simp] theorem State.setCtx_regs (s : State) (n : Nat) (c : Option TollCtx) : (s.setCtx n c).regs = s.regs := rfl
@[simp] theorem State.setCtx_mem (s : State) (n : Nat) (c : Option TollCtx) : (s.setCtx n c).mem = s.mem := rfl
@[simp] theorem State.setCtx_xlt (s : State) (n : Nat) (c : Option TollCtx) : (s.setCtx n c).xlt = s.xlt := rfl
@[simp] theorem State.setCtx_gran (s : State) (n : Nat) (c : Option TollCtx) : (s.setCtx n c).gran = s.gran := rfl
@[simp] theorem State.setCtx_dram (s : State) (n : Nat) (c : Option TollCtx) : (s.setCtx n c).dram = s.dram := rfl
@[simp] theorem State.setCtx_msix (s : State) (n : Nat) (c : Option TollCtx) : (s.setCtx n c).msix = s.msix := rfl
@[simp] theorem State.setCtx_queues (s : State) (n : Nat) (c : Option TollCtx) : (s.setCtx n c).queues = s.queues := rfl
@[simp] theorem State.setCtx_issued (s : State) (n : Nat) (c : Option TollCtx) : (s.setCtx n c).issued = s.issued := rfl
@[simp] theorem State.setCtx_tails (s : State) (n : Nat) (c : Option TollCtx) : (s.setCtx n c).tails = s.tails := rfl
@[simp] theorem State.setCtx_fan (s : State) (n : Nat) (c : Option TollCtx) : (s.setCtx n c).fan = s.fan := rfl
@[simp] theorem State.setCtx_pipe (s : State) (n : Nat) (c : Option TollCtx) : (s.setCtx n c).pipe = s.pipe := rfl
@[simp] theorem State.setCtx_mpd (s : State) (n : Nat) (c : Option TollCtx) : (s.setCtx n c).mpd = s.mpd := rfl
@[simp] theorem State.setCtx_vols (s : State) (n : Nat) (c : Option TollCtx) : (s.setCtx n c).vols = s.vols := rfl
@[simp] theorem State.setCtx_keys (s : State) (n : Nat) (c : Option TollCtx) : (s.setCtx n c).keys = s.keys := rfl
@[simp] theorem State.setCtx_keyOp (s : State) (n : Nat) (c : Option TollCtx) : (s.setCtx n c).keyOp = s.keyOp := rfl
@[simp] theorem State.setCtx_restoreBuf (s : State) (n : Nat) (c : Option TollCtx) : (s.setCtx n c).restoreBuf = s.restoreBuf := rfl
@[simp] theorem State.setCtx_resets (s : State) (n : Nat) (c : Option TollCtx) : (s.setCtx n c).resets = s.resets := rfl
@[simp] theorem State.setCtx_halted (s : State) (n : Nat) (c : Option TollCtx) : (s.setCtx n c).halted = s.halted := rfl
@[simp] theorem State.setCtx_haltMsgs (s : State) (n : Nat) (c : Option TollCtx) : (s.setCtx n c).haltMsgs = s.haltMsgs := rfl
@[simp] theorem State.setCtx_traceLog (s : State) (n : Nat) (c : Option TollCtx) : (s.setCtx n c).traceLog = s.traceLog := rfl
@[simp] theorem State.setCtx_fatal (s : State) (n : Nat) (c : Option TollCtx) : (s.setCtx n c).fatal = s.fatal := rfl
@[simp] theorem State.setCtx_readOnly (s : State) (n : Nat) (c : Option TollCtx) : (s.setCtx n c).readOnly = s.readOnly := rfl
@[simp] theorem State.setCtx_otp (s : State) (n : Nat) (c : Option TollCtx) : (s.setCtx n c).otp = s.otp := rfl
@[simp] theorem State.setCtx_otpOp (s : State) (n : Nat) (c : Option TollCtx) : (s.setCtx n c).otpOp = s.otpOp := rfl
@[simp] theorem State.setCtx_boot (s : State) (n : Nat) (c : Option TollCtx) : (s.setCtx n c).boot = s.boot := rfl
@[simp] theorem State.setCtx_bar4 (s : State) (n : Nat) (c : Option TollCtx) : (s.setCtx n c).bar4 = s.bar4 := rfl
@[simp] theorem State.setCtx_answers (s : State) (n : Nat) (c : Option TollCtx) : (s.setCtx n c).answers = s.answers := rfl
@[simp] theorem State.setCtx_bw (s : State) (n : Nat) (c : Option TollCtx) : (s.setCtx n c).bw = s.bw := rfl
@[simp] theorem State.setCtx_sckOwed (s : State) (n : Nat) (c : Option TollCtx) : (s.setCtx n c).sckOwed = s.sckOwed := rfl
@[simp] theorem State.setCtx_events (s : State) (n : Nat) (c : Option TollCtx) : (s.setCtx n c).events = s.events := rfl
@[simp] theorem State.setCtx_cycle (s : State) (n : Nat) (c : Option TollCtx) : (s.setCtx n c).cycle = s.cycle := rfl
@[simp] theorem State.setCtx_free (s : State) (n : Nat) (c : Option TollCtx) : (s.setCtx n c).free = s.free := rfl
@[simp] theorem State.setCtx_reg (s : State) (n : Nat) (c : Option TollCtx) (q : Reg) (x : Nat) : (s.setCtx n c).reg q x = s.reg q x := rfl
@[simp] theorem State.setCtx_fld (s : State) (n : Nat) (c : Option TollCtx) (q : Fld) (x : Nat) : (s.setCtx n c).fld q x = s.fld q x := rfl
@[simp] theorem State.setCtx_flag (s : State) (n : Nat) (c : Option TollCtx) (q : Fld) (x : Nat) : (s.setCtx n c).flag q x = s.flag q x := rfl

@[simp] theorem State.setQuern_pending (s : State) (n : Nat) (c : Option Quern) : (s.setQuern n c).pending = s.pending := rfl
@[simp] theorem State.setQuern_regs (s : State) (n : Nat) (c : Option Quern) : (s.setQuern n c).regs = s.regs := rfl
@[simp] theorem State.setQuern_mem (s : State) (n : Nat) (c : Option Quern) : (s.setQuern n c).mem = s.mem := rfl
@[simp] theorem State.setQuern_xlt (s : State) (n : Nat) (c : Option Quern) : (s.setQuern n c).xlt = s.xlt := rfl
@[simp] theorem State.setQuern_gran (s : State) (n : Nat) (c : Option Quern) : (s.setQuern n c).gran = s.gran := rfl
@[simp] theorem State.setQuern_dram (s : State) (n : Nat) (c : Option Quern) : (s.setQuern n c).dram = s.dram := rfl
@[simp] theorem State.setQuern_msix (s : State) (n : Nat) (c : Option Quern) : (s.setQuern n c).msix = s.msix := rfl
@[simp] theorem State.setQuern_queues (s : State) (n : Nat) (c : Option Quern) : (s.setQuern n c).queues = s.queues := rfl
@[simp] theorem State.setQuern_issued (s : State) (n : Nat) (c : Option Quern) : (s.setQuern n c).issued = s.issued := rfl
@[simp] theorem State.setQuern_tails (s : State) (n : Nat) (c : Option Quern) : (s.setQuern n c).tails = s.tails := rfl
@[simp] theorem State.setQuern_fan (s : State) (n : Nat) (c : Option Quern) : (s.setQuern n c).fan = s.fan := rfl
@[simp] theorem State.setQuern_pipe (s : State) (n : Nat) (c : Option Quern) : (s.setQuern n c).pipe = s.pipe := rfl
@[simp] theorem State.setQuern_mpd (s : State) (n : Nat) (c : Option Quern) : (s.setQuern n c).mpd = s.mpd := rfl
@[simp] theorem State.setQuern_vols (s : State) (n : Nat) (c : Option Quern) : (s.setQuern n c).vols = s.vols := rfl
@[simp] theorem State.setQuern_keys (s : State) (n : Nat) (c : Option Quern) : (s.setQuern n c).keys = s.keys := rfl
@[simp] theorem State.setQuern_keyOp (s : State) (n : Nat) (c : Option Quern) : (s.setQuern n c).keyOp = s.keyOp := rfl
@[simp] theorem State.setQuern_restoreBuf (s : State) (n : Nat) (c : Option Quern) : (s.setQuern n c).restoreBuf = s.restoreBuf := rfl
@[simp] theorem State.setQuern_resets (s : State) (n : Nat) (c : Option Quern) : (s.setQuern n c).resets = s.resets := rfl
@[simp] theorem State.setQuern_halted (s : State) (n : Nat) (c : Option Quern) : (s.setQuern n c).halted = s.halted := rfl
@[simp] theorem State.setQuern_haltMsgs (s : State) (n : Nat) (c : Option Quern) : (s.setQuern n c).haltMsgs = s.haltMsgs := rfl
@[simp] theorem State.setQuern_traceLog (s : State) (n : Nat) (c : Option Quern) : (s.setQuern n c).traceLog = s.traceLog := rfl
@[simp] theorem State.setQuern_fatal (s : State) (n : Nat) (c : Option Quern) : (s.setQuern n c).fatal = s.fatal := rfl
@[simp] theorem State.setQuern_readOnly (s : State) (n : Nat) (c : Option Quern) : (s.setQuern n c).readOnly = s.readOnly := rfl
@[simp] theorem State.setQuern_otp (s : State) (n : Nat) (c : Option Quern) : (s.setQuern n c).otp = s.otp := rfl
@[simp] theorem State.setQuern_otpOp (s : State) (n : Nat) (c : Option Quern) : (s.setQuern n c).otpOp = s.otpOp := rfl
@[simp] theorem State.setQuern_boot (s : State) (n : Nat) (c : Option Quern) : (s.setQuern n c).boot = s.boot := rfl
@[simp] theorem State.setQuern_bar4 (s : State) (n : Nat) (c : Option Quern) : (s.setQuern n c).bar4 = s.bar4 := rfl
@[simp] theorem State.setQuern_answers (s : State) (n : Nat) (c : Option Quern) : (s.setQuern n c).answers = s.answers := rfl
@[simp] theorem State.setQuern_bw (s : State) (n : Nat) (c : Option Quern) : (s.setQuern n c).bw = s.bw := rfl
@[simp] theorem State.setQuern_sckOwed (s : State) (n : Nat) (c : Option Quern) : (s.setQuern n c).sckOwed = s.sckOwed := rfl
@[simp] theorem State.setQuern_events (s : State) (n : Nat) (c : Option Quern) : (s.setQuern n c).events = s.events := rfl
@[simp] theorem State.setQuern_cycle (s : State) (n : Nat) (c : Option Quern) : (s.setQuern n c).cycle = s.cycle := rfl
@[simp] theorem State.setQuern_free (s : State) (n : Nat) (c : Option Quern) : (s.setQuern n c).free = s.free := rfl
@[simp] theorem State.setQuern_reg (s : State) (n : Nat) (c : Option Quern) (q : Reg) (x : Nat) : (s.setQuern n c).reg q x = s.reg q x := rfl
@[simp] theorem State.setQuern_fld (s : State) (n : Nat) (c : Option Quern) (q : Fld) (x : Nat) : (s.setQuern n c).fld q x = s.fld q x := rfl
@[simp] theorem State.setQuern_flag (s : State) (n : Nat) (c : Option Quern) (q : Fld) (x : Nat) : (s.setQuern n c).flag q x = s.flag q x := rfl

@[simp] theorem State.setSlu_pending (s : State) (n : Nat) (f : Chan → Chan) : (s.setSlu n f).pending = s.pending := rfl
@[simp] theorem State.setSlu_regs (s : State) (n : Nat) (f : Chan → Chan) : (s.setSlu n f).regs = s.regs := rfl
@[simp] theorem State.setSlu_mem (s : State) (n : Nat) (f : Chan → Chan) : (s.setSlu n f).mem = s.mem := rfl
@[simp] theorem State.setSlu_xlt (s : State) (n : Nat) (f : Chan → Chan) : (s.setSlu n f).xlt = s.xlt := rfl
@[simp] theorem State.setSlu_gran (s : State) (n : Nat) (f : Chan → Chan) : (s.setSlu n f).gran = s.gran := rfl
@[simp] theorem State.setSlu_dram (s : State) (n : Nat) (f : Chan → Chan) : (s.setSlu n f).dram = s.dram := rfl
@[simp] theorem State.setSlu_msix (s : State) (n : Nat) (f : Chan → Chan) : (s.setSlu n f).msix = s.msix := rfl
@[simp] theorem State.setSlu_queues (s : State) (n : Nat) (f : Chan → Chan) : (s.setSlu n f).queues = s.queues := rfl
@[simp] theorem State.setSlu_issued (s : State) (n : Nat) (f : Chan → Chan) : (s.setSlu n f).issued = s.issued := rfl
@[simp] theorem State.setSlu_tails (s : State) (n : Nat) (f : Chan → Chan) : (s.setSlu n f).tails = s.tails := rfl
@[simp] theorem State.setSlu_fan (s : State) (n : Nat) (f : Chan → Chan) : (s.setSlu n f).fan = s.fan := rfl
@[simp] theorem State.setSlu_pipe (s : State) (n : Nat) (f : Chan → Chan) : (s.setSlu n f).pipe = s.pipe := rfl
@[simp] theorem State.setSlu_mpd (s : State) (n : Nat) (f : Chan → Chan) : (s.setSlu n f).mpd = s.mpd := rfl
@[simp] theorem State.setSlu_vols (s : State) (n : Nat) (f : Chan → Chan) : (s.setSlu n f).vols = s.vols := rfl
@[simp] theorem State.setSlu_keys (s : State) (n : Nat) (f : Chan → Chan) : (s.setSlu n f).keys = s.keys := rfl
@[simp] theorem State.setSlu_keyOp (s : State) (n : Nat) (f : Chan → Chan) : (s.setSlu n f).keyOp = s.keyOp := rfl
@[simp] theorem State.setSlu_restoreBuf (s : State) (n : Nat) (f : Chan → Chan) : (s.setSlu n f).restoreBuf = s.restoreBuf := rfl
@[simp] theorem State.setSlu_resets (s : State) (n : Nat) (f : Chan → Chan) : (s.setSlu n f).resets = s.resets := rfl
@[simp] theorem State.setSlu_halted (s : State) (n : Nat) (f : Chan → Chan) : (s.setSlu n f).halted = s.halted := rfl
@[simp] theorem State.setSlu_haltMsgs (s : State) (n : Nat) (f : Chan → Chan) : (s.setSlu n f).haltMsgs = s.haltMsgs := rfl
@[simp] theorem State.setSlu_traceLog (s : State) (n : Nat) (f : Chan → Chan) : (s.setSlu n f).traceLog = s.traceLog := rfl
@[simp] theorem State.setSlu_fatal (s : State) (n : Nat) (f : Chan → Chan) : (s.setSlu n f).fatal = s.fatal := rfl
@[simp] theorem State.setSlu_readOnly (s : State) (n : Nat) (f : Chan → Chan) : (s.setSlu n f).readOnly = s.readOnly := rfl
@[simp] theorem State.setSlu_otp (s : State) (n : Nat) (f : Chan → Chan) : (s.setSlu n f).otp = s.otp := rfl
@[simp] theorem State.setSlu_otpOp (s : State) (n : Nat) (f : Chan → Chan) : (s.setSlu n f).otpOp = s.otpOp := rfl
@[simp] theorem State.setSlu_boot (s : State) (n : Nat) (f : Chan → Chan) : (s.setSlu n f).boot = s.boot := rfl
@[simp] theorem State.setSlu_bar4 (s : State) (n : Nat) (f : Chan → Chan) : (s.setSlu n f).bar4 = s.bar4 := rfl
@[simp] theorem State.setSlu_answers (s : State) (n : Nat) (f : Chan → Chan) : (s.setSlu n f).answers = s.answers := rfl
@[simp] theorem State.setSlu_bw (s : State) (n : Nat) (f : Chan → Chan) : (s.setSlu n f).bw = s.bw := rfl
@[simp] theorem State.setSlu_sckOwed (s : State) (n : Nat) (f : Chan → Chan) : (s.setSlu n f).sckOwed = s.sckOwed := rfl
@[simp] theorem State.setSlu_events (s : State) (n : Nat) (f : Chan → Chan) : (s.setSlu n f).events = s.events := rfl
@[simp] theorem State.setSlu_cycle (s : State) (n : Nat) (f : Chan → Chan) : (s.setSlu n f).cycle = s.cycle := rfl
@[simp] theorem State.setSlu_free (s : State) (n : Nat) (f : Chan → Chan) : (s.setSlu n f).free = s.free := rfl
@[simp] theorem State.setSlu_reg (s : State) (n : Nat) (f : Chan → Chan) (q : Reg) (x : Nat) : (s.setSlu n f).reg q x = s.reg q x := rfl
@[simp] theorem State.setSlu_fld (s : State) (n : Nat) (f : Chan → Chan) (q : Fld) (x : Nat) : (s.setSlu n f).fld q x = s.fld q x := rfl
@[simp] theorem State.setSlu_flag (s : State) (n : Nat) (f : Chan → Chan) (q : Fld) (x : Nat) : (s.setSlu n f).flag q x = s.flag q x := rfl

@[simp] theorem State.setDrive_pending (s : State) (n : Nat) (f : Drive → Drive) : (s.setDrive n f).pending = s.pending := rfl
@[simp] theorem State.setDrive_regs (s : State) (n : Nat) (f : Drive → Drive) : (s.setDrive n f).regs = s.regs := rfl
@[simp] theorem State.setDrive_mem (s : State) (n : Nat) (f : Drive → Drive) : (s.setDrive n f).mem = s.mem := rfl
@[simp] theorem State.setDrive_xlt (s : State) (n : Nat) (f : Drive → Drive) : (s.setDrive n f).xlt = s.xlt := rfl
@[simp] theorem State.setDrive_gran (s : State) (n : Nat) (f : Drive → Drive) : (s.setDrive n f).gran = s.gran := rfl
@[simp] theorem State.setDrive_dram (s : State) (n : Nat) (f : Drive → Drive) : (s.setDrive n f).dram = s.dram := rfl
@[simp] theorem State.setDrive_msix (s : State) (n : Nat) (f : Drive → Drive) : (s.setDrive n f).msix = s.msix := rfl
@[simp] theorem State.setDrive_queues (s : State) (n : Nat) (f : Drive → Drive) : (s.setDrive n f).queues = s.queues := rfl
@[simp] theorem State.setDrive_issued (s : State) (n : Nat) (f : Drive → Drive) : (s.setDrive n f).issued = s.issued := rfl
@[simp] theorem State.setDrive_tails (s : State) (n : Nat) (f : Drive → Drive) : (s.setDrive n f).tails = s.tails := rfl
@[simp] theorem State.setDrive_fan (s : State) (n : Nat) (f : Drive → Drive) : (s.setDrive n f).fan = s.fan := rfl
@[simp] theorem State.setDrive_pipe (s : State) (n : Nat) (f : Drive → Drive) : (s.setDrive n f).pipe = s.pipe := rfl
@[simp] theorem State.setDrive_mpd (s : State) (n : Nat) (f : Drive → Drive) : (s.setDrive n f).mpd = s.mpd := rfl
@[simp] theorem State.setDrive_units (s : State) (n : Nat) (f : Drive → Drive) : (s.setDrive n f).units = s.units := rfl
@[simp] theorem State.setDrive_keys (s : State) (n : Nat) (f : Drive → Drive) : (s.setDrive n f).keys = s.keys := rfl
@[simp] theorem State.setDrive_keyOp (s : State) (n : Nat) (f : Drive → Drive) : (s.setDrive n f).keyOp = s.keyOp := rfl
@[simp] theorem State.setDrive_restoreBuf (s : State) (n : Nat) (f : Drive → Drive) : (s.setDrive n f).restoreBuf = s.restoreBuf := rfl
@[simp] theorem State.setDrive_resets (s : State) (n : Nat) (f : Drive → Drive) : (s.setDrive n f).resets = s.resets := rfl
@[simp] theorem State.setDrive_halted (s : State) (n : Nat) (f : Drive → Drive) : (s.setDrive n f).halted = s.halted := rfl
@[simp] theorem State.setDrive_haltMsgs (s : State) (n : Nat) (f : Drive → Drive) : (s.setDrive n f).haltMsgs = s.haltMsgs := rfl
@[simp] theorem State.setDrive_traceLog (s : State) (n : Nat) (f : Drive → Drive) : (s.setDrive n f).traceLog = s.traceLog := rfl
@[simp] theorem State.setDrive_fatal (s : State) (n : Nat) (f : Drive → Drive) : (s.setDrive n f).fatal = s.fatal := rfl
@[simp] theorem State.setDrive_readOnly (s : State) (n : Nat) (f : Drive → Drive) : (s.setDrive n f).readOnly = s.readOnly := rfl
@[simp] theorem State.setDrive_otp (s : State) (n : Nat) (f : Drive → Drive) : (s.setDrive n f).otp = s.otp := rfl
@[simp] theorem State.setDrive_otpOp (s : State) (n : Nat) (f : Drive → Drive) : (s.setDrive n f).otpOp = s.otpOp := rfl
@[simp] theorem State.setDrive_boot (s : State) (n : Nat) (f : Drive → Drive) : (s.setDrive n f).boot = s.boot := rfl
@[simp] theorem State.setDrive_bar4 (s : State) (n : Nat) (f : Drive → Drive) : (s.setDrive n f).bar4 = s.bar4 := rfl
@[simp] theorem State.setDrive_answers (s : State) (n : Nat) (f : Drive → Drive) : (s.setDrive n f).answers = s.answers := rfl
@[simp] theorem State.setDrive_bw (s : State) (n : Nat) (f : Drive → Drive) : (s.setDrive n f).bw = s.bw := rfl
@[simp] theorem State.setDrive_sckOwed (s : State) (n : Nat) (f : Drive → Drive) : (s.setDrive n f).sckOwed = s.sckOwed := rfl
@[simp] theorem State.setDrive_events (s : State) (n : Nat) (f : Drive → Drive) : (s.setDrive n f).events = s.events := rfl
@[simp] theorem State.setDrive_cycle (s : State) (n : Nat) (f : Drive → Drive) : (s.setDrive n f).cycle = s.cycle := rfl
@[simp] theorem State.setDrive_free (s : State) (n : Nat) (f : Drive → Drive) : (s.setDrive n f).free = s.free := rfl
@[simp] theorem State.setDrive_reg (s : State) (n : Nat) (f : Drive → Drive) (q : Reg) (x : Nat) : (s.setDrive n f).reg q x = s.reg q x := rfl
@[simp] theorem State.setDrive_fld (s : State) (n : Nat) (f : Drive → Drive) (q : Fld) (x : Nat) : (s.setDrive n f).fld q x = s.fld q x := rfl
@[simp] theorem State.setDrive_flag (s : State) (n : Nat) (f : Drive → Drive) (q : Fld) (x : Nat) : (s.setDrive n f).flag q x = s.flag q x := rfl

@[simp] theorem State.setVolOp_pending (s : State) (n : Nat) (o : Option VolOp) : (s.setVolOp n o).pending = s.pending := rfl
@[simp] theorem State.setVolOp_regs (s : State) (n : Nat) (o : Option VolOp) : (s.setVolOp n o).regs = s.regs := rfl
@[simp] theorem State.setVolOp_mem (s : State) (n : Nat) (o : Option VolOp) : (s.setVolOp n o).mem = s.mem := rfl
@[simp] theorem State.setVolOp_xlt (s : State) (n : Nat) (o : Option VolOp) : (s.setVolOp n o).xlt = s.xlt := rfl
@[simp] theorem State.setVolOp_gran (s : State) (n : Nat) (o : Option VolOp) : (s.setVolOp n o).gran = s.gran := rfl
@[simp] theorem State.setVolOp_dram (s : State) (n : Nat) (o : Option VolOp) : (s.setVolOp n o).dram = s.dram := rfl
@[simp] theorem State.setVolOp_msix (s : State) (n : Nat) (o : Option VolOp) : (s.setVolOp n o).msix = s.msix := rfl
@[simp] theorem State.setVolOp_queues (s : State) (n : Nat) (o : Option VolOp) : (s.setVolOp n o).queues = s.queues := rfl
@[simp] theorem State.setVolOp_issued (s : State) (n : Nat) (o : Option VolOp) : (s.setVolOp n o).issued = s.issued := rfl
@[simp] theorem State.setVolOp_tails (s : State) (n : Nat) (o : Option VolOp) : (s.setVolOp n o).tails = s.tails := rfl
@[simp] theorem State.setVolOp_fan (s : State) (n : Nat) (o : Option VolOp) : (s.setVolOp n o).fan = s.fan := rfl
@[simp] theorem State.setVolOp_pipe (s : State) (n : Nat) (o : Option VolOp) : (s.setVolOp n o).pipe = s.pipe := rfl
@[simp] theorem State.setVolOp_mpd (s : State) (n : Nat) (o : Option VolOp) : (s.setVolOp n o).mpd = s.mpd := rfl
@[simp] theorem State.setVolOp_units (s : State) (n : Nat) (o : Option VolOp) : (s.setVolOp n o).units = s.units := rfl
@[simp] theorem State.setVolOp_keys (s : State) (n : Nat) (o : Option VolOp) : (s.setVolOp n o).keys = s.keys := rfl
@[simp] theorem State.setVolOp_keyOp (s : State) (n : Nat) (o : Option VolOp) : (s.setVolOp n o).keyOp = s.keyOp := rfl
@[simp] theorem State.setVolOp_restoreBuf (s : State) (n : Nat) (o : Option VolOp) : (s.setVolOp n o).restoreBuf = s.restoreBuf := rfl
@[simp] theorem State.setVolOp_resets (s : State) (n : Nat) (o : Option VolOp) : (s.setVolOp n o).resets = s.resets := rfl
@[simp] theorem State.setVolOp_halted (s : State) (n : Nat) (o : Option VolOp) : (s.setVolOp n o).halted = s.halted := rfl
@[simp] theorem State.setVolOp_haltMsgs (s : State) (n : Nat) (o : Option VolOp) : (s.setVolOp n o).haltMsgs = s.haltMsgs := rfl
@[simp] theorem State.setVolOp_traceLog (s : State) (n : Nat) (o : Option VolOp) : (s.setVolOp n o).traceLog = s.traceLog := rfl
@[simp] theorem State.setVolOp_fatal (s : State) (n : Nat) (o : Option VolOp) : (s.setVolOp n o).fatal = s.fatal := rfl
@[simp] theorem State.setVolOp_readOnly (s : State) (n : Nat) (o : Option VolOp) : (s.setVolOp n o).readOnly = s.readOnly := rfl
@[simp] theorem State.setVolOp_otp (s : State) (n : Nat) (o : Option VolOp) : (s.setVolOp n o).otp = s.otp := rfl
@[simp] theorem State.setVolOp_otpOp (s : State) (n : Nat) (o : Option VolOp) : (s.setVolOp n o).otpOp = s.otpOp := rfl
@[simp] theorem State.setVolOp_boot (s : State) (n : Nat) (o : Option VolOp) : (s.setVolOp n o).boot = s.boot := rfl
@[simp] theorem State.setVolOp_bar4 (s : State) (n : Nat) (o : Option VolOp) : (s.setVolOp n o).bar4 = s.bar4 := rfl
@[simp] theorem State.setVolOp_answers (s : State) (n : Nat) (o : Option VolOp) : (s.setVolOp n o).answers = s.answers := rfl
@[simp] theorem State.setVolOp_bw (s : State) (n : Nat) (o : Option VolOp) : (s.setVolOp n o).bw = s.bw := rfl
@[simp] theorem State.setVolOp_sckOwed (s : State) (n : Nat) (o : Option VolOp) : (s.setVolOp n o).sckOwed = s.sckOwed := rfl
@[simp] theorem State.setVolOp_events (s : State) (n : Nat) (o : Option VolOp) : (s.setVolOp n o).events = s.events := rfl
@[simp] theorem State.setVolOp_cycle (s : State) (n : Nat) (o : Option VolOp) : (s.setVolOp n o).cycle = s.cycle := rfl
@[simp] theorem State.setVolOp_free (s : State) (n : Nat) (o : Option VolOp) : (s.setVolOp n o).free = s.free := rfl
@[simp] theorem State.setVolOp_reg (s : State) (n : Nat) (o : Option VolOp) (q : Reg) (x : Nat) : (s.setVolOp n o).reg q x = s.reg q x := rfl
@[simp] theorem State.setVolOp_fld (s : State) (n : Nat) (o : Option VolOp) (q : Fld) (x : Nat) : (s.setVolOp n o).fld q x = s.fld q x := rfl
@[simp] theorem State.setVolOp_flag (s : State) (n : Nat) (o : Option VolOp) (q : Fld) (x : Nat) : (s.setVolOp n o).flag q x = s.flag q x := rfl

@[simp] theorem State.setTxn_pending (s : State) (n : Nat) (f : Txn → Txn) : (s.setTxn n f).pending = s.pending := rfl
@[simp] theorem State.setTxn_regs (s : State) (n : Nat) (f : Txn → Txn) : (s.setTxn n f).regs = s.regs := rfl
@[simp] theorem State.setTxn_mem (s : State) (n : Nat) (f : Txn → Txn) : (s.setTxn n f).mem = s.mem := rfl
@[simp] theorem State.setTxn_xlt (s : State) (n : Nat) (f : Txn → Txn) : (s.setTxn n f).xlt = s.xlt := rfl
@[simp] theorem State.setTxn_gran (s : State) (n : Nat) (f : Txn → Txn) : (s.setTxn n f).gran = s.gran := rfl
@[simp] theorem State.setTxn_dram (s : State) (n : Nat) (f : Txn → Txn) : (s.setTxn n f).dram = s.dram := rfl
@[simp] theorem State.setTxn_msix (s : State) (n : Nat) (f : Txn → Txn) : (s.setTxn n f).msix = s.msix := rfl
@[simp] theorem State.setTxn_queues (s : State) (n : Nat) (f : Txn → Txn) : (s.setTxn n f).queues = s.queues := rfl
@[simp] theorem State.setTxn_issued (s : State) (n : Nat) (f : Txn → Txn) : (s.setTxn n f).issued = s.issued := rfl
@[simp] theorem State.setTxn_tails (s : State) (n : Nat) (f : Txn → Txn) : (s.setTxn n f).tails = s.tails := rfl
@[simp] theorem State.setTxn_fan (s : State) (n : Nat) (f : Txn → Txn) : (s.setTxn n f).fan = s.fan := rfl
@[simp] theorem State.setTxn_pipe (s : State) (n : Nat) (f : Txn → Txn) : (s.setTxn n f).pipe = s.pipe := rfl
@[simp] theorem State.setTxn_vols (s : State) (n : Nat) (f : Txn → Txn) : (s.setTxn n f).vols = s.vols := rfl
@[simp] theorem State.setTxn_units (s : State) (n : Nat) (f : Txn → Txn) : (s.setTxn n f).units = s.units := rfl
@[simp] theorem State.setTxn_keys (s : State) (n : Nat) (f : Txn → Txn) : (s.setTxn n f).keys = s.keys := rfl
@[simp] theorem State.setTxn_keyOp (s : State) (n : Nat) (f : Txn → Txn) : (s.setTxn n f).keyOp = s.keyOp := rfl
@[simp] theorem State.setTxn_restoreBuf (s : State) (n : Nat) (f : Txn → Txn) : (s.setTxn n f).restoreBuf = s.restoreBuf := rfl
@[simp] theorem State.setTxn_resets (s : State) (n : Nat) (f : Txn → Txn) : (s.setTxn n f).resets = s.resets := rfl
@[simp] theorem State.setTxn_halted (s : State) (n : Nat) (f : Txn → Txn) : (s.setTxn n f).halted = s.halted := rfl
@[simp] theorem State.setTxn_haltMsgs (s : State) (n : Nat) (f : Txn → Txn) : (s.setTxn n f).haltMsgs = s.haltMsgs := rfl
@[simp] theorem State.setTxn_traceLog (s : State) (n : Nat) (f : Txn → Txn) : (s.setTxn n f).traceLog = s.traceLog := rfl
@[simp] theorem State.setTxn_fatal (s : State) (n : Nat) (f : Txn → Txn) : (s.setTxn n f).fatal = s.fatal := rfl
@[simp] theorem State.setTxn_readOnly (s : State) (n : Nat) (f : Txn → Txn) : (s.setTxn n f).readOnly = s.readOnly := rfl
@[simp] theorem State.setTxn_otp (s : State) (n : Nat) (f : Txn → Txn) : (s.setTxn n f).otp = s.otp := rfl
@[simp] theorem State.setTxn_otpOp (s : State) (n : Nat) (f : Txn → Txn) : (s.setTxn n f).otpOp = s.otpOp := rfl
@[simp] theorem State.setTxn_boot (s : State) (n : Nat) (f : Txn → Txn) : (s.setTxn n f).boot = s.boot := rfl
@[simp] theorem State.setTxn_bar4 (s : State) (n : Nat) (f : Txn → Txn) : (s.setTxn n f).bar4 = s.bar4 := rfl
@[simp] theorem State.setTxn_answers (s : State) (n : Nat) (f : Txn → Txn) : (s.setTxn n f).answers = s.answers := rfl
@[simp] theorem State.setTxn_bw (s : State) (n : Nat) (f : Txn → Txn) : (s.setTxn n f).bw = s.bw := rfl
@[simp] theorem State.setTxn_sckOwed (s : State) (n : Nat) (f : Txn → Txn) : (s.setTxn n f).sckOwed = s.sckOwed := rfl
@[simp] theorem State.setTxn_events (s : State) (n : Nat) (f : Txn → Txn) : (s.setTxn n f).events = s.events := rfl
@[simp] theorem State.setTxn_cycle (s : State) (n : Nat) (f : Txn → Txn) : (s.setTxn n f).cycle = s.cycle := rfl
@[simp] theorem State.setTxn_free (s : State) (n : Nat) (f : Txn → Txn) : (s.setTxn n f).free = s.free := rfl
@[simp] theorem State.setTxn_reg (s : State) (n : Nat) (f : Txn → Txn) (q : Reg) (x : Nat) : (s.setTxn n f).reg q x = s.reg q x := rfl
@[simp] theorem State.setTxn_fld (s : State) (n : Nat) (f : Txn → Txn) (q : Fld) (x : Nat) : (s.setTxn n f).fld q x = s.fld q x := rfl
@[simp] theorem State.setTxn_flag (s : State) (n : Nat) (f : Txn → Txn) (q : Fld) (x : Nat) : (s.setTxn n f).flag q x = s.flag q x := rfl

@[simp] theorem State.setSlot_pending (s : State) (n : Nat) (k : KeySlot) : (s.setSlot n k).pending = s.pending := rfl
@[simp] theorem State.setSlot_regs (s : State) (n : Nat) (k : KeySlot) : (s.setSlot n k).regs = s.regs := rfl
@[simp] theorem State.setSlot_mem (s : State) (n : Nat) (k : KeySlot) : (s.setSlot n k).mem = s.mem := rfl
@[simp] theorem State.setSlot_xlt (s : State) (n : Nat) (k : KeySlot) : (s.setSlot n k).xlt = s.xlt := rfl
@[simp] theorem State.setSlot_gran (s : State) (n : Nat) (k : KeySlot) : (s.setSlot n k).gran = s.gran := rfl
@[simp] theorem State.setSlot_dram (s : State) (n : Nat) (k : KeySlot) : (s.setSlot n k).dram = s.dram := rfl
@[simp] theorem State.setSlot_msix (s : State) (n : Nat) (k : KeySlot) : (s.setSlot n k).msix = s.msix := rfl
@[simp] theorem State.setSlot_queues (s : State) (n : Nat) (k : KeySlot) : (s.setSlot n k).queues = s.queues := rfl
@[simp] theorem State.setSlot_issued (s : State) (n : Nat) (k : KeySlot) : (s.setSlot n k).issued = s.issued := rfl
@[simp] theorem State.setSlot_tails (s : State) (n : Nat) (k : KeySlot) : (s.setSlot n k).tails = s.tails := rfl
@[simp] theorem State.setSlot_fan (s : State) (n : Nat) (k : KeySlot) : (s.setSlot n k).fan = s.fan := rfl
@[simp] theorem State.setSlot_pipe (s : State) (n : Nat) (k : KeySlot) : (s.setSlot n k).pipe = s.pipe := rfl
@[simp] theorem State.setSlot_mpd (s : State) (n : Nat) (k : KeySlot) : (s.setSlot n k).mpd = s.mpd := rfl
@[simp] theorem State.setSlot_vols (s : State) (n : Nat) (k : KeySlot) : (s.setSlot n k).vols = s.vols := rfl
@[simp] theorem State.setSlot_units (s : State) (n : Nat) (k : KeySlot) : (s.setSlot n k).units = s.units := rfl
@[simp] theorem State.setSlot_keyOp (s : State) (n : Nat) (k : KeySlot) : (s.setSlot n k).keyOp = s.keyOp := rfl
@[simp] theorem State.setSlot_restoreBuf (s : State) (n : Nat) (k : KeySlot) : (s.setSlot n k).restoreBuf = s.restoreBuf := rfl
@[simp] theorem State.setSlot_resets (s : State) (n : Nat) (k : KeySlot) : (s.setSlot n k).resets = s.resets := rfl
@[simp] theorem State.setSlot_halted (s : State) (n : Nat) (k : KeySlot) : (s.setSlot n k).halted = s.halted := rfl
@[simp] theorem State.setSlot_haltMsgs (s : State) (n : Nat) (k : KeySlot) : (s.setSlot n k).haltMsgs = s.haltMsgs := rfl
@[simp] theorem State.setSlot_traceLog (s : State) (n : Nat) (k : KeySlot) : (s.setSlot n k).traceLog = s.traceLog := rfl
@[simp] theorem State.setSlot_fatal (s : State) (n : Nat) (k : KeySlot) : (s.setSlot n k).fatal = s.fatal := rfl
@[simp] theorem State.setSlot_readOnly (s : State) (n : Nat) (k : KeySlot) : (s.setSlot n k).readOnly = s.readOnly := rfl
@[simp] theorem State.setSlot_otp (s : State) (n : Nat) (k : KeySlot) : (s.setSlot n k).otp = s.otp := rfl
@[simp] theorem State.setSlot_otpOp (s : State) (n : Nat) (k : KeySlot) : (s.setSlot n k).otpOp = s.otpOp := rfl
@[simp] theorem State.setSlot_boot (s : State) (n : Nat) (k : KeySlot) : (s.setSlot n k).boot = s.boot := rfl
@[simp] theorem State.setSlot_bar4 (s : State) (n : Nat) (k : KeySlot) : (s.setSlot n k).bar4 = s.bar4 := rfl
@[simp] theorem State.setSlot_answers (s : State) (n : Nat) (k : KeySlot) : (s.setSlot n k).answers = s.answers := rfl
@[simp] theorem State.setSlot_bw (s : State) (n : Nat) (k : KeySlot) : (s.setSlot n k).bw = s.bw := rfl
@[simp] theorem State.setSlot_sckOwed (s : State) (n : Nat) (k : KeySlot) : (s.setSlot n k).sckOwed = s.sckOwed := rfl
@[simp] theorem State.setSlot_events (s : State) (n : Nat) (k : KeySlot) : (s.setSlot n k).events = s.events := rfl
@[simp] theorem State.setSlot_cycle (s : State) (n : Nat) (k : KeySlot) : (s.setSlot n k).cycle = s.cycle := rfl
@[simp] theorem State.setSlot_free (s : State) (n : Nat) (k : KeySlot) : (s.setSlot n k).free = s.free := rfl
@[simp] theorem State.setSlot_reg (s : State) (n : Nat) (k : KeySlot) (q : Reg) (x : Nat) : (s.setSlot n k).reg q x = s.reg q x := rfl
@[simp] theorem State.setSlot_fld (s : State) (n : Nat) (k : KeySlot) (q : Fld) (x : Nat) : (s.setSlot n k).fld q x = s.fld q x := rfl
@[simp] theorem State.setSlot_flag (s : State) (n : Nat) (k : KeySlot) (q : Fld) (x : Nat) : (s.setSlot n k).flag q x = s.flag q x := rfl

@[simp] theorem State.setChan_pending (s : State) (n : Nat) (f : DChan → DChan) : (s.setChan n f).pending = s.pending := rfl
@[simp] theorem State.setChan_regs (s : State) (n : Nat) (f : DChan → DChan) : (s.setChan n f).regs = s.regs := rfl
@[simp] theorem State.setChan_mem (s : State) (n : Nat) (f : DChan → DChan) : (s.setChan n f).mem = s.mem := rfl
@[simp] theorem State.setChan_xlt (s : State) (n : Nat) (f : DChan → DChan) : (s.setChan n f).xlt = s.xlt := rfl
@[simp] theorem State.setChan_gran (s : State) (n : Nat) (f : DChan → DChan) : (s.setChan n f).gran = s.gran := rfl
@[simp] theorem State.setChan_msix (s : State) (n : Nat) (f : DChan → DChan) : (s.setChan n f).msix = s.msix := rfl
@[simp] theorem State.setChan_queues (s : State) (n : Nat) (f : DChan → DChan) : (s.setChan n f).queues = s.queues := rfl
@[simp] theorem State.setChan_issued (s : State) (n : Nat) (f : DChan → DChan) : (s.setChan n f).issued = s.issued := rfl
@[simp] theorem State.setChan_tails (s : State) (n : Nat) (f : DChan → DChan) : (s.setChan n f).tails = s.tails := rfl
@[simp] theorem State.setChan_fan (s : State) (n : Nat) (f : DChan → DChan) : (s.setChan n f).fan = s.fan := rfl
@[simp] theorem State.setChan_pipe (s : State) (n : Nat) (f : DChan → DChan) : (s.setChan n f).pipe = s.pipe := rfl
@[simp] theorem State.setChan_mpd (s : State) (n : Nat) (f : DChan → DChan) : (s.setChan n f).mpd = s.mpd := rfl
@[simp] theorem State.setChan_vols (s : State) (n : Nat) (f : DChan → DChan) : (s.setChan n f).vols = s.vols := rfl
@[simp] theorem State.setChan_units (s : State) (n : Nat) (f : DChan → DChan) : (s.setChan n f).units = s.units := rfl
@[simp] theorem State.setChan_keys (s : State) (n : Nat) (f : DChan → DChan) : (s.setChan n f).keys = s.keys := rfl
@[simp] theorem State.setChan_keyOp (s : State) (n : Nat) (f : DChan → DChan) : (s.setChan n f).keyOp = s.keyOp := rfl
@[simp] theorem State.setChan_restoreBuf (s : State) (n : Nat) (f : DChan → DChan) : (s.setChan n f).restoreBuf = s.restoreBuf := rfl
@[simp] theorem State.setChan_resets (s : State) (n : Nat) (f : DChan → DChan) : (s.setChan n f).resets = s.resets := rfl
@[simp] theorem State.setChan_halted (s : State) (n : Nat) (f : DChan → DChan) : (s.setChan n f).halted = s.halted := rfl
@[simp] theorem State.setChan_haltMsgs (s : State) (n : Nat) (f : DChan → DChan) : (s.setChan n f).haltMsgs = s.haltMsgs := rfl
@[simp] theorem State.setChan_traceLog (s : State) (n : Nat) (f : DChan → DChan) : (s.setChan n f).traceLog = s.traceLog := rfl
@[simp] theorem State.setChan_fatal (s : State) (n : Nat) (f : DChan → DChan) : (s.setChan n f).fatal = s.fatal := rfl
@[simp] theorem State.setChan_readOnly (s : State) (n : Nat) (f : DChan → DChan) : (s.setChan n f).readOnly = s.readOnly := rfl
@[simp] theorem State.setChan_otp (s : State) (n : Nat) (f : DChan → DChan) : (s.setChan n f).otp = s.otp := rfl
@[simp] theorem State.setChan_otpOp (s : State) (n : Nat) (f : DChan → DChan) : (s.setChan n f).otpOp = s.otpOp := rfl
@[simp] theorem State.setChan_boot (s : State) (n : Nat) (f : DChan → DChan) : (s.setChan n f).boot = s.boot := rfl
@[simp] theorem State.setChan_bar4 (s : State) (n : Nat) (f : DChan → DChan) : (s.setChan n f).bar4 = s.bar4 := rfl
@[simp] theorem State.setChan_answers (s : State) (n : Nat) (f : DChan → DChan) : (s.setChan n f).answers = s.answers := rfl
@[simp] theorem State.setChan_bw (s : State) (n : Nat) (f : DChan → DChan) : (s.setChan n f).bw = s.bw := rfl
@[simp] theorem State.setChan_sckOwed (s : State) (n : Nat) (f : DChan → DChan) : (s.setChan n f).sckOwed = s.sckOwed := rfl
@[simp] theorem State.setChan_events (s : State) (n : Nat) (f : DChan → DChan) : (s.setChan n f).events = s.events := rfl
@[simp] theorem State.setChan_cycle (s : State) (n : Nat) (f : DChan → DChan) : (s.setChan n f).cycle = s.cycle := rfl
@[simp] theorem State.setChan_free (s : State) (n : Nat) (f : DChan → DChan) : (s.setChan n f).free = s.free := rfl
@[simp] theorem State.setChan_reg (s : State) (n : Nat) (f : DChan → DChan) (q : Reg) (x : Nat) : (s.setChan n f).reg q x = s.reg q x := rfl
@[simp] theorem State.setChan_fld (s : State) (n : Nat) (f : DChan → DChan) (q : Fld) (x : Nat) : (s.setChan n f).fld q x = s.fld q x := rfl
@[simp] theorem State.setChan_flag (s : State) (n : Nat) (f : DChan → DChan) (q : Fld) (x : Nat) : (s.setChan n f).flag q x = s.flag q x := rfl

@[simp] theorem setTasks_pending (s : State) (id n : Nat) : (setTasks s id n).pending = s.pending := rfl
@[simp] theorem setTasks_regs (s : State) (id n : Nat) : (setTasks s id n).regs = s.regs := rfl
@[simp] theorem setTasks_mem (s : State) (id n : Nat) : (setTasks s id n).mem = s.mem := rfl
@[simp] theorem setTasks_xlt (s : State) (id n : Nat) : (setTasks s id n).xlt = s.xlt := rfl
@[simp] theorem setTasks_gran (s : State) (id n : Nat) : (setTasks s id n).gran = s.gran := rfl
@[simp] theorem setTasks_dram (s : State) (id n : Nat) : (setTasks s id n).dram = s.dram := rfl
@[simp] theorem setTasks_msix (s : State) (id n : Nat) : (setTasks s id n).msix = s.msix := rfl
@[simp] theorem setTasks_queues (s : State) (id n : Nat) : (setTasks s id n).queues = s.queues := rfl
@[simp] theorem setTasks_issued (s : State) (id n : Nat) : (setTasks s id n).issued = s.issued := rfl
@[simp] theorem setTasks_tails (s : State) (id n : Nat) : (setTasks s id n).tails = s.tails := rfl
@[simp] theorem setTasks_pipe (s : State) (id n : Nat) : (setTasks s id n).pipe = s.pipe := rfl
@[simp] theorem setTasks_mpd (s : State) (id n : Nat) : (setTasks s id n).mpd = s.mpd := rfl
@[simp] theorem setTasks_vols (s : State) (id n : Nat) : (setTasks s id n).vols = s.vols := rfl
@[simp] theorem setTasks_units (s : State) (id n : Nat) : (setTasks s id n).units = s.units := rfl
@[simp] theorem setTasks_keys (s : State) (id n : Nat) : (setTasks s id n).keys = s.keys := rfl
@[simp] theorem setTasks_keyOp (s : State) (id n : Nat) : (setTasks s id n).keyOp = s.keyOp := rfl
@[simp] theorem setTasks_restoreBuf (s : State) (id n : Nat) : (setTasks s id n).restoreBuf = s.restoreBuf := rfl
@[simp] theorem setTasks_resets (s : State) (id n : Nat) : (setTasks s id n).resets = s.resets := rfl
@[simp] theorem setTasks_halted (s : State) (id n : Nat) : (setTasks s id n).halted = s.halted := rfl
@[simp] theorem setTasks_haltMsgs (s : State) (id n : Nat) : (setTasks s id n).haltMsgs = s.haltMsgs := rfl
@[simp] theorem setTasks_traceLog (s : State) (id n : Nat) : (setTasks s id n).traceLog = s.traceLog := rfl
@[simp] theorem setTasks_fatal (s : State) (id n : Nat) : (setTasks s id n).fatal = s.fatal := rfl
@[simp] theorem setTasks_readOnly (s : State) (id n : Nat) : (setTasks s id n).readOnly = s.readOnly := rfl
@[simp] theorem setTasks_otp (s : State) (id n : Nat) : (setTasks s id n).otp = s.otp := rfl
@[simp] theorem setTasks_otpOp (s : State) (id n : Nat) : (setTasks s id n).otpOp = s.otpOp := rfl
@[simp] theorem setTasks_boot (s : State) (id n : Nat) : (setTasks s id n).boot = s.boot := rfl
@[simp] theorem setTasks_bar4 (s : State) (id n : Nat) : (setTasks s id n).bar4 = s.bar4 := rfl
@[simp] theorem setTasks_answers (s : State) (id n : Nat) : (setTasks s id n).answers = s.answers := rfl
@[simp] theorem setTasks_bw (s : State) (id n : Nat) : (setTasks s id n).bw = s.bw := rfl
@[simp] theorem setTasks_sckOwed (s : State) (id n : Nat) : (setTasks s id n).sckOwed = s.sckOwed := rfl
@[simp] theorem setTasks_events (s : State) (id n : Nat) : (setTasks s id n).events = s.events := rfl
@[simp] theorem setTasks_cycle (s : State) (id n : Nat) : (setTasks s id n).cycle = s.cycle := rfl
@[simp] theorem setTasks_free (s : State) (id n : Nat) : (setTasks s id n).free = s.free := rfl
@[simp] theorem setTasks_reg (s : State) (id n : Nat) (q : Reg) (x : Nat) : (setTasks s id n).reg q x = s.reg q x := rfl
@[simp] theorem setTasks_fld (s : State) (id n : Nat) (q : Fld) (x : Nat) : (setTasks s id n).fld q x = s.fld q x := rfl
@[simp] theorem setTasks_flag (s : State) (id n : Nat) (q : Fld) (x : Nat) : (setTasks s id n).flag q x = s.flag q x := rfl

@[simp] theorem finishJob_pending (s : State) (id : Nat) (o : Outc) : (finishJob s id o).pending = s.pending := rfl
@[simp] theorem finishJob_regs (s : State) (id : Nat) (o : Outc) : (finishJob s id o).regs = s.regs := rfl
@[simp] theorem finishJob_mem (s : State) (id : Nat) (o : Outc) : (finishJob s id o).mem = s.mem := rfl
@[simp] theorem finishJob_xlt (s : State) (id : Nat) (o : Outc) : (finishJob s id o).xlt = s.xlt := rfl
@[simp] theorem finishJob_gran (s : State) (id : Nat) (o : Outc) : (finishJob s id o).gran = s.gran := rfl
@[simp] theorem finishJob_dram (s : State) (id : Nat) (o : Outc) : (finishJob s id o).dram = s.dram := rfl
@[simp] theorem finishJob_msix (s : State) (id : Nat) (o : Outc) : (finishJob s id o).msix = s.msix := rfl
@[simp] theorem finishJob_queues (s : State) (id : Nat) (o : Outc) : (finishJob s id o).queues = s.queues := rfl
@[simp] theorem finishJob_issued (s : State) (id : Nat) (o : Outc) : (finishJob s id o).issued = s.issued := rfl
@[simp] theorem finishJob_tails (s : State) (id : Nat) (o : Outc) : (finishJob s id o).tails = s.tails := rfl
@[simp] theorem finishJob_pipe (s : State) (id : Nat) (o : Outc) : (finishJob s id o).pipe = s.pipe := rfl
@[simp] theorem finishJob_mpd (s : State) (id : Nat) (o : Outc) : (finishJob s id o).mpd = s.mpd := rfl
@[simp] theorem finishJob_vols (s : State) (id : Nat) (o : Outc) : (finishJob s id o).vols = s.vols := rfl
@[simp] theorem finishJob_units (s : State) (id : Nat) (o : Outc) : (finishJob s id o).units = s.units := rfl
@[simp] theorem finishJob_keys (s : State) (id : Nat) (o : Outc) : (finishJob s id o).keys = s.keys := rfl
@[simp] theorem finishJob_keyOp (s : State) (id : Nat) (o : Outc) : (finishJob s id o).keyOp = s.keyOp := rfl
@[simp] theorem finishJob_restoreBuf (s : State) (id : Nat) (o : Outc) : (finishJob s id o).restoreBuf = s.restoreBuf := rfl
@[simp] theorem finishJob_resets (s : State) (id : Nat) (o : Outc) : (finishJob s id o).resets = s.resets := rfl
@[simp] theorem finishJob_halted (s : State) (id : Nat) (o : Outc) : (finishJob s id o).halted = s.halted := rfl
@[simp] theorem finishJob_haltMsgs (s : State) (id : Nat) (o : Outc) : (finishJob s id o).haltMsgs = s.haltMsgs := rfl
@[simp] theorem finishJob_traceLog (s : State) (id : Nat) (o : Outc) : (finishJob s id o).traceLog = s.traceLog := rfl
@[simp] theorem finishJob_fatal (s : State) (id : Nat) (o : Outc) : (finishJob s id o).fatal = s.fatal := rfl
@[simp] theorem finishJob_readOnly (s : State) (id : Nat) (o : Outc) : (finishJob s id o).readOnly = s.readOnly := rfl
@[simp] theorem finishJob_otp (s : State) (id : Nat) (o : Outc) : (finishJob s id o).otp = s.otp := rfl
@[simp] theorem finishJob_otpOp (s : State) (id : Nat) (o : Outc) : (finishJob s id o).otpOp = s.otpOp := rfl
@[simp] theorem finishJob_boot (s : State) (id : Nat) (o : Outc) : (finishJob s id o).boot = s.boot := rfl
@[simp] theorem finishJob_bar4 (s : State) (id : Nat) (o : Outc) : (finishJob s id o).bar4 = s.bar4 := rfl
@[simp] theorem finishJob_answers (s : State) (id : Nat) (o : Outc) : (finishJob s id o).answers = s.answers := rfl
@[simp] theorem finishJob_bw (s : State) (id : Nat) (o : Outc) : (finishJob s id o).bw = s.bw := rfl
@[simp] theorem finishJob_sckOwed (s : State) (id : Nat) (o : Outc) : (finishJob s id o).sckOwed = s.sckOwed := rfl
@[simp] theorem finishJob_events (s : State) (id : Nat) (o : Outc) : (finishJob s id o).events = s.events := rfl
@[simp] theorem finishJob_cycle (s : State) (id : Nat) (o : Outc) : (finishJob s id o).cycle = s.cycle := rfl
@[simp] theorem finishJob_free (s : State) (id : Nat) (o : Outc) : (finishJob s id o).free = s.free := rfl
@[simp] theorem finishJob_reg (s : State) (id : Nat) (o : Outc) (q : Reg) (x : Nat) : (finishJob s id o).reg q x = s.reg q x := rfl
@[simp] theorem finishJob_fld (s : State) (id : Nat) (o : Outc) (q : Fld) (x : Nat) : (finishJob s id o).fld q x = s.fld q x := rfl
@[simp] theorem finishJob_flag (s : State) (id : Nat) (o : Outc) (q : Fld) (x : Nat) : (finishJob s id o).flag q x = s.flag q x := rfl

@[simp] theorem okJob_pending (s : State) (id r : Nat) : (okJob s id r).pending = s.pending := rfl
@[simp] theorem okJob_regs (s : State) (id r : Nat) : (okJob s id r).regs = s.regs := rfl
@[simp] theorem okJob_mem (s : State) (id r : Nat) : (okJob s id r).mem = s.mem := rfl
@[simp] theorem okJob_xlt (s : State) (id r : Nat) : (okJob s id r).xlt = s.xlt := rfl
@[simp] theorem okJob_gran (s : State) (id r : Nat) : (okJob s id r).gran = s.gran := rfl
@[simp] theorem okJob_dram (s : State) (id r : Nat) : (okJob s id r).dram = s.dram := rfl
@[simp] theorem okJob_msix (s : State) (id r : Nat) : (okJob s id r).msix = s.msix := rfl
@[simp] theorem okJob_queues (s : State) (id r : Nat) : (okJob s id r).queues = s.queues := rfl
@[simp] theorem okJob_issued (s : State) (id r : Nat) : (okJob s id r).issued = s.issued := rfl
@[simp] theorem okJob_tails (s : State) (id r : Nat) : (okJob s id r).tails = s.tails := rfl
@[simp] theorem okJob_pipe (s : State) (id r : Nat) : (okJob s id r).pipe = s.pipe := rfl
@[simp] theorem okJob_mpd (s : State) (id r : Nat) : (okJob s id r).mpd = s.mpd := rfl
@[simp] theorem okJob_vols (s : State) (id r : Nat) : (okJob s id r).vols = s.vols := rfl
@[simp] theorem okJob_units (s : State) (id r : Nat) : (okJob s id r).units = s.units := rfl
@[simp] theorem okJob_keys (s : State) (id r : Nat) : (okJob s id r).keys = s.keys := rfl
@[simp] theorem okJob_keyOp (s : State) (id r : Nat) : (okJob s id r).keyOp = s.keyOp := rfl
@[simp] theorem okJob_restoreBuf (s : State) (id r : Nat) : (okJob s id r).restoreBuf = s.restoreBuf := rfl
@[simp] theorem okJob_resets (s : State) (id r : Nat) : (okJob s id r).resets = s.resets := rfl
@[simp] theorem okJob_halted (s : State) (id r : Nat) : (okJob s id r).halted = s.halted := rfl
@[simp] theorem okJob_haltMsgs (s : State) (id r : Nat) : (okJob s id r).haltMsgs = s.haltMsgs := rfl
@[simp] theorem okJob_traceLog (s : State) (id r : Nat) : (okJob s id r).traceLog = s.traceLog := rfl
@[simp] theorem okJob_fatal (s : State) (id r : Nat) : (okJob s id r).fatal = s.fatal := rfl
@[simp] theorem okJob_readOnly (s : State) (id r : Nat) : (okJob s id r).readOnly = s.readOnly := rfl
@[simp] theorem okJob_otp (s : State) (id r : Nat) : (okJob s id r).otp = s.otp := rfl
@[simp] theorem okJob_otpOp (s : State) (id r : Nat) : (okJob s id r).otpOp = s.otpOp := rfl
@[simp] theorem okJob_boot (s : State) (id r : Nat) : (okJob s id r).boot = s.boot := rfl
@[simp] theorem okJob_bar4 (s : State) (id r : Nat) : (okJob s id r).bar4 = s.bar4 := rfl
@[simp] theorem okJob_answers (s : State) (id r : Nat) : (okJob s id r).answers = s.answers := rfl
@[simp] theorem okJob_bw (s : State) (id r : Nat) : (okJob s id r).bw = s.bw := rfl
@[simp] theorem okJob_sckOwed (s : State) (id r : Nat) : (okJob s id r).sckOwed = s.sckOwed := rfl
@[simp] theorem okJob_events (s : State) (id r : Nat) : (okJob s id r).events = s.events := rfl
@[simp] theorem okJob_cycle (s : State) (id r : Nat) : (okJob s id r).cycle = s.cycle := rfl
@[simp] theorem okJob_free (s : State) (id r : Nat) : (okJob s id r).free = s.free := rfl
@[simp] theorem okJob_reg (s : State) (id r : Nat) (q : Reg) (x : Nat) : (okJob s id r).reg q x = s.reg q x := rfl
@[simp] theorem okJob_fld (s : State) (id r : Nat) (q : Fld) (x : Nat) : (okJob s id r).fld q x = s.fld q x := rfl
@[simp] theorem okJob_flag (s : State) (id r : Nat) (q : Fld) (x : Nat) : (okJob s id r).flag q x = s.flag q x := rfl

@[simp] theorem dropTasks_pending (s : State) (p : Task → Bool) : (dropTasks s p).pending = s.pending := rfl
@[simp] theorem dropTasks_regs (s : State) (p : Task → Bool) : (dropTasks s p).regs = s.regs := rfl
@[simp] theorem dropTasks_mem (s : State) (p : Task → Bool) : (dropTasks s p).mem = s.mem := rfl
@[simp] theorem dropTasks_xlt (s : State) (p : Task → Bool) : (dropTasks s p).xlt = s.xlt := rfl
@[simp] theorem dropTasks_gran (s : State) (p : Task → Bool) : (dropTasks s p).gran = s.gran := rfl
@[simp] theorem dropTasks_dram (s : State) (p : Task → Bool) : (dropTasks s p).dram = s.dram := rfl
@[simp] theorem dropTasks_msix (s : State) (p : Task → Bool) : (dropTasks s p).msix = s.msix := rfl
@[simp] theorem dropTasks_queues (s : State) (p : Task → Bool) : (dropTasks s p).queues = s.queues := rfl
@[simp] theorem dropTasks_issued (s : State) (p : Task → Bool) : (dropTasks s p).issued = s.issued := rfl
@[simp] theorem dropTasks_tails (s : State) (p : Task → Bool) : (dropTasks s p).tails = s.tails := rfl
@[simp] theorem dropTasks_pipe (s : State) (p : Task → Bool) : (dropTasks s p).pipe = s.pipe := rfl
@[simp] theorem dropTasks_mpd (s : State) (p : Task → Bool) : (dropTasks s p).mpd = s.mpd := rfl
@[simp] theorem dropTasks_vols (s : State) (p : Task → Bool) : (dropTasks s p).vols = s.vols := rfl
@[simp] theorem dropTasks_units (s : State) (p : Task → Bool) : (dropTasks s p).units = s.units := rfl
@[simp] theorem dropTasks_keys (s : State) (p : Task → Bool) : (dropTasks s p).keys = s.keys := rfl
@[simp] theorem dropTasks_keyOp (s : State) (p : Task → Bool) : (dropTasks s p).keyOp = s.keyOp := rfl
@[simp] theorem dropTasks_restoreBuf (s : State) (p : Task → Bool) : (dropTasks s p).restoreBuf = s.restoreBuf := rfl
@[simp] theorem dropTasks_resets (s : State) (p : Task → Bool) : (dropTasks s p).resets = s.resets := rfl
@[simp] theorem dropTasks_halted (s : State) (p : Task → Bool) : (dropTasks s p).halted = s.halted := rfl
@[simp] theorem dropTasks_haltMsgs (s : State) (p : Task → Bool) : (dropTasks s p).haltMsgs = s.haltMsgs := rfl
@[simp] theorem dropTasks_traceLog (s : State) (p : Task → Bool) : (dropTasks s p).traceLog = s.traceLog := rfl
@[simp] theorem dropTasks_fatal (s : State) (p : Task → Bool) : (dropTasks s p).fatal = s.fatal := rfl
@[simp] theorem dropTasks_readOnly (s : State) (p : Task → Bool) : (dropTasks s p).readOnly = s.readOnly := rfl
@[simp] theorem dropTasks_otp (s : State) (p : Task → Bool) : (dropTasks s p).otp = s.otp := rfl
@[simp] theorem dropTasks_otpOp (s : State) (p : Task → Bool) : (dropTasks s p).otpOp = s.otpOp := rfl
@[simp] theorem dropTasks_boot (s : State) (p : Task → Bool) : (dropTasks s p).boot = s.boot := rfl
@[simp] theorem dropTasks_bar4 (s : State) (p : Task → Bool) : (dropTasks s p).bar4 = s.bar4 := rfl
@[simp] theorem dropTasks_answers (s : State) (p : Task → Bool) : (dropTasks s p).answers = s.answers := rfl
@[simp] theorem dropTasks_bw (s : State) (p : Task → Bool) : (dropTasks s p).bw = s.bw := rfl
@[simp] theorem dropTasks_sckOwed (s : State) (p : Task → Bool) : (dropTasks s p).sckOwed = s.sckOwed := rfl
@[simp] theorem dropTasks_events (s : State) (p : Task → Bool) : (dropTasks s p).events = s.events := rfl
@[simp] theorem dropTasks_cycle (s : State) (p : Task → Bool) : (dropTasks s p).cycle = s.cycle := rfl
@[simp] theorem dropTasks_free (s : State) (p : Task → Bool) : (dropTasks s p).free = s.free := rfl
@[simp] theorem dropTasks_reg (s : State) (p : Task → Bool) (q : Reg) (x : Nat) : (dropTasks s p).reg q x = s.reg q x := rfl
@[simp] theorem dropTasks_fld (s : State) (p : Task → Bool) (q : Fld) (x : Nat) : (dropTasks s p).fld q x = s.fld q x := rfl
@[simp] theorem dropTasks_flag (s : State) (p : Task → Bool) (q : Fld) (x : Nat) : (dropTasks s p).flag q x = s.flag q x := rfl

@[simp] theorem xltPurge_pending (s : State) (p : InvalReq) : (xltPurge s p).pending = s.pending := rfl
@[simp] theorem xltPurge_regs (s : State) (p : InvalReq) : (xltPurge s p).regs = s.regs := rfl
@[simp] theorem xltPurge_mem (s : State) (p : InvalReq) : (xltPurge s p).mem = s.mem := rfl
@[simp] theorem xltPurge_gran (s : State) (p : InvalReq) : (xltPurge s p).gran = s.gran := rfl
@[simp] theorem xltPurge_dram (s : State) (p : InvalReq) : (xltPurge s p).dram = s.dram := rfl
@[simp] theorem xltPurge_msix (s : State) (p : InvalReq) : (xltPurge s p).msix = s.msix := rfl
@[simp] theorem xltPurge_queues (s : State) (p : InvalReq) : (xltPurge s p).queues = s.queues := rfl
@[simp] theorem xltPurge_issued (s : State) (p : InvalReq) : (xltPurge s p).issued = s.issued := rfl
@[simp] theorem xltPurge_tails (s : State) (p : InvalReq) : (xltPurge s p).tails = s.tails := rfl
@[simp] theorem xltPurge_fan (s : State) (p : InvalReq) : (xltPurge s p).fan = s.fan := rfl
@[simp] theorem xltPurge_pipe (s : State) (p : InvalReq) : (xltPurge s p).pipe = s.pipe := rfl
@[simp] theorem xltPurge_mpd (s : State) (p : InvalReq) : (xltPurge s p).mpd = s.mpd := rfl
@[simp] theorem xltPurge_vols (s : State) (p : InvalReq) : (xltPurge s p).vols = s.vols := rfl
@[simp] theorem xltPurge_units (s : State) (p : InvalReq) : (xltPurge s p).units = s.units := rfl
@[simp] theorem xltPurge_keys (s : State) (p : InvalReq) : (xltPurge s p).keys = s.keys := rfl
@[simp] theorem xltPurge_keyOp (s : State) (p : InvalReq) : (xltPurge s p).keyOp = s.keyOp := rfl
@[simp] theorem xltPurge_restoreBuf (s : State) (p : InvalReq) : (xltPurge s p).restoreBuf = s.restoreBuf := rfl
@[simp] theorem xltPurge_resets (s : State) (p : InvalReq) : (xltPurge s p).resets = s.resets := rfl
@[simp] theorem xltPurge_halted (s : State) (p : InvalReq) : (xltPurge s p).halted = s.halted := rfl
@[simp] theorem xltPurge_haltMsgs (s : State) (p : InvalReq) : (xltPurge s p).haltMsgs = s.haltMsgs := rfl
@[simp] theorem xltPurge_traceLog (s : State) (p : InvalReq) : (xltPurge s p).traceLog = s.traceLog := rfl
@[simp] theorem xltPurge_fatal (s : State) (p : InvalReq) : (xltPurge s p).fatal = s.fatal := rfl
@[simp] theorem xltPurge_readOnly (s : State) (p : InvalReq) : (xltPurge s p).readOnly = s.readOnly := rfl
@[simp] theorem xltPurge_otp (s : State) (p : InvalReq) : (xltPurge s p).otp = s.otp := rfl
@[simp] theorem xltPurge_otpOp (s : State) (p : InvalReq) : (xltPurge s p).otpOp = s.otpOp := rfl
@[simp] theorem xltPurge_boot (s : State) (p : InvalReq) : (xltPurge s p).boot = s.boot := rfl
@[simp] theorem xltPurge_bar4 (s : State) (p : InvalReq) : (xltPurge s p).bar4 = s.bar4 := rfl
@[simp] theorem xltPurge_answers (s : State) (p : InvalReq) : (xltPurge s p).answers = s.answers := rfl
@[simp] theorem xltPurge_bw (s : State) (p : InvalReq) : (xltPurge s p).bw = s.bw := rfl
@[simp] theorem xltPurge_sckOwed (s : State) (p : InvalReq) : (xltPurge s p).sckOwed = s.sckOwed := rfl
@[simp] theorem xltPurge_events (s : State) (p : InvalReq) : (xltPurge s p).events = s.events := rfl
@[simp] theorem xltPurge_cycle (s : State) (p : InvalReq) : (xltPurge s p).cycle = s.cycle := rfl
@[simp] theorem xltPurge_free (s : State) (p : InvalReq) : (xltPurge s p).free = s.free := rfl
@[simp] theorem xltPurge_reg (s : State) (p : InvalReq) (q : Reg) (x : Nat) : (xltPurge s p).reg q x = s.reg q x := rfl
@[simp] theorem xltPurge_fld (s : State) (p : InvalReq) (q : Fld) (x : Nat) : (xltPurge s p).fld q x = s.fld q x := rfl
@[simp] theorem xltPurge_flag (s : State) (p : InvalReq) (q : Fld) (x : Nat) : (xltPurge s p).flag q x = s.flag q x := rfl

@[simp] theorem fanCounts_pending (s : State)  : (fanCounts s).pending = s.pending := rfl
@[simp] theorem fanCounts_mem (s : State)  : (fanCounts s).mem = s.mem := rfl
@[simp] theorem fanCounts_xlt (s : State)  : (fanCounts s).xlt = s.xlt := rfl
@[simp] theorem fanCounts_gran (s : State)  : (fanCounts s).gran = s.gran := rfl
@[simp] theorem fanCounts_dram (s : State)  : (fanCounts s).dram = s.dram := rfl
@[simp] theorem fanCounts_msix (s : State)  : (fanCounts s).msix = s.msix := rfl
@[simp] theorem fanCounts_queues (s : State)  : (fanCounts s).queues = s.queues := rfl
@[simp] theorem fanCounts_issued (s : State)  : (fanCounts s).issued = s.issued := rfl
@[simp] theorem fanCounts_tails (s : State)  : (fanCounts s).tails = s.tails := rfl
@[simp] theorem fanCounts_fan (s : State)  : (fanCounts s).fan = s.fan := rfl
@[simp] theorem fanCounts_pipe (s : State)  : (fanCounts s).pipe = s.pipe := rfl
@[simp] theorem fanCounts_mpd (s : State)  : (fanCounts s).mpd = s.mpd := rfl
@[simp] theorem fanCounts_vols (s : State)  : (fanCounts s).vols = s.vols := rfl
@[simp] theorem fanCounts_units (s : State)  : (fanCounts s).units = s.units := rfl
@[simp] theorem fanCounts_keys (s : State)  : (fanCounts s).keys = s.keys := rfl
@[simp] theorem fanCounts_keyOp (s : State)  : (fanCounts s).keyOp = s.keyOp := rfl
@[simp] theorem fanCounts_restoreBuf (s : State)  : (fanCounts s).restoreBuf = s.restoreBuf := rfl
@[simp] theorem fanCounts_resets (s : State)  : (fanCounts s).resets = s.resets := rfl
@[simp] theorem fanCounts_halted (s : State)  : (fanCounts s).halted = s.halted := rfl
@[simp] theorem fanCounts_haltMsgs (s : State)  : (fanCounts s).haltMsgs = s.haltMsgs := rfl
@[simp] theorem fanCounts_traceLog (s : State)  : (fanCounts s).traceLog = s.traceLog := rfl
@[simp] theorem fanCounts_fatal (s : State)  : (fanCounts s).fatal = s.fatal := rfl
@[simp] theorem fanCounts_readOnly (s : State)  : (fanCounts s).readOnly = s.readOnly := rfl
@[simp] theorem fanCounts_otp (s : State)  : (fanCounts s).otp = s.otp := rfl
@[simp] theorem fanCounts_otpOp (s : State)  : (fanCounts s).otpOp = s.otpOp := rfl
@[simp] theorem fanCounts_boot (s : State)  : (fanCounts s).boot = s.boot := rfl
@[simp] theorem fanCounts_bar4 (s : State)  : (fanCounts s).bar4 = s.bar4 := rfl
@[simp] theorem fanCounts_answers (s : State)  : (fanCounts s).answers = s.answers := rfl
@[simp] theorem fanCounts_bw (s : State)  : (fanCounts s).bw = s.bw := rfl
@[simp] theorem fanCounts_sckOwed (s : State)  : (fanCounts s).sckOwed = s.sckOwed := rfl
@[simp] theorem fanCounts_events (s : State)  : (fanCounts s).events = s.events := rfl
@[simp] theorem fanCounts_cycle (s : State)  : (fanCounts s).cycle = s.cycle := rfl
@[simp] theorem fanCounts_free (s : State)  : (fanCounts s).free = s.free := rfl

@[simp] theorem stepEnds_pending (s : State) (c : Ctx) : (stepEnds s c).pending = s.pending := rfl
@[simp] theorem stepEnds_regs (s : State) (c : Ctx) : (stepEnds s c).regs = s.regs := rfl
@[simp] theorem stepEnds_mem (s : State) (c : Ctx) : (stepEnds s c).mem = s.mem := rfl
@[simp] theorem stepEnds_xlt (s : State) (c : Ctx) : (stepEnds s c).xlt = s.xlt := rfl
@[simp] theorem stepEnds_gran (s : State) (c : Ctx) : (stepEnds s c).gran = s.gran := rfl
@[simp] theorem stepEnds_dram (s : State) (c : Ctx) : (stepEnds s c).dram = s.dram := rfl
@[simp] theorem stepEnds_msix (s : State) (c : Ctx) : (stepEnds s c).msix = s.msix := rfl
@[simp] theorem stepEnds_queues (s : State) (c : Ctx) : (stepEnds s c).queues = s.queues := rfl
@[simp] theorem stepEnds_issued (s : State) (c : Ctx) : (stepEnds s c).issued = s.issued := rfl
@[simp] theorem stepEnds_tails (s : State) (c : Ctx) : (stepEnds s c).tails = s.tails := rfl
@[simp] theorem stepEnds_fan (s : State) (c : Ctx) : (stepEnds s c).fan = s.fan := rfl
@[simp] theorem stepEnds_mpd (s : State) (c : Ctx) : (stepEnds s c).mpd = s.mpd := rfl
@[simp] theorem stepEnds_vols (s : State) (c : Ctx) : (stepEnds s c).vols = s.vols := rfl
@[simp] theorem stepEnds_units (s : State) (c : Ctx) : (stepEnds s c).units = s.units := rfl
@[simp] theorem stepEnds_keys (s : State) (c : Ctx) : (stepEnds s c).keys = s.keys := rfl
@[simp] theorem stepEnds_keyOp (s : State) (c : Ctx) : (stepEnds s c).keyOp = s.keyOp := rfl
@[simp] theorem stepEnds_restoreBuf (s : State) (c : Ctx) : (stepEnds s c).restoreBuf = s.restoreBuf := rfl
@[simp] theorem stepEnds_resets (s : State) (c : Ctx) : (stepEnds s c).resets = s.resets := rfl
@[simp] theorem stepEnds_halted (s : State) (c : Ctx) : (stepEnds s c).halted = s.halted := rfl
@[simp] theorem stepEnds_haltMsgs (s : State) (c : Ctx) : (stepEnds s c).haltMsgs = s.haltMsgs := rfl
@[simp] theorem stepEnds_traceLog (s : State) (c : Ctx) : (stepEnds s c).traceLog = s.traceLog := rfl
@[simp] theorem stepEnds_fatal (s : State) (c : Ctx) : (stepEnds s c).fatal = s.fatal := rfl
@[simp] theorem stepEnds_readOnly (s : State) (c : Ctx) : (stepEnds s c).readOnly = s.readOnly := rfl
@[simp] theorem stepEnds_otp (s : State) (c : Ctx) : (stepEnds s c).otp = s.otp := rfl
@[simp] theorem stepEnds_otpOp (s : State) (c : Ctx) : (stepEnds s c).otpOp = s.otpOp := rfl
@[simp] theorem stepEnds_boot (s : State) (c : Ctx) : (stepEnds s c).boot = s.boot := rfl
@[simp] theorem stepEnds_bar4 (s : State) (c : Ctx) : (stepEnds s c).bar4 = s.bar4 := rfl
@[simp] theorem stepEnds_answers (s : State) (c : Ctx) : (stepEnds s c).answers = s.answers := rfl
@[simp] theorem stepEnds_bw (s : State) (c : Ctx) : (stepEnds s c).bw = s.bw := rfl
@[simp] theorem stepEnds_sckOwed (s : State) (c : Ctx) : (stepEnds s c).sckOwed = s.sckOwed := rfl
@[simp] theorem stepEnds_events (s : State) (c : Ctx) : (stepEnds s c).events = s.events := rfl
@[simp] theorem stepEnds_cycle (s : State) (c : Ctx) : (stepEnds s c).cycle = s.cycle := rfl
@[simp] theorem stepEnds_free (s : State) (c : Ctx) : (stepEnds s c).free = s.free := rfl
@[simp] theorem stepEnds_reg (s : State) (c : Ctx) (q : Reg) (x : Nat) : (stepEnds s c).reg q x = s.reg q x := rfl
@[simp] theorem stepEnds_fld (s : State) (c : Ctx) (q : Fld) (x : Nat) : (stepEnds s c).fld q x = s.fld q x := rfl
@[simp] theorem stepEnds_flag (s : State) (c : Ctx) (q : Fld) (x : Nat) : (stepEnds s c).flag q x = s.flag q x := rfl

end Sys2Proof.Machine
end

