-- ==== Sys2Proof/Laws/Regs.lean ====
section
/-! SUPPORT. Registers and fields: what a write of one leaves in it and in the others, in a register file of canonical form. -/

namespace Sys2Proof.Machine

/-- A number cut at a field: above it, the field, below it. -/
theorem split_bits (v lo w : Nat) : v = v / 2 ^ (lo + w) * 2 ^ (lo + w) + bitsAt v lo w * 2 ^ lo + v % 2 ^ lo := by
  have h1 := Nat.div_add_mod v (2 ^ lo)
  have h2 := Nat.div_add_mod (v / 2 ^ lo) (2 ^ w)
  have h3 : v / 2 ^ (lo + w) = v / 2 ^ lo / 2 ^ w := by rw [Nat.pow_add, Nat.div_div_eq_div_mul]
  unfold bitsAt
  rw [h3]
  generalize v / 2 ^ lo / 2 ^ w = a at *
  generalize v / 2 ^ lo % 2 ^ w = b at *
  generalize v % 2 ^ lo = c at *
  rw [← h2] at h1
  rw [← h1, Nat.pow_add]
  ring

theorem bitsAt_lt (v lo w : Nat) : bitsAt v lo w < 2 ^ w := Nat.mod_lt _ (Nat.two_pow_pos w)

theorem putBits_eq (v lo w x : Nat) :
    putBits v lo w x = v / 2 ^ (lo + w) * 2 ^ (lo + w) + x % 2 ^ w * 2 ^ lo + v % 2 ^ lo := by
  have h := split_bits v lo w
  unfold putBits
  omega

/-- The field reads as the low bits of what was put there. -/
theorem bitsAt_putBits (v lo w x : Nat) : bitsAt (putBits v lo w x) lo w = x % 2 ^ w := by
  rw [putBits_eq, Nat.pow_add, bitsAt]
  have e : v / (2 ^ lo * 2 ^ w) * (2 ^ lo * 2 ^ w) + x % 2 ^ w * 2 ^ lo + v % 2 ^ lo =
      v % 2 ^ lo + 2 ^ lo * (v / (2 ^ lo * 2 ^ w) * 2 ^ w + x % 2 ^ w) := by ring
  rw [e, Nat.add_mul_div_left _ _ (Nat.two_pow_pos lo), Nat.div_eq_of_lt (Nat.mod_lt _ (Nat.two_pow_pos lo)), Nat.zero_add,
    Nat.mul_comm, Nat.mul_add_mod, Nat.mod_mod]

/-- A field below the one written stands. -/
theorem bitsAt_putBits_below (v lo w x lo' w' : Nat) (h : lo' + w' ≤ lo) :
    bitsAt (putBits v lo w x) lo' w' = bitsAt v lo' w' := by
  have g : ∀ y, bitsAt y lo' w' = bitsAt (y % 2 ^ lo) lo' w' := by
    intro y
    unfold bitsAt
    obtain ⟨k, rfl⟩ : ∃ k, lo = lo' + k := ⟨lo - lo', by omega⟩
    obtain ⟨m, rfl⟩ : ∃ m, k = w' + m := ⟨k - w', by omega⟩
    rw [Nat.pow_add, Nat.mod_mul_right_div_self, Nat.pow_add, Nat.mod_mul_right_mod]
  rw [g, g v, putBits_eq, Nat.pow_add]
  congr 1
  have e : v / (2 ^ lo * 2 ^ w) * (2 ^ lo * 2 ^ w) + x % 2 ^ w * 2 ^ lo + v % 2 ^ lo =
      2 ^ lo * (v / (2 ^ lo * 2 ^ w) * 2 ^ w + x % 2 ^ w) + v % 2 ^ lo := by ring
  rw [e, Nat.mul_add_mod, Nat.mod_mod]

/-- A field above the one written stands. -/
theorem bitsAt_putBits_above (v lo w x lo' w' : Nat) (h : lo + w ≤ lo') :
    bitsAt (putBits v lo w x) lo' w' = bitsAt v lo' w' := by
  have g : ∀ y, y / 2 ^ lo' = y / 2 ^ (lo + w) / 2 ^ (lo' - (lo + w)) := by
    intro y
    rw [Nat.div_div_eq_div_mul, ← Nat.pow_add]
    congr 2
    omega
  have k : putBits v lo w x / 2 ^ (lo + w) = v / 2 ^ (lo + w) := by
    rw [putBits_eq, Nat.add_assoc, Nat.mul_comm, Nat.mul_add_div (Nat.two_pow_pos _)]
    have hl : x % 2 ^ w * 2 ^ lo + v % 2 ^ lo < 2 ^ (lo + w) := by
      have a := Nat.mod_lt x (Nat.two_pow_pos w)
      have b := Nat.mod_lt v (Nat.two_pow_pos lo)
      calc x % 2 ^ w * 2 ^ lo + v % 2 ^ lo < x % 2 ^ w * 2 ^ lo + 2 ^ lo := by omega
        _ = (x % 2 ^ w + 1) * 2 ^ lo := by ring
        _ ≤ 2 ^ w * 2 ^ lo := Nat.mul_le_mul_right _ a
        _ = 2 ^ (lo + w) := by rw [Nat.pow_add, Nat.mul_comm]
    rw [Nat.div_eq_of_lt hl, Nat.add_zero]
  unfold bitsAt
  rw [g, g v, k]

theorem putBits_lt (v lo w x n : Nat) (hv : v < 2 ^ n) (h : lo + w ≤ n) : putBits v lo w x < 2 ^ n := by
  rw [putBits_eq]
  have a : v / 2 ^ (lo + w) < 2 ^ (n - (lo + w)) := by
    rw [Nat.div_lt_iff_lt_mul (Nat.two_pow_pos _), ← Nat.pow_add]
    convert hv using 2
    omega
  have b := Nat.mod_lt x (Nat.two_pow_pos w)
  have c := Nat.mod_lt v (Nat.two_pow_pos lo)
  have e : 2 ^ n = 2 ^ (n - (lo + w)) * 2 ^ (lo + w) := by rw [← Nat.pow_add]; congr 1; omega
  have d : x % 2 ^ w * 2 ^ lo + v % 2 ^ lo < 2 ^ (lo + w) := by
    calc x % 2 ^ w * 2 ^ lo + v % 2 ^ lo < x % 2 ^ w * 2 ^ lo + 2 ^ lo := by omega
      _ = (x % 2 ^ w + 1) * 2 ^ lo := by ring
      _ ≤ 2 ^ w * 2 ^ lo := Nat.mul_le_mul_right _ b
      _ = 2 ^ (lo + w) := by rw [Nat.pow_add, Nat.mul_comm]
  have f : (v / 2 ^ (lo + w) + 1) * 2 ^ (lo + w) ≤ 2 ^ (n - (lo + w)) * 2 ^ (lo + w) := Nat.mul_le_mul_right _ a
  rw [e]
  nlinarith

/-- A bit is a field of one bit. -/
theorem bitAt_eq (v n : Nat) : bitAt v n = (bitsAt v n 1 == 1) := by
  unfold bitAt bitsAt
  rw [Nat.testBit_eq_decide_div_mod_eq, Nat.pow_one]
  rfl

theorem State.reg_lt (s : State) (r : Reg) (i : Nat) : s.reg r i < 2 ^ 64 := BitVec.isLt _

theorem State.flag_eq (s : State) (f : Fld) (i : Nat) : s.flag f i = (bitsAt (s.reg f.reg i) f.lo 1 == 1) := bitAt_eq _ _

/-- A register reads as the value written, in 64 bits. -/
theorem State.reg_setReg {s : State} (h : twf regReset s.regs = true) (r : Reg) (i v : Nat) :
    (s.setReg r i v).reg r i = v % 2 ^ 64 := by
  simp only [State.reg, State.setReg]
  rw [tget_tset _ _ _ h]
  simp

/-- Another register stands. -/
theorem State.reg_setReg_ne {s : State} (h : twf regReset s.regs = true) {r q : Reg} {i k : Nat} (v : Nat)
    (hk : regKey q k ≠ regKey r i) : (s.setReg r i v).reg q k = s.reg q k := by
  simp only [State.reg, State.setReg]
  rw [tget_tset _ _ _ h, if_neg]
  exact hk

theorem State.canon_setReg {s : State} (h : twf regReset s.regs = true) (r : Reg) (i v : Nat) :
    twf regReset (s.setReg r i v).regs = true := twf_tset _ _ h

theorem State.canon_setFld {s : State} (h : twf regReset s.regs = true) (f : Fld) (i v : Nat) :
    twf regReset (s.setFld f i v).regs = true := twf_tset _ _ h

/-- A field reads as the value written, in its width. -/
theorem State.fld_setFld {s : State} (h : twf regReset s.regs = true) (f : Fld) (i v : Nat) (hf : f.lo + f.width ≤ 64) :
    (s.setFld f i v).fld f i = v % 2 ^ f.width := by
  unfold State.setFld State.fld
  rw [State.reg_setReg h, Nat.mod_eq_of_lt (putBits_lt _ _ _ _ _ (s.reg_lt _ _) hf), bitsAt_putBits]

/-- A field of another register stands. -/
theorem State.fld_setFld_reg {s : State} (h : twf regReset s.regs = true) (f g : Fld) (i k v : Nat)
    (hk : regKey g.reg k ≠ regKey f.reg i) : (s.setFld f i v).fld g k = s.fld g k := by
  unfold State.setFld State.fld
  rw [State.reg_setReg_ne h _ hk]

/-- Another field of the register stands. -/
theorem State.fld_setFld_fld {s : State} (h : twf regReset s.regs = true) (f g : Fld) (i v : Nat) (hr : g.reg = f.reg)
    (hf : f.lo + f.width ≤ 64) (hg : g.lo + g.width ≤ f.lo ∨ f.lo + f.width ≤ g.lo) :
    (s.setFld f i v).fld g i = s.fld g i := by
  unfold State.setFld State.fld
  rw [hr, State.reg_setReg h, Nat.mod_eq_of_lt (putBits_lt _ _ _ _ _ (s.reg_lt _ _) hf)]
  rcases hg with hg | hg
  · rw [bitsAt_putBits_below _ _ _ _ _ _ hg]
  · rw [bitsAt_putBits_above _ _ _ _ _ _ hg]

/-- A flag reads as the value written. -/
theorem State.flag_setFlag {s : State} (h : twf regReset s.regs = true) (f : Fld) (i : Nat) (b : Bool) (hw : f.width = 1)
    (hf : f.lo + 1 ≤ 64) : (s.setFlag f i b).flag f i = b := by
  have e := State.fld_setFld h f i (boolNat b) (by omega)
  rw [State.flag_eq]
  unfold State.fld at e
  rw [hw] at e
  unfold State.setFlag
  rw [e]
  cases b <;> rfl

end Sys2Proof.Machine
end

