-- ==== Sys2Proof/Laws/Counts.lean ====
section
/-! SUPPORT. Counting occurrences changes the sack counters, their overflow bits and the wraps owed, and nothing else (20 R595). -/

namespace Sys2Proof.Machine

theorem CountsOnly.refl (s : State) : CountsOnly s s := rfl

theorem CountsOnly.trans {s t u : State} (h : CountsOnly s t) (g : CountsOnly t u) : CountsOnly s u := by
  unfold CountsOnly at *
  rw [g, h]

theorem countsOnly_setReg (s : State) (r : Reg) (i v : Nat) : CountsOnly s (s.setReg r i v) := rfl

theorem sckAdd_countsOnly (s : State) (c n : Nat) : CountsOnly s (sckAdd s c n) := by
  unfold sckAdd
  dsimp only
  split
  · split <;> rfl
  · rfl

theorem foldl_countsOnly {α : Type} (l : List α) (g : State → α → State) (h : ∀ s a, CountsOnly s (g s a)) (s : State) :
    CountsOnly s (l.foldl g s) := by
  induction l generalizing s with
  | nil => exact .refl s
  | cons a l ih => exact (h s a).trans (ih _)

/-- Counting an occurrence moves counters only. -/
theorem State.count_countsOnly (s : State) (o : Occ) : CountsOnly s (s.count o) := by
  unfold State.count
  split
  · exact .refl s
  · refine foldl_countsOnly _ _ (fun t c => ?_) s
    split
    · exact sckAdd_countsOnly t c o.n
    · exact .refl t

theorem State.countReq_countsOnly (s : State) (r : Req) (code n : Nat) (d : Option Nat) : CountsOnly s (s.countReq r code n d) :=
  State.count_countsOnly _ _

theorem regKey_ne {q r : Reg} {k i : Nat} (hk : k < 65536) (hi : i < 65536) (h : q ≠ r) : regKey q k ≠ regKey r i := by
  intro e
  have hc : q.ctorIdx = r.ctorIdx := by unfold regKey at e; omega
  apply h
  have a : ∀ x : Reg, Reg.ofNat x.ctorIdx = x := by intro x; cases x <;> rfl
  rw [← a q, ← a r, hc]

/-- A counter's sums leave every register but its own and its overflow bits'. -/
theorem sckAdd_reg {s : State} (h : twf regReset s.regs = true) (c n : Nat) (hc : c < 65536) {q : Reg} (hq : countFree q = true)
    {k : Nat} (hk : k < 65536) :
    twf regReset (sckAdd s c n).regs = true ∧ (sckAdd s c n).reg q k = s.reg q k := by
  simp only [countFree, Bool.and_eq_true, bne_iff_ne, ne_eq] at hq
  have e1 : (s.setFld F.sckCnt_count c ((s.fld F.sckCnt_count c + n) % 2 ^ 48)).reg q k = s.reg q k :=
    State.reg_setReg_ne h _ (regKey_ne hk hc hq.1.1)
  have w1 := State.canon_setFld h F.sckCnt_count c ((s.fld F.sckCnt_count c + n) % 2 ^ 48)
  have e2 : ((s.setFld F.sckCnt_count c ((s.fld F.sckCnt_count c + n) % 2 ^ 48)).setFlag (sckOvf c) 0 true).reg q k = s.reg q k := by
    rw [← e1]
    refine State.reg_setReg_ne w1 _ (regKey_ne hk (by omega) ?_)
    unfold sckOvf
    split
    · exact hq.1.2
    · exact hq.2
  have w2 := State.canon_setFld w1 (sckOvf c) 0 (boolNat true)
  unfold sckAdd
  dsimp only
  split
  · split
    · exact ⟨w2, e2⟩
    · exact ⟨w2, e2⟩
  · exact ⟨w1, e1⟩

theorem foldl_counts {l : List Nat} (hl : ∀ c ∈ l, c < 65536) (p : State → Nat → Bool) (n : Nat) {q : Reg}
    (hq : countFree q = true) {k : Nat} (hk : k < 65536) :
    ∀ {s : State}, twf regReset s.regs = true →
      twf regReset (l.foldl (fun t c => if p t c then sckAdd t c n else t) s).regs = true ∧
        (l.foldl (fun t c => if p t c then sckAdd t c n else t) s).reg q k = s.reg q k := by
  induction l with
  | nil => exact fun h => ⟨h, rfl⟩
  | cons c l ih =>
    intro s h
    have hc := hl c (by simp)
    have step : twf regReset (if p s c then sckAdd s c n else s).regs = true ∧
        (if p s c then sckAdd s c n else s).reg q k = s.reg q k := by
      split
      · exact sckAdd_reg h c n hc hq hk
      · exact ⟨h, rfl⟩
    have := ih (fun x hx => hl x (by simp [hx])) step.1
    rw [List.foldl_cons]
    exact ⟨this.1, this.2.trans step.2⟩

/-- Counting an occurrence leaves every register that no counter uses, and the canonical form. -/
theorem State.count_reg {s : State} (h : twf regReset s.regs = true) (o : Occ) {q : Reg} (hq : countFree q = true) {k : Nat}
    (hk : k < 65536) : twf regReset (s.count o).regs = true ∧ (s.count o).reg q k = s.reg q k := by
  unfold State.count
  split
  · exact ⟨h, rfl⟩
  · refine foldl_counts ?_ (fun t c => sckAccepts t c o) o.n hq hk h
    intro c hc
    simp only [State.regInsts, List.mem_map] at hc
    obtain ⟨_, ⟨x, _, rfl⟩, rfl⟩ := hc
    exact Nat.mod_lt _ (by decide)

/-- A flag by its field. -/
theorem flag_eq_fld (s : State) {f : Fld} (hw : f.width = 1) (i : Nat) : s.flag f i = (s.fld f i == 1) := by
  rw [State.flag_eq]
  unfold State.fld
  rw [hw]

/-- What counting does to a counter's own field and its overflow bit. -/
theorem sckAdd_fields {s : State} (h : twf regReset s.regs = true) {x c : Nat} (n : Nat) (hx : x < 65536) (hc : c < 128) :
    (sckAdd s x n).fld F.sckCnt_count c =
      (if x = c then (s.fld F.sckCnt_count c + n) % 2 ^ 48 else s.fld F.sckCnt_count c) ∧
    (s.flag (sckOvf c) 0 = true → (sckAdd s x n).flag (sckOvf c) 0 = true) ∧
    (x = c → 2 ^ 48 ≤ s.fld F.sckCnt_count c + n → (sckAdd s x n).flag (sckOvf c) 0 = true) := by
  have hk : ∀ r : Reg, r = .sckOvf0 ∨ r = .sckOvf1 → regKey .sckCnt c ≠ regKey r 0 := fun r hr =>
    regKey_ne (by omega) (by omega) (by rcases hr with rfl | rfl <;> decide)
  have ho : ∀ y, (sckOvf y).reg = .sckOvf0 ∨ (sckOvf y).reg = .sckOvf1 := fun y => by unfold sckOvf; split <;> simp
  have ho' : ∀ y, regKey (sckOvf c).reg 0 ≠ regKey .sckCnt y ∨ 65536 ≤ y := fun y => by
    by_cases hy : y < 65536
    · exact .inl (regKey_ne (by omega) hy (by rcases ho c with e | e <;> rw [e] <;> decide))
    · exact .inr (by omega)
  have hw : ∀ y, (sckOvf y).width = 1 := fun _ => rfl
  have hl : ∀ y, (sckOvf y).lo + 1 ≤ 64 := fun y => by have := Nat.mod_lt y (by decide : 64 > 0); unfold sckOvf; dsimp only; omega
  have w1 := State.canon_setFld h F.sckCnt_count x ((s.fld F.sckCnt_count x + n) % 2 ^ 48)
  have a1 : (s.setFld F.sckCnt_count x ((s.fld F.sckCnt_count x + n) % 2 ^ 48)).fld F.sckCnt_count c =
      (if x = c then (s.fld F.sckCnt_count c + n) % 2 ^ 48 else s.fld F.sckCnt_count c) := by
    split
    · next e =>
      subst e
      rw [State.fld_setFld h _ _ _ (by decide)]
      exact Nat.mod_mod _ _
    · next e => exact State.fld_setFld_reg h _ _ _ _ _ (by unfold regKey; omega)
  have b1 : (s.setFld F.sckCnt_count x ((s.fld F.sckCnt_count x + n) % 2 ^ 48)).flag (sckOvf c) 0 = s.flag (sckOvf c) 0 := by
    unfold State.flag
    rw [show (s.setFld F.sckCnt_count x ((s.fld F.sckCnt_count x + n) % 2 ^ 48)).reg (sckOvf c).reg 0 = s.reg (sckOvf c).reg 0 from
      State.reg_setReg_ne h _ ((ho' x).resolve_right (by omega))]
  have a2 : ((s.setFld F.sckCnt_count x ((s.fld F.sckCnt_count x + n) % 2 ^ 48)).setFlag (sckOvf x) 0 true).fld F.sckCnt_count c =
      (if x = c then (s.fld F.sckCnt_count c + n) % 2 ^ 48 else s.fld F.sckCnt_count c) := by
    rw [← a1]
    exact State.fld_setFld_reg w1 _ _ _ _ _ (hk _ (ho x))
  have b2 : s.flag (sckOvf c) 0 = true → ((s.setFld F.sckCnt_count x ((s.fld F.sckCnt_count x + n) % 2 ^ 48)).setFlag (sckOvf x) 0
      true).flag (sckOvf c) 0 = true := by
    intro hs
    rw [← b1] at hs
    by_cases e : sckOvf x = sckOvf c
    · rw [e]; exact State.flag_setFlag w1 _ _ _ (hw c) (hl c)
    · rw [flag_eq_fld _ (hw c)] at hs ⊢
      by_cases er : (sckOvf c).reg = (sckOvf x).reg
      · have el : (sckOvf c).lo ≠ (sckOvf x).lo := by
          intro el
          apply e
          have g1 : sckOvf x = ⟨(sckOvf x).reg, (sckOvf x).lo, 1⟩ := rfl
          have g2 : sckOvf c = ⟨(sckOvf c).reg, (sckOvf c).lo, 1⟩ := rfl
          rw [g1, g2, er, el]
        have := State.fld_setFld_fld w1 (sckOvf x) (sckOvf c) 0 (boolNat true) er (by have := hl x; rw [hw]; omega)
          (by rw [hw, hw]; omega)
        unfold State.setFlag
        rw [this]
        exact hs
      · have := State.fld_setFld_reg w1 (sckOvf x) (sckOvf c) 0 0 (boolNat true) (regKey_ne (by omega) (by omega) er)
        unfold State.setFlag
        rw [this]
        exact hs
  have d2 : x = c → ((s.setFld F.sckCnt_count x ((s.fld F.sckCnt_count x + n) % 2 ^ 48)).setFlag (sckOvf x) 0
      true).flag (sckOvf c) 0 = true := by
    intro e
    subst e
    exact State.flag_setFlag w1 _ _ _ (hw x) (hl x)
  unfold sckAdd
  dsimp only
  split
  · split
    · exact ⟨a2, b2, fun e _ => d2 e⟩
    · exact ⟨a2, b2, fun e _ => d2 e⟩
  · next g => exact ⟨a1, fun y => by rw [b1]; exact y, fun e y => absurd (e ▸ y) g⟩

theorem twf_sckAdd {s : State} (h : twf regReset s.regs = true) {x : Nat} (n : Nat) (hx : x < 65536) :
    twf regReset (sckAdd s x n).regs = true := (sckAdd_reg h x n hx (q := .sckCtl) rfl (k := 0) (by decide)).1

/-- A key that reads otherwise than an unlisted one is listed. -/
theorem mem_of_tget {α : Type} {d : Nat → α} {t : List (Nat × α)} {k : Nat} (h : tget d t k ≠ d k) : ∃ v, (k, v) ∈ t := by
  induction t with
  | nil => exact absurd rfl h
  | cons x t ih =>
    obtain ⟨k', v⟩ := x
    unfold tget at h
    split at h
    · next e => exact ⟨v, by simp [e]⟩
    · split at h
      · exact absurd rfl h
      · obtain ⟨w, hw⟩ := ih h
        exact ⟨w, by simp [hw]⟩

/-- A canonical table lists each key once. -/
theorem keys_nodup {α : Type} [DecidableEq α] {d : Nat → α} {t : List (Nat × α)} {lo : Nat} (h : twfFrom d lo t = true) :
    (t.map Prod.fst).Nodup ∧ ∀ k ∈ t.map Prod.fst, lo ≤ k := by
  induction t generalizing lo with
  | nil => simp
  | cons x t ih =>
    obtain ⟨k', v⟩ := x
    unfold twfFrom at h
    simp only [Bool.and_eq_true, decide_eq_true_eq] at h
    have := ih h.2
    simp only [List.map_cons, List.nodup_cons, List.mem_cons]
    refine ⟨⟨fun m => ?_, this.1⟩, ?_⟩
    · have := this.2 _ m; omega
    · rintro k (rfl | m)
      · omega
      · have := this.2 _ m; omega

theorem regInsts_nodup {s : State} (h : twf regReset s.regs = true) (r : Reg) : ((s.regInsts r).map Prod.fst).Nodup := by
  have := (keys_nodup h).1
  unfold State.regInsts
  rw [List.map_map]
  refine List.Nodup.map_on ?_ (List.Nodup.of_map _ (((List.filter_sublist (l := s.regs)).map Prod.fst).nodup this))
  intro a ha b hb e
  simp only [List.mem_filter, beq_iff_eq] at ha hb
  simp only [Function.comp] at e
  have k : a.1 = b.1 := by omega
  exact List.inj_on_of_nodup_map this ha.1 hb.1 k

theorem regInsts_mem {s : State} {r : Reg} {c : Nat} (hc : c < 65536) (hr : regReset (regKey r c) = 0) (h : s.reg r c ≠ 0) :
    c ∈ (s.regInsts r).map Prod.fst := by
  have : tget regReset s.regs (regKey r c) ≠ regReset (regKey r c) := by
    intro e
    apply h
    unfold State.reg
    rw [e, hr]
    rfl
  obtain ⟨v, hv⟩ := mem_of_tget this
  simp only [State.regInsts, List.map_map, List.mem_map, List.mem_filter, beq_iff_eq, Function.comp]
  exact ⟨_, ⟨hv, by unfold regKey; omega⟩, by unfold regKey; dsimp only; omega⟩

/-- What counting in a list of counters leaves in one of them. -/
theorem foldl_count_at {l : List Nat} (p : State → Nat → Bool) {n c : Nat} (hl : ∀ x ∈ l, x < 65536) (hc : c < 128)
    (hd : l.Nodup) (hp : ∀ {s t : State}, (∀ q k, countFree q = true → k < 65536 → t.reg q k = s.reg q k) → p t c = p s c) :
    ∀ {s : State}, twf regReset s.regs = true →
      (l.foldl (fun t x => if p t x then sckAdd t x n else t) s).fld F.sckCnt_count c =
        (if c ∈ l ∧ p s c = true then (s.fld F.sckCnt_count c + n) % 2 ^ 48 else s.fld F.sckCnt_count c) ∧
      (s.flag (sckOvf c) 0 = true → (l.foldl (fun t x => if p t x then sckAdd t x n else t) s).flag (sckOvf c) 0 = true) ∧
      (c ∈ l → p s c = true → 2 ^ 48 ≤ s.fld F.sckCnt_count c + n →
        (l.foldl (fun t x => if p t x then sckAdd t x n else t) s).flag (sckOvf c) 0 = true) := by
  induction l with
  | nil => exact fun _ => ⟨by simp, id, by simp⟩
  | cons x l ih =>
    intro s h
    have hx := hl x (by simp)
    have ih := fun {s : State} => @ih (fun y hy => hl y (by simp [hy])) (List.nodup_cons.mp hd).2 s
    have hn := (List.nodup_cons.mp hd).1
    rw [List.foldl_cons]
    by_cases g : p s x = true
    · rw [if_pos g]
      obtain ⟨a, b, d⟩ := sckAdd_fields h n hx hc
      have w := twf_sckAdd h n hx
      have e : p (sckAdd s x n) c = p s c := hp (fun q k hq hk => (sckAdd_reg h x n hx hq hk).2)
      obtain ⟨a', b', d'⟩ := ih w
      rw [e, a] at a' d'
      by_cases hxc : x = c
      · subst hxc
        rw [if_pos rfl] at a' d'
        refine ⟨?_, fun y => b' (b y), fun _ _ y => b' (d rfl y)⟩
        rw [a', if_neg (fun y => hn y.1), if_pos ⟨by simp, g⟩]
      · rw [if_neg hxc] at a' d'
        refine ⟨?_, fun y => b' (b y), fun m y z => d' (by simpa [Ne.symm hxc] using m) y z⟩
        rw [a']
        simp [Ne.symm hxc]
    · rw [if_neg g]
      obtain ⟨a', b', d'⟩ := ih h
      by_cases hxc : x = c
      · subst hxc
        refine ⟨?_, b', fun _ y => absurd y g⟩
        rw [a', if_neg (fun y => g y.2), if_neg (fun y => g y.2)]
      · refine ⟨?_, b', fun m y z => d' (by simpa [Ne.symm hxc] using m) y z⟩
        rw [a']
        simp [Ne.symm hxc]

end Sys2Proof.Machine
end

