-- ==== Sys2Proof/Laws/HostSet.lean ====
section
/-! SUPPORT. A host write of a register of its own behaviour, where the device takes it: what its chapter's write operation makes of the value. -/

namespace Sys2Proof.Machine

/-- A whole write of a 32-bit register gives it the value. -/
theorem regWhole_narrow (s : State) (w : RegRow) (i v : Nat)
    (hm : w.mask (fun a => a == .rw || a == .rwl || (a == .wo && w.reg == .brkKeyData)) < 2 ^ 32) :
    regWhole s w i v (2 ^ 32 - 1) = v % 2 ^ 32 := by
  unfold regWhole
  dsimp only
  generalize w.mask _ = k at *
  rw [Nat.and_two_pow_sub_one_eq_mod]
  have : s.reg w.reg i &&& k &&& (allOnes ^^^ (2 ^ 32 - 1)) = 0 := by
    apply Nat.eq_of_testBit_eq
    intro j
    simp only [Nat.testBit_and, Nat.zero_testBit]
    by_cases hj : j < 32
    · have : (allOnes ^^^ (2 ^ 32 - 1)).testBit j = false := by
        rw [Nat.testBit_xor, Nat.testBit_two_pow_sub_one, Nat.testBit_two_pow_sub_one]
        simp
        omega
      rw [this, Bool.and_false]
    · have : k.testBit j = false :=
        Nat.testBit_lt_two_pow (Nat.lt_of_lt_of_le hm (Nat.pow_le_pow_right (by omega) (by omega)))
      rw [this, Bool.and_false, Bool.false_and]
  rw [this, Nat.zero_or]

/-- A whole write of a 64-bit register gives it the value. -/
theorem regWhole_wide (s : State) (w : RegRow) (i v : Nat) : regWhole s w i v allOnes = v % 2 ^ 64 := by
  unfold regWhole
  dsimp only
  rw [Nat.xor_self, Nat.and_zero, Nat.zero_or]
  exact Nat.and_two_pow_sub_one_eq_mod v 64

/-- A write that the device takes acts on the register. -/
theorem hostSet_taken {s : State} {r : Reg} {i : Nat} (h : HostTakes s r i) (v : Nat) :
    hostSet s r i v = writeReg (hostIn s (if (rowOf r).wide then 8 else 4)) (rowOf r) i v
      (if (rowOf r).wide then allOnes else 2 ^ 32 - 1) := by
  unfold hostSet
  have : ¬ (rowOf r).insts ≤ i := by have := h.1; omega
  simp only [h.2, this, decide_false, Bool.not_true, Bool.or_false, Bool.false_eq_true, if_false]

theorem hostSet_wqCfg {s : State} {i : Nat} (h : HostTakes s .wqCfg i) (v : Nat) :
    hostSet s .wqCfg i v = wqCfgWrite (hostIn s 4) i (v % 2 ^ 32) := by
  have e : (rowOf .wqCfg).reg = .wqCfg ∧ (rowOf .wqCfg).wide = false := by decide
  rw [hostSet_taken h, e.2]
  unfold writeReg
  rw [if_neg (by decide), if_neg (by decide), regWhole_narrow _ _ _ _ (by decide)]
  simp only [e.1]

theorem hostSet_slcEvCfg {s : State} {i : Nat} (h : HostTakes s .slcEvCfg i) (v : Nat) :
    hostSet s .slcEvCfg i v = evCfgWrite (hostIn s 4) i (v % 2 ^ 32) := by
  have e : (rowOf .slcEvCfg).reg = .slcEvCfg ∧ (rowOf .slcEvCfg).wide = false := by decide
  rw [hostSet_taken h, e.2]
  unfold writeReg
  rw [if_neg (by decide), if_neg (by decide), regWhole_narrow _ _ _ _ (by decide)]
  simp only [e.1]

theorem hostSet_slcEvHead {s : State} {i : Nat} (h : HostTakes s .slcEvHead i) (v : Nat) :
    hostSet s .slcEvHead i v = evHeadWrite (hostIn s 4) i (v % 2 ^ 32) := by
  have e : (rowOf .slcEvHead).reg = .slcEvHead ∧ (rowOf .slcEvHead).wide = false := by decide
  rw [hostSet_taken h, e.2]
  unfold writeReg
  rw [if_neg (by decide), if_neg (by decide), regWhole_narrow _ _ _ _ (by decide)]
  simp only [e.1]

theorem hostSet_wqDoorbell {s : State} {i : Nat} (h : HostTakes s .wqDoorbell i) (v : Nat) :
    hostSet s .wqDoorbell i v = doorbell (hostIn s 4) i (v % 2 ^ 32 % 2 ^ 32) := by
  have e : (rowOf .wqDoorbell).reg = .wqDoorbell ∧ (rowOf .wqDoorbell).wide = false := by decide
  rw [hostSet_taken h, e.2]
  unfold writeReg
  rw [if_neg (by decide), if_neg (by decide), regWhole_narrow _ _ _ _ (by decide)]
  simp only [e.1]

theorem hostSet_devProfile {s : State} {i : Nat} (h : HostTakes s .devProfile i) (v : Nat) :
    hostSet s .devProfile i v = profileWrite (hostIn s 4) (v % 2 ^ 32) := by
  have e : (rowOf .devProfile).reg = .devProfile ∧ (rowOf .devProfile).wide = false := by decide
  rw [hostSet_taken h, e.2]
  unfold writeReg
  rw [if_neg (by decide), if_neg (by decide), regWhole_narrow _ _ _ _ (by decide)]
  simp only [e.1]

theorem hostSet_fanTraceCfg {s : State} {i : Nat} (h : HostTakes s .fanTraceCfg i) (v : Nat) :
    hostSet s .fanTraceCfg i v = traceCfgWrite (hostIn s 4) (v % 2 ^ 32) := by
  have e : (rowOf .fanTraceCfg).reg = .fanTraceCfg ∧ (rowOf .fanTraceCfg).wide = false := by decide
  rw [hostSet_taken h, e.2]
  unfold writeReg
  rw [if_neg (by decide), if_neg (by decide), regWhole_narrow _ _ _ _ (by decide)]
  simp only [e.1]

theorem hostSet_stnCheckCtl {s : State} {i : Nat} (h : HostTakes s .stnCheckCtl i) (v : Nat) :
    hostSet s .stnCheckCtl i v = checkCtlWrite (hostIn s 4) (v % 2 ^ 32) := by
  have e : (rowOf .stnCheckCtl).reg = .stnCheckCtl ∧ (rowOf .stnCheckCtl).wide = false := by decide
  rw [hostSet_taken h, e.2]
  unfold writeReg
  rw [if_neg (by decide), if_neg (by decide), regWhole_narrow _ _ _ _ (by decide)]
  simp only [e.1]

theorem hostSet_mpdCkpt {s : State} {i : Nat} (h : HostTakes s .mpdCkpt i) (v : Nat) :
    hostSet s .mpdCkpt i v = checkpoint (hostIn s 8) (v % 2 ^ 64) := by
  have e : (rowOf .mpdCkpt).reg = .mpdCkpt ∧ (rowOf .mpdCkpt).wide = true := by decide
  rw [hostSet_taken h, e.2]
  unfold writeReg
  rw [if_pos rfl, if_pos rfl, regWhole_wide]
  simp only [e.1]

theorem hostSet_mpdReplay {s : State} {i : Nat} (h : HostTakes s .mpdReplay i) (v : Nat) :
    hostSet s .mpdReplay i v = replayStart (hostIn s 4) (v % 2 ^ 32) := by
  have e : (rowOf .mpdReplay).reg = .mpdReplay ∧ (rowOf .mpdReplay).wide = false := by decide
  rw [hostSet_taken h, e.2]
  unfold writeReg
  rw [if_neg (by decide), if_neg (by decide), regWhole_narrow _ _ _ _ (by decide)]
  simp only [e.1]

theorem hostSet_mpdTableCfg {s : State} {i : Nat} (h : HostTakes s .mpdTableCfg i) (v : Nat) :
    hostSet s .mpdTableCfg i v = tableCfgWrite (hostIn s 8) i (v % 2 ^ 64) := by
  have e : (rowOf .mpdTableCfg).reg = .mpdTableCfg ∧ (rowOf .mpdTableCfg).wide = true := by decide
  rw [hostSet_taken h, e.2]
  unfold writeReg
  rw [if_pos rfl, if_pos rfl, regWhole_wide]
  simp only [e.1]

theorem hostSet_volPortCtl {s : State} {i : Nat} (h : HostTakes s .volPortCtl i) (v : Nat) :
    hostSet s .volPortCtl i v = portCtlWrite (hostIn s 4) i (v % 2 ^ 32) := by
  have e : (rowOf .volPortCtl).reg = .volPortCtl ∧ (rowOf .volPortCtl).wide = false := by decide
  rw [hostSet_taken h, e.2]
  unfold writeReg
  rw [if_neg (by decide), if_neg (by decide), regWhole_narrow _ _ _ _ (by decide)]
  simp only [e.1]

theorem hostSet_tolValidBytes {s : State} {i : Nat} (h : HostTakes s .tolValidBytes i) (v : Nat) :
    hostSet s .tolValidBytes i v = registerMark (hostIn s 4) i (v % 2 ^ 32) := by
  have e : (rowOf .tolValidBytes).reg = .tolValidBytes ∧ (rowOf .tolValidBytes).wide = false := by decide
  rw [hostSet_taken h, e.2]
  unfold writeReg
  rw [if_neg (by decide), if_neg (by decide), regWhole_narrow _ _ _ _ (by decide)]
  simp only [e.1]

theorem hostSet_xltInval {s : State} {i : Nat} (h : HostTakes s .xltInval i) (v : Nat) :
    hostSet s .xltInval i v = xltInvalWrite (hostIn s 4) (v % 2 ^ 32) := by
  have e : (rowOf .xltInval).reg = .xltInval ∧ (rowOf .xltInval).wide = false := by decide
  rw [hostSet_taken h, e.2]
  unfold writeReg
  rw [if_neg (by decide), if_neg (by decide), regWhole_narrow _ _ _ _ (by decide)]
  simp only [e.1]

theorem hostSet_grnCtl {s : State} {i : Nat} (h : HostTakes s .grnCtl i) (v : Nat) :
    hostSet s .grnCtl i v = grnCtlWrite (hostIn s 4) (v % 2 ^ 32) := by
  have e : (rowOf .grnCtl).reg = .grnCtl ∧ (rowOf .grnCtl).wide = false := by decide
  rw [hostSet_taken h, e.2]
  unfold writeReg
  rw [if_neg (by decide), if_neg (by decide), regWhole_narrow _ _ _ _ (by decide)]
  simp only [e.1]

theorem hostSet_grnMaintCtl {s : State} {i : Nat} (h : HostTakes s .grnMaintCtl i) (v : Nat) :
    hostSet s .grnMaintCtl i v = maintWrite (hostIn s 4) (v % 2 ^ 32) := by
  have e : (rowOf .grnMaintCtl).reg = .grnMaintCtl ∧ (rowOf .grnMaintCtl).wide = false := by decide
  rw [hostSet_taken h, e.2]
  unfold writeReg
  rw [if_neg (by decide), if_neg (by decide), regWhole_narrow _ _ _ _ (by decide)]
  simp only [e.1]

theorem hostSet_dmcPwr {s : State} {i : Nat} (h : HostTakes s .dmcPwr i) (v : Nat) :
    hostSet s .dmcPwr i v = dmcPwrWrite (hostIn s 4) (v % 2 ^ 32) := by
  have e : (rowOf .dmcPwr).reg = .dmcPwr ∧ (rowOf .dmcPwr).wide = false := by decide
  rw [hostSet_taken h, e.2]
  unfold writeReg
  rw [if_neg (by decide), if_neg (by decide), regWhole_narrow _ _ _ _ (by decide)]
  simp only [e.1]

theorem hostSet_sluChCtl {s : State} {i : Nat} (h : HostTakes s .sluChCtl i) (v : Nat) :
    hostSet s .sluChCtl i v = sluCtlWrite (hostIn s 4) i (v % 2 ^ 32) := by
  have e : (rowOf .sluChCtl).reg = .sluChCtl ∧ (rowOf .sluChCtl).wide = false := by decide
  rw [hostSet_taken h, e.2]
  unfold writeReg
  rw [if_neg (by decide), if_neg (by decide), regWhole_narrow _ _ _ _ (by decide)]
  simp only [e.1]

theorem hostSet_bootClear {s : State} {i : Nat} (h : HostTakes s .bootClear i) (v : Nat) :
    hostSet s .bootClear i v = clearSteps (hostIn s 4) (v % 2 ^ 32) := by
  have e : (rowOf .bootClear).reg = .bootClear ∧ (rowOf .bootClear).wide = false := by decide
  rw [hostSet_taken h, e.2]
  unfold writeReg
  rw [if_neg (by decide), if_neg (by decide), regWhole_narrow _ _ _ _ (by decide)]
  simp only [e.1]

theorem hostSet_bootDump {s : State} {i : Nat} (h : HostTakes s .bootDump i) (v : Nat) :
    hostSet s .bootDump i v = bootDumpWrite (hostIn s 8) (v % 2 ^ 64) := by
  have e : (rowOf .bootDump).reg = .bootDump ∧ (rowOf .bootDump).wide = true := by decide
  rw [hostSet_taken h, e.2]
  unfold writeReg
  rw [if_pos rfl, if_pos rfl, regWhole_wide]
  simp only [e.1]

theorem hostSet_otpProgCtl {s : State} {i : Nat} (h : HostTakes s .otpProgCtl i) (v : Nat) :
    hostSet s .otpProgCtl i v = otpCtlWrite (hostIn s 4) (v % 2 ^ 32) := by
  have e : (rowOf .otpProgCtl).reg = .otpProgCtl ∧ (rowOf .otpProgCtl).wide = false := by decide
  rw [hostSet_taken h, e.2]
  unfold writeReg
  rw [if_neg (by decide), if_neg (by decide), regWhole_narrow _ _ _ _ (by decide)]
  simp only [e.1]

theorem hostSet_brkKeyCtl {s : State} {i : Nat} (h : HostTakes s .brkKeyCtl i) (v : Nat) :
    hostSet s .brkKeyCtl i v = keyCtlWrite (hostIn s 4) (v % 2 ^ 32) := by
  have e : (rowOf .brkKeyCtl).reg = .brkKeyCtl ∧ (rowOf .brkKeyCtl).wide = false := by decide
  rw [hostSet_taken h, e.2]
  unfold writeReg
  rw [if_neg (by decide), if_neg (by decide), regWhole_narrow _ _ _ _ (by decide)]
  simp only [e.1]

theorem hostSet_brkRestoreCtl {s : State} {i : Nat} (h : HostTakes s .brkRestoreCtl i) (v : Nat) :
    hostSet s .brkRestoreCtl i v = restoreCtlWrite (hostIn s 4) (v % 2 ^ 32) := by
  have e : (rowOf .brkRestoreCtl).reg = .brkRestoreCtl ∧ (rowOf .brkRestoreCtl).wide = false := by decide
  rw [hostSet_taken h, e.2]
  unfold writeReg
  rw [if_neg (by decide), if_neg (by decide), regWhole_narrow _ _ _ _ (by decide)]
  simp only [e.1]

theorem hostSet_brkRestoreData {s : State} {i : Nat} (h : HostTakes s .brkRestoreData i) (v : Nat) :
    hostSet s .brkRestoreData i v = restoreData (hostIn s 8) (v % 2 ^ 64) := by
  have e : (rowOf .brkRestoreData).reg = .brkRestoreData ∧ (rowOf .brkRestoreData).wide = true := by decide
  rw [hostSet_taken h, e.2]
  unfold writeReg
  rw [if_pos rfl, if_pos rfl, regWhole_wide]
  simp only [e.1]

theorem hostSet_sckCtl {s : State} {i : Nat} (h : HostTakes s .sckCtl i) (v : Nat) :
    hostSet s .sckCtl i v = sckCtlWrite (hostIn s 4) (v % 2 ^ 32) := by
  have e : (rowOf .sckCtl).reg = .sckCtl ∧ (rowOf .sckCtl).wide = false := by decide
  rw [hostSet_taken h, e.2]
  unfold writeReg
  rw [if_neg (by decide), if_neg (by decide), regWhole_narrow _ _ _ _ (by decide)]
  simp only [e.1]

theorem hostSet_sckCnt {s : State} {i : Nat} (h : HostTakes s .sckCnt i) (v : Nat) :
    hostSet s .sckCnt i v = sckCntWrite (hostIn s 8) i (v % 2 ^ 64) := by
  have e : (rowOf .sckCnt).reg = .sckCnt ∧ (rowOf .sckCnt).wide = true := by decide
  rw [hostSet_taken h, e.2]
  unfold writeReg
  rw [if_pos rfl, if_pos rfl, regWhole_wide]
  simp only [e.1]

theorem hostSet_sckBwCfg {s : State} {i : Nat} (h : HostTakes s .sckBwCfg i) (v : Nat) :
    hostSet s .sckBwCfg i v = bwCfgWrite (hostIn s 4) (v % 2 ^ 32) := by
  have e : (rowOf .sckBwCfg).reg = .sckBwCfg ∧ (rowOf .sckBwCfg).wide = false := by decide
  rw [hostSet_taken h, e.2]
  unfold writeReg
  rw [if_neg (by decide), if_neg (by decide), regWhole_narrow _ _ _ _ (by decide)]
  simp only [e.1]

theorem hostSet_sckBwCtl {s : State} {i : Nat} (h : HostTakes s .sckBwCtl i) (v : Nat) :
    hostSet s .sckBwCtl i v = bwCtlWrite (hostIn s 4) (v % 2 ^ 32) := by
  have e : (rowOf .sckBwCtl).reg = .sckBwCtl ∧ (rowOf .sckBwCtl).wide = false := by decide
  rw [hostSet_taken h, e.2]
  unfold writeReg
  rw [if_neg (by decide), if_neg (by decide), regWhole_narrow _ _ _ _ (by decide)]
  simp only [e.1]

end Sys2Proof.Machine
end

