-- ==== Sys2Proof/Laws/Insns.lean ====
section
/-! SUPPORT. A pipeline instruction that a stage issues: what it does where its meaning ends well, and where it does not. -/

namespace Sys2Proof.Machine

/-- The context of a stage's step is that stage's. -/
theorem ctxOf_place {s : State} {n k a b : Nat} {r : Run} {c : Ctx} (h : ctxOf s n r k a b = some c) : c.stage = k ∧ c.stone = n := by
  unfold ctxOf at h
  split at h
  · cases h
  · simp only [Option.map_eq_some_iff] at h
    obtain ⟨pj, _, rfl⟩ := h
    exact ⟨rfl, rfl⟩

/-- An instruction issued on a batch that acts is followed by the next one, or by the batch's passing on. -/
theorem issueInsn_ok {s : State} {n k op : Nat} {c0 c : Ctx} {st : Stage} {f : Insn} {act : Ctx → Insn → Op Unit} {s1 : State}
    (hk : c0.stage = k ∧ c0.stone = n) (hc : c = { c0 with num := (stageTurn c0 st).1 }) (ha : act c f (issued s c) = .ok () s1) :
    issueInsn s n k op act f c0 st = afterInsn s1 n k op c f (stageTurn c0 st).2 := by
  have hst : c.stage = k ∧ c.stone = n := by rw [hc]; exact hk
  have hi : insnOps c op act f (stageTurn c0 st).2 s = .ok () (match seqNext s1 c op f c.num (stageTurn c0 st).2 with
      | none => stepEnds s1 c
      | some x => s1.setRun n (fun r => r.setStage k (fun st => { st with pc := x.1, loops := x.2, running := true }))) := by
    simp only [insnOps, upd, faulting, bind, EStateM.bind, modify, modifyGet, MonadStateOf.modifyGet, EStateM.modifyGet, get, getThe, MonadStateOf.get, EStateM.get]
    have : act c f (s.countReq c.req 0x31D 1) = .ok () s1 := ha
    simp only [this]
    cases hq : seqNext s1 c op f c.num (stageTurn c0 st).2 with
    | none => rfl
    | some x => simp only [hst]; rfl
  simp only [issueInsn, ← hc]
  rw [hi]
  simp only [afterInsn]
  cases seqNext s1 c op f c.num (stageTurn c0 st).2 <;> rfl

/-- An instruction of the batch that a stage holds. -/
theorem insnStep_issue {s : State} {n k op : Nat} {r : Run} {c : Ctx} {f : Insn} {act : Ctx → Insn → Op Unit}
    (h : StageIssues s n k r c) : ∃ c0, ctxOf s n r k 1 0 = some c0 ∧ c = { c0 with num := (stageTurn c0 (r.stage k)).1 } ∧
      insnStep s n k op act f = issueInsn s n k op act f c0 (r.stage k) := by
  obtain ⟨h1, h2, h3, h4, h5, h6, c0, h7, h8⟩ := h
  refine ⟨c0, h7, h8, ?_⟩
  have hg : (!mayIssue s n r (r.stage k) || decide (k = 0) || decide (6 < k)) = false := by simp [h2]; omega
  obtain ⟨b, hb⟩ : ∃ b, (r.stage k).batch = some b := by
    cases hx : (r.stage k).batch <;> simp_all
  simp only [insnStep, h1, h7]
  rw [hg]
  simp only [hb, h6, Bool.false_eq_true, if_false]

/-- An instruction that acts is followed by the next one, or by the batch's passing on. -/
theorem insnStep_ok {s : State} {n k op : Nat} {r : Run} {c : Ctx} {f : Insn} {act : Ctx → Insn → Op Unit} {s1 : State}
    (h : StageIssues s n k r c) (ha : act c f (issued s c) = .ok () s1) :
    insnStep s n k op act f = afterInsn s1 n k op c f (loopsAt r k c) := by
  obtain ⟨c0, h7, rfl, hi⟩ := insnStep_issue (op := op) (f := f) (act := act) h
  rw [hi, issueInsn_ok (ctxOf_place h7) rfl ha]
  rfl

/-- The batch that waits in the link is taken, and the instruction is the first of its step (05 R156). -/
theorem insnStep_arrive {s : State} {n k op : Nat} {r : Run} {c0 : Ctx} {b : Batch} {f : Insn} {act : Ctx → Insn → Op Unit}
    (h1 : (s.stone n).run = some r) (h2 : mayIssue s n r (r.stage k) = true) (h3 : 1 ≤ k) (h4 : k ≤ 6) (h5 : (r.stage k).batch = none)
    (h6 : (r.stage k).link = some b) (h7 : ctxOf s n r k 1 0 = some c0) :
    insnStep s n k op act f = arriveInsn s n k op act f c0 b := by
  have hg : (!mayIssue s n r (r.stage k) || decide (k = 0) || decide (6 < k)) = false := by simp [h2]; omega
  simp only [insnStep, h1, h7]
  rw [hg]
  simp only [h5, h6, Bool.false_eq_true, if_false]

/-- An error of an instruction fails the job; its event is counted, and STN_FAULT records it. -/
theorem insnStep_error {s : State} {n k op : Nat} {r : Run} {c : Ctx} {f : Insn} {act : Ctx → Insn → Op Unit} {e : Err} {s1 : State}
    (h : StageIssues s n k r c) (ha : act c f (issued s c) = .error e s1) :
    insnStep s n k op act f = stepFault (recordStnFault (countFault s1 c e) c e) c e := by
  obtain ⟨c0, h7, hc, hi⟩ := insnStep_issue (op := op) (f := f) (act := act) h
  have ho : insnOps c op act f (stageTurn c0 (r.stage k)).2 s = .error e (recordStnFault (countFault s1 c e) c e) := by
    simp only [insnOps, upd, faulting, bind, EStateM.bind, modify, modifyGet, MonadStateOf.modifyGet, EStateM.modifyGet, get, getThe, MonadStateOf.get, EStateM.get]
    have : act c f (s.countReq c.req 0x31D 1) = .error e s1 := ha
    simp only [this]
  rw [hi]
  simp only [issueInsn, ← hc]
  rw [ho, hc]
  rfl

/-- A pipeline instruction whose meaning ends well completes. -/
theorem insn_completes {s : State} {n k op : Nat} {r : Run} {c : Ctx} {f : Insn} {act : Ctx → Insn → Op Unit} {s1 : State} {i : Instr}
    (hi : exec i s = done (insnStep s n k op act f)) (h : StageIssues s n k r c) (ha : act c f (issued s c) = .ok () s1) :
    exec i s = .next (settle (afterInsn s1 n k op c f (loopsAt r k c))) := by
  rw [hi, insnStep_ok h ha, done]

/-- A pipeline instruction whose meaning ends in an error fails its job. -/
theorem insn_fails {s : State} {n k op : Nat} {r : Run} {c : Ctx} {f : Insn} {act : Ctx → Insn → Op Unit} {s1 : State} {i : Instr} {e : Err}
    (hi : exec i s = done (insnStep s n k op act f)) (h : StageIssues s n k r c) (ha : act c f (issued s c) = .error e s1) :
    exec i s = .next (settle (stepFault (recordStnFault (countFault s1 c e) c e) c e)) := by
  rw [hi, insnStep_error h ha, done]

end Sys2Proof.Machine
end

