-- ==== Sys2Proof/Laws/Settle.lean ====
section
/-! SUPPORT. The end of a command: in a state that owes nothing, settle changes nothing. -/

namespace Sys2Proof.Machine

theorem fatalSettle_none {s : State} (h : s.fatal = none) : fatalSettle s = s := by simp [fatalSettle, h]

theorem settleEvents_none {s : State} (he : s.events = []) (hm : s.haltMsgs = []) : settleEvents s = s := by
  cases s
  subst he hm
  rfl

theorem preemptSettle_calm {s : State}
    (h : s.fan.jobs = [] → s.fld F.stnCfg_preempt_active 0 = s.fld F.stnCfg_preempt_cols 0) : preemptSettle s = s := by
  unfold preemptSettle
  split
  · next hc =>
    simp only [Bool.and_eq_true, List.isEmpty_iff, bne_iff_ne, ne_eq] at hc
    exact absurd (h hc.1) hc.2
  · rfl

theorem settle_calm {s : State} (h : s.calm) : settle s = s := by
  obtain ⟨hf, he, hm, hp⟩ := h
  have ho : owes s = false := by simp [owes, hf, he, hm]
  rw [settle, settleRounds, if_neg (by simp [ho]), preemptSettle_calm hp]

theorem done_calm {s : State} (h : s.calm) : done s = .next s := by rw [done, settle_calm h]

/-- A change that leaves what is owed, the emptiness of the job table and the registers. -/
theorem calm_of_regs {s t : State} (h : s.calm) (hf : t.fatal = s.fatal) (he : t.events = s.events)
    (hm : t.haltMsgs = s.haltMsgs) (hj : t.fan.jobs = [] → s.fan.jobs = []) (hr : t.regs = s.regs) : t.calm := by
  obtain ⟨h1, h2, h3, h4⟩ := h
  refine ⟨hf ▸ h1, he ▸ h2, hm ▸ h3, fun hn => ?_⟩
  have := h4 (hj hn)
  simpa [State.fld, State.reg, hr] using this

theorem calm_setJob {s : State} (id : Nat) (f : Job → Job) (h : s.calm) : (s.setJob id f).calm :=
  calm_of_regs h rfl rfl rfl (by simp [State.setJob]) rfl

theorem calm_finishJob {s : State} (id : Nat) (o : Outc) (h : s.calm) : (finishJob s id o).calm := calm_setJob _ _ h

theorem calm_setTasks {s : State} (id n : Nat) (h : s.calm) : (setTasks s id n).calm := calm_setJob _ _ h

end Sys2Proof.Machine
end

