-- ==== Sys2Proof/Laws/Jobs.lean ====
section
/-! SUPPORT. The job table: what a change of one job does to each job; a job that may start. -/

namespace Sys2Proof.Machine

theorem find_map_other (l : List Job) (id k : Nat) (f : Job → Job) (hf : ∀ j, (f j).id = j.id) (h : k ≠ id) :
    (l.map (fun j => if j.id = id then f j else j)).find? (fun j => j.id == k) = l.find? (fun j => j.id == k) := by
  induction l with
  | nil => rfl
  | cons a l ih =>
    simp only [List.map_cons, List.find?_cons]
    by_cases ha : a.id = id
    · have h1 : (a.id == k) = false := by rw [ha]; simpa using fun e => h e.symm
      rw [if_pos ha, hf, h1, ih]
    · rw [if_neg ha, ih]

theorem find_map_same (l : List Job) (id : Nat) (f : Job → Job) (hf : ∀ j, (f j).id = j.id) :
    (l.map (fun j => if j.id = id then f j else j)).find? (fun j => j.id == id) = (l.find? (fun j => j.id == id)).map f := by
  induction l with
  | nil => rfl
  | cons a l ih =>
    simp only [List.map_cons, List.find?_cons]
    by_cases ha : a.id = id
    · have h1 : (a.id == id) = true := by simpa using ha
      rw [if_pos ha, hf, h1]
      rfl
    · have h1 : (a.id == id) = false := by simpa using ha
      rw [if_neg ha, h1, ih]

/-- The other jobs stand. -/
theorem setJob_job_other (s : State) (id k : Nat) (f : Job → Job) (hf : ∀ j, (f j).id = j.id) (h : k ≠ id) :
    (s.setJob id f).job k = s.job k := find_map_other _ _ _ _ hf h

/-- The changed job. -/
theorem setJob_job_same (s : State) (id : Nat) (f : Job → Job) (hf : ∀ j, (f j).id = j.id) :
    (s.setJob id f).job id = (s.job id).map f := find_map_same _ _ _ hf

/-- What startJob answers: the job of that number, which may start. -/
theorem startJob_some {s : State} {id op : Nat} {j : Job} (h : startJob s id op = some j) :
    s.job id = some j ∧ startable s j op = true := by
  unfold startJob at h
  split at h
  · next k hk =>
    split at h
    · next hs => cases h; exact ⟨hk, hs⟩
    · cases h
  · cases h

theorem startJob_jobs {s : State} {id op : Nat} {j : Job} (h : startJob s id op = some j) : s.fan.jobs ≠ [] := by
  intro hn
  have := (startJob_some h).1
  simp [State.job, hn] at this

theorem startJob_outc {s : State} {id op : Nat} {j : Job} (h : startJob s id op = some j) : j.outc = none := by
  have := (startJob_some h).2
  simp only [startable, Bool.and_eq_true, Option.isNone_iff_eq_none] at this
  exact this.1.1.2

/-- A state that still has a job owes no preempt_cols. -/
theorem calm_of_jobs {s t : State} (h : s.calm) (hf : t.fatal = s.fatal) (he : t.events = s.events)
    (hm : t.haltMsgs = s.haltMsgs) (hj : t.fan.jobs ≠ []) : t.calm :=
  ⟨hf ▸ h.1, he ▸ h.2.1, hm ▸ h.2.2.1, fun hn => absurd hn hj⟩

end Sys2Proof.Machine
end

