-- ==== Sys2Proof/Laws/OpRuns.lean ====
section
/-! SUPPORT. Operations that end well without changing the state, over the rows of a batch; what writes of masks leave. -/

namespace Sys2Proof.Machine

theorem mapM_pure {α β : Type} (l : List α) (g : α → Op β) (h : α → β) (hg : ∀ a ∈ l, ∀ s, g a s = .ok (h a) s) (s : State) :
    (l.mapM g) s = .ok (l.map h) s := by
  rw [← List.mapM'_eq_mapM]
  induction l generalizing s with
  | nil => rfl
  | cons a l ih =>
    have i := ih (fun b hb => hg b (by simp [hb])) s
    show (EStateM.bind (g a) (fun b => EStateM.bind (List.mapM' g l) (fun bs => pure (b :: bs)))) s = _
    simp only [EStateM.bind, hg a (by simp), i]
    rfl

/-- The truth of each row, where it is taken from the row alone. -/

theorem writeTruth_pure (s : State) (c : Ctx) (f : Insn) (g : Nat → Op (Option Bool)) (h : Nat → Option Bool)
    (hg : ∀ row s, g row s = .ok (h row) s) : writeTruth c f g s = .ok () (truthWritten s c f h) := by
  have e := mapM_pure (List.range c.rows) (fun row => (if active s c f row then (g row >>= fun v => pure (some v)) else pure none : Op (Option (Option Bool))))
    (fun row => if active s c f row then some (h row) else none) (by
      intro row _ s'
      by_cases ha : active s c f row = true
      · rw [if_pos ha, if_pos ha]
        show (EStateM.bind (g row) (fun v => pure (some v))) s' = _
        simp only [EStateM.bind, hg]
        rfl
      · rw [if_neg ha, if_neg ha]
        rfl) s
  show (EStateM.bind _ _) s = _
  simp only [EStateM.bind]
  rw [e]
  have e1 : ∀ v, ((fun x => x == some v) ∘ fun row => if active s c f row = true then some (h row) else none) =
      fun row => active s c f row && h row == v := by
    intro v
    funext row
    simp only [Function.comp]
    cases active s c f row <;> simp
  simp only [upd, modify, modifyGet, MonadStateOf.modifyGet, EStateM.modifyGet, truthLeft, List.map_map, e1]

theorem upd_ok (g : State → State) (s t : State) (h : t = g s) : upd g s = .ok () t := by
  subst h; rfl

theorem bind_get {α : Type} (g : State → Op α) (s : State) : (get >>= g) s = g s s := rfl

theorem bind_ok {α β : Type} {m : Op α} {k : α → Op β} {s t : State} {a : α} (h : m s = .ok a t) : (m >>= k) s = k a t := by
  show (EStateM.bind m k) s = _
  simp only [EStateM.bind, h]

theorem bind_err {α β : Type} {m : Op α} {k : α → Op β} {s t : State} {e : Err} (h : m s = .error e t) : (m >>= k) s = .error e t := by
  show (EStateM.bind m k) s = _
  simp only [EStateM.bind, h]

theorem mapM_counts {α : Type} (l : List Nat) (g : Nat → Op α) (h : Nat → α)
    (hg : ∀ row ∈ l, ∀ s, ∃ t, g row s = .ok (h row) t ∧ CountsOnly s t) (s : State) :
    ∃ t, (l.mapM g) s = .ok (l.map h) t ∧ CountsOnly s t := by
  rw [← List.mapM'_eq_mapM]
  induction l generalizing s with
  | nil => exact ⟨s, rfl, .refl s⟩
  | cons a l ih =>
    obtain ⟨t, h1, h2⟩ := hg a (by simp) s
    obtain ⟨w, h3, h4⟩ := ih (fun b hb => hg b (by simp [hb])) t
    refine ⟨w, ?_, h2.trans h4⟩
    show (EStateM.bind (g a) (fun b => EStateM.bind (List.mapM' g l) (fun bs => pure (b :: bs)))) s = _
    simp only [EStateM.bind, h1, h3]
    rfl

theorem mapM_counts_err {α : Type} (pre : List Nat) (row : Nat) (post : List Nat) (g : Nat → Op α) (h : Nat → α) (e : Err)
    (hg : ∀ row ∈ pre, ∀ s, ∃ t, g row s = .ok (h row) t ∧ CountsOnly s t)
    (he : ∀ s, ∃ t, g row s = .error e t ∧ CountsOnly s t) (s : State) :
    ∃ t, ((pre ++ row :: post).mapM g) s = .error e t ∧ CountsOnly s t := by
  rw [← List.mapM'_eq_mapM]
  induction pre generalizing s with
  | nil =>
    obtain ⟨t, h1, h2⟩ := he s
    refine ⟨t, ?_, h2⟩
    show (EStateM.bind (g row) (fun b => EStateM.bind (List.mapM' g post) (fun bs => pure (b :: bs)))) s = _
    simp only [EStateM.bind, h1]
  | cons a l ih =>
    obtain ⟨t, h1, h2⟩ := hg a (by simp) s
    obtain ⟨w, h3, h4⟩ := ih (fun b hb => hg b (by simp [hb])) t
    refine ⟨w, ?_, h2.trans h4⟩
    show (EStateM.bind (g a) (fun b => EStateM.bind (List.mapM' g (l ++ row :: post)) (fun bs => pure (b :: bs)))) s = _
    simp only [EStateM.bind, h1, h3]

theorem mapRows_counts (c : Ctx) (f : Insn) (t : Tag) (g : State → Nat → Op (Option Nat)) (h : Nat → Option Nat) (u : State)
    (hg : ∀ row ∈ activeRows u c f, ∀ s, ∃ w, g s row s = .ok (h row) w ∧ CountsOnly s w) :
    ∃ w, CountsOnly u w ∧ mapRows c f t g u =
      .ok () (columnWritten w c f.rd t ((activeRows u c f).map (fun row => (row, h row)))) := by
  obtain ⟨w, h1, h2⟩ := mapM_counts (activeRows u c f) (fun row => (do let s1 ← get; let v ← g s1 row; pure (row, v) : Op (Nat × Option Nat))) (fun row => (row, h row)) (by
    intro row hr s
    obtain ⟨w, h1, h2⟩ := hg row hr s
    refine ⟨w, ?_, h2⟩
    show (EStateM.bind (g s row) (fun v => pure (row, v))) s = _
    simp only [EStateM.bind, h1]
    rfl) u
  refine ⟨w, h2, ?_⟩
  unfold mapRows
  exact (bind_get _ _).trans ((bind_ok h1).trans rfl)

theorem mapRows_err (c : Ctx) (f : Insn) (t : Tag) (g : State → Nat → Op (Option Nat)) (h : Nat → Option Nat) (u : State) (pre post : List Nat) (row : Nat)
    (hr : activeRows u c f = pre ++ row :: post) (e : Err)
    (hg : ∀ row ∈ pre, ∀ s, ∃ w, g s row s = .ok (h row) w ∧ CountsOnly s w)
    (he : ∀ s, ∃ w, g s row s = .error e w ∧ CountsOnly s w) :
    ∃ w, CountsOnly u w ∧ mapRows c f t g u = .error e w := by
  obtain ⟨w, h1, h2⟩ := mapM_counts_err pre row post (fun row => (do let s1 ← get; let v ← g s1 row; pure (row, v) : Op (Nat × Option Nat))) (fun row => (row, h row)) e (by
    intro row hr s
    obtain ⟨w, h1, h2⟩ := hg row hr s
    refine ⟨w, ?_, h2⟩
    show (EStateM.bind (g s row) (fun v => pure (row, v))) s = _
    simp only [EStateM.bind, h1]
    rfl) (by
    intro s
    obtain ⟨w, h1, h2⟩ := he s
    refine ⟨w, ?_, h2⟩
    show (EStateM.bind (g s row) (fun v => pure (row, v))) s = _
    simp only [EStateM.bind, h1]) u
  refine ⟨w, h2, ?_⟩
  unfold mapRows
  rw [← hr] at h1
  exact (bind_get _ _).trans (bind_err h1)

theorem convOr_ok (c : Ctx) (t : Tag) (row : Nat) (v : Int) (m : Nat) (cut : Bool) (s : State) :
    ∃ w, convOr c t row (.ok v) m cut s = .ok (some (valueRaw t.typ v)) w ∧ CountsOnly s w := by
  cases cut
  · exact ⟨_, rfl, State.countReq_countsOnly _ _ _ _ none⟩
  · exact ⟨_, rfl, (State.countReq_countsOnly s c.req 0x506 1 none).trans (State.countReq_countsOnly _ _ _ _ none)⟩

theorem mapRows_pure (c : Ctx) (f : Insn) (t : Tag) (g : State → Nat → Op (Option Nat)) (h : Nat → Option Nat) (u : State)
    (hg : ∀ row ∈ activeRows u c f, g u row u = .ok (h row) u) :
    mapRows c f t g u = .ok () (columnWritten u c f.rd t ((activeRows u c f).map (fun row => (row, h row)))) := by
  have key : ∀ l : List Nat, (∀ row ∈ l, g u row u = .ok (h row) u) →
      (l.mapM (fun row => (do let s1 ← get; let v ← g s1 row; pure (row, v) : Op (Nat × Option Nat)))) u = .ok (l.map (fun row => (row, h row))) u := by
    intro l hl
    rw [← List.mapM'_eq_mapM]
    induction l with
    | nil => rfl
    | cons a l ih =>
      have i := ih (fun b hb => hl b (by simp [hb]))
      have h0 : (do let s1 ← get; let v ← g s1 a; pure (a, v) : Op (Nat × Option Nat)) u = .ok (a, h a) u := by
        refine (bind_get _ _).trans ?_
        exact (bind_ok (hl a (by simp))).trans rfl
      exact (bind_ok h0).trans ((bind_ok i).trans rfl)
  unfold mapRows
  exact (bind_get _ _).trans ((bind_ok (key _ hg)).trans rfl)

theorem mapM_go {α : Type} {g : Nat → Op α} {l : List Nat} {s t : State} {vs : List α} (h : RowsGo g l s vs t) :
    (l.mapM g) s = .ok vs t := by
  rw [← List.mapM'_eq_mapM]
  induction l generalizing s vs with
  | nil => obtain ⟨rfl, rfl⟩ := h; rfl
  | cons a l ih =>
    obtain ⟨v, u, ws, h1, h2, rfl⟩ := h
    show (EStateM.bind (g a) (fun b => EStateM.bind (List.mapM' g l) (fun bs => pure (b :: bs)))) s = _
    simp only [EStateM.bind, h1, ih h2]
    rfl

theorem forM_go {g : Nat → Op Unit} {l : List Nat} {s t : State} {vs : List Unit} (h : RowsGo g l s vs t) :
    (l.forM g) s = .ok () t := by
  induction l generalizing s vs with
  | nil => obtain ⟨rfl, rfl⟩ := h; rfl
  | cons a l ih =>
    obtain ⟨v, u, ws, h1, h2, rfl⟩ := h
    show (EStateM.bind (g a) (fun _ => l.forM g)) s = _
    simp only [EStateM.bind, h1, ih h2]

end Sys2Proof.Machine
end

