-- ==== Sys2Proof/Laws/Step.lean ====
section
/-! SUPPORT. Every command and every step only evolves the state (Safety.lean, Evolves). -/

namespace Sys2Proof.Machine

/-- Every command's next state is an effect that only evolves the state, settled. -/
theorem command_done (c : Instr) (s : State) : ∃ u, exec c s = done u ∧ Evolves s u :=
  match c with
  | .nop _ => execNop_done
  | .fence _ => execFence_done
  | .abort _ => execAbort_done
  | .query _ => execQuery_done
  | .pipeRun _ => execPipeRun_done
  | .pipeArgs _ => execPipeArgs_done
  | .indexLookup _ => execIndexLookup_done
  | .rowFetch _ => execRowFetch_done
  | .copy _ => execCopy_done
  | .fill _ => execFill_done
  | .copyList _ => execCopyList_done
  | .compress _ => execCompress_done
  | .decompress _ => execDecompress_done
  | .digest _ => execDigest_done
  | .digestKeyed _ => execDigestKeyed_done
  | .contextSave _ => execContextSave_done
  | .contextRestore _ => execContextRestore_done
  | .read _ => execRead_done
  | .write _ => execWrite_done
  | .flush _ => execFlush_done
  | .trim _ => execTrim_done
  | .begin _ => execBegin_done
  | .commit _ => execCommit_done
  | .snapshotOpen _ => execSnapshotOpen_done
  | .snapshotClose _ => execSnapshotClose_done
  | .sliceCreate _ => execSliceCreate_done
  | .sliceReset _ => execSliceReset_done
  | .volumeCreate _ => execVolumeCreate_done
  | .volumeDelete _ => execVolumeDelete_done
  | .sanitise _ => execSanitise_done
  | .format _ => execFormat_done
  | .dumpRead _ => execDumpRead_done
  | .tlbInvalAddr _ => execTlbInvalAddr_done
  | .tlbInvalTag _ => execTlbInvalTag_done
  | .tlbInvalAll _ => execTlbInvalAll_done
  | .endPart _ _ _ => execEndPart_done
  | .instrNop _ _ _ => execInstrNop_done
  | .br _ _ _ => execBr_done
  | .loop _ _ _ => execLoop_done
  | .endloop _ _ _ => execEndloop_done
  | .movs _ _ _ => execMovs_done
  | .salu _ _ _ => execSalu_done
  | .dcol _ _ _ => execDcol_done
  | .drec _ _ _ => execDrec_done
  | .drowid _ _ _ => execDrowid_done
  | .cmp _ _ _ => execCmp_done
  | .tcmp _ _ _ => execTcmp_done
  | .inset _ _ _ => execInset_done
  | .isnull _ _ _ => execIsnull_done
  | .mand _ _ _ => execMand_done
  | .mor _ _ _ => execMor_done
  | .mnot _ _ _ => execMnot_done
  | .sel _ _ _ => execSel_done
  | .add _ _ _ => execAdd_done
  | .sub _ _ _ => execSub_done
  | .mul _ _ _ => execMul_done
  | .div _ _ _ => execDiv_done
  | .rem _ _ _ => execRem_done
  | .neg _ _ _ => execNeg_done
  | .abs _ _ _ => execAbs_done
  | .min _ _ _ => execMin_done
  | .max _ _ _ => execMax_done
  | .cvt _ _ _ => execCvt_done
  | .mov _ _ _ => execMov_done
  | .csel _ _ _ => execCsel_done
  | .coalesce _ _ _ => execCoalesce_done
  | .dpart _ _ _ => execDpart_done
  | .dadd _ _ _ => execDadd_done
  | .hashk _ _ _ => execHashk_done
  | .build _ _ _ => execBuild_done
  | .probe _ _ _ => execProbe_done
  | .part _ _ _ => execPart_done
  | .agg _ _ _ => execAgg_done
  | .gagg _ _ _ => execGagg_done
  | .afin _ _ _ => execAfin_done
  | .stcol _ _ _ => execStcol_done
  | .strec _ _ _ => execStrec_done
  | .stscl _ _ _ => execStscl_done
  | .merge _ _ _ => execMerge_done
  | .tappend _ _ _ => execTappend_done
  | .doorbell _ _ _ => execDoorbell_done
  | .poll _ => execPoll_done
  | .weirPass => execWeirPass_done
  | .entryFetch => execEntryFetch_done
  | .chainTimeout _ => execChainTimeout_done
  | .taskCreate => execTaskCreate_done
  | .taskReady _ _ => execTaskReady_done
  | .delayOut _ => execDelayOut_done
  | .dispatchHome _ _ => execDispatchHome_done
  | .dispatchAffinity _ _ => execDispatchAffinity_done
  | .affinityWindowEnd _ _ => execAffinityWindowEnd_done
  | .steal _ => execSteal_done
  | .batchAdmit _ => execBatchAdmit_done
  | .stageStep _ _ => execStageStep_done
  | .taskComplete _ _ => execTaskComplete_done
  | .flowRelease _ _ => execFlowRelease_done
  | .jobRelease _ => execJobRelease_done
  | .barrierFlushDone _ => execBarrierFlushDone_done
  | .preempt _ => execPreempt_done
  | .park _ => execPark_done
  | .taskStop _ => execTaskStop_done
  | .sortRun _ _ => execSortRun_done
  | .combine _ _ => execCombine_done
  | .mergeUpdate _ _ => execMergeUpdate_done
  | .recordJoin => execRecordJoin_done
  | .commitClaims => execCommitClaims_done
  | .groupClose => execGroupClose_done
  | .sealDurable => execSealDurable_done
  | .epochPublish => execEpochPublish_done
  | .projectionApply _ => execProjectionApply_done
  | .writeback _ _ => execWriteback_done
  | .driveComplete _ _ _ => execDriveComplete_done
  | .commandTimeout _ _ _ => execCommandTimeout_done
  | .rebuildDone _ => execRebuildDone_done
  | .volumeOpDone _ => execVolumeOpDone_done
  | .replayDone => execReplayDone_done
  | .descriptorComplete _ => execDescriptorComplete_done
  | .moverGrant _ => execMoverGrant_done
  | .moverPreempt _ => execMoverPreempt_done
  | .requestLine _ _ => execRequestLine_done
  | .blockAbsorb _ => execBlockAbsorb_done
  | .lineFill _ => execLineFill_done
  | .dramRead _ => execDramRead_done
  | .writeDrain _ => execWriteDrain_done
  | .pageIdleClose _ _ => execPageIdleClose_done
  | .refresh _ _ => execRefresh_done
  | .zqCalibration _ => execZqCalibration_done
  | .tempPoll _ => execTempPoll_done
  | .patrolRead _ => execPatrolRead_done
  | .srReentry _ => execSrReentry_done
  | .queueEnable _ _ => execQueueEnable_done
  | .queueDisable _ _ => execQueueDisable_done
  | .evHeadWrite _ _ => execEvHeadWrite_done
  | .tailraceEnable _ _ => execTailraceEnable_done
  | .evModeChange _ _ => execEvModeChange_done
  | .profileWrite _ => execProfileWrite_done
  | .profileLock _ => execProfileLock_done
  | .traceEnable _ => execTraceEnable_done
  | .preemptColsApply => execPreemptColsApply_done
  | .checkCacheFlush _ => execCheckCacheFlush_done
  | .checkpoint _ => execCheckpoint_done
  | .replayStart _ => execReplayStart_done
  | .tableRegister _ _ => execTableRegister_done
  | .portAttach _ _ => execPortAttach_done
  | .portDetach _ _ => execPortDetach_done
  | .registerMark _ _ => execRegisterMark_done
  | .invalOpAddr _ => execInvalOpAddr_done
  | .invalOpTag _ => execInvalOpTag_done
  | .invalOpAll _ => execInvalOpAll_done
  | .invalComplete _ => execInvalComplete_done
  | .hostSync _ => execHostSync_done
  | .granaryDisable _ => execGranaryDisable_done
  | .granaryEnable _ => execGranaryEnable_done
  | .drainComplete => execDrainComplete_done
  | .granClean _ => execGranClean_done
  | .granInvalidate _ => execGranInvalidate_done
  | .granCleanInvalidate _ => execGranCleanInvalidate_done
  | .granZero _ => execGranZero_done
  | .maintComplete => execMaintComplete_done
  | .srReqSet _ => execSrReqSet_done
  | .srReqClear _ => execSrReqClear_done
  | .arm _ _ => execArm_done
  | .disarm _ _ => execDisarm_done
  | .stopChannel _ _ => execStopChannel_done
  | .resumeChannel _ _ => execResumeChannel_done
  | .resetDrained _ => execResetDrained_done
  | .msixUnmask _ => execMsixUnmask_done
  | .bar4Access _ => execBar4Access_done
  | .bar4Resize _ => execBar4Resize_done
  | .rcRead _ => execRcRead_done
  | .registerWrite _ => execRegisterWrite_done
  | .bootClear _ => execBootClear_done
  | .manualTrigger _ => execManualTrigger_done
  | .otpProgram _ => execOtpProgram_done
  | .otpProgrammed _ => execOtpProgrammed_done
  | .generateKey _ => execGenerateKey_done
  | .importKey _ => execImportKey_done
  | .clearKey _ => execClearKey_done
  | .grantKey _ => execGrantKey_done
  | .keyOpDone => execKeyOpDone_done
  | .challenge _ => execChallenge_done
  | .restoreDataWrite _ => execRestoreDataWrite_done
  | .verify _ => execVerify_done
  | .keysRestored => execKeysRestored_done
  | .counterFreeze _ => execCounterFreeze_done
  | .counterUnfreeze _ => execCounterUnfreeze_done
  | .counterClear _ => execCounterClear_done
  | .counterWrite _ _ => execCounterWrite_done
  | .sckOverflow _ => execSckOverflow_done
  | .windowWrite _ => execWindowWrite_done
  | .clearPeak _ => execClearPeak_done
  | .windowEnd => execWindowEnd_done
  | .statusCmd _ => execStatusCmd_done
  | .tempCmd _ => execTempCmd_done
  | .dumpTriggerCmd _ => execDumpTriggerCmd_done
  | .clearBootCmd _ => execClearBootCmd_done
  | .stepCmd _ => execStepCmd_done
  | .powerOn _ => execPowerOn_done
  | .pwrGoodFall => execPwrGoodFall_done
  | .pwrFail => execPwrFail_done
  | .warmReset _ => execWarmReset_done
  | .functionLevelReset => execFunctionLevelReset_done
  | .bootStepTimeout _ => execBootStepTimeout_done
  | .millerWatchdog => execMillerWatchdog_done
  | .fatalError _ => execFatalError_done
  | .brakeTrip _ _ => execBrakeTrip_done
  | .thermTrip _ => execThermTrip_done
  | .bucketRefill => execBucketRefill_done
  | .perstNRise => execPerstNRise_done
  | .hostReadCompletion _ _ => execHostReadCompletion_done
  | .blockStaged _ => execBlockStaged_done
  | .atomicopRequesterEnable _ => execAtomicopRequesterEnable_done

/-- Every command only evolves the state. -/
theorem command_evolves {c : Instr} {s t : State} (e : exec c s = .next t) : Evolves s t := by
  obtain ⟨u, hu, h⟩ := command_done c s
  have g : settle u = t := Host.Outcome.next.inj (hu.symm.trans e)
  rw [← g]
  exact settle_evolves h

/-- No round leaves anything owed. -/
theorem settleRounds_owes (n : Nat) (s : State) : owes (settleRounds n s) = false := by
  induction n generalizing s with
  | zero => rfl
  | succ n ih =>
    unfold settleRounds
    split
    · exact ih _
    · next h => simpa using h

/-- A settled state of canonical form owes nothing. -/
theorem settle_owes {s : State} (h : s.canon) : (settle s).calm := by
  have c := (settleRounds_evolves (n := 130) (.refl s)).canon h
  have o := settleRounds_owes 130 s
  unfold settle
  generalize settleRounds 130 s = v at c o
  simp only [owes, Bool.or_eq_false_iff, Option.isSome_eq_false_iff, Option.isNone_iff_eq_none, Bool.not_eq_false',
    List.isEmpty_iff] at o
  unfold preemptSettle
  split
  · refine ⟨o.1.1, o.1.2, o.2, fun _ => ?_⟩
    rw [State.fld_setFld c.2.1 _ _ _ (by decide), State.fld_setFld_fld c.2.1 F.stnCfg_preempt_active F.stnCfg_preempt_cols _ _ rfl (by decide) (by decide)]
    exact Nat.mod_eq_of_lt (bitsAt_lt _ _ _)
  · next g =>
    refine ⟨o.1.1, o.1.2, o.2, fun hj => ?_⟩
    simpa [hj] using g

/-- Every step only evolves the state, the command in front taken off its queue. -/
theorem step_evolves {s t : State} (e : step s = .next t) : Evolves { s with pending := s.pending.tail } t := by
  unfold step at e
  split at e
  · next hp =>
    cases Host.Outcome.next.inj e
    have h : ({ s with pending := s.pending.tail } : State) = s := by rw [hp]; cases s; simp_all
    rw [h]
    exact idle_evolves (.refl s)
  · next hp =>
    rw [hp]
    exact command_evolves e

end Sys2Proof.Machine
end

