-- ==== Sys2Proof/Tests/Slice0.lean ====
section
/-! SUPPORT. Tests: small steps on small states, each check of WellFormed on an ill-formed command, and for each statement states
and operands that meet its premises together. -/

open Sys2Proof Sys2Proof.Machine

namespace Sys2Proof.Tests

-- One test at a time: each is checked on a stack of its own, and many at once need more memory than one.
set_option Elab.async false

/-- A device that is on and ready, every other register at its reset value. -/
def tOn : State :=
  ({ State.reset with boot := { Boot.off with on := true, perst := true } } : State).setFlag F.bootStatus_ready 0 true

/-- A FIRST entry by its operand fields (02 Table 2.2). -/
def tEntry (p0 l0 l1 p1 : Nat) : List Byte :=
  zeros 20 ++ natLE 4 p0 ++ zeros 24 ++ natLE 4 l0 ++ natLE 4 l1 ++ natLE 8 p1

/-- A fetched job of slice 0, queue 0, of one entry. -/
def tJob (id op : Nat) (first : List Byte) : Job :=
  { id := id, slice := 0, queue := 0, gen := 0, index := 0,
    hdr := ⟨op, 5, 0, false, 0, false, false, false, false, false, 0, none, false⟩, epoch := 7, entries := [first],
    lastFetched := true, started := false, awaits := [], counter := none, delay := none, ntasks := none, created := 0,
    outc := none, pnr := false, hostWrote := false, flushing := false, flushed := false, evReserved := false, evHeld := false,
    txn := none, txns := [], pipe := none, rows := [], sumHi := 0, sumLo := 0, progress := 0 }

/-- A device with jobs in its job table. -/
def tJobs (js : List Job) : State := { tOn with fan := { tOn.fan with jobs := js } }

/-- The state with one job of an opcode. -/
def tOne (op p0 l0 l1 p1 : Nat) : State := tJobs [tJob 1 op (tEntry p0 l0 l1 p1)]

/-- The next state of an outcome. -/
def tNext (o : Out) : State := match o with
  | .next t => t
  | .fault _ => State.reset
  | .refused _ => State.reset

theorem witness_StepRunsFront : ({ tOn with pending := [.replayDone, .sealDurable] } : State).pending = .replayDone :: [.sealDurable] := rfl

theorem witness_EmptyQueueStep :
    (State.reset.pending = [] ∧ State.reset.boot.on = false) ∧
    (tOn.pending = [] ∧ tOn.boot.on = true ∧ tOn.boot.running = []) ∧
    (∃ s : State, s.pending = [] ∧ s.boot.on = true ∧ s.boot.running = [0x0A] ∧ bootWaits s = true) ∧
    ∃ s : State, s.pending = [] ∧ s.boot.on = true ∧ s.boot.running ≠ [] ∧ bootWaits s = false :=
  ⟨by decide, by decide, ⟨{ tOn with boot := { tOn.boot with running := [0x0A], perst := false } }, by decide⟩,
    ⟨{ tOn with boot := { tOn.boot with running := [0x01] } }, by decide⟩⟩

/-- State.reset meets the invariants' premises, and steps. -/
theorem witness_StepKeepsInvariants : State.reset.canon ∧ State.reset.otpFresh ∧ State.reset.barLegal ∧ State.reset.calm ∧
    step State.reset = .next State.reset :=
  ⟨by unfold State.canon; decide, fun o h => (by cases h), by unfold State.barLegal; decide, by decide, rfl⟩

/-- An OTP word not all zeros, and a programming in progress at another. -/
theorem witness_StepKeepsOtpWords : ∃ s : State, s.canon ∧ s.otpFresh ∧ s.otpAt 0 ≠ 0 ∧ s.otpOp = some ⟨0, 1, 5⟩ :=
  ⟨{ tOn with otp := [(0, 3)], otpOp := some ⟨0, 1, 5⟩ }, by unfold State.canon; decide,
    fun o h => by cases h; decide, by decide, rfl⟩

theorem witness_SettledStatesOweNothing : tOn.calm ∧ tOn.canon := by unfold State.canon; decide

theorem witness_NopAndFenceEnd :
    (tOne 1 0 0 0 0).calm ∧ (startJob (tOne 1 0 0 0 0) 1 1).isSome = true ∧ (startJob (tOne 2 0 0 0 0) 1 2).isSome = true ∧
    startJob (tOne 1 0 0 0 0) 2 1 = none ∧ startJob (tJobs [{ tJob 1 2 [] with awaits := [0] }]) 1 2 = none := by decide

theorem witness_OutcomeIsFixedOnce :
    (tOne 1 0 0 0 0).job 1 = some (tJob 1 1 (tEntry 0 0 0 0)) ∧ (tJob 1 1 (tEntry 0 0 0 0)).outc = none ∧
    (tJobs [{ tJob 1 1 [] with outc := some ⟨0x20, 0, 0⟩ }]).job 1 = some { tJob 1 1 [] with outc := some ⟨0x20, 0, 0⟩ } := by decide

/-- The target, tag 5 of queue 0, whose LAST is not fetched. -/
def tTarget : Job := { tJob 3 0x0200 (tEntry 0 0 0 0) with lastFetched := false }

/-- QUERY of a target in each state, and of none; param0 names the tag and the queue. -/
theorem witness_QueryReportsItsTarget : ∀ x ∈ [tTarget, { tTarget with lastFetched := true },
      { tTarget with lastFetched := true, started := true, ntasks := some 70000 }],
    let s := tJobs [x, tJob 4 4 (tEntry 0x50000 0 0 0)]
    s.calm ∧ startJob s 4 4 = some (tJob 4 4 (tEntry 0x50000 0 0 0)) ∧ targetOf s (tJob 4 4 (tEntry 0x50000 0 0 0)) = some x ∧
      targetOf s (tJob 4 4 (tEntry 0x50001 0 0 0)) = none := by decide

/-- The words that QUERY reports: being fetched; waiting; started with 70,000 tasks left, saturated (02 R61). -/
theorem test_query : (([tTarget, { tTarget with lastFetched := true },
      { tTarget with lastFetched := true, started := true, ntasks := some 70000 }].map (fun x =>
    (tNext (exec (.query 4) (tJobs [x, tJob 4 4 (tEntry 0x50000 0 0 0)]))).job 4)).map (fun j => (j.bind (·.outc)).map (·.result) )).map
      (fun r => r.map (· % 4)) = [some 3, some 1, some 2] := by decide

theorem witness_AbortHasThreeOutcomes :
    startJob (tOne 3 0x50000 0 0 0) 1 3 = some (tJob 1 3 (tEntry 0x50000 0 0 0)) ∧
    targetOf (tOne 3 0x50000 0 0 0) (tJob 1 3 (tEntry 0x50000 0 0 0)) = none ∧ (tOne 3 0x50000 0 0 0).calm ∧
    (∀ p ∈ [true, false], ∃ s : State, ∃ t, startJob s 4 3 = some (tJob 4 3 (tEntry 0x50000 0 0 0)) ∧ s.calm ∧
      targetOf s (tJob 4 3 (tEntry 0x50000 0 0 0)) = some t ∧ t.pnr = p) :=
  ⟨by decide, by decide, by decide, fun p _ =>
    ⟨tJobs [{ tTarget with pnr := p }, tJob 4 3 (tEntry 0x50000 0 0 0)], { tTarget with pnr := p }, by cases p <;> decide⟩⟩

/-- A Toll context held by slice 0 under handle 0. -/
def tHeld : TollCtx := { hash := ⟨1, [], [], 0⟩, slice := 0, held := some 0 }

/-- The same opcodes with a context held. -/
def tOneHeld (op p0 l1 : Nat) : State := { tOne op p0 0 l1 0 with units := { Units.empty with ctxs := [(0, some tHeld)] } }

/-- The engine opcodes that may start: each form, the least operands. -/
theorem witness_TaskedOpcodesStart :
    (∀ op ∈ [0x0200, 0x0201, 0x0202, 0x0403], (startJob (tOne op 0 0 0 0) 1 op).isSome = true ∧ (tOne op 0 0 0 0).calm) ∧
    (∃ j ∈ startJob (tOne 0x0300 4 1 0 0) 1 0x0300, eLen0 j.first ≠ 0 ∧ qSlotted j = false) ∧
    (∃ j ∈ startJob (tOne 0x0300 0x404 1 0x1040 0) 1 0x0300, eLen0 j.first ≠ 0 ∧ qSlotted j = true ∧ qCount j * qSlot j = eLen1 j.first) ∧
    (∀ p ∈ [4, 0x404], ∃ j ∈ startJob (tOne 0x0301 p 16 0 0) 1 0x0301, eLen0 j.first = 16 ∧ qSlotted j = (p == 0x404)) ∧
    (∃ j ∈ startJob (tOneHeld 0x0400 0x28000000 32) 1 0x0400, dgCont j = true ∧ dgHold j = false ∧
      (ctxOfHandle (tOneHeld 0x0400 0x28000000 32) j.slice (dgHandle j)).isSome = true ∧ algDigest (dgAlg j) = eLen1 j.first) ∧
    (∃ j ∈ startJob (tOne 0x0401 0x30000000 0 0 0) 1 0x0401, dgCont j = false ∧ dgHold j = true) ∧
    (∃ j ∈ startJob (tOneHeld 0x0402 0 416) 1 0x0402,
      ctxOfHandle (tOneHeld 0x0402 0 416) j.slice (eParam0 j.first % 65536) = some (0, tHeld) ∧ eLen1 j.first = 416) ∧
    (∃ j ∈ startJob (tOne 0x0110 1 0 16 0) 1 0x0110, eParam0 j.first ≠ 0 ∧
      lookupLen (eParam0 j.first) (fetchCols j.entries).length = eLen1 j.first) := by decide

theorem witness_ShortOperandsEndTheJob :
    (∀ op ∈ [0x0300, 0x0301], ∃ j ∈ startJob (tOne op 4 0 0 0) 1 op, eLen0 j.first = 0) ∧
    (∃ j ∈ startJob (tOne 0x0301 4 15 0 0) 1 0x0301, 0 < eLen0 j.first ∧ eLen0 j.first < 16) ∧
    (∃ j ∈ startJob (tOne 0x0300 0x404 1 0x103F 0) 1 0x0300, 0 < eLen0 j.first ∧ qSlotted j = true ∧ eLen1 j.first < qCount j * qSlot j) ∧
    (∃ j ∈ startJob (tOne 0x0400 0x28000000 0 32 0) 1 0x0400, dgCont j = true ∧
      ctxOfHandle (tOne 0x0400 0x28000000 0 32 0) j.slice (dgHandle j) = none) ∧
    (∃ j ∈ startJob (tOne 0x0401 0x20000000 0 31 0) 1 0x0401, dgCont j = false ∧ dgHold j = false ∧
      eLen1 j.first < algDigest (dgAlg j)) ∧
    (∃ j ∈ startJob (tOneHeld 0x0400 0x28000000 31) 1 0x0400, dgCont j = true ∧ dgHold j = false ∧
      ctxOfHandle (tOneHeld 0x0400 0x28000000 31) j.slice (dgHandle j) = some (0, tHeld) ∧ tHeld.job = none ∧ eLen1 j.first < algDigest (dgAlg j)) ∧
    (∃ j ∈ startJob (tOne 0x0402 0 0 416 0) 1 0x0402, ctxOfHandle (tOne 0x0402 0 0 416 0) j.slice (eParam0 j.first % 65536) = none) ∧
    (∃ j ∈ startJob (tOne 0x0110 0 0 0 0) 1 0x0110, eParam0 j.first = 0) := by decide

theorem witness_SnapshotOpenRegisters :
    (tOne 0x0602 0 0 0 0).calm ∧ (startJob (tOne 0x0602 0 0 0 0) 1 0x0602).isSome = true ∧
    (tOne 0x0602 0 0 0 0).mpd.snaps.length < 4096 ∧
    ∃ s : State, s.calm ∧ (startJob s 1 0x0602).isSome = true ∧ s.mpd.snaps.length = 4096 :=
  ⟨by decide, by decide, by decide, ⟨{ tOne 0x0602 0 0 0 0 with mpd := { Mpd.empty with snaps := List.replicate 4096 (0, 7) } },
    by decide, rfl, List.length_replicate⟩⟩

/-- Two registrations of the pair and one of another epoch. -/
theorem witness_SnapshotCloseRemovesOne :
    (tOne 0x0603 0 0 0 0).calm ∧ (startJob (tOne 0x0603 0 0 0 0) 1 0x0603).isSome = true ∧
    (0, 0) ∉ (tOne 0x0603 0 0 0 0).mpd.snaps ∧
    ∃ s : State, s.calm ∧ (startJob s 1 0x0603).isSome = true ∧ (0, 0) ∈ s.mpd.snaps :=
  ⟨by decide, by decide, by decide,
    ⟨{ tOne 0x0603 0 0 0 0 with mpd := { Mpd.empty with snaps := [(0, 7), (0, 0), (0, 0)] } }, by decide⟩⟩

theorem witness_LowWaterNeverFalls : ∃ s : State, s.canon ∧ s.reg .mpdLowWater 0 ≤ s.reg .mpdEpoch 0 ∧ (0, 9) ∈ s.mpd.snaps ∧
    s.reg .mpdLowWater 0 ≤ 9 :=
  ⟨{ tOn.setReg .mpdEpoch 0 9 with mpd := { Mpd.empty with snaps := [(0, 9)] } }, by unfold State.canon; decide⟩

/-- Whether an operation ended well. -/
def tOk {α : Type} (x : Except Err α × State) : Bool := match x.1 with
  | .ok _ => true
  | .error _ => false

theorem of_tOk {α : Type} {x : Except Err α × State} (h : tOk x = true) : ∃ a t, x = (.ok a, t) := by
  obtain ⟨e, t⟩ := x
  cases e with
  | ok a => exact ⟨a, t, rfl⟩
  | error e => cases h

theorem of_not_tOk {α : Type} {x : Except Err α × State} (h : tOk x = false) : ∃ e t, x = (.error e, t) := by
  obtain ⟨e, t⟩ := x
  cases e with
  | ok a => cases h
  | error e => exact ⟨e, t, rfl⟩

/-- The state with slice 0's first GiB mapped to the host's first, read, written and fetched, by an entry of every TLB (13 Table 13.3). -/
def tMap (s : State) : State :=
  { s.setReg .xltS2Root 0 1 with
    xlt := { s.xlt with l2 := (List.range 17).map (fun u => (u, [⟨0, true, 1, 0, 0x9FD + hostBase, 0⟩])) } }

/-- A transaction 1 of the job 1. -/
def tTxn (members : List Nat) (failed : Bool) : Txn := ⟨1, 0, 0, 7, failed, true, members, 0, some 1, [], [], .open_⟩

/-- The state with a job of an opcode in that transaction, before or after replay. -/
def tTxnState (op : Nat) (members : List Nat) (failed replayed readOnly : Bool) : State :=
  { tJobs [{ tJob 1 op (tEntry 0 0 0 0) with txn := some 1 }] with
    regs := (tOn.setFlag F.mpdStatus_replay_done 0 replayed).regs, readOnly := readOnly,
    mpd := { Mpd.empty with txns := [tTxn members failed] } }

theorem witness_TransactionOpcodesAct : ∀ x ∈ [(0x0600, [], false, false, false), (0x0600, [], true, false, false), (0x0601, [2], false, false, false),
      (0x0601, [], false, false, true), (0x0601, [], true, true, false), (0x0601, [], false, true, false)],
    let s := tTxnState x.1 x.2.1 x.2.2.1 x.2.2.2.1 x.2.2.2.2
    s.calm ∧ (startJob s 1 x.1).isSome = true ∧ s.txn 1 = some (tTxn x.2.1 x.2.2.1) ∧ s.readOnly = x.2.2.2.2 ∧
      s.flag F.mpdStatus_replay_done 0 = x.2.2.2.1 := by decide

/-- A TABLE or RECORD volume 3 on port 0 of slice 0, with its key in slot 1, and a job on it; port 0 ONLINE. -/
def tVol (table : Bool) (op p0 l0 l1 : Nat) : State :=
  { tJobs [tJob 1 op (tEntry (p0 + 3) l0 l1 0)] with
    regs := ((tOn.setFld F.volPortStatus_state 0 2).setFlag F.mpdStatus_replay_done 0 true).regs,
    keys := [(1, ⟨1, 0, false, zeros 64⟩)],
    vols := { Vols.empty with table := [(3, ⟨table, false, false, 4, 1024, 1, 1, 0, 0⟩)],
                              drives := [(0, { fitted := true, caps := ⟨5, 4, 1, true, true, false, 8, 256⟩, cap := 100000, meta_ := true, pairs := 8 })] } }

/-- What a READ, a WRITE or a TRIM of the volume 3 meets as it may start: the volume, its outcome at once if any, whether an earlier job overlaps it. -/
def tVolMeets (s : State) (op : Nat) (out : Option Outc) (follows : Bool) : Prop :=
  s.calm ∧ ∃ j ∈ startJob s 1 op, ∃ e ∈ s.vol (volOf j), volStart s j e = out ∧ mustFollow s j = follows

/-- One sector into a buffer of its size, on each kind of volume; no sector; a buffer of 511 bytes; a port that is down; an earlier job of
the same sectors; before replay has ended; under read-only replay. -/
theorem witness_VolumeJobsStart : ∀ op ∈ [0x0500, 0x0501, 0x0503],
    (∀ table ∈ [true, false], tVolMeets (tVol table op 0 1 512) op none false ∧
      (tVol table op 0 1 512).readOnly = false ∧ (tVol table op 0 1 512).flag F.mpdStatus_replay_done 0 = true ∧
      tVolMeets (tVol table op 0 0 0) op (some ⟨0, 0, 0⟩) false ∧
      tVolMeets (tVol table op 0 1 511) op (if op = 0x0503 then none else some ⟨stShort, 1, 512⟩) false ∧
      tVolMeets ((tVol table op 0 1 512).setFld F.volPortStatus_state 0 1) op (some ⟨stOffline, 1, 0⟩) false ∧
      tVolMeets { tVol table op 0 1 512 with fan := { Fan.empty with jobs := [tJob 0 0x0501 (tEntry 3 1 512 0), tJob 1 op (tEntry 3 1 512 0)] } }
        op none true) ∧
    (∀ x ∈ [(true, true), (false, false)], ∀ s : State, s = { (tVol false op 0 1 512).setFlag F.mpdStatus_replay_done 0 x.1 with readOnly := x.2 } →
      tVolMeets s op none false ∧ s.flag F.mpdStatus_replay_done 0 = x.1 ∧ s.readOnly = x.2 ∧
      (∀ j ∈ startJob s 1 op, journals s j = (op != 0x0500))) := by
  unfold tVolMeets
  intro op h
  have e : op = 0x0500 ∨ op = 0x0501 ∨ op = 0x0503 := by simpa using h
  rcases e with rfl | rfl | rfl <;> refine ⟨by decide, fun x g s e => ?_⟩ <;> subst e <;>
    (have g : x = (true, true) ∨ x = (false, false) := by simpa using g) <;> rcases g with rfl | rfl <;> decide

theorem witness_FlushSamplesTheEpoch : ∀ table ∈ [true, false], (tVol table 0x0502 0 0 0).calm ∧
    ∃ j ∈ startJob (tVol table 0x0502 0 0 0) 1 0x0502, ∃ e ∈ (tVol table 0x0502 0 0 0).vol (volOf j),
      volLost (tVol table 0x0502 0 0 0) e = false ∧ e.table = table := by decide

/-- A VOLUME_CREATE of volume 3 where none is: on port 0, which is ONLINE, or port 1, which is OFFLINE. -/
def tCreate (p0 : Nat) : State :=
  { tVol true 0x0702 p0 0 0 with regs := ((tVol true 0 0 0 0).setFld F.slcCfg_state 0 1).regs, vols := { (tVol true 0 0 0 0).vols with table := [] } }

/-- An operation of volume 3 under way for the job, in turn. -/
def tVolOp (op code : Nat) : State :=
  { tVol true op 0 0 0 with vols := { (tVol true 0 0 0 0).vols with ops := [(3, ⟨code, some 1, [], 0, 0, 0, 0, false, 0, []⟩)] } }

/-- A created volume on a port that is ONLINE, or OFFLINE, and one of a number that is in use; the others with the operation's job in turn. -/
theorem witness_VolumeOpcodesAct :
    (∃ j ∈ startJob (tCreate 0x100) 1 0x0702, createStands (tCreate 0x100) j = true ∧ createRefusals (tCreate 0x100) j = []) ∧
    (∃ j ∈ startJob (tCreate 0x200) 1 0x0702, createStands (tCreate 0x200) j = true ∧ createRefusals (tCreate 0x200) j ≠ []) ∧
    (∃ j ∈ startJob (tVol true 0x0702 0x100 0 0) 1 0x0702, createStands (tVol true 0x0702 0x100 0 0) j = false) ∧
    ((tCreate 0x200).calm ∧ (tVol true 0x0702 0x100 0 0).calm) ∧
    ∀ x ∈ [(0x0703, 4), (0x0704, 1), (0x0705, 2)], ∃ j ∈ startJob (tVolOp x.1 x.2) 1 x.1, opReady (tVolOp x.1 x.2) j = true ∧
      ((tVolOp x.1 x.2).vol (volOf j)).isSome = true := by decide

/-- Slice 63 is ABSENT; slice 0 runs. -/
theorem witness_SliceOpcodesAct :
    (∃ j ∈ startJob (tOne 0x0700 0xFC000000 0 0 0) 1 0x0700, eParam0 j.first / 2 ^ 26 = 63) ∧
    (∃ j ∈ startJob (tOne 0x0701 0 0 0 0) 1 0x0701, eParam0 j.first / 2 ^ 26 = 0 ∧ resetWaits (tOne 0x0701 0 0 0 0) 0 = false ∧
      (tOne 0x0701 0 0 0 0).fld F.slcCfg_state 0 ≠ 0) ∧
    (∃ j ∈ startJob (tOne 0x0701 0xFC000000 0 0 0) 1 0x0701, eParam0 j.first / 2 ^ 26 = 63 ∧
      resetWaits (tOne 0x0701 0xFC000000 0 0 0) 63 = false ∧ (tOne 0x0701 0xFC000000 0 0 0).fld F.slcCfg_state 63 = 0 ∧
      (tOne 0x0701 0xFC000000 0 0 0).calm) ∧
    ∀ s : State, s = { tOne 0x0701 0 0 0 0 with resets := [⟨0, 9, true, 0, 0, false, false⟩] } →
      (startJob s 1 0x0701).isSome = true ∧ resetWaits s 0 = true ∧ s.calm := by
  refine ⟨by decide, by decide, by decide, fun s e => ?_⟩
  subst e
  decide

theorem witness_InvalidationsAct :
    (∀ n ∈ [0, 1], ∃ j ∈ startJob (tOne 0x0800 0 n 0 0) 1 0x0800, eLen0 j.first = n) ∧
    ∀ op ∈ [0x0800, 0x0801, 0x0802], (startJob (tOne op 0 0 0 0) 1 op).isSome = true ∧ (tOne op 0 0 0 0).calm := by decide

/-- A cached leaf of slice 0 at its page 0 is purged by an invalidation of one page there, and not by one of the next page's GiB. -/
theorem test_purge : ((xltPurge (tMap tOn) ⟨0, false, true, 0, 0, 1⟩).xlt.l2.all (fun p => p.2.isEmpty)) = true ∧
    ((xltPurge (tMap tOn) ⟨0, false, true, 0, 2 ^ 30, 1⟩).xlt.l2.all (fun p => p.2.length == 1)) = true := by decide

/-- Every operation of an invalidation, at 0 and at 1 page, in a state that holds entries. -/
theorem witness_InvalidationPurges : ∀ q ∈ ([⟨2, false, false, 0, 0, 0⟩, ⟨1, true, true, 0, 0, 0⟩, ⟨0, true, false, 0, 0, 1⟩, ⟨0, false, true, 0, 0, 1⟩,
    ⟨0, true, false, 0, 0, 0⟩] : List InvalReq), q.op ≤ 2 ∧ (tMap tOn).xlt.l2 ≠ [] := by decide

/-- A held dump, its DRAM part valid or not. -/
def tDump (valid : Nat) (s : State) : State := { s with mpd := { Mpd.empty with cells := [(dumpHeader + 4, BitVec.ofNat 8 (4 + 2 * valid))] } }

/-- The copy of a DUMP_READ's job from an offset, of n bytes. -/
def tDumpCopy (p0 off n : Nat) : Op Unit :=
  dumpBytes ((tJob 1 0x0706 (tEntry p0 65536 0 off)).req .fantail) off n >>= fun b => jobWrite 1 ((tJob 1 0x0706 (tEntry p0 65536 0 off)).req .fantail) 0 b

/-- No dump; one of Millpond bytes alone, read from its end, and its last byte copied, to be released or not; one with its part in DRAM. -/
theorem witness_DumpReadAnswers :
    (∃ j ∈ startJob (tOne 0x0706 0 65535 0 0) 1 0x0706, eLen0 j.first < 65536 ∧ (tOne 0x0706 0 65535 0 0).calm) ∧
    (∃ j ∈ startJob (tOne 0x0706 0 65536 0 0) 1 0x0706, 65536 ≤ eLen0 j.first ∧ dumpHeld (tOne 0x0706 0 65536 0 0) = false) ∧
    (∀ v ∈ [0, 1], ∃ j ∈ startJob (tDump v (tOne 0x0706 0 65536 0 65536)) 1 0x0706, dumpHeld (tDump v (tOne 0x0706 0 65536 0 65536)) = true ∧
      dumpValid (tDump v (tOne 0x0706 0 65536 0 65536)) = (v == 1) ∧ 65536 ≤ eParam1 j.first ∧ eParam1 j.first < 268500992) ∧
    ∀ b ∈ [0, 1], ∃ j ∈ startJob (tDump 0 (tMap (tOne 0x0706 b 65536 0 65535))) 1 0x0706, j = tJob 1 0x0706 (tEntry b 65536 0 65535) ∧
      eLen0 j.first = 65536 ∧ eParam1 j.first = 65535 ∧ bitAt (eParam0 j.first) 0 = (b == 1) ∧ eAddr0 j.first = 0 ∧
      dumpHeld (tDump 0 (tMap (tOne 0x0706 b 65536 0 65535))) = true ∧
      tOk ((tDumpCopy b 65535 1).exec (tDump 0 (tMap (tOne 0x0706 b 65536 0 65535)))) = true := by decide

/-- A program of 16 columns with one pool constant, 9, and the layout 1 of one-byte records without fields. -/
def tProg : Prog :=
  { batchLog := 10, cols := 16, statics := 0, totalLen := 96, crc := 0, secs := [], code := [], codeBlock := 0, codeOff := 0,
    pool := [⟨⟨tInt64, 0⟩, false, 9, 0, 0, 0⟩], poolOff := 0, poolBytes := [], phases := [⟨List.replicate 18 0, 0⟩], binds := [],
    layouts := [(1, ⟨1, 0, 0, 1, 0x20, 0x20, 0x2B, 0x2D, false, 0, 0, [⟨0, 1, 0, 1, 0, false, 0, false, true, true, 0, 0, 0, 0⟩]⟩)], tables := [], argTags := [] }

/-- A pipeline job of that program, binding 2 at 4,096 with a length of 8,192. -/
def tPipe (p : Prog) : PipeJob := ⟨⟨0, 0, 96, 0⟩, p, [(2, 4096, 8192)], 0, 0, 0, [⟨0, 0, 2, 0⟩]⟩

/-- A batch of two rows. -/
def tBatch (sel : List Bool) : Batch := ⟨0, 0, 2, sel, [], []⟩

/-- A column of 64-bit integers. -/
def tCol (k : Nat) (v : List (Nat × Option Nat)) : Nat × Col := (k, { tag := ⟨tInt64, 0⟩, lanes := v })

/-- A scalar that holds a value. -/
def tVal (typ v : Nat) : Scalar := { tag := ⟨typ, 0⟩, val := some v }

/-- The running task, the batch in stage 3. -/
def tRun (sel : List Bool) (dir : Option Dir) (tables : List (Nat × HtHdr)) : Run :=
  { job := 1, part := 0, interactive := false, base := 0, avail := 64, bank := 0, frames := 1, next := 1, total := 1,
    stages := [(3, ⟨some (tBatch sel), false, none, 0, [], true⟩)], dir := dir, segs := [(1, ⟨4096, 4096, 0, tInt64, 0, 8, 2, 0, 64, 0, 0, 0⟩)],
    areas := [1], tables := tables, ledgers := [(4, ⟨0, 0, 4096, 1, 0, []⟩)], merge := some ⟨⟨1, false, false, 0, 0, 0, 0, 2, 2, 2, 8, 8, 4⟩, [], 0, noTag, [], 2, false⟩ }

/-- Stone 0 with columns C0 = 7, NULL; C1 = 2, 0; C2 = -3, -3; C3 of dates; C4 = the deletion of row 0; masks M0 = 1 0, M1 = 0 1; scalars S0 = 6, S1 = 3, S2 an offset 0, S8 NULL. -/
def tStone (r : Run) : Stone :=
  { Stone.empty with
    cols := [tCol 0 [(0, some 7)], tCol 1 [(0, some 2), (1, some 0)], tCol 2 [(0, some (2 ^ 64 - 3)), (1, some (2 ^ 64 - 3))],
             (3, { tag := ⟨tDate, 0⟩, lanes := [(0, some 19000), (1, some 1)] }), (4, { tag := ⟨tUint64, 0⟩, lanes := [(0, some (2 ^ 63))] })],
    masks := [(0, [true, false]), (1, [false, true])],
    scalars := [(0, tVal tInt64 6), (1, tVal tInt64 3), (2, tVal tUint64 0), (3, tVal tUint64 0), (4, tVal tUint64 0), (5, tVal tUint64 0)],
    run := some r }

/-- The pipeline job on stone 0, its task in progress. -/
def tPipeJob (p : Prog) : Job := { tJob 1 0x0100 (tEntry 1 0 0 0) with started := true, pipe := some (tPipe p) }

/-- A task. -/
def tTask (job part : Nat) (e : Engine) (st : TaskState) : Task := ⟨job, part, e, st, [], none, 0, 0, false, 0, false, false⟩

/-- The state in which stage 3 of stone 0 may issue. -/
def tIssue (r : Run) : State :=
  { tMap (tJobs [tPipeJob tProg]) with
    fan := { Fan.empty with jobs := [tPipeJob tProg], tasks := [tTask 1 0 .stone (.placed 0)] },
    pipe := { Pipe.empty with stones := [(0, tStone r)] } }

/-- The context of its instructions. -/
def tCtx (sel : List Bool) : Ctx :=
  { stone := 0, stage := 3, part := 1, num := 0, job := 1, req := (tPipeJob tProg).req (.stone 0), pj := tPipe tProg, partn := 0,
    p := ⟨0, 0, 2, 0⟩, base := 0, bank := 0, batch := some (tBatch sel), epoch := 7, txn := 0 }

/-- Both rows selected. -/
def tBoth : List Bool := [true, true]

/-- The running task's state with both rows selected. -/
def tS : State := tIssue (tRun tBoth none [])

theorem witness_StageIssues : ∀ sel ∈ [tBoth, [true, false], [false, false]], ∀ d ∈ ([none, some ⟨0, false, 2, 0, 0, 0, [(0, 0), (4096, 4096)]⟩] : List (Option Dir)),
    StageIssues (tIssue (tRun sel d [])) 0 3 (tRun sel d []) (tCtx sel) := by
  intro sel h d g
  have h : sel = tBoth ∨ sel = [true, false] ∨ sel = [false, false] := by simpa using h
  have g : d = none ∨ d = some ⟨0, false, 2, 0, 0, 0, [(0, 0), (4096, 4096)]⟩ := by simpa using g
  rcases h with rfl | rfl | rfl <;> rcases g with rfl | rfl <;>
    exact ⟨by decide, by decide, by decide, by decide, by decide, by decide, _, rfl, by decide⟩

/-- The lanes of a column after an instruction of stage 3. -/
def tLanes (i : Instr) (k : Nat) : List (Option Nat) := [0, 1].map ((tNext (exec i tS)).col 0 k).lane
/-- A mask after an instruction. -/
def tMask (i : Instr) (k : Nat) : List Bool := tget (fun _ => []) ((tNext (exec i tS)).stone 0).masks k
/-- A scalar after an instruction. -/
def tScalar (i : Instr) (k : Nat) : Option Nat := (tget (fun _ => Scalar.empty) ((tNext (exec i tS)).stone 0).scalars k).val
/-- The fields of an instruction on C0 and C1 into column 8, of 64-bit integers. -/
def tF : Insn := { rd := 8, ra := 0, rb := 1, typ := tInt64 }

/-- NULL for a NULL operand, the exact result else (08 R266 to R268): 7 + 2, 7 - 2, 7 * 2, the lesser and the greater. -/
theorem test_add : tLanes (.add 0 3 tF) 8 = [some 9, none] := by decide
theorem test_sub : tLanes (.sub 0 3 { tF with ra := 1, rb := 2 }) 8 = [some 5, some 3] := by decide
theorem test_mul : tLanes (.mul 0 3 { tF with rb := 2 }) 8 = [some (2 ^ 64 - 21), none] := by decide
/-- -3 / 2 rounded to even at scale 0 (08 R267, R270): -1.5 to -2. -/
theorem test_div : tLanes (.div 0 3 { tF with ra := 2, rb := 1, g := true, gm := 0 }) 8 = [some (2 ^ 64 - 2), none] := by decide
/-- The remainder has the dividend's sign (08 R268). -/
theorem test_rem : tLanes (.rem 0 3 { tF with ra := 2, rb := 1, g := true, gm := 0 }) 8 = [some (2 ^ 64 - 1), none] := by decide
theorem test_min : tLanes (.min 0 3 { tF with ra := 2, rb := 1 }) 8 = [some (2 ^ 64 - 3), some (2 ^ 64 - 3)] := by decide
theorem test_max : tLanes (.max 0 3 { tF with ra := 2, rb := 1 }) 8 = [some 2, some 0] := by decide
theorem test_neg : tLanes (.neg 0 3 { tF with ra := 2 }) 8 = [some 3, some 3] := by decide
theorem test_abs : tLanes (.abs 0 3 { tF with ra := 2 }) 8 = [some 3, some 3] := by decide
/-- -3 to DECIMAL64 of scale 2: the coefficient -300 (08 R272). -/
theorem test_cvt : tLanes (.cvt 0 3 { tF with ra := 2, typ := tDec64, scale := 2 }) 8 = [some (2 ^ 64 - 300), some (2 ^ 64 - 300)] := by decide
/-- MOV of the pool constant. -/
theorem test_mov : tLanes (.mov 0 3 { tF with bk := 3 }) 8 = [some 9, some 9] := by decide
theorem test_csel : tLanes (.csel 0 3 { tF with ra := 0, rb := 2, mod := 0 }) 8 = [some 7, some (2 ^ 64 - 3)] := by decide
theorem test_coalesce : tLanes (.coalesce 0 3 { tF with ra := 0, rb := 2 }) 8 = [some 7, some (2 ^ 64 - 3)] := by decide
/-- DATE counts days from 1900-01-01 (05 Table 5.3): day 19,000 is in 1952. -/
theorem test_dpart : tLanes (.dpart 0 3 { tF with ra := 3, typ := tInt32, mod := 0 }) 8 = [some 1952, some 1900] := by decide
theorem test_dadd : tLanes (.dadd 0 3 { tF with ra := 3, rb := 1, typ := tDate, mod := 0 }) 8 = [some 19002, some 1] := by decide
/-- The upper bits of the hash (07 R226). -/
theorem test_part : tLanes (.part 0 3 { tF with ra := 2, typ := tUint32, scale := 4 }) 8 = [some 15, some 15] := by decide
/-- The first of two groups' keys hashes as the second lane of the same value does, and not as NULL (07 R223). -/
theorem test_hashk : (tLanes (.hashk 0 3 { tF with ra := 2, typ := tUint64 }) 8).eraseDups.length = 1 ∧
    (tLanes (.hashk 0 3 { tF with ra := 0, typ := tUint64 }) 8).eraseDups.length = 2 := by decide
/-- 7 > 2; NULL > 0 is UNKNOWN (06 R214, R215). -/
theorem test_cmp : tMask (.cmp 0 3 { tF with rd := 2, typ := 0, mod := 4 + 8 }) 2 = [true, false] ∧
    tMask (.cmp 0 3 { tF with rd := 2, typ := 0, mod := 4 + 8 }) 3 = [false, true] := by decide
theorem test_isnull : tMask (.isnull 0 3 { tF with rd := 2, typ := 0 }) 2 = [false, true] := by decide
theorem test_inset : tMask (.inset 0 3 { tF with rd := 2, typ := 0, scale := 1 }) 2 = [false, false] := by decide
theorem test_mand : tMask (.mand 0 3 { rd := 2, ra := 0, rb := 1 }) 2 = [false, false] := by decide
theorem test_mor : tMask (.mor 0 3 { rd := 2, ra := 0, rb := 1 }) 2 = [true, true] := by decide
theorem test_mnot : tMask (.mnot 0 3 { rd := 2, ra := 0 }) 2 = [false, true] := by decide
/-- SEL keeps the rows of M0 (06 R220). -/
theorem test_sel : ((((tNext (exec (.sel 0 3 { ra := 0 }) tS)).stone 0).run).bind (fun r => (r.stage 3).batch)).map (·.sel) = some [true, false] := by decide
/-- The scalars: a copy, the rows of the batch, 6 + 3, 6 shifted by 3 (05 Table 5.12). -/
theorem test_movs : tScalar (.movs 0 3 { rd := 9, bk := 2, rb := 1 }) 9 = some 3 ∧ tScalar (.movs 0 3 { rd := 9, mod := 5 }) 9 = some 2 := by decide
theorem test_salu : tScalar (.salu 0 3 { rd := 9, ra := 0, bk := 2, rb := 1 }) 9 = some 9 ∧
    tScalar (.salu 0 3 { rd := 9, ra := 0, bk := 2, rb := 1, mod := 5 }) 9 = some 48 := by decide
/-- SUM of -3 and -3 into the accumulator S8 to S11 (07 R239), and AFIN of S0 to S3's value 6. -/
theorem test_agg : tScalar (.agg 0 3 { rd := 8, ra := 2, mod := 0 }) 8 = some (2 ^ 64 - 6) := by decide
theorem test_afin : tScalar (.afin 0 3 { rd := 9, ra := 12, typ := tInt64 }) 9 = none := by decide

/-- The sequencer's cases: a branch taken and not, a loop's body again and its end. -/
theorem witness_SequencerGoesOn : scalarRaw tS (tCtx tBoth) 0 = some 6 ∧ scalarRaw tS (tCtx tBoth) 2 = some 0 ∧
    scalarRaw tS (tCtx tBoth) 20 = none := by decide

/-- An END ends the stage's step; BR, LOOP and ENDLOOP move on; a NOP does nothing else. -/
theorem test_sequencer :
    seqNext tS (tCtx tBoth) 3 { mod := 1, ra := 0, imm := 4 } 10 [] = some (15, []) ∧
    seqNext tS (tCtx tBoth) 3 { mod := 2, ra := 0, imm := 4 } 10 [] = some (11, []) ∧
    seqNext tS (tCtx tBoth) 5 {} 12 [(11, 2)] = some (11, [(11, 1)]) ∧ seqNext tS (tCtx tBoth) 5 {} 12 [(11, 1)] = some (13, []) := by decide

/-- Both forms of the mask logic are reached: pairs (mod 8) and single masks. -/
theorem witness_MaskLogic : ∀ f ∈ ([{ mod := 8 }, { mod := 7 }] : List Insn), 8 ≤ f.mod ∨ f.mod < 8 := by decide

/-- Operands of comparable types, one of them NULL. -/
theorem witness_PredicatesComplete :
    comparable (source tS (tCtx tBoth) 0 0 0).tag.typ (source tS (tCtx tBoth) 0 1 0).tag.typ = true ∧ (source tS (tCtx tBoth) 0 0 0).raw 1 = none ∧
    (∀ x ∈ (tPipe tProg).prog.pool.take 1, comparable tInt64 x.tag.typ = true) ∧ (tCtx tBoth).batch = some (tBatch tBoth) := by decide

/-- Ties, both sides (08 Table 8.3): 2.5 and -2.5 under the six modes. -/
theorem test_rounding : [0, 1, 2, 3, 4, 5].map (fun m => (roundDiv m 250 100, roundDiv m (-250) 100)) =
    [(some 2, some (-2)), (some 3, some (-3)), (some 2, some (-2)), (some 2, some (-3)), (some 3, some (-2)), (none, none)] := by decide

/-- Both operands of SALU held; one NULL; each source of MOVS. -/
theorem witness_ScalarInstructions :
    (∃ p q, (scalar tS (tCtx tBoth) 0).val = some p ∧ (source tS (tCtx tBoth) 2 1 0).raw 0 = some q ∧ p < 2 ^ 64 ∧ q < 2 ^ 64) ∧
    (scalar tS (tCtx tBoth) 20).val = none := ⟨⟨6, 3, by decide⟩, by decide⟩

/-- Both rows of C1 and C2, the first of C0 by C1: each operation's operands admitted, each row with its result; and a division by 0 in
the second row after a row that divides. -/
theorem witness_ArithmeticCompletes :
    (∀ x ∈ arithRows, arithTypes x.2 tF (some ⟨tInt64, 0⟩) (some ⟨tInt64, 0⟩) = true) ∧
    (∀ op ∈ [0x30, 0x31, 0x32, 0x33, 0x34, 0x37, 0x38], ∃ v, arithGives op tF (source tS (tCtx tBoth) 0 0 0) (source tS (tCtx tBoth) 0 1 0) 0 v) ∧
    (∀ op ∈ [0x30, 0x31, 0x32, 0x33, 0x34, 0x37, 0x38], arithGives op tF (source tS (tCtx tBoth) 0 0 0) (source tS (tCtx tBoth) 0 1 0) 1 none) ∧
    activeRows tS (tCtx tBoth) tF = [0] ++ 1 :: [] ∧ (source tS (tCtx tBoth) 0 2 0).raw 1 = some (2 ^ 64 - 3) ∧
    (source tS (tCtx tBoth) 0 1 0).raw 1 = some 0 ∧ rawValue tInt64 0 = 0 := by
  have one : ∀ (op : Nat) (w : Int), ((op = 0x33 ∨ op = 0x34) → rawValue tInt64 2 ≠ 0) → arithConv op (insnTag tF) 0 (rawValue tInt64 7) 0 (rawValue tInt64 2) 0 = .ok w →
      ∃ v, arithGives op tF (source tS (tCtx tBoth) 0 0 0) (source tS (tCtx tBoth) 0 1 0) 0 v := fun op w h g =>
    ⟨some (valueRaw tInt64 w), .inr ⟨7, 2, w, by decide, by decide, h, g, rfl⟩⟩
  refine ⟨by decide, fun op h => ?_, fun op h => .inl ⟨.inl (by decide), rfl⟩, by decide, by decide, by decide, by decide⟩
  have e : op = 0x30 ∨ op = 0x31 ∨ op = 0x32 ∨ op = 0x33 ∨ op = 0x34 ∨ op = 0x37 ∨ op = 0x38 := by simpa using h
  rcases e with rfl | rfl | rfl | rfl | rfl | rfl | rfl
  · exact one _ 9 (by decide) (by decide)
  · exact one _ 5 (by decide) (by decide)
  · exact one _ 14 (by decide) (by decide)
  · exact one _ 4 (by decide) (by decide)
  · exact one _ 1 (by decide) (by decide)
  · exact one _ 2 (by decide) (by decide)
  · exact one _ 7 (by decide) (by decide)

/-- Whether an operation ends well in a state. -/
def tEnds {α : Type} (o : Op α) (s : State) : Bool := match o s with
  | .ok _ _ => true
  | .error _ _ => false

theorem of_tEnds {α : Type} {o : Op α} {s : State} (h : tEnds o s = true) : ∃ v t, o s = .ok v t := by
  unfold tEnds at h
  split at h
  · exact ⟨_, _, by assumption⟩
  · cases h

/-- The work of one row ends well. -/
theorem tRows {α : Type} {g : Nat → Op α} {row : Nat} {s : State} (h : tEnds (g row) s = true) : ∃ vs t, RowsGo g [row] s vs t := by
  obtain ⟨v, t, e⟩ := of_tEnds h
  exact ⟨[v], t, v, t, [], e, ⟨rfl, rfl⟩, rfl⟩

/-- The state with the first row selected and what the task has read. -/
def tOneRow (tables : List (Nat × HtHdr)) : State :=
  tIssue (tRun [true, false] (some ⟨0, false, 2, 0, 0, 0, [(0, 0), (4096, 4096)]⟩) tables)

/-- Its context. -/
def tC1 : Ctx := tCtx [true, false]

theorem witness_OneRow : StageIssues (tOneRow []) 0 3 (tRun [true, false] (some ⟨0, false, 2, 0, 0, 0, [(0, 0), (4096, 4096)]⟩) []) tC1 ∧
    activeRows (tOneRow []) tC1 tF = [0] := ⟨⟨by decide, by decide, by decide, by decide, by decide, by decide, _, rfl, by decide⟩, by decide⟩

/-- Each premise of the statement at the row 0, of C2 = -3, C0 = 7, C3 the day 19,000. -/
theorem witness_ColumnInstructions :
    (∀ g ∈ ([fun v => -v, fun v => (v.natAbs : Int), fun v => v] : List (Int → Int)), ∃ p w, (source tS tC1 0 2 0).raw 0 = some p ∧
      convert (g (rawValue tInt64 p)) 0 ⟨tInt64, 0⟩ 0 = .ok w) ∧ isNum tInt64 = true ∧ isText tInt64 = false ∧
    (∃ p w, (source tS tC1 0 3 0).raw 0 = some p ∧ w = datePart 0 (rawValue tDate p) ∧ inRange tInt32 w = true) ∧
    (∀ mod ∈ [0, 1], ∃ w, dateAdd mod false 19000 2 = some w ∧ inRange tDate w = true) ∧
    readAcc tS tC1 20 = none ∧ (∃ v w, readAcc tS tC1 2 = some v ∧ isNum (scalar tS tC1 2).tag.typ = true ∧
      convert v (scalar tS tC1 2).tag.scale ⟨tInt64, 0⟩ 0 = .ok w) := by
  refine ⟨fun g h => ?_, by decide, by decide, ⟨19000, 1952, by decide⟩, fun m h => ?_, by decide, ⟨0, 0, by decide⟩⟩
  · simp only [List.mem_cons, List.not_mem_nil, or_false] at h
    rcases h with rfl | rfl | rfl
    · exact ⟨2 ^ 64 - 3, 3, by decide, by decide⟩
    · exact ⟨2 ^ 64 - 3, 3, by decide, by decide⟩
    · exact ⟨2 ^ 64 - 3, -3, by decide, by decide⟩
  · have h : m = 0 ∨ m = 1 := by simpa using h
    rcases h with rfl | rfl
    · exact ⟨19002, by decide⟩
    · exact ⟨19060, by decide⟩

/-- The directory, the segment and the field that the task has read. -/
def tDir : Dir := ⟨0, false, 2, 0, 0, 0, [(0, 0), (4096, 4096)]⟩
def tSeg : SegHdr := ⟨4096, 4096, 0, tInt64, 0, 8, 2, 0, 64, 0, 0, 0⟩
def tField : LField := ⟨0, 1, 0, 1, 0, false, 0, false, true, true, 0, 0, 0, 0⟩
def tLayout : Layout := ⟨1, 0, 0, 1, 0x20, 0x20, 0x2B, 0x2D, false, 0, 0, [tField]⟩

theorem ends_decode : tEnds (decodeRows tC1.dec 1 tSeg 2 0 1) (tOneRow []) = true := by decide +kernel
theorem ends_decode_all : tEnds (decodeRows (tCtx tBoth).dec 1 tSeg 2 0 2) (tOneRow []) = true := by decide +kernel
theorem ends_drec : tEnds (drecRow tC1 tLayout tField ⟨tInt64, 0⟩ 0 0) (tOneRow []) = true := by decide +kernel

/-- Column 0 is absent from the directory; column 1's segment is the one read; the layout 1 has one field and its area is checked. -/
theorem witness_ScanInstructions : (tC1.run (tOneRow [])).bind (·.dir) = some tDir ∧ tDir.cols.getD 0 (1, 0) = (0, 0) ∧
    tDir.cols.getD 1 (1, 0) ≠ (0, 0) ∧ (((tC1.run (tOneRow [])).map (·.segs)).getD []).find? (fun x => x.1 == 1) = some (1, tSeg) ∧
    tSeg.typ = tInt64 ∧ tSeg.scale = 0 ∧ tC1.pj.prog.layout 1 = some tLayout ∧ tLayout.fields[0]? = some tField ∧
    (((tC1.run (tOneRow [])).map (·.areas)).getD []).contains 1 = true ∧ [0].length ≠ tC1.rows ∧ [0, 1].length = (tCtx tBoth).rows ∧
    (tDir.cols.getD tLayout.src (0, 0)).1 + tLayout.recOff (tC1.firstRow + 0) = 0 := by decide

/-- Tables of each kind in binding 2, opened: one sub-table of one bucket, 64-bit integers for keys and values. -/
def tTable (kind : Nat) : HtHdr := ⟨kind, 0, 0, 1, 8, ⟨tInt64, 0⟩, false, [⟨tInt64, 0⟩], [0]⟩

/-- The instruction's fields: the key C0, the value C1, the binding 2. -/
def tB : Insn := { rd := 8, ra := 0, rb := 1, typ := tInt64, imm := 2 }

theorem ends_build : tEnds (buildAt tC1 tB (tOneRow [(2, tTable 1)]) (tTable 1) 0) (tOneRow [(2, tTable 1)]) = true := by decide +kernel
theorem ends_probe : tEnds (probeAt tC1 tB (tOneRow [(2, tTable 1)]) (tTable 1) 0) (tOneRow [(2, tTable 1)]) = true := by decide +kernel
theorem ends_gagg : tEnds (gaggRow (tC1.bnd 2) (tTable 2) 0 0 (some 7) (some 2)) (tOneRow [(2, tTable 2)]) = true := by decide +kernel
/-- Partition 0 of the ledger has one row. -/
def tLedger : State := { tOneRow [] with mem := [(hostBase + 4104, 1)] }
theorem ends_tappend : tEnds (tappendAt tC1 { tB with ra := 4, imm := 4 } tLedger ⟨0, 0, 4096, 1, 0, []⟩ 0) tLedger = true := by decide +kernel
theorem ends_text : tEnds (textAt tC1 ⟨⟨tChar, 0⟩, fun _ => some (handle 4096 1 0)⟩ 0 0 0) (tOneRow []) = true := by decide

/-- The tables and the ledger that the task has opened, with the tests that the instructions make of them met. -/
theorem witness_TableInstructions :
    (tableHeld (tOneRow [(2, tTable 1)]) tC1 tB 1 (tTable 1) ∧ (tTable 1).vtags.headD noTag = colTag (tOneRow [(2, tTable 1)]) tC1 1) ∧
    (tableHeld (tOneRow [(2, tTable 2)]) tC1 tB 2 (tTable 2) ∧ gaggSlot tC1.pj.prog tC1.num 2 = 0 ∧ 0 < (tTable 2).slots ∧
      (tTable 2).funcs.getD 0 0 = 0 ∧ (tTable 2).vtags.getD 0 noTag = (source (tOneRow [(2, tTable 2)]) tC1 0 1 0).tag) ∧
    (((tC1.run (tOneRow [])).map (·.ledgers)).getD []).find? (fun x => x.1 == 4) = some (4, ⟨0, 0, 4096, 1, 0, []⟩) ∧
    (source (tOneRow []) tC1 0 0 0).raw 1 = none := by unfold tableHeld; decide

theorem ends_stcol : tEnds (stcolBytes tC1 { tB with mod := 0 } (source tS tC1 0 0 0) 0) tS = true := by decide
theorem ends_write : tEnds ((tC1.bnd 2).write 0 (zeros 8)) tS = true := by decide
theorem ends_strec : tEnds (strecRow tC1 { rd := 2, ra := 0, imm := 0x102 } tLayout 0) tS = true := by decide

/-- The offset register S2 holds 0; S20 is NULL; the layout 1; a row is active, or none. -/
theorem witness_OutputInstructions : (scalar tS tC1 2).val = some 0 ∧ tC1.pj.prog.layout (0x102 / 256) = some tLayout ∧
    activeRows tS tC1 {} = [0] ∧ activeRows tS (tCtx [false, false]) {} = [] := by decide

/-- A host write of a register is taken. -/
def tTakes (s : State) (r : Reg) (i : Nat) : Bool :=
  decide (i < (rowOf r).insts) && served s (rowOf r).bar2
    (if (rowOf r).bar2 then i / (if (rowOf r).stride = 0 then 1 else 8) * 65536 else (rowOf r).off)

theorem of_tTakes {s : State} {r : Reg} {i : Nat} (h : tTakes s r i = true) : HostTakes s r i := by
  simpa [tTakes, HostTakes] using h

/-- The device on takes writes of every register that the statements name. -/
theorem witness_HostTakes : ∀ x ∈ ([(.wqCfg, 7), (.wqDoorbell, 7), (.slcEvHead, 0), (.slcEvCfg, 0), (.devProfile, 0), (.fanTraceCfg, 0), (.stnCheckCtl, 0),
      (.mpdCkpt, 0), (.mpdReplay, 0), (.mpdTableCfg, 255), (.volPortCtl, 7), (.xltInval, 0), (.grnCtl, 0), (.grnMaintCtl, 0), (.dmcPwr, 0),
      (.sluChCtl, 31), (.tolValidBytes, 31), (.otpProgCtl, 0), (.brkKeyCtl, 0), (.brkRestoreCtl, 0), (.brkRestoreData, 0), (.bootClear, 0),
      (.bootDump, 0), (.sckCtl, 0), (.sckCnt, 127), (.sckBwCfg, 0), (.sckBwCtl, 0)] : List (Reg × Nat)), tTakes tOn x.1 x.2 = true := by decide +kernel

/-- A queue enabled with a depth of 16, its indices 0. -/
def tQueue : State := ((tOn.setFlag F.wqCfg_enable 0 true).setFld F.wqCfg_depth_log2 0 4)

/-- Depths 4 and 16 that may be enabled, 3 and 17 that may not; an enabled queue; a doorbell of 1 and of 16; a head of 0 and one beyond. -/
theorem witness_QueueCommands :
    ((hostIn tOn 4).flag F.wqCfg_enable 0 = false ∧ (hostIn tOn 4).flag F.wqState_idle 0 = true ∧
      ∀ d ∈ [3, 4, 16, 17], bitsAt (putBits (d * 2 ^ 16) 31 1 1 % 2 ^ 32) 16 5 = d) ∧
    ((hostIn tQueue 4).flag F.wqCfg_enable 0 = true ∧ (hostIn tQueue 4).flag F.wqCfg_poll 0 = false ∧
      (hostIn tQueue 4).flag F.slcStatus_halted 0 = false ∧ (hostIn tQueue 4).fld F.slcCfg_state 0 ≠ 3 ∧ (hostIn tQueue 4).halted = false ∧
      ∀ d ∈ [1, 16], sub32 d ((hostIn tQueue 4).head 0) ≤ 2 ^ depthLog (hostIn tQueue 4) 0 ∧
        sub32 ((hostIn tQueue 4).tailOf 0) ((hostIn tQueue 4).head 0) < sub32 d ((hostIn tQueue 4).head 0) ∧ d ≠ (hostIn tQueue 4).tailOf 0) ∧
    (sub32 0 ((hostIn tOn 4).reg .slcEvHead 0) ≤ sub32 ((hostIn tOn 4).reg .slcEvTail 0) ((hostIn tOn 4).reg .slcEvHead 0) ∧
      sub32 ((hostIn tOn 4).reg .slcEvTail 0) ((hostIn tOn 4).reg .slcEvHead 0) < sub32 1 ((hostIn tOn 4).reg .slcEvHead 0)) ∧
    (hostIn tOn 4).flag F.slcEvCfg_enable 0 = false ∧ (hostIn (tOn.setFlag F.slcEvCfg_enable 0 true) 4).flag F.slcEvCfg_enable 0 = true := by
  decide

/-- A doorbell of 1 moves TAIL to 1 (03 R79); one beyond the depth does not. -/
theorem test_doorbell : (tNext (exec (.doorbell 0 0 1) tQueue)).tailOf 0 = 1 ∧ (tNext (exec (.doorbell 0 0 17) tQueue)).tailOf 0 = 0 := by decide
theorem test_queueEnable : (tNext (exec (.queueEnable 0 0x40000) tOn)).flag F.wqCfg_enable 0 = true ∧
    (tNext (exec (.queueEnable 0 0x30000) tOn)).flag F.wqState_cfg_error 0 = true := by decide
theorem test_queueDisable : (tNext (exec (.queueDisable 0 0) tQueue)).flag F.wqCfg_enable 0 = false := by decide
theorem test_evHead : (tNext (exec (.evHeadWrite 0 1) tOn)).flag F.slcStatus_ev_head_bad 0 = true := by decide

theorem witness_DeviceCommands :
    profileLocked (hostIn tOn 4) = false ∧ (∀ v ∈ [0, 2, 3], bitAt v 31 = false) ∧
    profileLocked (hostIn (tOn.setFlag F.devProfile_lock 0 true) 4) = true ∧
    (hostIn tOn 4).flag F.fanTraceCfg_enable 0 = false ∧ ∀ d ∈ [4, 16], bitsAt (putBits (d * 2 ^ 16) 31 1 1 % 2 ^ 32) 16 5 = d := by decide
/-- The rows of 01 Table 1.6: strict, and the reserved profile 3, which changes nothing. -/
theorem test_profile : [0, 1, 2, 3].map (fun v => (tNext (exec (.profileWrite v) tOn)).reg .devCfg 0) = [0x03, 0x14, 0x28, 0x14] := by decide

/-- An open commit group with the epochs 3 and 8: checkpoints of 3 and 8, of 2 and 9. -/
def tLedgerOn : State :=
  { (tOn.setReg .mpdCkpt 0 3).setReg .mpdEpoch 0 8 with mpd := { Mpd.empty with grp := some ⟨9, 0, 256, 0, 0, [], none, false⟩ } }

theorem witness_LedgerCommands :
    (mayJoin (hostIn tLedgerOn 8) = true ∧ (hostIn tLedgerOn 8).reg .mpdCkpt 0 = 3 ∧ (hostIn tLedgerOn 8).reg .mpdEpoch 0 = 8) ∧
    ((hostIn tOn 4).flag F.mpdStatus_replay_busy 0 = false ∧ (hostIn tOn 4).flag F.mpdStatus_replay_done 0 = false) ∧
    (tableUsed (hostIn tOn 8) 255 = false ∧ bitAt (putBits 0 63 1 1 % 2 ^ 64) 62 = false ∧ bitAt (putBits (2 ^ 62) 63 1 1 % 2 ^ 64) 62 = true) ∧
    ((hostIn tOn 8).vol 0).map (·.owner) ≠ some 0 ∧ (tOn.drive 0).fitted = false ∧
    ((hostIn (tVol false 0 0 0 0) 8).vol 3).map (·.owner) = some 0 := by decide

/-- Each reason that makes a drive unusable, and none (10 R383); the port with no drive, and with each. -/
theorem witness_LedgerCommands_ports :
    ([{}, ⟨5, 4, 2, false, true, false, 8, 256⟩, ⟨5, 4, 2, true, false, false, 8, 256⟩, ⟨5, 4, 2, true, true, true, 8, 256⟩,
      ⟨5, 4, 1, true, true, false, 8, 256⟩, ⟨5, 4, 2, true, true, false, 7, 256⟩, ⟨5, 4, 2, true, true, false, 8, 255⟩,
      ⟨5, 4, 2, true, true, false, 8, 256⟩] : List DriveCaps).map unusableReason = [6, 1, 2, 3, 4, 5, 5, 0] ∧
    tOn.canon ∧ (∀ c ∈ ([{}, ⟨5, 4, 2, true, true, false, 8, 256⟩] : List DriveCaps),
      ((tOn.setDrive 7 (fun d => { d with fitted := true, caps := c })).drive 7).fitted = true ∧
      ((tOn.setDrive 7 (fun d => { d with fitted := true, caps := c })).drive 7).caps = c) := by unfold State.canon; decide

/-- A descriptor of zeros is none of a projection. -/
theorem ends_readProj : tOk ((readProj (tVol false 0 0 0 0) 255 0 3 0).exec (tMap (tVol false 0 0 0 0))) = true := by decide +kernel

theorem test_checkpoint : [2, 3, 8, 9].map (fun c => (tNext (exec (.checkpoint c) tLedgerOn)).reg .mpdCkpt 0) = [3, 3, 8, 3] := by decide +kernel
theorem test_portDetach : (tNext (exec (.portDetach 0 0) (tVol false 0 0 0 0))).fld F.volPortStatus_state 0 ≠ 2 := by decide

/-- The Granary ENABLED, DRAINING and DISABLED. -/
def tGran (k : Nat) : State := tOn.setFld F.grnStatus_state 0 k

/-- Each operation of XLT_INVAL well-formed (stage 2 of slice 0), malformed, and busy; the Granary's states; maintenance of no bytes, of a line of the
host's memory, of a line where no DRAM is. -/
theorem witness_MemoryCommands : tOn.canon ∧
    (∀ x ∈ [(0, 2 ^ 26), (1, 2 ^ 26), (2, 0)], (hostIn tOn 4).flag F.xltInval_busy 0 = false ∧
      lowest (invalProblem (hostIn tOn 4) (invalRegReq ((hostIn tOn 4).setReg .xltInvalPages 0 1) (putBits (putBits x.2 31 1 1) 27 2 x.1))) = none) ∧
    (lowest (invalProblem (hostIn tOn 4) (invalRegReq (hostIn tOn 4) (putBits (putBits 0 31 1 1) 27 2 0)))).isSome = true ∧
    (hostIn (tOn.setFlag F.xltInval_busy 0 true) 4).flag F.xltInval_busy 0 = true ∧
    (∀ k ∈ [0, 1, 2], (hostIn (tGran k) 4).fld F.grnStatus_state 0 = k) ∧
    (hostIn ((tGran 0).setFld F.grnStatus_dirty_lines 0 1) 4).fld F.grnStatus_dirty_lines 0 ≠ 0 ∧ (hostIn (tGran 0) 4).fld F.grnStatus_dirty_lines 0 = 0 ∧
    maintRangeOk (hostIn tOn 4) 0 0 = true ∧ maintRangeOk (hostIn tOn 4) hostBase 64 = true ∧ maintRangeOk (hostIn tOn 4) 0 64 = false ∧
    (hostIn (tOn.setFlag F.grnMaintBusy_busy 0 true) 4).flag F.grnMaintBusy_busy 0 = true ∧ (hostIn tOn 4).flag F.grnMaintBusy_busy 0 = false := by unfold State.canon; decide

theorem test_granaryDisable : (tNext (exec (.granaryDisable 0) (tGran 0))).fld F.grnStatus_state 0 = 2 ∧
    (tNext (exec (.granaryDisable 0) ((tGran 0).setFld F.grnStatus_dirty_lines 0 1))).fld F.grnStatus_state 0 = 1 := by decide
theorem test_srReq : (tNext (exec (.srReqSet 0) (tGran 0))).flag F.dmcPwr_error 0 = true ∧
    (tNext (exec (.srReqSet 0) (tGran 2))).flag F.dmcPwr_sr_req 0 = true := by decide

/-- A channel of the manager, in each state; its shadow armed or not; a shadow of 16 MiB, and one byte more. -/
def tChan (k : Nat) : State := (tOn.setFlag F.sluChCfg_manager 5 true).setFld F.sluChStatus_state 5 k

/-- A Toll context whose job is a DMA-mode digest, 8 bytes absorbed. -/
def tMark (pos : Nat) (mark : Option Nat) : State :=
  { tOne 0x0400 0 0 0 0 with units := { Units.empty with ctxs := [(31, some { hash := ⟨1, [], [], 0⟩, slice := 0, job := some (1, 0), pos := pos, mark := mark })] } }

/-- Every context of the Toll held. -/
def tFull : List (Nat × Option TollCtx) := (List.range 32).map (fun n => (n, some tHeld))

theorem witness_ChannelCommands :
    (tOn.setFlag F.sluChCfg_manager 5 false).flag F.sluChCfg_manager 5 = false ∧
    (∀ k ∈ [0, 1, 3, 5, 6], (tChan k).flag F.sluChCfg_manager 5 = true ∧ (tChan k).fld F.sluChStatus_state 5 = k) ∧
    (descBad (tChan 0) 0 (shadowDesc (tChan 0) 5) = false ∧ shadowReady (tChan 0) 5 = true ∧ (tChan 0).fld F.sluShdLen_length 5 ≤ 16777216 ∧
      16777216 < ((tChan 0).setFld F.sluShdLen_length 5 16777217).fld F.sluShdLen_length 5) ∧
    (∀ s : State, s = { ((tChan 0).setFlag F.tolTapCfg_enable 0 true).setFld F.sluShdTap_tap 5 (2 ^ 29) with units := { Units.empty with ctxs := tFull } } →
      descBad s 0 (shadowDesc s 5) = false ∧ shadowReady s 5 = false ∧ s.fld F.sluChStatus_state 5 = 0) ∧
    (((tChan 5).setFlag F.sluChStatus_shadow_armed 5 true).flag F.sluChStatus_shadow_armed 5 = true ∧ (tChan 5).flag F.sluChStatus_shadow_armed 5 = false) ∧
    (∃ x ∈ (hostIn (tMark 8 none) 4).ctx 31, ∃ j ∈ x.job.bind (fun y => (hostIn (tMark 8 none) 4).job y.1), j.hdr.op = 0x0400 ∧ dgHold j = false ∧
      packetMark j = none ∧ x.mark = none ∧ 8 * (hostIn (tMark 8 none) 4).fld F.tolLastWord_last_word 31 + 8 = x.pos ∧
      8 * (hostIn (tMark 8 none) 4).fld F.tolLastWord_last_word 31 + 7 < x.pos) ∧
    ∃ x ∈ (hostIn (tMark 8 (some 9)) 4).ctx 31, x.mark.isSome = true := by
  refine ⟨by decide, by decide, by decide, fun s e => ?_, by decide, by decide, by decide⟩
  subst e
  decide

theorem test_stopChannel : [0, 1, 3].map (fun k => (tNext (exec (.stopChannel 5 0) (tChan k))).fld F.sluChStatus_state 5) = [5, 4, 4] := by decide
theorem test_registerMark : (tNext (exec (.registerMark 31 7) (tMark 8 none))).flag F.tolCtxState_mark_late 31 = true ∧
    (((tNext (exec (.registerMark 31 8) (tMark 8 none))).ctx 31).bind (·.mark)) = some 8 ∧
    (tNext (exec (.registerMark 31 8) (tMark 8 (some 9)))).flag F.tolCtxState_mark_ignored 31 = true := by decide

/-- Group 8 with nothing programmed, confirmed; key operations refused and not; keys erased and not; each count of the restore words. -/
theorem witness_SecurityCommands :
    (bitsAt (putBits 0x8A5 31 1 1 % 2 ^ 32) 0 8 = 0xA5 ∧ bitsAt (putBits 0x8A5 31 1 1 % 2 ^ 32) 8 6 = 8 ∧ (hostIn tOn 4).flag F.otpStatus_busy 0 = false ∧
      otpListed 8 = true ∧ otpValid (hostIn tOn 4) 8 = none ∧ otpNext (hostIn tOn 4) 8 = some 0) ∧
    (hostIn (tOn.setFlag F.otpStatus_busy 0 true) 4).flag F.otpStatus_busy 0 = true ∧ bitsAt (putBits 0x8A4 31 1 1 % 2 ^ 32) 0 8 ≠ 0xA5 ∧
    ((hostIn tOn 4).flag F.brkKeyCtl_busy 0 = false ∧ (hostIn tOn 4).flag F.brkStatus_keys_erased 0 = false ∧ slotServes (hostIn tOn 4) 0 = false ∧
      usageOk 1 64 = true ∧ usageOk 2 1 = true ∧ usageOk 2 64 = true ∧ usageOk 1 32 = false ∧ ((hostIn tOn 4).slot 0).usage ≠ 2) ∧
    (hostIn tOn 4).flag F.brkRestoreCtl_busy 0 = false ∧ tOn.flag F.brkStatus_keys_erased 0 = false ∧
    (tOn.setFlag F.brkStatus_keys_erased 0 true).flag F.brkStatus_keys_erased 0 = true ∧
    (∀ k ∈ [0, 24, 25], (hostIn (tOn.setFld F.brkRestoreCtl_words 0 k) 8).fld F.brkRestoreCtl_words 0 = k) ∧
    (hostIn tOn 8).boot.on = true ∧ (hostIn tOn 8).flag F.mpdStatus_pwr_fail 0 = false := by decide +kernel

theorem test_otpProgram : (tNext (exec (.otpProgram 0x8A5) tOn)).flag F.otpStatus_busy 0 = true ∧
    (tNext (exec (.otpProgram 0x8A4) tOn)).flag F.otpStatus_busy 0 = false := by decide +kernel
theorem test_restoreData : [0, 24, 25].map (fun k => (tNext (exec (.restoreDataWrite 7) (tOn.setFld F.brkRestoreCtl_words 0 k))).restoreBuf.length) = [8, 8, 0] := by
  decide
theorem test_clearKey : (tNext (exec (.clearKey 0) tOn)).flag F.brkKeyCtl_busy 0 = true ∧
    (tNext (exec (.grantKey 0) tOn)).flag F.brkKeyCtl_error 0 = true := by decide

theorem witness_CounterCommands : bitAt (putBits 0 30 1 1 % 2 ^ 32) 30 = true ∧ bitAt (putBits 0 31 1 1 % 2 ^ 32) 30 = false ∧
    (1 % 2 ^ 20 = 1 ∧ 1000000 % 2 ^ 20 = 1000000 ∧ 1000001 % 2 ^ 20 = 1000001 ∧ 2 ^ 20 % 2 ^ 20 = 0) := by decide
theorem test_counterWrite : (tNext (exec (.counterWrite 127 (2 ^ 48 + 5)) tOn)).fld F.sckCnt_count 127 = 5 := by decide
theorem test_window : [0, 1, 1000000, 1000001].map (fun v => (tNext (exec (.windowWrite v) tOn)).fld F.sckBwCfg_window_us 0) = [1000, 1, 1000000, 1000] := by
  decide

/-- A held message, masked or not; accesses at the end of BAR4; each size of the BAR; aligned writes. -/
theorem witness_HostAccesses :
    tOn.boot.on = true ∧ served tOn false 0xF00000 = true ∧
    ((hostIn (tOn.setVector 2047 ⟨64, 9, true, true⟩) 4).vector 2047).pending = true ∧ (hostIn tOn 4).msix.funcMask = false ∧
    ((hostIn tOn 4).vector 0).pending = false ∧
    2 ^ tOn.bar4 - 64 + barBytes ⟨2 ^ tOn.bar4 - 64, 64, none⟩ ≤ 2 ^ tOn.bar4 ∧ tOn.flag F.bootStatus_ready 0 = true ∧
    (tOn.setFlag F.bootStatus_ready 0 false).flag F.bootStatus_ready 0 = false ∧
    served (hostIn tOn 4) false 0 = true ∧ (hostIn tOn 8).flag F.bootStatus_ready 0 = true := by decide
theorem test_msixUnmask : (tNext (exec (.msixUnmask 2047) (tOn.setVector 2047 ⟨64, 9, true, true⟩))).msix.sent = [(2047, 64, 9)] := by decide
/-- SCK_CTL reads as its reset value (20). -/
theorem test_rcRead : (tNext (exec (.rcRead ⟨false, (rowOf .sckCtl).off, 4⟩) tOn)).answers.host = natLE 4 0xFFFF := by decide +kernel
theorem test_bar4 : (tNext (exec (.bar4Access ⟨hostBase, 1, none⟩) tOn)).answers.host = [] ∧ (tNext (exec (.bar4Resize 29) tOn)).bar4 = 36 ∧
    (tNext (exec (.bar4Resize 41) tOn)).bar4 = 41 := by decide

/-- A poll-mode queue whose ring stands in host memory: the slot at TAIL holds a header of the expected phase, or zeros. -/
def tPoll (phase : Bool) : State :=
  { tMap (tQueue.setFlag F.wqCfg_poll 0 true) with mem := if phase then [(hostBase + 2, 0x80)] else [] }

theorem ends_poll : ∀ p ∈ [true, false], tOk ((readMem { ringReq 0 with agent := .weir } (slotAddr (tPoll p) 0 0) 8).exec (tPoll p)) = true := by decide

/-- A poll of a slot of the expected phase moves TAIL; of another leaves the slot stale (03 R87). -/
theorem test_poll : (tNext (exec (.poll 0) (tPoll true))).tailOf 0 = 1 ∧ (tNext (exec (.poll 0) (tPoll false))).tailOf 0 = 0 ∧
    ((tNext (exec (.poll 0) (tPoll false))).queue 0).stale = true := by decide

/-- A ring read that returned: a NOP of one entry, a zero entry, a fault, and an entry that follows an open chain. -/
def tRead (b : List Byte) (fault : Option Nat) (chain : Option Chain) : State :=
  { tQueue with issued := [⟨0, 0, 0, b, fault⟩], queues := [(0, { Queue.empty with chain := chain, timer := some 0 })],
                fan := { Fan.empty with jobs := [{ tJob 1 0x0202 [] with lastFetched := false }] } }
/-- A version 2 NOP, FIRST and LAST. -/
def tNopEntry : List Byte := natLE 2 1 ++ natLE 6 0x0203 ++ zeros 56

/-- A queue with a turn due, the jobs of the job table counted, and the read of one FIRST under way. -/
def tTurn (jobs : Nat) : State :=
  { ((tQueue.setReg .wqDoorbell 0 1).setFld F.weirQstat_weight_active 0 1).setFld F.fanStatus_jobs 0 jobs with
    issued := [⟨8, 0, 0, tNopEntry, none⟩] }

/-- An open chain on delay list 2 whose timer of one tick is due, or, with an entry not fetched, is not. -/
def tTimed (tail : Nat) : State :=
  let s := tRead [] none (some ⟨1, 0, 1⟩)
  { (s.setFld F.wqChainTimeout_ticks 0 1).setReg .wqDoorbell 0 tail with issued := [], fan := { s.fan with timers := [0] } }

/-- A poll of each result; a turn due, with the job table empty, one short of full, and with the pass stopped at queue 0; entries handed over, malformed and of a
chain; a timer due and one that is not. -/
theorem witness_FetchEvents :
    (∀ p ∈ [true, false], (tPoll p).flag F.wqCfg_enable 0 = true ∧ (tPoll p).flag F.wqCfg_poll 0 = true ∧ sliceStopped (tPoll p) 0 = false ∧
      ((tPoll p).queue 0).stale = false ∧ (tPoll p).tailOf 0 = 0) ∧ phaseOf 0 4 = 1 ∧
    ((tTurn 0).halted = false ∧ (tTurn 0).flag F.weirCtl_hold 0 = false ∧ (knownQueues (tTurn 0)).any (eligibleButCredit (tTurn 0)) = true ∧
      (∀ n ∈ [0, 8190], (tTurn n).fld F.fanStatus_jobs 0 + ((tTurn n).issued.filter (fun r => eFirst r.data)).length = n + 1) ∧
      (∀ x ∈ [none, some (0, true)], ({ tTurn 0 with fan := { (tTurn 0).fan with passAt := x } } : State).fan.passAt = x)) ∧
    (sliceStopped (tRead tNopEntry none none) 0 = false ∧ (tRead tNopEntry none none).fld F.slcGen_generation 0 = 0 ∧
      (tRead tNopEntry none none).fld F.slcCfg_state 0 ≠ 3 ∧
      entryReason operandForm (queueFlags { tRead tNopEntry none none with issued := [] } 0)
        (entryCtx (queueFlags { tRead tNopEntry none none with issued := [] } 0) ⟨0, 0, 0, tNopEntry, none⟩) = none ∧ eFirst tNopEntry = true) ∧
    (entryReason operandForm (queueFlags { tRead (zeros 64) none none with issued := [] } 0)
      (entryCtx (queueFlags { tRead (zeros 64) none none with issued := [] } 0) ⟨0, 0, 0, zeros 64, none⟩)).isSome = true ∧
    (∀ x ∈ [(0, true), (1, false)], ∀ t, t = clockTo (tTimed x.1) (((tTimed x.1).cycle / 1600 + (0 + (tTimed x.1).fld F.wqChainTimeout_ticks 0 -
        (tTimed x.1).reg .fanTick 0)) * 1600) →
      ((tTimed x.1).queue 0).timer = some 0 ∧ (tTimed x.1).fan.timers.head?.any (· != 0) = false ∧ timerDue t 0 = x.2 ∧
      (t.queue 0).chain = some ⟨1, 0, 1⟩) := by
  refine ⟨by decide +kernel, by decide, by decide +kernel, by decide +kernel, by decide +kernel, fun x h t e => ?_⟩
  subst e
  have h : x = (0, true) ∨ x = (1, false) := by simpa using h
  rcases h with rfl | rfl <;> decide +kernel

/-- A returned NOP is handed over (02 R42, 04 R123). -/
theorem test_entryFetch : (tNext (exec .entryFetch (tRead tNopEntry none none))).fan.jobs.length = 2 := by decide +kernel

/-- A started job of two tasks, none created; its first task waiting, ready, in its affinity window. -/
def tTasks (op : Nat) (e : Engine) (flow : Option Nat) (st : List TaskState) : State :=
  let j : Job := { tJob 1 op (tEntry 2 0 0 0) with
    hdr := ⟨op, 5, 0, false, 0, false, false, false, false, false, 0, flow, false⟩, started := true, ntasks := some 2, created := st.length }
  { tJobs [j] with fan := { Fan.empty with jobs := [j], tasks := (List.range st.length).zip st |>.map (fun x => tTask 1 x.1 e x.2) } }

/-- A started pipeline job of one task, not yet created. -/
def tPipeTask : State := tJobs [{ tPipeJob tProg with ntasks := some 1 }]

/-- The task of flow 4095 in its affinity window to the cycle 5, its last stone idle or not. -/
def tWindow (valid : Bool) : State := (tTasks 0x0110 .stone (some 4095) [.affinity 5]).setFlag F.fanFlowCfg_last_valid 4095 valid

/-- A task created of an engine's job and of a pipeline's. -/
theorem witness_DispatchEvents_create :
    (∃ j ∈ nextCreate (tTasks 0x0200 .sluice none []), j.pipe = none ∧ producersOf j j.created = [] ∧
      (tTasks 0x0200 .sluice none []).fld F.fanStatus_tasks 0 < 32768) ∧
    (∃ j ∈ nextCreate tPipeTask, j.pipe.isSome = true ∧ tPipeTask.fld F.fanStatus_tasks 0 < 32768) := by decide

/-- A waiting task that may become ready, of no flow and of a flow with a stone; a job that leaves its delay list. -/
theorem witness_DispatchEvents_ready :
    (∀ x ∈ [(none, 0), (some 4095, 1)], ∀ s : State, s = ((tTasks 0x0110 .stone x.1 [.waiting]).setFlag F.fanFlowCfg_last_valid 4095 true).setFld F.fanAffinity_window 0 x.2 →
      ∃ j ∈ s.job 1, ∃ t ∈ s.task 1 0, t.state = .waiting ∧ t.producers = [] ∧ t.stop = false ∧ projStops s j = false ∧ projHeld s j = false ∧
        s.fld F.slcCfg_state j.slice = 1 ∧ j.pipe = none ∧ j.hdr.flow = x.1 ∧ t.engine = .stone ∧
        (homeMill s j (taskInput j 0)).2.flag F.fanFlowCfg_last_valid 4095 = true ∧ (homeMill s j (taskInput j 0)).2.fld F.fanAffinity_window 0 = x.2) ∧
    ∀ s : State, s = tJobs [{ tJob 1 0x0200 [] with delay := some (3, 9) }] → ∃ j ∈ s.job 1, j.delay = some (3, 9) ∧ ∀ k ∈ s.fan.jobs, delayBefore k j = false := by
  refine ⟨fun x h s e => ?_, fun s e => ?_⟩ <;> subst e
  · have h : x = (none, 0) ∨ x = (some 4095, 1) := by simpa using h
    rcases h with rfl | rfl <;> decide +kernel
  · decide

/-- A task placed on an idle stone, on an idle Quern, on its flow's last stone, by the end of its window, and stolen. -/
theorem witness_DispatchEvents_place :
    (∃ t ∈ topTask (readyList (tTasks 0x0110 .stone none [.ready]) .stone 0), stoneIdle (tTasks 0x0110 .stone none [.ready]) 7 = true ∧
      stoneClaimed (tTasks 0x0110 .stone none [.ready]) 7 = false ∧ (tTasks 0x0110 .stone none [.ready]).halted = false ∧
      ((tTasks 0x0110 .stone none [.ready]).job t.job).isSome = true) ∧
    (∃ t ∈ topTask ((readyList (tTasks 0x0300 .quern none [.ready]) .quern 0).filter (engineGrantable (tTasks 0x0300 .quern none [.ready]) .quern)),
      (tTasks 0x0300 .quern none [.ready]).quern 0 = none ∧ t.tapWait = false ∧ ((tTasks 0x0300 .quern none [.ready]).job t.job).isSome = true) ∧
    (∃ j ∈ (tWindow true).job 1, ∃ t ∈ (tWindow true).task 1 0, t.state = .affinity 5 ∧ (tWindow true).cycle ≤ 5 ∧ t.stop = false ∧ j.hdr.flow = some 4095 ∧
      (tWindow true).flag F.fanFlowCfg_last_valid 4095 = true ∧ stoneIdle (tWindow true) ((tWindow true).fld F.fanFlowCfg_last_stone 4095) = true ∧
      (tWindow true).halted = false) ∧
    (∀ b ∈ [true, false], ∃ u ∈ (dispatchAffinity (clockTo (tWindow b) 5) 1 0).task 1 0, u.state = if b then .placed 0 else .affinity 5) ∧
    ∀ s : State, s = (tTasks 0x0110 .stone none [.ready, .ready, .ready]).setFld F.devCfg_steal_mode 0 2 → stealThreshold s = some 2 ∧
      stoneIdle s 127 = true ∧ stoneClaimed s 127 = false ∧ s.halted = false ∧ readyList s .stone (127 / 8) = [] ∧
      (millOrder (127 / 8)).find? (fun m => decide (2 < (readyList s .stone m).length)) = some 0 ∧
      ∃ t ∈ tailTask (readyList s .stone 0), (s.job t.job).isSome = true := by
  refine ⟨by decide +kernel, by decide +kernel, by decide +kernel, by decide +kernel, fun s e => ?_⟩
  subst e
  decide +kernel

/-- A task created, made ready, dispatched to a stone, stolen at a list of 3 (04 R125, R127, R133, R135). -/
theorem test_taskCreate : (tNext (exec .taskCreate (tTasks 0x0200 .sluice none []))).fan.tasks.length = 1 := by decide +kernel
theorem test_taskReady : ((tNext (exec (.taskReady 1 0) (tTasks 0x0200 .sluice none [.waiting]))).task 1 0).map (·.state) = some .ready := by decide +kernel

/-- Stone 0 running tasks in each form that the stages' events need. -/
def tStoneRun (r : Run) (stop : Bool) : State :=
  { tIssue r with fan := { Fan.empty with jobs := [tPipeJob tProg], tasks := [{ tTask 1 0 .stone (.placed 0) with stop := stop }] } }
/-- Before its first batch; at its last stage's end. -/
def tFresh : Run := { tRun tBoth none [] with stages := [], next := 0 }
def tEnded (ended : Bool) (mode : Nat) : Run :=
  { tRun tBoth none [] with stages := [], merge := some ⟨⟨mode, false, false, 0, 0, 0, 0, 2, 2, 2, 8, 8, 4⟩, [], 0, noTag, [], 2, ended⟩ }
/-- The stage 3 with its step ended, with one not yet run, and empty before a full link. -/
def tStage (b l : Option Batch) (stepped : Bool) : Run := { tRun tBoth none [] with stages := [(3, ⟨b, stepped, l, 0, [], false⟩)] }

theorem witness_StageEvents :
    (∃ c f, ctxOf (tStoneRun tFresh false) 0 tFresh 1 1 0 = some c ∧ tFresh.freeFrame = some f ∧ mayStep (tStoneRun tFresh false) 0 tFresh = true ∧
      tFresh.next < tFresh.total ∧ (tFresh.stage 1).batch = none) ∧
    (∃ r c b, r = tStage (some (tBatch tBoth)) none true ∧ ctxOf (tStoneRun r false) 0 r 3 1 0 = some c ∧ mayStep (tStoneRun r false) 0 r = true ∧
      (r.stage 3).batch = some b ∧ (r.stage 3).stepped = true) ∧
    (∃ r c b, r = tStage (some (tBatch [false, false])) none false ∧ ctxOf (tStoneRun r false) 0 r 3 1 0 = some c ∧
      mayStep (tStoneRun r false) 0 r = true ∧ (r.stage 3).batch = some b ∧ (r.stage 3).stepped = false ∧
      tEnds (bodyOps c (r.stage 3)) (tStoneRun r false) = true) ∧
    (∃ r c b, r = tStage none (some (tBatch [false, false])) false ∧ ctxOf (tStoneRun r false) 0 r 3 1 0 = some c ∧
      mayStep (tStoneRun r false) 0 r = true ∧ (r.stage 3).batch = none ∧ (r.stage 3).link = some b ∧
      tEnds (bodyOps c Stage.empty) (takeBatch (tStoneRun r false) c 3 b) = true) ∧
    (runStops (tStoneRun tFresh true) tFresh = true ∧ atBoundary (tStoneRun tFresh true) tFresh = true ∧ ((tStoneRun tFresh true).stone 0).parked = none ∧ ((tStoneRun tFresh true).stone 0).run = some tFresh) ∧
    (∀ mode ∈ [1, 2, 3], (∃ m, (tEnded false mode).merge = some m ∧ m.desc.mode = mode ∧ m.ended = false) ∧ (tEnded false mode).drained = true ∧
      mayStep (tStoneRun (tEnded false mode) false) 0 (tEnded false mode) = true ∧
      stoneOf (tStoneRun (tEnded false mode) false) 1 0 = some (0, tEnded false mode) ∧ (ctxOf (tStoneRun (tEnded false mode) false) 0 (tEnded false mode) 6 0 0).isSome = true) ∧
    tOn.fld F.fanStatus_jobs 0 = 0 ∧ (tOn.setFld F.fanStatus_jobs 0 1).fld F.fanStatus_jobs 0 ≠ 0 :=
  ⟨⟨_, _, rfl, rfl, by decide⟩, ⟨_, _, _, rfl, rfl, by decide, rfl, rfl⟩, ⟨_, _, _, rfl, rfl, by decide, rfl, rfl, by decide⟩,
    ⟨_, _, _, rfl, rfl, by decide, rfl, rfl, by decide⟩, by decide, by
      intro mode h
      have h : mode = 1 ∨ mode = 2 ∨ mode = 3 := by simpa using h
      rcases h with rfl | rfl | rfl <;> exact ⟨⟨_, rfl, rfl, rfl⟩, by decide⟩, by decide, by decide⟩

/-- Every stone of mill 0 runs a BATCH task of job 1, and an INTERACTIVE task of job 2 is ready; or it is assigned to stone 0. -/
def tPreempt (wanted : Option (Nat × Nat)) : State :=
  let j2 : Job := { tPipeJob tProg with id := 2, pipe := some (tPipe { tProg with cols := 4 }) }
  { tOn with fan := { Fan.empty with jobs := [tPipeJob tProg, j2],
                                     tasks := [tTask 1 0 .stone (.placed 0), { tTask 2 0 .stone .ready with interactive := true }] },
             pipe := { Pipe.empty with stones := (List.range 8).map (fun n => (n, { tStone (tStage (some (tBatch tBoth)) none false) with wanted := if n = 0 then wanted else none })) } }

theorem witness_StageEvents_preempt :
    (∃ t j n, topTask (readyList ((tPreempt none).setFld F.stnCfg_preempt_active 0 2) .stone 0) = some t ∧ (tPreempt none).job t.job = some j ∧
      t.interactive = true ∧ (millStones 0).any (stoneIdle (tPreempt none)) = false ∧
      lowestStone ((tPreempt none).setFld F.stnCfg_preempt_active 0 2)
        ((millStones 0).filter (preemptable ((tPreempt none).setFld F.stnCfg_preempt_active 0 2) j)) = some n) ∧
    ∃ r j t, ((tPreempt (some (2, 0))).stone 0).run = some r ∧ ((tPreempt (some (2, 0))).stone 0).wanted.isSome = true ∧
      runStops (tPreempt (some (2, 0))) r = false ∧ atBoundary (tPreempt (some (2, 0))) r = true ∧ ((tPreempt (some (2, 0))).stone 0).parked = none ∧ wantedTask (tPreempt (some (2, 0))) 0 = some (j, t) :=
  ⟨⟨_, _, 0, rfl, rfl, by decide, by decide, by decide⟩, ⟨_, _, _, rfl, by decide, by decide, by decide, by decide, rfl⟩⟩

/-- A digest that is closed and absorbed, for a job's task or for its tap. -/
def tDone (tap : Option Tap) : TollCtx := { hash := ⟨1, List.replicate 8 0, [], 0⟩, slice := 0, job := some (1, 0), closed := true, tap := tap }

/-- The state with units. -/
def tUnits (s : State) (u : Units) : State := { s with units := u }

/-- An engine's placed task whose tap's context 0 is done, on Quern 0 with its last block written or on channel 31 with nothing left. -/
def tTapped (op : Nat) (e : Engine) (ctx : Option Nat) : State :=
  tUnits (tMap (tTasks op e none [.placed 0])) { Units.empty with
    ctxs := [(0, some (tDone (some ⟨0, 0, 0⟩)))], querns := [(0, some ⟨1, 0, 1, 1, 0, 0, [], ctx, true⟩)],
    chans := if e = .sluice then [(31, { Chan.idle with job := some (1, 0), ctx := ctx })] else [] }

/-- A stone's task drained, its merge ended. -/
theorem witness_CompletionEvents_stone :
    ∃ c ∈ ctxOf (tStoneRun (tEnded true 1) false) 0 (tEnded true 1) 1 2 0,
      (∃ j ∈ (tStoneRun (tEnded true 1) false).job 1, ∃ t ∈ (tStoneRun (tEnded true 1) false).task 1 0, t.state = .placed 0 ∧ t.engine = .stone ∧ j.id = 1) ∧
      stoneOf (tStoneRun (tEnded true 1) false) 1 0 = some (0, tEnded true 1) ∧ mayStep (tStoneRun (tEnded true 1) false) 0 (tEnded true 1) = true ∧
      (tEnded true 1).drained = true ∧ (tEnded true 1).merged = true ∧ tOk ((runAll c 2).exec (tStoneRun (tEnded true 1) false)) = true := by decide

/-- Engines' tasks at their end: with a tap that is recorded, and with none; a digest; a volume's. -/
theorem witness_CompletionEvents_engines :
    (∀ x ∈ [(0x0300, Engine.quern), (0x0200, .sluice), (0x0400, .toll), (0x0500, .storage)], ∀ ctx ∈ [none, some 0],
      ∃ j ∈ (tTapped x.1 x.2 ctx).job 1, ∃ t ∈ (tTapped x.1 x.2 ctx).task 1 0, t.state = .placed 0 ∧ t.stop = false ∧ j.outc = none ∧ j.id = 1 ∧
        t.engine = x.2 ∧ tapDone (tTapped x.1 x.2 ctx) ctx = true ∧
        tOk ((recordTap (j.req .toll) (some 1) j.hdr.tag ctx).exec (tTapped x.1 x.2 ctx)) = true) ∧
    (∀ ctx ∈ [none, some 0], quernOf (tTapped 0x0300 .quern ctx) 1 0 = some (0, ⟨1, 0, 1, 1, 0, 0, [], ctx, true⟩) ∧
      engineChan (tTapped 0x0200 .sluice ctx) 1 0 = some 31 ∧ ((tTapped 0x0200 .sluice ctx).slu 31).descs = [] ∧
      ((tTapped 0x0200 .sluice ctx).slu 31).ctx = ctx) ∧
    engineChan (tTasks 0x0200 .sluice none [.placed 0]) 1 0 = none ∧
    (chanFlows (tTapped 0x0400 .toll none) 1 0 = true ∧ ∃ j ∈ (tTapped 0x0400 .toll none).job 1,
      ∃ x ∈ tollWork (tUnits (tTapped 0x0400 .toll none) { Units.empty with ctxs := [(0, some (tDone none))] }) j 0, x.1.status < 2) ∧
    volDrained (tTapped 0x0500 .storage none) 1 = true ∧ chanFlows (tTapped 0x0500 .storage none) 1 0 = true ∧
      tapCtx (tTapped 0x0500 .storage none) 1 0 = some 0 := by
  refine ⟨fun x h ctx g => ?_, by decide, by decide, by decide +kernel, by decide⟩
  simp only [List.mem_cons, List.not_mem_nil, or_false] at h g
  rcases h with rfl | rfl | rfl | rfl <;> rcases g with rfl | rfl <;> decide +kernel

/-- A held task of a flow in its turn; a job with its outcome, and one before its flush read; a channel's flush read; an error completion for
a job alone, for the job of a transaction whose claims are made, and for a line of host memory. -/
theorem witness_CompletionEvents :
    (∃ j ∈ (tTasks 0x0200 .sluice (some 1) [.complete]).job 1, ∃ t ∈ (tTasks 0x0200 .sluice (some 1) [.complete]).task 1 0,
      t.state = .complete ∧ flowTurn (tTasks 0x0200 .sluice (some 1) [.complete]) j 0 = true) ∧
    (∀ b ∈ [true, false], ∀ s : State, s = tJobs [{ tJob 1 1 [] with outc := some ⟨0, 0, 0⟩, awaits := if b then [0] else [] }] →
      ∃ j ∈ s.job 1, j.outc = some ⟨0, 0, 0⟩ ∧ commitWaits s j = false ∧ ((tryRelease s 1).job 1).isSome = b) ∧
    (∃ j ∈ (tJobs [{ tJob 1 1 [] with flushing := true }]).job 1, j.flushing = true) ∧
    (∀ s : State, s = tUnits tOn { Units.empty with chans := [(31, { Chan.idle with descs := [⟨0, 0, 0, 0, true, false, false⟩], flushing := true })] } →
      (s.slu 31).descs = [⟨0, 0, 0, 0, true, false, false⟩] ∧ (s.slu 31).flushing = true) ∧
    (∀ s : State, s = { tTxnState 0x0601 [] false true false with mpd := { Mpd.empty with txns := [{ tTxn [] false with state := .ready }], ready := [1] } } →
      ∃ j ∈ s.job 1, ∃ t ∈ j.txn.bind s.txn, t.job = some 1 ∧ t.state = .ready ∧ s.mpd.ready.contains t.num = true) ∧
    (isHost (hostBase / 64 * 64) = true ∧ tOn.gran.hostErr.contains (hostBase / 64) = false) := by
  refine ⟨by decide, fun b h s e => ?_, by decide, fun s e => ?_, fun s e => ?_, by decide⟩ <;> subst e
  · cases b <;> decide +kernel
  · exact ⟨rfl, rfl⟩
  · decide

/-- A COMPRESS of one byte on Quern 0: nothing staged, its block staged, and a block that failed. -/
def tQuern (bufs : List Staged) : State :=
  tUnits (tMap { tOne 0x0300 4 1 100 0 with fan := { Fan.empty with
    jobs := [{ tJob 1 0x0300 (tEntry 4 1 100 4096) with started := true, ntasks := some 1, created := 1 }], tasks := [tTask 1 0 .quern (.placed 0)] } })
    { Units.empty with querns := [(0, some ⟨1, 0, 0, bufs.length, 0, 0, bufs, none, false⟩)] }

/-- A Quern with room for its next block, one whose oldest block can be written, and one whose oldest block failed. -/
theorem witness_CompletionEvents_quern :
    (∀ f ∈ [none, some (stTruncated, 0, 5)], ∀ s : State, s = tQuern [⟨zeros 17, [], 1, f⟩] →
      ∃ x ∈ s.quern 0, ∃ j ∈ s.job x.job, ∃ t ∈ s.task x.job x.part, t.stop = false ∧ x.ended = false ∧ chanFlows s x.job x.part = true ∧
        ∃ y ∈ (fillStaging s 0).quern 0, y.bufs = [⟨zeros 17, [], 1, f⟩] ∧ tEnds (writeStaged j 0 y ⟨zeros 17, [], 1, f⟩) (fillStaging s 0) = true) ∧
    ∃ x ∈ (tQuern []).quern 0, ∃ j ∈ (tQuern []).job x.job, x.bufs.length < 2 ∧ moreBlocks j x = true ∧ tOk ((codeBlock j 0 x).exec (tQuern [])) = true := by
  refine ⟨fun f h s e => ?_, _, rfl, _, rfl, by decide, by decide, ?_⟩
  · subst e
    have h : f = none ∨ f = some (stTruncated, 0, 5) := by simpa using h
    rcases h with rfl | rfl <;> decide +kernel
  · have g : ∀ (j : Job) (x : Quern) (s : State), qRefuse j = false →
        tEnds (readMem (j.req (.quern 0)) (eAddr0 j.first + x.next * qBlock j) (min (qBlock j) (eLen0 j.first - x.next * qBlock j))) s = true →
        tOk ((codeBlock j 0 x).exec s) = true := by
      intro j x s q h
      obtain ⟨b, t, h⟩ := of_tEnds h
      simp [Op.exec, codeBlock, Bind.bind, EStateM.bind, h, q, tOk, upd, modify, modifyGet, MonadStateOf.modifyGet, EStateM.modifyGet, Pure.pure, EStateM.pure]
    exact g _ _ _ (by decide) (by decide)

/-- A DIGEST of 8 bytes in context 31, its input in host memory that is mapped or in memory that is not; a tap's context with a block staged. -/
def tAbsorb (mapped : Bool) (tap : Option Tap) : State :=
  let s := { tTasks 0x0400 .toll none [.placed 0] with
    fan := { Fan.empty with jobs := [{ tJob 1 0x0400 (tEntry 0x20000000 8 32 0) with started := true, ntasks := some 1 }], tasks := [tTask 1 0 .toll (.placed 0)] } }
  tUnits (if mapped then tMap s else s) { Units.empty with
    ctxs := [(31, some { hash := ⟨1, [], if tap.isSome then zeros 64 else [], 0⟩, slice := 0, job := some (1, 0), tap := tap })] }

theorem witness_CompletionEvents_absorb :
    (∀ x ∈ [(true, none), (false, none), (true, some ⟨0, 0, 0⟩)], nextCtx (tAbsorb x.1 x.2) = some 31 ∧ ∃ c ∈ (tAbsorb x.1 x.2).ctx 31, c.tap = x.2 ∧
      ∃ y ∈ c.job, ∃ j ∈ (tAbsorb x.1 x.2).job y.1, tOk ((stageBlock j 31 c).exec (tAbsorb x.1 x.2)) = x.1) := by
  intro x h
  simp only [List.mem_cons, List.not_mem_nil, or_false] at h
  rcases h with rfl | rfl | rfl <;> decide +kernel

/-- A device whose commit group is open at epoch 9, MPD_EPOCH 8. -/
def tMpd (m : Mpd) : State := { tOn.setReg .mpdEpoch 0 8 with mpd := { m with grp := some ⟨9, 0, 256, 0, 0, [], none, false⟩ } }

/-- Records to join: a SECTOR record of the job 1, which writes a volume, committed at once; one of no job. -/
def tNew (job : Option Nat) : JNew := { JNew.bare kSector with job := job, obj := 3, commit := true, payload := [] }

/-- The state in which the last record of the job waits to join. -/
def tJoin (job : Option Nat) (full : Bool) : State :=
  { tMpd { Mpd.empty with joinQ := [tNew job], tail := if full then journalEnd - 64 else 0 } with
    fan := { Fan.empty with jobs := [tJob 1 0x0501 (tEntry 3 1 512 0)] } }

theorem witness_JournalEvents_join :
    (∀ job ∈ [none, some 1], (tJoin job false).mpd.joinQ = [tNew job] ∧ mayJoin (tJoin job false) = true ∧ joinBlocked (tJoin job false) (tNew job) = false) ∧ (tJob 1 0x0501 []).hdr.op / 256 = 5 ∧ (tJoin (some 1) false).job 1 = some (tJob 1 0x0501 (tEntry 3 1 512 0)) := by
  decide

/-- The Millpond full: the record waits. -/
theorem witness_JournalEvents_waits :
    ∀ job ∈ [none, some 1], mayJoin (tJoin job true) = true ∧ ∀ x ∈ (tJoin job true).mpd.joinQ, joinBlocked (tJoin job true) x = true := by decide

/-- A transaction with a stamp to replace, whose page is mapped or not. -/
def tStamps (mapped : Bool) : State :=
  let s := { tOn with mpd := { Mpd.empty with txns := [{ tTxn [] false with begins := [⟨0, 0⟩] }] } }
  if mapped then tMap s else s

/-- A stamp whose page is mapped nowhere cannot be replaced, and stays owed; one that is mapped is. -/
theorem witness_JournalEvents_stamps : ∀ b ∈ [true, false], stampsOwed (replaceStamps (tStamps b) 9 1) 1 = !b := by
  intro b _
  have e : (tStamps b).txn 1 = some { tTxn [] false with begins := [⟨0, 0⟩] } := by cases b <;> rfl
  unfold stampsOwed replaceStamps
  rw [e]
  simp [State.txn, State.setTxn, tTxn]
  cases b <;> rfl

/-- A transaction ready to commit, with nothing claimed; a closed group with its SEAL in flight, and durable; an owed record of epoch 8. -/
def tSeal : JRec := { kind := 1, commit := false, txn := 0, seq := 4, epoch := 9, slice := 0, queue := 0, tag := 0, obj := 0, addr := 0, aux := 0,
                      payload := [], prev := [], off := 0, fate := none, dead := false, applied := false }
def tGroup (durable : Bool) : Group := ⟨9, 0, 256, 64, 1, [], some tSeal, durable⟩

theorem witness_JournalEvents :
    (∃ s : State, ∃ t, s.mpd.ready = [1] ∧ s.txn 1 = some t ∧ mayJoin s = true ∧ s.mpd.joinQ.any (fun r => r.txn == 1) = false ∧
      tOk ((claimAll t (claimsOf s 1)).exec { s with mpd := { s.mpd with ready := [] } }) = true) ∧
    (∃ s : State, s.mpd.grp.isSome = true ∧ s.flag F.mpdStatus_pwr_fail 0 = false) ∧
    (∃ s : State, s.mpd.closed.find? (fun g => !g.durable) = some (tGroup false) ∧ (tGroup false).sealRec = some tSeal) ∧
    (∃ s : State, s.mpd.closed = [tGroup true] ∧ (tGroup true).durable = true ∧ s.flag F.mpdStatus_pwr_fail 0 = false) ∧
    (∃ s : State, s.flag F.mpdStatus_replay_busy 0 = true) :=
  ⟨⟨tMpd { Mpd.empty with ready := [1], txns := [tTxn [] false] }, _, rfl, rfl, by decide, by decide, by decide⟩,
    ⟨tMpd Mpd.empty, by decide⟩, ⟨{ tOn with mpd := { Mpd.empty with closed := [tGroup false] } }, rfl, rfl⟩,
    ⟨{ tOn with mpd := { Mpd.empty with closed := [tGroup true] } }, rfl, rfl, by decide⟩, ⟨tOn.setFlag F.mpdStatus_replay_busy 0 true, by decide⟩⟩

theorem test_epochPublish : (tNext (exec .epochPublish { tOn with mpd := { Mpd.empty with closed := [tGroup true] } })).reg .mpdEpoch 0 = 9 := by decide +kernel
theorem test_sealDurable : ((tNext (exec .sealDurable { tOn with mpd := { Mpd.empty with closed := [tGroup false] } })).mpd.closed.map (·.durable)) = [true] := by
  decide +kernel
theorem test_replayDone : (tNext (exec .replayDone (tOn.setFlag F.mpdStatus_replay_busy 0 true))).flag F.mpdStatus_replay_done 0 = true := by decide +kernel

/-- A projection of the volume 3 that covers the sectors from 1, and an owed TRIM of the sector 0. -/
def tProjState : State :=
  let s := tVol false 0 0 0 0
  { s.setReg .mpdEpoch 0 8 with
    mpd := { Mpd.empty with recs := [{ tSeal with kind := kTrim, commit := true, obj := 3, addr := 0, aux := 1, fate := some 8 }] },
    vols := { s.vols with projs := [(3, ⟨0, 0, 0, 0, 0xFF, tLayout, 0, 0, 1, 2, []⟩)] } }
theorem witness_JournalEvents_projection : ∃ k p e r, tProjState.flag F.mpdStatus_replay_done 0 = true ∧ tProjState.halted = false ∧
    tProjState.vols.projs.find? (fun x => x.1 == 3) = some (k, p) ∧ tProjState.vol 3 = some e ∧
    firstByEpoch (tProjState.mpd.recs.filter (applyOwed tProjState 3)) = some r ∧ keyLost tProjState e = false ∧
    tOk ((applyJournal p e (volKey tProjState e) r (r.fate.getD 0)).exec tProjState) = true :=
  ⟨_, _, _, _, by decide, by decide, rfl, rfl, rfl, by decide, by decide⟩

/-- A RECORD volume with a dirty sector; a command of an operation in flight; ended operations. -/
def tDirty : State :=
  let s := tVol false 0 0 0 0
  { s with mpd := { Mpd.empty with recs := [{ tSeal with kind := kTrim, obj := 3, seq := 4 }] }, vols := { s.vols with dirty := [(dirtyKey 3 0, 5)] } }
def tCmd (op : Nat) (use : CmdUse) (tries : Nat) : State :=
  let s := tVol false 0x0500 0 1 512
  { s with vols := { s.vols with cmds := [⟨7, 0, 3, 0, 0, op, 1, zeros 4096, use, tries⟩] } }

/-- An ended operation of the volume 3, with port 0 to rebuild next, or none. -/
def tOpDone (op : Nat) (resumed : Bool) (more : List Nat) : State :=
  let s := tVol false 0 0 0 0
  { s with vols := { s.vols with ops := [(3, ⟨op, none, [], 1, 0, 4, 4, resumed, 0, more⟩)] } }

/-- A dirty sector to write back, with no operation and under a REBUILD; commands of each use on an ONLINE port, with what moves their bytes; operations
that have ended, with and without a port that waits. -/
theorem witness_DriveEvents :
    (∃ e ∈ tDirty.vol 3, e.table = false ∧ tDirty.readOnly = false ∧ tDirty.volOp 3 = none ∧
      (((e.sectorsAt 0).map (dirtyAt tDirty 3)).filter (· != 0)).eraseDups ≠ [] ∧ tDirty.vols.cmds = [] ∧ (e.portsOf 0).filter (portUp tDirty) ≠ []) ∧
    (∀ x ∈ [(2, CmdUse.op, 2), (2, .op, 3), (2, .writeback [4], 0), (0, .read 1 1 none, 0), (0, .late 0 0, 0)],
      ∃ c ∈ queuedCmd (startTransfers (tCmd x.1 x.2.1 x.2.2)) 0 7, cmdFlows (startTransfers (tCmd x.1 x.2.1 x.2.2)) c = true ∧ c.use = x.2.1 ∧
        c.tries = x.2.2 ∧ cmdStale (dropCmd (startTransfers (tCmd x.1 x.2.1 x.2.2)) 7) c = (x.2.1 == .late 0 0)) ∧
    (∀ x ∈ [(3, false), (1, true)], ∀ more ∈ [[], [0]], ∃ o ∈ (tOpDone x.1 x.2 more).volOp 3, o.op = x.1 ∧ o.resumed = x.2 ∧ o.phase = 1 ∧ o.units ≤ o.next ∧
      (tOpDone x.1 x.2 more).vols.cmds = [] ∧ ((recordProgress ((tOpDone x.1 x.2 more).setVolOp 3 none) 3).vol 3).isSome = true ∧
      o.more.find? (portUp (recordProgress ((tOpDone x.1 x.2 more).setVolOp 3 none) 3)) = more.head?) := by
  refine ⟨by decide, by decide +kernel, by decide +kernel⟩

/-- A fourth error of a command marks the port OFFLINE; the third retries it (10 R385). -/
theorem test_driveComplete : (tNext (exec (.driveComplete 0 7 .otherError) (tCmd 2 .op 3))).fld F.volPortStatus_state 0 ≠ 2 ∧
    (tNext (exec (.driveComplete 0 7 .otherError) (tCmd 2 .op 2))).fld F.volPortStatus_state 0 = 2 := by decide +kernel

/-- The manager's channel 5 running: a descriptor of no bytes, and one of 64 bytes with a mover, of zeros into host memory. -/
def tMove (len : Nat) (mover : Option Nat) (level : Nat) : State :=
  { tMap ((tChan 1).setFld F.sluChStatus_level 5 level) with
    units := { Units.empty with chans := [(5, { Chan.idle with descs := [⟨0, 0, len, 0, false, true, false⟩], mover := mover })] } }

theorem witness_ChannelEvents :
    (∃ d, ((tMove 0 none 0).slu 5).descs = [d] ∧ ((tMove 0 none 0).slu 5).flushing = false ∧ (tMove 0 none 0).fld F.sluChStatus_state 5 = 1 ∧ d.len = 0 ∧
      ((tMove 0 none 0).slu 5).job = none ∧ tOk ((moveDesc registerIo 5 d).exec (tMove 0 none 0)) = true) ∧
    (∃ d, ((tMove 64 (some 3) 0).slu 5).descs = [d] ∧ ((tMove 64 (some 3) 0).slu 5).mover.isSome = true ∧
      tOk ((moveDesc registerIo 5 d).exec (tMove 64 (some 3) 0)) = true) ∧
    (nextGrant (sampleLines (tMove 64 none 0)) 3 = some 5 ∧ moverOwner (sampleLines (tMove 64 none 0)) 3 = none) ∧
    ∃ s : State, ∃ x, (∀ k ∈ [0, 1, 2, 3], (moverOwner s k).isSome = true) ∧ beatReady s 5 = true ∧ (s.slu 5).mover = none ∧ 2 ≤ chanLevel s 5 ∧
      preemptVictim s 5 = some x := by
  refine ⟨⟨_, rfl, by decide, by decide, rfl, by decide, by decide⟩, ⟨_, rfl, by decide, by decide +kernel⟩, by decide, ?_⟩
  exact ⟨{ tMove 64 none 2 with units := { Units.empty with
    chans := [(5, { Chan.idle with descs := [⟨0, 0, 64, 0, false, true, false⟩] })] ++ [0, 1, 2, 3].map (fun k => (10 + k, { Chan.idle with mover := some k })),
    grants := [10, 11, 12, 13] } }, (10, 0), by decide⟩

/-- 1 GiB of DRAM on 12 channels, a clean and a dirty line held; a delay set of the speed; DRAIN and maintenance. -/
def tDram (dirty : Bool) : State :=
  { (tOn.setFld F.dmcStatus_capacity_gib 0 1).setFlag F.dmcStatus_init_done 0 true with
    gran := { Granary.empty with ways := [(granSetNo 64 * 16 + 15, some ⟨1, dirty, zeros 64⟩)] },
    dram := { Dram.empty with store := [⟨0, 1, 10, 60, []⟩], chans := [(0, { DChan.empty with rows := [(0, 1)] })] } }

/-- Lines held and not, of DRAM and of the host; each answer of the check: right, one bit of a word, two bits, another line's; the bands about their limits. -/
theorem witness_MemoryEvents :
    (∀ d ∈ [true, false], granFind (tDram d) 64 = some (granSetNo 64 * 16 + 15, ⟨1, d, zeros 64⟩)) ∧ granFind (tDram true) 128 = none ∧
    ([64, 2 ^ 30 - 1, 2 ^ 30].map (isLocal (tDram true)) = [true, true, false] ∧ isHost hostBase = true) ∧ poisoned (tDram true) 1 = false ∧
    (∀ x ∈ ([({}, none, false), ({ flips := [(7, 71)] }, none, true), ({ flips := [(7, 0), (7, 71)] }, some (0, 128), false), ({ origin := some 64 }, some (1, 0), false)] :
      List (Burst × Option (Nat × Nat) × Bool)), x.1.wf = true ∧ eccBad x.1 0 = x.2.1 ∧ eccCorrected x.1 0 = x.2.2) ∧
    ((tDram true).flag F.dmcStatus_init_done 0 = true ∧ ((tDram true).chan 11).selfRefresh = false ∧ (delaySet (tDram true) 1).isSome = true ∧
      [62, 63, 7].map (fun t => bandNext 10 60 t 1) = [1, 2, 0]) ∧
    ((tDram true).flag F.dmcScrub_enable 0 = true ∧ poisoned (dramFetch (tDram true) noSlice 0) 0 = false) ∧
    (tOn.setFld F.grnStatus_state 0 1).fld F.grnStatus_state 0 = granDraining ∧
    (∃ j ∈ (tJobs [{ tJob 1 0x0802 [] with started := true }]).job 1, j.hdr.op / 256 = 8 ∧ j.started = true ∧ j.outc = none) ∧
    ∃ s : State, s.gran.maint = some ⟨0, 0, 64⟩ :=
  ⟨by decide, by decide, by decide, by decide, by decide +kernel, by decide, by decide, by decide, by decide,
    ⟨{ tOn with gran := { Granary.empty with maint := some ⟨0, 0, 64⟩ } }, rfl⟩⟩

theorem test_tempPoll : [62, 63, 7].map (fun t => (tNext (exec (.tempPoll t) ((tDram true).setFld F.dmcStatus_band 0 1))).fld F.dmcStatus_band 0) = [1, 2, 0] := by
  decide +kernel
theorem test_drainComplete : (tNext (exec .drainComplete ((tDram false).setFld F.grnStatus_state 0 1))).fld F.grnStatus_state 0 = 2 ∧
    (tNext (exec .drainComplete ((tDram false).setFld F.grnStatus_state 0 1))).gran.ways = [] := by decide +kernel

/-- A slice reset drained; programmings and key operations in progress; an owed wrap; a verification that fails; windows. -/
theorem witness_UnitEvents :
    (∃ s : State, ∃ r, s.resets.find? (fun r => r.slice == 63) = some r ∧ s.halted = false ∧ resetDone s 63 = true) ∧
    (∃ s : State, s.otpOp = some ⟨8, 0, 5⟩) ∧ (∃ s : State, s.keyOp = some (63, KeySlot.empty, true)) ∧
    (∃ s : State, s.flag F.brkRestoreCtl_busy 0 = true ∧ restoreOk s = false ∧ s.fld F.brkStatus_restore_failures 0 + 1 = 8) ∧
    ∃ s : State, s.sckOwed.contains 127 = true := by
  refine ⟨⟨{ tOn with resets := [⟨63, 9, true, 0, 0, true, true⟩] }, _, rfl, by decide⟩, ⟨{ tOn with otpOp := some ⟨8, 0, 5⟩ }, rfl⟩,
    ⟨{ tOn with keyOp := some (63, KeySlot.empty, true) }, rfl⟩,
    ⟨(tOn.setFlag F.brkRestoreCtl_busy 0 true).setFld F.brkStatus_restore_failures 0 7, by decide, ?_, by decide⟩,
    ⟨{ tOn with sckOwed := [127] }, by decide⟩⟩
  have : (((tOn.setFlag F.brkRestoreCtl_busy 0 true).setFld F.brkStatus_restore_failures 0 7)).flag F.brkStatus_keys_erased 0 = false := by decide
  simp [restoreOk, this]

/-- A request at the device's address with a right check byte, and one with a wrong one; steps 1 and 31. -/
theorem witness_SmbusCommands :
    smbusAnswers tOn ⟨smbusAddress tOn, [0xD5], true, -16⟩ = true ∧ smbusAnswers tOn ⟨smbusAddress tOn, [], false, 0⟩ = false ∧
    tOn.boot.on = true ∧ tOn.flag F.mpdStatus_pwr_fail 0 = false := by decide
theorem test_dumpTrigger : ((tNext (exec (.dumpTriggerCmd ⟨smbusAddress tOn, [0xD5], true, 0⟩) tOn)).halted, (tNext (exec (.dumpTriggerCmd ⟨smbusAddress tOn, [0xD4], true, 0⟩) tOn)).halted) =
    (true, false) := by decide +kernel
theorem test_temp : (tNext (exec (.tempCmd ⟨smbusAddress tOn, [], true, -16⟩) tOn)).answers.smbus = [0xF0, 0xFF] := by decide

/-- A board off, with test_en low and high; a device on; boots that run; a Brake armed. -/
theorem witness_PowerCommands :
    State.reset.boot.on = false ∧ ({ Board.none_ with testEn := false } : Board).testEn = false ∧ Board.none_.testEn = true ∧ tOn.boot.on = true ∧
    tOn.flag F.mpdStatus_pwr_fail 0 = false ∧
    (∃ s : State, s.boot.running.contains 0x16 = true ∧ s.boot.running.contains 0x10 = true ∧ bootWaits s = false) ∧
    (∃ s : State, s.boot.on = true ∧ s.boot.armed = true) ∧ (130 ≤ (130 : Int) ∧ (129 : Int) < 130) :=
  ⟨by decide, by decide, by decide, by decide, by decide, ⟨{ tOn with boot := { tOn.boot with running := [0x10, 0x16] } }, by decide⟩,
    ⟨{ tOn with boot := { tOn.boot with armed := true } }, by decide⟩, by decide⟩
theorem test_thermTrip : (tNext (exec (.thermTrip 130) tOn)).boot.therm = true ∧ (tNext (exec (.thermTrip 129) tOn)).boot.therm = false := by decide
theorem test_perst : (tNext (exec .perstNRise { tOn with boot := { tOn.boot with perst := false } })).boot.perst = true := by decide
theorem test_fatalError : [0x100, 0x101, 0x108, 0x109].map (fun c => (tNext (exec (.fatalError c) tOn)).halted) = [false, true, true, false] := by decide +kernel

/-- Counter 127 counting event 0x902 at its last value, and frozen. -/
def tCount : State := (((tOn.setFlag F.sckEvt_enable 127 true).setFld F.sckEvt_event 127 0x902).setFld F.sckCnt_count 127 (2 ^ 48 - 1))
theorem witness_CountersCount : tCount.canon ∧ tCount.flag F.sckCtl_freeze 0 = false ∧ sckAccepts tCount 127 ⟨0x902, 1, none, none, none⟩ = true ∧
    sckAccepts tCount 0 ⟨0x902, 1, none, none, none⟩ = false ∧ 2 ^ 48 ≤ tCount.fld F.sckCnt_count 127 + 1 ∧
    (tCount.setFlag F.sckCtl_freeze 0 true).flag F.sckCtl_freeze 0 = true ∧ (tCount.setFlag (sckOvf 127) 0 true).flag (sckOvf 127) 0 = true := by
  unfold State.canon; decide
/-- A wrap sets bit 63 of SCK_OVF1 (20 R595). -/
theorem test_wrap : (tCount.count ⟨0x902, 1, none, none, none⟩).fld F.sckCnt_count 127 = 0 ∧ (tCount.count ⟨0x902, 1, none, none, none⟩).reg .sckOvf1 0 = 2 ^ 63 := by
  decide

/-- Keys erased, a challenge of ones outstanding, 25 words of zeros written, and OTP settings that hold the hash of a key of zeros. -/
def tRestore : State :=
  { (tOn.setFlag F.brkStatus_keys_erased 0 true).setFld F.brkRestoreCtl_words 0 25 with
    mpd := { Mpd.empty with cells := [(keyStore + 0x40, 1)] },
    restoreBuf := zeros 200,
    boot := { tOn.boot with settings := some ((List.range 8).map (fun i => (24 + i, leNat (sub (digestOf 2 (zeros 97)) (6 * i) 6)))) } }

theorem tRestore_hash : keyHash tRestore 24 = some (digestOf 2 (zeros 97)) := by decide +kernel

/-- A verification succeeds where the signature of the challenge is valid (its check is Config's, 19 R592). -/
theorem witness_UnitEvents_restore (h : Config.signatureValid (tRestore.restoreBuf.take 97) (digestOf 2 (challengeBytes tRestore)) (sub tRestore.restoreBuf 104 96) = true) :
    restoreOk tRestore = true := by
  have e1 : tRestore.flag F.brkStatus_keys_erased 0 = true := by decide
  have e2 : (challengeBytes tRestore != zeros 64) = true := by decide
  have e3 : tRestore.fld F.brkRestoreCtl_words 0 = 25 := by decide
  have e4 : tRestore.restoreBuf.take 97 = zeros 97 := by decide
  unfold restoreOk
  dsimp only
  rw [e1, e2, e3, h, tRestore_hash, e4]
  simp

/-- Each field of an instruction one past its bits. -/
theorem test_wf_fields : ∀ f ∈ ([{ rd := 64 }, { dk := 4 }, { ra := 64 }, { ak := 4 }, { rb := 64 }, { bk := 4 }, { gm := 8 }, { mod := 16 }, { typ := 32 },
    { scale := 64 }, { imm := 8192 }] : List Insn), f.wf = false := by decide

/-- A stone, a stage or a field out of range, in every instruction; the last of each in range. -/
theorem test_wf_insns : ∀ x ∈ insnRows, (x.1 128 1 {}).wf = false ∧ (x.1 0 0 {}).wf = false ∧ (x.1 0 7 {}).wf = false ∧ (x.1 0 1 { rd := 64 }).wf = false ∧
    (x.1 127 6 {}).wf = true := by decide

/-- One operand out of range in each command of an agent, a queue, a slice, a port, a channel, a counter or a value. -/
theorem test_wf_agents : ∀ i ∈ ([.doorbell 64 0 0, .doorbell 0 8 0, .doorbell 0 0 (2 ^ 32), .poll 512, .chainTimeout 512, .taskReady 0 65536,
    .dispatchHome .stone 128, .dispatchHome .quern 16, .dispatchHome .sluice 32, .dispatchHome .storage 8, .dispatchHome .toll 1, .dispatchHome .journal 1,
    .dispatchAffinity 0 65536, .affinityWindowEnd 0 65536, .steal 128, .batchAdmit 128, .stageStep 128 ⟨1, .clean⟩, .stageStep 0 ⟨0, .clean⟩, .stageStep 0 ⟨7, .clean⟩, .taskComplete 0 65536,
    .flowRelease 0 65536, .barrierFlushDone (.channel 32), .preempt 16, .park 128, .taskStop 128, .sortRun 0 65536, .combine 0 65536, .mergeUpdate 0 65536,
    .projectionApply 256, .writeback 256 0, .driveComplete 8 0 .ok, .commandTimeout 8 0 true, .rebuildDone 256, .volumeOpDone 256, .descriptorComplete 32,
    .moverGrant 4, .moverPreempt ⟨32, 0⟩, .requestLine 18 true, .blockAbsorb 8, .blockStaged 16, .writeDrain 12, .pageIdleClose 12 0, .pageIdleClose 0 128,
    .refresh 12 0, .zqCalibration 12, .srReentry 12, .resetDrained 64, .msixUnmask 2048, .bar4Resize 64, .sckOverflow 128, .bootStepTimeout 32,
    .fatalError 65536, .brakeTrip 32 0, .brakeTrip 0 32, .otpProgrammed (2 ^ 64)] : List Instr), i.wf = false := by decide

/-- An instance or a value out of range in each register write. -/
theorem test_wf_writes : (∀ c ∈ ([.profileWrite, .profileLock, .traceEnable, .checkCacheFlush, .replayStart, .invalOpAddr, .invalOpTag, .invalOpAll, .hostSync,
      .granaryDisable, .granaryEnable, .granClean, .granInvalidate, .granCleanInvalidate, .granZero, .srReqSet, .srReqClear, .bootClear, .otpProgram,
      .generateKey, .importKey, .clearKey, .grantKey, .challenge, .verify, .counterFreeze, .counterUnfreeze, .counterClear, .windowWrite, .clearPeak] :
        List (Nat → Instr)), (c (2 ^ 32)).wf = false ∧ (c (2 ^ 32 - 1)).wf = true) ∧
    (∀ c ∈ ([.checkpoint, .manualTrigger, .restoreDataWrite] : List (Nat → Instr)), (c (2 ^ 64)).wf = false) ∧
    (∀ x ∈ ([(.queueEnable, 512), (.queueDisable, 512), (.evHeadWrite, 64), (.tailraceEnable, 64), (.evModeChange, 64), (.portAttach, 8), (.portDetach, 8),
      (.registerMark, 32), (.arm, 32), (.disarm, 32), (.stopChannel, 32), (.resumeChannel, 32), (.counterWrite, 128), (.tableRegister, 256)] :
        List ((Nat → Nat → Instr) × Nat)), (x.1 x.2 0).wf = false ∧ (x.1 (x.2 - 1) 0).wf = true ∧ (x.1 0 (2 ^ 64)).wf = false) := by decide

/-- Accesses out of their line, BAR or size; requests and boards out of range. -/
theorem test_wf_accesses : ∀ i ∈ ([.dramRead { dpa := 2 ^ 52 }, .dramRead { dpa := 0, burst := { flips := [(8, 0)] } }, .dramRead { dpa := 0, burst := { flips := [(0, 72)] } },
    .dramRead { dpa := 0, burst := { flips := [(0, 1), (0, 1)] } }, .dramRead { dpa := 0, burst := { origin := some (2 ^ 41) } },
    .dramRead { dpa := 63, merge := some [0, 0] }, .dramRead { dpa := 0, merge := some [] }, .patrolRead { flips := [(0, 1), (0, 2), (0, 3)] }, .hostReadCompletion (.line (2 ^ 45 - 1)) true, .hostReadCompletion (.line (2 ^ 46)) false,
    .lineFill { dpa := 2 ^ 52, slice := 0 }, .lineFill { dpa := 0, slice := 64 }, .lineFill { dpa := 0, slice := 0, stone := 128 },
    .lineFill { dpa := 63, slice := 0, write := some [0, 0] }, .lineFill { dpa := 0, slice := 0, write := some [] },
    .bar4Access ⟨0, 0, none⟩, .bar4Access ⟨2 ^ 41, 1, none⟩, .bar4Access ⟨0, 2, some [0]⟩,
    .rcRead ⟨false, 0, 0⟩, .rcRead ⟨false, 0x1000000, 1⟩, .rcRead ⟨true, 0x400000, 1⟩,
    .registerWrite ⟨false, 0, 0, 0⟩, .registerWrite ⟨false, 0, 9, 0⟩, .registerWrite ⟨true, 0x400000, 1, 0⟩, .registerWrite ⟨false, 0, 1, 256⟩,
    .statusCmd { addr := 128 }, .tempCmd { addr := 0, temp := 32768 }, .tempCmd { addr := 0, temp := -32769 }, .dumpTriggerCmd { addr := 0, data := [256] },
    .clearBootCmd { addr := 128 }, .stepCmd { addr := 128 },
    .powerOn { smbAddr := 4 }, .powerOn { sensors := 32 }] : List Instr), i.wf = false := by decide

/-- Too many DIMMs and drives, and failures of no step, way or outcome. -/
theorem test_wf_board : (∀ d, Board.wf { dimms := List.replicate 13 d } = false) ∧ (∀ d, Board.wf { drives := List.replicate 9 d } = false) ∧
    ∀ x ∈ ([⟨0, 0, 1, 0⟩, ⟨32, 0, 1, 0⟩, ⟨1, 3, 1, 0⟩, ⟨1, 0, 0, 0⟩, ⟨1, 0, 6, 0⟩] : List StepFault), Board.wf { faults := [x] } = false :=
  ⟨fun _ => rfl, fun _ => rfl, by decide⟩

/-- A container's head in the host's first page: the magic, version 1, 96 bytes; the check cache holds the program. -/
def tLoad (p : Prog) (len : Nat) (awaits : List Nat) (parts : Nat) : State :=
  { tMap (tJobs [{ tJob 1 0x0100 (tEntry parts len 0 0) with awaits := awaits }]) with
    mem := [(hostBase, 0x44), (hostBase + 1, 0x52), (hostBase + 2, 0x4E), (hostBase + 3, 0x50), (hostBase + 4, 1), (hostBase + 8, 96)],
    pipe := { Pipe.empty with checked := [(⟨0, 0, 96, 0⟩, p)] } }
/-- A program with one TAPPEND. -/
def tAppends : Prog := { tProg with code := [0x64 * 2 ^ 56] }
/-- A loaded PIPE_RUN that may start, after replay, in a device that is read-only or not. -/
def tLoaded (p : Prog) (parts : Nat) (readOnly : Bool) : State :=
  { tJobs [{ tPipeJob p with started := false, entries := [tEntry parts 0 0 0] }] with
    regs := (tOn.setFlag F.mpdStatus_replay_done 0 true).regs, readOnly := readOnly }
/-- The INDEX_LOOKUP's running task. -/
def tLookup : State :=
  { tIssue { tRun tBoth none [] with next := 0 } with
    fan := { Fan.empty with jobs := [tJob 1 0x0110 []], tasks := [tTask 1 0 .stone (.placed 0)] } }

/-- A container one byte too short, and one that the check cache knows, for a job that awaits another; a load and a start in one command; no task,
one task, a program that appends. -/
theorem witness_PipelineOpcodesAct :
    (∃ j e s1, (tLoad tProg 63 [] 1).job 1 = some j ∧ loadDue (tLoad tProg 63 [] 1) j = true ∧ (loadProgram j).exec (tLoad tProg 63 [] 1) = (.error e, s1) ∧
      startJob (fixJob (leaveTxn s1 j) j.id e.toOutc) 1 0x0100 = none) ∧
    (∀ p ∈ [tProg, tAppends], ∃ j a s1, (tLoad p 96 [0] 1).job 1 = some j ∧ loadDue (tLoad p 96 [0] 1) j = true ∧
      (loadProgram j).exec (tLoad p 96 [0] 1) = (.ok a, s1) ∧ a.2 = p) ∧
    startJob (pipeLoad (tLoad tProg 96 [0] 1) { tJob 1 0x0100 (tEntry 1 96 0 0) with awaits := [0] }) 1 0x0100 = none ∧
    (∃ k pj, startJob (pipeLoad (tLoad tProg 96 [] 1) (tJob 1 0x0100 (tEntry 1 96 0 0))) 1 0x0100 = some k ∧ k.pipe = some pj) ∧
    (∀ p ∈ [tProg, tAppends], ∀ n ∈ [0, 1], ∀ b ∈ [true, false], ∃ j pj, (tLoaded p n b).job 1 = some j ∧ loadDue (tLoaded p n b) j = false ∧
      startJob (tLoaded p n b) 1 0x0100 = some j ∧ j.pipe = some pj ∧ pj.prog = p ∧ eParam0 j.first = n ∧ (tLoaded p n b).readOnly = b ∧
      (tLoaded p n b).flag F.mpdStatus_replay_done 0 = true) ∧
    (tProg.appends = false ∧ tAppends.appends = true ∧ (tLoad tProg 96 [] 1).calm) ∧
    ∃ r, stoneOf tLookup 1 0 = some (0, r) ∧ tLookup.job 1 = some (tJob 1 0x0110 []) ∧ r.next < r.total ∧ runStops tLookup r = false := by
  refine ⟨⟨_, _, _, rfl, by decide, rfl, by decide⟩, fun p h => ?_, by decide, ⟨_, _, rfl, rfl⟩, fun p h n g b _ => ?_, by decide,
    ⟨_, rfl, rfl, by decide, by decide⟩⟩
  · have e : p = tProg ∨ p = tAppends := by simpa using h
    rcases e with rfl | rfl <;> exact ⟨_, _, _, rfl, by decide, rfl, rfl⟩
  · have e : p = tProg ∨ p = tAppends := by simpa using h
    have e2 : n = 0 ∨ n = 1 := by simpa using g
    rcases e with rfl | rfl <;> rcases e2 with rfl | rfl <;> cases b <;> exact ⟨_, _, rfl, by decide, rfl, rfl, rfl, by decide, rfl, by decide⟩

/-- An instruction that acts, and a division by 0 that does not; the stage 3 empty before a link that holds a batch with a row selected. -/
theorem witness_InstructionsIssue :
    StageIssues tS 0 3 (tRun tBoth none []) (tCtx tBoth) ∧
    (tEnds (opMov (tCtx tBoth) tF) (issued tS (tCtx tBoth)) = true ∧
      tEnds (opArith 0x33 (tCtx tBoth) { tF with ra := 2, rb := 1 }) (issued tS (tCtx tBoth)) = false) ∧
    ∃ r c0 c, r = tStage none (some (tBatch tBoth)) false ∧ ((tStoneRun r false).stone 0).run = some r ∧ mayStep (tStoneRun r false) 0 r = true ∧
      (r.stage 3).batch = none ∧ (r.stage 3).link = some (tBatch tBoth) ∧ ctxOf (tStoneRun r false) 0 r 3 1 0 = some c0 ∧
      (((c0.fresh (takeBatch (tStoneRun r false) c0 3 (tBatch tBoth))).batch.map (·.sel)).getD []).any (· == true) = true ∧
      c = { c0.fresh (takeBatch (tStoneRun r false) c0 3 (tBatch tBoth)) with
        num := (stageTurn (c0.fresh (takeBatch (tStoneRun r false) c0 3 (tBatch tBoth))) Stage.empty).1 } :=
  ⟨⟨by decide, by decide, by decide, by decide, by decide, by decide, _, rfl, by decide⟩, by decide,
    ⟨_, _, _, rfl, by decide, by decide, by decide, by decide, rfl, by decide, rfl⟩⟩

/-- A queue with entries not passed by HEAD; a tailrace that the enable makes lossless, and one that it makes lossy; a change of an enabled one. -/
theorem witness_QueueCommands_more :
    (hostIn (tOn.setFlag F.wqState_idle 0 false) 4).flag F.wqState_idle 0 = false ∧
    (∀ b ∈ [true, false], ∀ t, t = evEnable (((hostIn tOn 4).setFlag F.slcEvCfg_lossless 0 b).setFld F.slcEvCfg_depth_log2 0 8) 0 →
      tailOn t 0 = true ∧ t.flag F.slcEvCfg_lossless 0 = b) ∧
    (bitAt (putBits (2 ^ 30) 31 1 1 % 2 ^ 32) 30 = true ∧ bitAt (putBits 0 31 1 1 % 2 ^ 32) 30 = false ∧ bitAt (2 ^ 31 % 2 ^ 32) 31 = true) := by
  refine ⟨by decide, fun b h t e => ?_, by decide⟩
  subst e
  cases b <;> decide

/-- A write of line 1 waits in its channel's queue, poisoned or not; a read of it, of another line, with each answer of the check; 47 and 48 writes. -/
def tQueued (poison : Bool) (n : Nat) : State :=
  { tDram false with dram := { (tDram false).dram with chans := [(0, { DChan.empty with rows := [(0, 1)], writes := List.replicate n ⟨1, zeros 64, poison, none, none⟩ })] } }
theorem witness_MemoryEvents_queue :
    (∀ p ∈ [true, false], lineQueued (tQueued p 1) 1 = true ∧ poisoned (tQueued p 1) 1 = p ∧ isLocal (tQueued p 1) 64 = true) ∧
    (lineQueued (tQueued false 1) 0 = false ∧ poisoned (tQueued false 1) 0 = false) ∧
    (tQueued false 1).reg .dmcScrubPos 0 = 0 ∧ ((tQueued false 1).chan (dramChannel 0)).selfRefresh = false ∧
    (let s1 := dramFetch ((scrubIssue (tQueued false 1)).count ⟨0x71F, 1, none, none, some 0⟩) noSlice 0
     poisoned s1 0 = false ∧ lineQueued s1 0 = false) ∧
    (∀ n ∈ [47, 48], ((tQueued false n).chan 0).writes.length = n) := by decide +kernel

/-- The published examples of the algorithms: SHA-256, SHA-512 and SHA3-256 of "abc" (FIPS 180-4, FIPS 202). -/
theorem test_sha : digestOf 1 [0x61, 0x62, 0x63] = natBE 32 0xba7816bf8f01cfea414140de5dae2223b00361a396177a9cb410ff61f20015ad ∧
    digestOf 3 [0x61, 0x62, 0x63] = natBE 64 0xddaf35a193617abacc417349ae20413112e6fa4e89a97ea20a9eeee64b55d39a2192992a274fc1a836ba3c23a3feebbd454d4423643ce80e2a9ac94fa54ca49f ∧
    digestOf 4 [0x61, 0x62, 0x63] = natBE 32 0x3a985da74fe225b2045c172d6bd390bd855f086e3e9d525b46bfe24511431532 := by
  decide +kernel
/-- FIPS 197, C.3. -/
theorem test_aes : aesEnc (roundKeys (natBE 32 0x000102030405060708090a0b0c0d0e0f101112131415161718191a1b1c1d1e1f)) (natBE 16 0x00112233445566778899aabbccddeeff) =
    natBE 16 0x8ea2b7ca516745bfeafc49904b496089 := by decide +kernel
/-- The check value of CRC-32C, of the digits 1 to 9. -/
theorem test_crc : crc32c [0x31, 0x32, 0x33, 0x34, 0x35, 0x36, 0x37, 0x38, 0x39] = 0xE3069283 := by decide +kernel

end Sys2Proof.Tests
end

section
/-! Proofs: QUERY (02 R61). What it answers in a state that owes nothing, and the fields of the word it reports. -/

open Sys2Proof Sys2Proof.Machine

namespace Sys2Proof.Proofs

/-- The state that bits [1:0] of QUERY's word report of a target (02 R61). -/
def queryState (t : Job) : Nat := if !t.lastFetched then 3 else if t.started then 2 else 1

theorem queryState_fetching {t : Job} (hl : t.lastFetched = false) : queryState t = 3 := by simp [queryState, hl]

theorem queryState_started {t : Job} (hl : t.lastFetched = true) (hs : t.started = true) : queryState t = 2 := by
  simp [queryState, hl, hs]

theorem queryState_waiting {t : Job} (hl : t.lastFetched = true) (hs : t.started = false) : queryState t = 1 := by
  simp [queryState, hl, hs]

theorem queryState_lt_four (t : Job) : queryState t < 4 := by
  unfold queryState
  split_ifs <;> decide

theorem queryWord_none (s : State) : queryWord s none = 0 := rfl

theorem queryWord_some (s : State) (t : Job) :
    queryWord s (some t) = queryState t + min (tasksLeft s t) 0xFFFF * 2 ^ 32 := rfl

/-- The low field of the word. -/
theorem queryWord_some_mod (s : State) (t : Job) : queryWord s (some t) % 4 = queryState t := by
  have hlt := queryState_lt_four t
  rw [queryWord_some]
  omega

/-- The high field of the word, which no bit of the state reaches. -/
theorem queryWord_some_div (s : State) (t : Job) : queryWord s (some t) / 2 ^ 32 = min (tasksLeft s t) 0xFFFF := by
  have hlt := queryState_lt_four t
  rw [queryWord_some]
  omega

/-- The word holds its two fields and nothing else, whether or not there is a target. -/
theorem queryWord_eq_fields (s : State) (t : Option Job) :
    queryWord s t = queryWord s t % 4 + queryWord s t / 2 ^ 32 * 2 ^ 32 := by
  cases t with
  | none => simp [queryWord_none]
  | some t => rw [queryWord_some_mod, queryWord_some_div, queryWord_some]

theorem queryOp_of_startJob {s : State} {id : Nat} {j : Job} (hj : startJob s id 4 = some j) :
    queryOp s id = finishJob s id ⟨0, 0, queryWord s (targetOf s j)⟩ := by simp [queryOp, hj, okJob]

/-- In a state that owes nothing, QUERY changes its own outcome and nothing else. -/
theorem exec_query {s : State} {id : Nat} {j : Job} (hc : s.calm) (hj : startJob s id 4 = some j) :
    exec (.query id) s = .next (finishJob s id ⟨0, 0, queryWord s (targetOf s j)⟩) := by
  change done (queryOp s id) = _
  rw [queryOp_of_startJob hj, done_calm (calm_finishJob _ _ hc)]

/-- Settles O14: the reported word is `queryWord`, read field by field. -/
theorem queryReportsItsTarget : Obligations.QueryReportsItsTarget := by
  intro s id j hc hj
  refine ⟨_, exec_query hc hj, queryWord_eq_fields s _, fun hn => ?_, fun t ht => ?_⟩
  · rw [hn, queryWord_none]
  · rw [ht, queryWord_some_mod, queryWord_some_div]
    exact ⟨queryState_fetching, queryState_started, queryState_waiting, min_def _ _⟩

end Sys2Proof.Proofs
end

section
/-! Proofs: MAND, MOR and MNOT (06 R219, Table 6.6). A truth at a row is read by two bits, TRUE (`== some true`) and UNKNOWN (`== none`):
these of a mask or pair, and of each three-valued operation in terms of its operands'. -/

open Sys2Proof Sys2Proof.Machine

namespace Sys2Proof.Proofs

/-- A row's truth is TRUE by the first mask alone, whatever the second holds. -/
theorem truthAt_isTrue (s : State) (c : Ctx) (pair : Bool) (m row : Nat) :
    (truthAt s c pair m row == some true) = maskBit s c m row := by
  unfold truthAt
  split_ifs <;> simp_all

/-- A row's truth is UNKNOWN in a pair only, where the second mask's bit stands without the first's. -/
theorem truthAt_isUnknown (s : State) (c : Ctx) (pair : Bool) (m row : Nat) :
    (truthAt s c pair m row == none) = (pair && (maskBit s c (m + 1) row && !maskBit s c m row)) := by
  unfold truthAt
  split_ifs <;> simp_all

/-- Table 6.6, TRUE result: MAND; MOR and MNOT follow. -/
theorem and3_isTrue : ∀ a b : Option Bool, (and3 a b == some true) = ((a == some true) && (b == some true)) := by decide

theorem or3_isTrue : ∀ a b : Option Bool, (or3 a b == some true) = ((a == some true) || (b == some true)) := by decide

theorem map_not_isTrue : ∀ a : Option Bool, (a.map (!·) == some true) = (!(a == some true) && !(a == none)) := by decide

/-- Table 6.6, UNKNOWN result: MAND; MOR and MNOT follow. -/
theorem and3_isUnknown : ∀ a b : Option Bool, (and3 a b == none) =
    (!((a == some true) && (b == some true)) && ((a == some true) || (a == none)) && ((b == some true) || (b == none))) := by decide

theorem or3_isUnknown : ∀ a b : Option Bool, (or3 a b == none) =
    (!((a == some true) || (b == some true)) && ((a == none) || (b == none))) := by decide

/-- In the form of Table 6.6; a truth that is UNKNOWN is not TRUE in any case. -/
theorem map_not_isUnknown : ∀ a : Option Bool, (a.map (!·) == none) = (!(a == some true) && (a == none)) := by decide

/-- MAND's and MOR's truth at a row: a three-valued operation on those of the operands. -/
def logicAt (g : Option Bool → Option Bool → Option Bool) (s : State) (c : Ctx) (f : Insn) (row : Nat) : Option Bool :=
  g (truthAt s c (decide (8 ≤ f.mod)) f.ra row) (truthAt s c (decide (8 ≤ f.mod)) f.rb row)

/-- MNOT's truth at a row. -/
def mnotAt (s : State) (c : Ctx) (f : Insn) (row : Nat) : Option Bool :=
  (truthAt s c (decide (8 ≤ f.mod)) f.ra row).map (!·)

/-- MAND and MOR write their truths and change nothing else. -/
theorem opLogic_ok (g : Option Bool → Option Bool → Option Bool) (c : Ctx) (f : Insn) (u : State) :
    opLogic g c f u = .ok () (truthWritten u c f (logicAt g u c f)) :=
  (bind_get _ u).trans (writeTruth_pure u c f _ (logicAt g u c f) fun _ _ => rfl)

/-- MNOT writes its truths and changes nothing else. -/
theorem opMnot_ok (c : Ctx) (f : Insn) (u : State) : opMnot c f u = .ok () (truthWritten u c f (mnotAt u c f)) :=
  (bind_get _ u).trans (writeTruth_pure u c f _ (mnotAt u c f) fun _ _ => rfl)

/-- Settles O32: each instruction completes by its operation's equation, and its truth at a row is read off the two columns of
Table 6.6; off pair form no operand is UNKNOWN. -/
theorem maskLogic : Obligations.MaskLogic := by
  rintro s n k r c f hi u rfl
  refine ⟨logicAt and3 (issued s c) c f, logicAt or3 (issued s c) c f, mnotAt (issued s c) c f,
    insn_completes rfl hi (opLogic_ok and3 c f _), insn_completes rfl hi (opLogic_ok or3 c f _),
    insn_completes rfl hi (opMnot_ok c f _), ?_⟩
  rintro row ta tb ua ub rfl rfl rfl rfl
  simp only [logicAt, mnotAt, and3_isTrue, and3_isUnknown, or3_isTrue, or3_isUnknown, map_not_isTrue, map_not_isUnknown,
    truthAt_isTrue, truthAt_isUnknown]
  refine ⟨fun hpair => ?_, fun hsingle => ?_⟩
  · simp [hpair]
  · simp [Nat.not_le.mpr hsingle]

end Sys2Proof.Proofs
end

section
/-! Proofs: the rounding rule (08 R270). The model rounds the magnitude and puts the sign back; the rule moves the truncated signed
quotient. The bridge is `roundDiv_eq_tdiv`, and then each mode only says when the magnitude moves. -/

open Sys2Proof Sys2Proof.Machine

namespace Sys2Proof.Proofs

/-- The step away from 0 (08 R270, sgn); it is taken only where n is not 0. -/
def awayStep (n : Int) : Int := if 0 < n then 1 else -1

/-- Whether a mode moves the truncated magnitude of n / d by one: the choice `roundDiv` makes. -/
def roundsAway (mode : Nat) (n : Int) (d : Nat) : Bool :=
  match mode with
  | 0 => decide (d < 2 * (n.natAbs % d)) || (2 * (n.natAbs % d) == d && n.natAbs / d % 2 == 1)
  | 1 => decide (d ≤ 2 * (n.natAbs % d))
  | 3 => decide (0 < n.natAbs % d ∧ n < 0)
  | 4 => decide (0 < n.natAbs % d ∧ 0 < n)
  | _ => false

theorem roundDiv_eq_magnitude (mode : Nat) (n : Int) (d : Nat) :
    roundDiv mode n d = if mode = 5 ∧ n.natAbs % d ≠ 0 then none
      else some (if n < 0 then -((if roundsAway mode n d then n.natAbs / d + 1 else n.natAbs / d : Nat) : Int)
        else ((if roundsAway mode n d then n.natAbs / d + 1 else n.natAbs / d : Nat) : Int)) := rfl

/-- The truncated quotient is the magnitude's with the sign of n. -/
theorem tdiv_eq_signed (n : Int) (d : Nat) :
    n.tdiv d = if n < 0 then -((n.natAbs / d : Nat) : Int) else ((n.natAbs / d : Nat) : Int) := by
  split_ifs with hn
  · obtain ⟨m, rfl⟩ := Int.exists_eq_neg_ofNat hn.le
    simp [Int.neg_tdiv]
  · obtain ⟨m, rfl⟩ := Int.eq_ofNat_of_zero_le (not_lt.mp hn)
    simp

/-- The remainder of the truncated quotient is the magnitude's with the sign of n. -/
theorem tmod_eq_signed (n : Int) (d : Nat) :
    n.tmod d = if n < 0 then -((n.natAbs % d : Nat) : Int) else ((n.natAbs % d : Nat) : Int) := by
  split_ifs with hn
  · obtain ⟨m, rfl⟩ := Int.exists_eq_neg_ofNat hn.le
    simp [Int.neg_tmod, Int.tmod_eq_emod_of_nonneg]
  · obtain ⟨m, rfl⟩ := Int.eq_ofNat_of_zero_le (not_lt.mp hn)
    simp [Int.tmod_eq_emod_of_nonneg]

/-- 0 is exact: no mode moves it. -/
theorem roundsAway_zero (mode : Nat) {d : Nat} (hd : 0 < d) : roundsAway mode 0 d = false := by
  unfold roundsAway
  split <;> simp [hd.ne']

/-- The rule's shape: the truncated quotient, moved by one step away from 0 where the mode says so. -/
theorem roundDiv_eq_tdiv (mode : Nat) (n : Int) {d : Nat} (hd : 0 < d) :
    roundDiv mode n d = if mode = 5 ∧ n.tmod d ≠ 0 then none
      else some (if roundsAway mode n d then n.tdiv d + awayStep n else n.tdiv d) := by
  have hr : n.natAbs % d ≠ 0 ↔ n.tmod d ≠ 0 := by
    rw [tmod_eq_signed]
    split_ifs <;> omega
  rw [roundDiv_eq_magnitude, tdiv_eq_signed, awayStep]
  simp only [hr]
  rcases lt_trichotomy n 0 with hn | rfl | hn
  · simp only [hn, hn.not_gt, if_true, if_false]
    split_ifs <;> simp [add_comm]
  · simp [roundsAway_zero mode hd]
  · simp only [hn, hn.not_gt, if_true, if_false]
    split_ifs <;> simp

/-- A mode other than UNNECESSARY whose move is read off q and r by a condition P. -/
theorem roundDiv_of_roundsAway_iff {mode : Nat} {n : Int} {d : Nat} {P : Prop} [Decidable P] (hd : 0 < d) (hm : mode ≠ 5)
    (h : roundsAway mode n d = true ↔ P) :
    roundDiv mode n d = some (if P then n.tdiv d + awayStep n else n.tdiv d) := by
  simp [roundDiv_eq_tdiv mode n hd, hm, h]

/-- HALF_EVEN: more than half, or a tie beside an odd quotient. -/
theorem roundsAway_halfEven (n : Int) (d : Nat) : roundsAway 0 n d = true ↔
    (d : Int) < 2 * (n.tmod d).natAbs ∨ (2 * ((n.tmod d).natAbs : Int) = d ∧ n.tdiv d % 2 = 1) := by
  have hodd : n.tdiv d % 2 = 1 ↔ n.natAbs / d % 2 = 1 := by
    rw [tdiv_eq_signed]
    split_ifs <;> omega
  simp only [roundsAway, hodd, Int.natAbs_tmod, Int.natAbs_natCast, Bool.or_eq_true, Bool.and_eq_true, decide_eq_true_eq,
    beq_iff_eq]
  omega

/-- HALF_UP: half or more. -/
theorem roundsAway_halfUp (n : Int) (d : Nat) : roundsAway 1 n d = true ↔ (d : Int) ≤ 2 * (n.tmod d).natAbs := by
  simp only [roundsAway, Int.natAbs_tmod, Int.natAbs_natCast, decide_eq_true_eq]
  omega

/-- FLOOR: a negative remainder. -/
theorem roundsAway_floor (n : Int) (d : Nat) : roundsAway 3 n d = true ↔ n.tmod d < 0 := by
  simp only [roundsAway, tmod_eq_signed, decide_eq_true_eq]
  generalize n.natAbs % d = m
  split_ifs <;> omega

/-- A positive remainder has a positive dividend. -/
theorem pos_of_tmod_pos {n : Int} {d : Nat} (h : 0 < n.tmod d) : 0 < n := by
  by_contra hn
  have hneg : 0 ≤ (-n).tmod d := Int.tmod_nonneg _ (by omega)
  rw [Int.neg_tmod] at hneg
  omega

/-- CEILING: a positive remainder. -/
theorem roundsAway_ceiling (n : Int) (d : Nat) : roundsAway 4 n d = true ↔ 0 < n.tmod d := by
  have hr : (n.tmod d).natAbs = n.natAbs % d := Int.natAbs_tmod n d
  have hnonneg : 0 < n → 0 ≤ n.tmod d := fun hn => Int.tmod_nonneg _ hn.le
  have hpos : 0 < n.tmod d → 0 < n := pos_of_tmod_pos
  simp only [roundsAway, ← hr, decide_eq_true_eq]
  omega

/-- A negative remainder has a negative dividend: FLOOR's step away from 0 goes down. -/
theorem awayStep_of_tmod_neg {n : Int} {d : Nat} (h : n.tmod d < 0) : awayStep n = -1 :=
  if_neg fun hn => (Int.tmod_nonneg _ hn.le).not_gt h

/-- CEILING's step away from 0 goes up. -/
theorem awayStep_of_tmod_pos {n : Int} {d : Nat} (h : 0 < n.tmod d) : awayStep n = 1 := if_pos (pos_of_tmod_pos h)

/-- Settles O34: each mode's move, read off the truncated quotient and its remainder. -/
theorem roundingModes : Obligations.RoundingModes := by
  rintro n d hd q r sgn rfl rfl rfl
  refine ⟨roundDiv_of_roundsAway_iff hd (by decide) (roundsAway_halfEven n d),
    roundDiv_of_roundsAway_iff hd (by decide) (roundsAway_halfUp n d), ?down, ?floor, ?ceiling, ?unnecessary⟩
  case down => simp [roundDiv_eq_tdiv 2 n hd, roundsAway]
  case floor =>
    rw [roundDiv_of_roundsAway_iff hd (by decide) (roundsAway_floor n d)]
    exact congrArg some (ite_congr rfl (fun hr => by rw [awayStep_of_tmod_neg hr, sub_eq_add_neg]) fun _ => rfl)
  case ceiling =>
    rw [roundDiv_of_roundsAway_iff hd (by decide) (roundsAway_ceiling n d)]
    exact congrArg some (ite_congr rfl (fun hr => by rw [awayStep_of_tmod_pos hr]) fun _ => rfl)
  case unnecessary => simp [roundDiv_eq_tdiv 5 n hd, roundsAway, ite_not]

end Sys2Proof.Proofs
end

section
/-! Proofs: SNAPSHOT_OPEN and SNAPSHOT_CLOSE (09 R324, R325). Where either changes the registrations, it does so by one operation: the
new list, the point of no return, the outcome and the low-water epoch. -/

open Sys2Proof Sys2Proof.Machine

namespace Sys2Proof.Proofs

/-- The registrations become `l` and the job, past its point of no return, ends with OK and a result; the low-water epoch follows. -/
def snapsChanged (s : State) (id : Nat) (l : List (Nat × Nat)) (result : Nat) : State :=
  updateLow (okJob
    ({ s with mpd := { s.mpd with snaps := l } }.setJob id (fun j => { j with pnr := true })) id result)

/-- What such a change leaves: all but the registrations, the registers and the job table. -/
theorem snapsChanged_frame (s : State) (id : Nat) (l : List (Nat × Nat)) (result : Nat) :
    snapsChanged s id l result = { s with
      regs := (snapsChanged s id l result).regs,
      mpd := { s.mpd with snaps := (snapsChanged s id l result).mpd.snaps },
      fan := (snapsChanged s id l result).fan } := rfl

theorem snapsChanged_snaps (s : State) (id : Nat) (l : List (Nat × Nat)) (result : Nat) :
    (snapsChanged s id l result).mpd.snaps = l := rfl

/-- The low-water epoch is a register: its update leaves the jobs. -/
theorem updateLow_job (s : State) (id : Nat) : (updateLow s).job id = s.job id := rfl

/-- The changed job, where it is known. -/
theorem setJob_job_of_some {s : State} {id : Nat} {j : Job} {f : Job → Job} (hf : ∀ j, (f j).id = j.id)
    (hj : s.job id = some j) : (s.setJob id f).job id = some (f j) := by
  rw [setJob_job_same s id f hf, hj, Option.map_some]

/-- A job without an outcome takes the one given. -/
theorem finishJob_job {s : State} {id : Nat} {j : Job} (o : Outc) (hj : s.job id = some j) (ho : j.outc = none) :
    (finishJob s id o).job id = some { j with outc := some o, started := true } := by
  rw [finishJob, setJob_job_of_some (fun j => by split_ifs <;> rfl) hj]
  simp [ho]

theorem snapsChanged_job {s : State} {id op : Nat} {j : Job} (l : List (Nat × Nat)) (result : Nat)
    (hj : startJob s id op = some j) : (snapsChanged s id l result).job id =
      some { j with pnr := true, outc := some ⟨0, 0, result⟩, started := true } := by
  obtain ⟨hjob, -⟩ := startJob_some hj
  have ho : j.outc = none := startJob_outc hj
  rw [snapsChanged, updateLow_job]
  exact finishJob_job (j := { j with pnr := true }) _ (setJob_job_of_some (fun _ => rfl) hjob) ho

/-- The job stays in the job table, so that the register written owes no preempt_cols. -/
theorem calm_snapsChanged {s : State} {id op : Nat} {j : Job} (l : List (Nat × Nat)) (result : Nat) (hc : s.calm)
    (hj : startJob s id op = some j) : (snapsChanged s id l result).calm := by
  refine calm_of_jobs hc rfl rfl rfl fun hn => ?_
  have hjob := snapsChanged_job l result hj
  simp [State.job, hn] at hjob

theorem snapshotOpen_full {s : State} {id : Nat} {j : Job} (hj : startJob s id 0x0602 = some j)
    (hfull : 4096 ≤ s.mpd.snaps.length) : snapshotOpen s id = finishJob s id ⟨0x31, 0, 0⟩ := by
  simp [snapshotOpen, hj, hfull]

theorem snapshotOpen_free {s : State} {id : Nat} {j : Job} (hj : startJob s id 0x0602 = some j)
    (hfree : s.mpd.snaps.length < 4096) :
    snapshotOpen s id = snapsChanged s id (s.mpd.snaps ++ [(j.slice, j.epoch)]) j.epoch := by
  simp [snapshotOpen, hj, hfree.not_ge, snapsChanged]

theorem snapshotClose_absent {s : State} {id : Nat} {j : Job} (hj : startJob s id 0x0603 = some j)
    (habsent : (j.slice, j.hdr.epoch) ∉ s.mpd.snaps) : snapshotClose s id = finishJob s id ⟨0, 0, 0⟩ := by
  simp [snapshotClose, hj, habsent, okJob]

theorem snapshotClose_held {s : State} {id : Nat} {j : Job} (hj : startJob s id 0x0603 = some j)
    (hheld : (j.slice, j.hdr.epoch) ∈ s.mpd.snaps) :
    snapshotClose s id = snapsChanged s id (s.mpd.snaps.erase (j.slice, j.hdr.epoch)) 1 := by
  simp [snapshotClose, hj, hheld, snapsChanged]

/-- A state that owes nothing is the command's answer. -/
theorem exec_snapshotOpen {s t : State} {id : Nat} (h : snapshotOpen s id = t) (hc : t.calm) :
    exec (.snapshotOpen id) s = .next t := by
  change done (snapshotOpen s id) = _
  rw [h, done_calm hc]

theorem exec_snapshotClose {s t : State} {id : Nat} (h : snapshotClose s id = t) (hc : t.calm) :
    exec (.snapshotClose id) s = .next t := by
  change done (snapshotClose s id) = _
  rw [h, done_calm hc]

/-- Settles O18: by whether a registration is free. -/
theorem snapshotOpenRegisters : Obligations.SnapshotOpenRegisters := by
  intro s id j hc hj
  constructor
  · intro hfull
    exact exec_snapshotOpen (snapshotOpen_full hj hfull) (calm_finishJob _ _ hc)
  · intro hfree
    exact ⟨_, exec_snapshotOpen (snapshotOpen_free hj hfree) (calm_snapsChanged _ _ hc hj), snapsChanged_snaps ..,
      snapsChanged_job _ _ hj, snapsChanged_frame ..⟩

/-- Settles O19: by whether the pair is registered; the list that is left is the old one with the pair erased once. -/
theorem snapshotCloseRemovesOne : Obligations.SnapshotCloseRemovesOne := by
  intro s id j hc hj
  constructor
  · intro habsent
    exact exec_snapshotClose (snapshotClose_absent hj habsent) (calm_finishJob _ _ hc)
  · intro hheld
    refine ⟨_, exec_snapshotClose (snapshotClose_held hj hheld) (calm_snapsChanged _ _ hc hj), ?length, ?others,
      snapsChanged_job _ _ hj, snapsChanged_frame ..⟩
    case length => exact List.length_erase_add_one hheld
    case others => exact fun p hp => List.count_erase_of_ne hp

end Sys2Proof.Proofs
end

section
/-! Proofs: what an invalidation purges (13 R461). An entry that a purged cache holds is one that its test spares; what the test asks of an
entry is said once for each operation. -/

open Sys2Proof Sys2Proof.Machine

namespace Sys2Proof.Proofs

/-- Purging keeps, of each list of a cache, the entries that the test spares. -/
theorem purged_spared {α : Type} {cache : List (Nat × List α)} {purges : α → Bool} {p : Nat × List α}
    (hp : p ∈ cache.map fun p => (p.1, p.2.filter fun x => !purges x)) : ∀ x ∈ p.2, purges x = false := by
  obtain ⟨old, -, rfl⟩ := List.mem_map.mp hp
  intro x hx
  simpa using (List.mem_filter.mp hx).2

/-- A test that spares every entry leaves the cache. -/
theorem purged_of_spared {α : Type} {purges : α → Bool} (hspare : ∀ x, purges x = false) (cache : List (Nat × List α)) :
    (cache.map fun p => (p.1, p.2.filter fun x => !purges x)) = cache := by
  simp [hspare]

theorem xltPurge_tables_spared {s : State} {q : InvalReq} {p : Nat × List XEnt}
    (hp : p ∈ (xltPurge s q).xlt.l2 ∨ p ∈ (xltPurge s q).xlt.walker) : ∀ x ∈ p.2, purgesX q x = false :=
  hp.elim purged_spared purged_spared

theorem xltPurge_combined_spared {s : State} {q : InvalReq} {p : Nat × List CEnt}
    (hp : p ∈ (xltPurge s q).xlt.itlb ∨ p ∈ (xltPurge s q).xlt.dtlb) : ∀ c ∈ p.2, purgesC q c = false :=
  hp.elim purged_spared purged_spared

section PurgeTests
variable {q : InvalReq}

theorem purgesX_all (hop : q.op = 2) (x : XEnt) : purgesX q x = true := by simp [purgesX, hop]

theorem purgesC_all (hop : q.op = 2) (c : CEnt) : purgesC q c = true := by simp [purgesC, hop]

theorem purgesX_tag (hop : q.op = 1) {x : XEnt} (hx : x.slice = q.slice) :
    purgesX q x = if x.stage2 then q.stage2 else q.stage1 := by simp [purgesX, hop, hx]

theorem purgesC_tag (hop : q.op = 1) {c : CEnt} (hc : c.slice = q.slice) : purgesC q c = true := by simp [purgesC, hop, hc]

theorem purgesX_addr_stage1 (hop : q.op = 0) (hn : 0 < q.pages) (hst : q.stage2 = false) {x : XEnt} (hx : x.slice = q.slice)
    (h1 : x.stage2 = false) :
    purgesX q x = rangesMeet (x.page * 2 ^ levelShift x.level) (2 ^ levelShift x.level) q.addr (q.pages * 4096) := by
  simp [purgesX, hop, hn, hst, hx, h1]

theorem purgesC_addr_stage1 (hop : q.op = 0) (hn : 0 < q.pages) (hst : q.stage2 = false) {c : CEnt} (hc : c.slice = q.slice) :
    purgesC q c = rangesMeet (c.page * 2 ^ levelShift c.level) (2 ^ levelShift c.level) q.addr (q.pages * 4096) := by
  simp [purgesC, hop, hn, hst, hc]

/-- Of stage 1, an invalidation of stage 2 purges the pointers alone. -/
theorem purgesX_addr_stage2 (hop : q.op = 0) (hn : 0 < q.pages) (hst : q.stage2 = true) {x : XEnt} (hx : x.slice = q.slice) :
    purgesX q x = if x.stage2 then rangesMeet (x.page * 2 ^ levelShift x.level) (2 ^ levelShift x.level) q.addr (q.pages * 4096)
      else !entPage x.entry := by
  simp [purgesX, hop, hn, hst, hx]

theorem purgesC_addr_stage2 (hop : q.op = 0) (hn : 0 < q.pages) (hst : q.stage2 = true) {c : CEnt} (hc : c.slice = q.slice) :
    purgesC q c = true := by simp [purgesC, hop, hn, hst, hc]

theorem purgesX_noPages (hop : q.op = 0) (hn : q.pages = 0) (x : XEnt) : purgesX q x = false := by simp [purgesX, hop, hn]

theorem purgesC_noPages (hop : q.op = 0) (hn : q.pages = 0) (c : CEnt) : purgesC q c = false := by simp [purgesC, hop, hn]

end PurgeTests

theorem xltPurge_all_tables {s : State} {q : InvalReq} (hop : q.op = 2) {p : Nat × List XEnt}
    (hp : p ∈ (xltPurge s q).xlt.l2 ∨ p ∈ (xltPurge s q).xlt.walker) : p.2 = [] :=
  List.eq_nil_iff_forall_not_mem.mpr fun x hx => by
    simpa [purgesX_all hop] using xltPurge_tables_spared hp x hx

theorem xltPurge_all_combined {s : State} {q : InvalReq} (hop : q.op = 2) {p : Nat × List CEnt}
    (hp : p ∈ (xltPurge s q).xlt.itlb ∨ p ∈ (xltPurge s q).xlt.dtlb) : p.2 = [] :=
  List.eq_nil_iff_forall_not_mem.mpr fun c hc => by
    simpa [purgesC_all hop] using xltPurge_combined_spared hp c hc

theorem xltPurge_noPages (s : State) {q : InvalReq} (hop : q.op = 0) (hn : q.pages = 0) : xltPurge s q = s := by
  simp [xltPurge, purged_of_spared (purgesX_noPages hop hn), purged_of_spared (purgesC_noPages hop hn)]

theorem invalOp_addr_noPages {s : State} {id : Nat} {j : Job} (hj : startJob s id 0x0800 = some j) (hn : eLen0 j.first = 0) :
    invalOp s id 0x0800 = finishJob s id ⟨0, 0, 0⟩ := by
  simp [invalOp, hj, invalOf, hn, okJob]

theorem exec_tlbInvalAddr_noPages {s : State} {id : Nat} {j : Job} (hc : s.calm) (hj : startJob s id 0x0800 = some j)
    (hn : eLen0 j.first = 0) : exec (.tlbInvalAddr id) s = .next (finishJob s id ⟨0, 0, 0⟩) := by
  change done (invalOp s id 0x0800) = _
  rw [invalOp_addr_noPages hj hn, done_calm (calm_finishJob _ _ hc)]

/-- Settles O27: by the operation; in each, an entry that is left is one that the operation's test spares. -/
theorem invalidationPurges : Obligations.InvalidationPurges := by
  rintro s q _ rfl
  refine ⟨fun hop => ?all, fun hop => ?tag, fun hop hn hst => ?stage1, fun hop hn hst => ?stage2,
    xltPurge_noPages s, fun _ _ => exec_tlbInvalAddr_noPages⟩
  case all => exact ⟨fun _ => xltPurge_all_tables hop, fun _ => xltPurge_all_combined hop⟩
  case tag =>
    refine ⟨fun p hp x hx hslice => ?_, fun p hp c hc hslice => ?_⟩
    · have hspared := xltPurge_tables_spared hp x hx
      rw [purgesX_tag hop hslice] at hspared
      constructor <;> intro hstage <;> simpa [hstage] using hspared
    · simpa [purgesC_tag hop hslice] using xltPurge_combined_spared hp c hc
  case stage1 =>
    refine ⟨fun p hp x hx hslice h1 => ?_, fun p hp c hc hslice => ?_⟩
    · exact (purgesX_addr_stage1 hop hn hst hslice h1).symm.trans (xltPurge_tables_spared hp x hx)
    · exact (purgesC_addr_stage1 hop hn hst hslice).symm.trans (xltPurge_combined_spared hp c hc)
  case stage2 =>
    refine ⟨fun p hp x hx hslice => ?_, fun p hp c hc hslice => ?_⟩
    · have hspared := xltPurge_tables_spared hp x hx
      rw [purgesX_addr_stage2 hop hn hst hslice] at hspared
      constructor <;> intro hstage <;> simpa [hstage] using hspared
    · simpa [purgesC_addr_stage2 hop hn hst hslice] using xltPurge_combined_spared hp c hc

end Sys2Proof.Proofs
end

section
/-! Proofs: the step (01, log 1, 2, 48 and 51). A step or command only evolves the state (Safety.lean, Evolves) and ends settled; each
statement reads one field of the first or the calmness of the second. -/

open Sys2Proof Sys2Proof.Machine

namespace Sys2Proof.Proofs

/-- Every command's answer is the settling of a state that evolved. -/
theorem exec_settled (c : Instr) (s : State) : ∃ u, exec c s = .next (settle u) ∧ Evolves s u := command_done c s

theorem idle_on {s : State} (hon : s.boot.on = true) :
    idle s = settle (if s.boot.running.isEmpty || bootWaits s then tick s else bootAdvance workDump s) := by simp [idle, hon]

/-- A step on an empty queue. -/
theorem step_nil {s : State} (hp : s.pending = []) : step s = .next (idle s) := by simp only [step, hp]

/-- A step with a command in front. -/
theorem step_cons {s : State} {c : Instr} {rest : List Instr} (hp : s.pending = c :: rest) :
    step s = exec c { s with pending := rest } := by simp only [step, hp]

/-- Settles O1. -/
theorem stepRunsFront : Obligations.StepRunsFront := fun _ _ _ => step_cons

/-- Settles O2: by whether a boot runs that does not wait for perst_n. -/
theorem emptyQueueStep : Obligations.EmptyQueueStep := by
  intro s hp
  rw [step_nil hp]
  refine ⟨fun hoff => ?off, fun hon hwait => ?tick, fun hon hrun hgo => ?boot⟩
  case off => simp [idle, hoff]
  case tick => rw [idle_on hon, if_pos (by simpa using hwait)]
  case boot => rw [idle_on hon, if_neg (by simp [hrun, hgo])]

/-- Settles O4: the command's effect evolves the state, and settling it leaves nothing owed. -/
theorem everyCommandCompletes : Obligations.EveryCommandCompletes := by
  intro c s
  obtain ⟨u, hu, he⟩ := exec_settled c s
  have hsettle : Evolves s (settle u) := settle_evolves he
  exact ⟨_, hu, hsettle.queue, fun hc => ⟨hsettle.canon hc, settle_owes (he.canon hc)⟩⟩

/-- Settles O3: by the command in front, or time passes. -/
theorem everyStepGoesOn : Obligations.EveryStepGoesOn := by
  intro s
  cases hp : s.pending with
  | nil => exact ⟨_, step_nil hp, (idle_evolves (.refl s)).queue.trans hp⟩
  | cons c rest =>
    obtain ⟨t, ht, hq, -⟩ := everyCommandCompletes c { s with pending := rest }
    exact ⟨t, (step_cons hp).trans ht, hq⟩

/-- Settles O5: what a step keeps in canonical form, however it evolves. -/
theorem stepKeepsCanonicalForm : Obligations.StepKeepsCanonicalForm := fun _ _ hc he => (step_evolves he).canon hc

/-- Settles O6. -/
theorem stepKeepsOtpWords : Obligations.StepKeepsOtpWords := fun _ _ hc hfresh he => (step_evolves he).otp hc hfresh

/-- Settles O7. -/
theorem stepKeepsMessages : Obligations.StepKeepsMessages := fun _ _ he => ⟨(step_evolves he).sent, (step_evolves he).draws⟩

/-- Settles O8. -/
theorem stepKeepsBarSize : Obligations.StepKeepsBarSize := fun _ _ hb he => (step_evolves he).bar hb

theorem reset_preempt : State.reset.fld F.stnCfg_preempt_active 0 = State.reset.fld F.stnCfg_preempt_cols 0 := by decide

/-- Settles O9: at reset the tables are empty and nothing is under way. -/
theorem resetIsSound : Obligations.ResetIsSound := by
  refine ⟨⟨rfl, rfl, rfl, rfl⟩, ?fresh, ?bar, ⟨rfl, rfl, rfl, fun _ => reset_preempt⟩, rfl⟩
  case fresh => intro o ho; cases ho
  case bar => exact ⟨by decide, by decide⟩

/-- Settles O10. -/
theorem settledStatesOweNothing : Obligations.SettledStatesOweNothing := fun _ => ⟨settle_calm, settle_owes⟩

/-- Settles O11: a command ends settled; on an empty queue an unpowered device stays and a powered one settles. -/
theorem stepOwesNothing : Obligations.StepOwesNothing := by
  intro s t hc hcalm he
  cases hp : s.pending with
  | cons c rest =>
    obtain ⟨u, hu, -, hsound⟩ := everyCommandCompletes c { s with pending := rest }
    rw [step_cons hp, hu] at he
    cases he
    exact (hsound hc).2
  | nil =>
    rw [step_nil hp] at he
    cases he
    by_cases hon : s.boot.on = true
    · rw [idle_on hon]
      refine settle_owes ?_
      split
      · exact (tick_evolves (.refl s)).canon hc
      · exact (bootAdvance_evolves (fun _ _ => workDump_evolves) (.refl s)).canon hc
    · simpa [idle, hon] using hcalm

end Sys2Proof.Proofs
end

section
/-! Proofs: jobs at their start. A command's answer is the settling of its effect, and the effect itself where that owes nothing; each
statement is then the branch that the opcode's meaning takes. -/

open Sys2Proof Sys2Proof.Machine

namespace Sys2Proof.Proofs

section Answers
variable {c : Instr} {s t u : State}

/-- The answer of a command whose effect is known. -/
theorem next_settled (hx : exec c s = done u) (hu : u = t) : exec c s = .next (settle t) := by rw [hx, hu, done]

/-- The same where the effect owes nothing. -/
theorem next_of_calm (hx : exec c s = done u) (hu : u = t) (ht : t.calm) : exec c s = .next t := by
  rw [next_settled hx hu, settle_calm ht]

end Answers

section Starts
variable {s : State} {id : Nat} {j : Job}

theorem nopOp_started (hj : startJob s id 1 = some j) : nopOp s id = finishJob s id ⟨0, 0, 0⟩ := by simp [nopOp, hj, okJob]

theorem fenceOp_started (hj : startJob s id 2 = some j) : fenceOp s id = finishJob s id ⟨0, 0, 0⟩ := by
  simp [fenceOp, hj, okJob]

theorem nopOp_waits (hj : startJob s id 1 = none) : nopOp s id = s := by simp [nopOp, hj]

theorem fenceOp_waits (hj : startJob s id 2 = none) : fenceOp s id = s := by simp [fenceOp, hj]

end Starts

/-- Settles O12: by whether the job may start. -/
theorem nopAndFenceEnd : Obligations.NopAndFenceEnd := by
  intro s id hc
  refine ⟨fun h => ?_, fun h => ?_, fun h => next_of_calm rfl (nopOp_waits h) hc, fun h => next_of_calm rfl (fenceOp_waits h) hc⟩
  · obtain ⟨j, hj⟩ := Option.isSome_iff_exists.mp h
    exact next_of_calm rfl (nopOp_started hj) (calm_finishJob _ _ hc)
  · obtain ⟨j, hj⟩ := Option.isSome_iff_exists.mp h
    exact next_of_calm rfl (fenceOp_started hj) (calm_finishJob _ _ hc)

/-- An outcome that stands is kept. -/
theorem finishJob_job_fixed {s : State} {id : Nat} {j : Job} {p : Outc} (o : Outc) (hj : s.job id = some j)
    (ho : j.outc = some p) : (finishJob s id o).job id = some j := by
  rw [finishJob, setJob_job_of_some (fun j => by split_ifs <;> rfl) hj]
  simp [ho]

/-- Settles O13. -/
theorem outcomeIsFixedOnce : Obligations.OutcomeIsFixedOnce := by
  intro s id o
  refine ⟨fun k hk => ?_, fun _ hj ho => finishJob_job o hj ho, fun _ _ hj ho => finishJob_job_fixed o hj ho, rfl⟩
  exact setJob_job_other _ _ _ _ (fun j => by split_ifs <;> rfl) hk

/-- Settles O15: by the target and its point of no return. -/
theorem abortHasThreeOutcomes : Obligations.AbortHasThreeOutcomes := by
  intro s id j hj
  refine ⟨fun ht hc => ?absent, fun t ht hp hc => ?past, fun t ht hp => ?aborted⟩
  case absent => exact next_of_calm rfl (by simp [abortOp, hj, ht]) (calm_finishJob _ _ hc)
  case past => exact next_of_calm rfl (by simp [abortOp, hj, ht, hp]) (calm_setJob _ _ hc)
  case aborted => exact next_settled rfl (by simp [abortOp, hj, ht, hp])

section Tasked
variable {s : State} {id : Nat} {j : Job}

theorem sluiceOp_started {op : Nat} (hj : startJob s id op = some j) : sluiceOp s id op = setTasks s id 1 := by
  simp [sluiceOp, hj]

theorem compressOp_packed (hj : startJob s id 0x0300 = some j) (hn : eLen0 j.first ≠ 0) (hp : qSlotted j = false) :
    compressOp s id = setTasks s id 1 := by simp [compressOp, hj, hn, hp]

theorem compressOp_slotted (hj : startJob s id 0x0300 = some j) (hn : eLen0 j.first ≠ 0) (hp : qSlotted j = true)
    (hroom : qCount j * qSlot j ≤ eLen1 j.first) : compressOp s id = setTasks s id (qCount j) := by
  simp [compressOp, hj, hn, hp, hroom.not_gt]

theorem compressOp_empty (hj : startJob s id 0x0300 = some j) (hn : eLen0 j.first = 0) : compressOp s id = emptyTap s j := by
  simp [compressOp, hj, hn]

theorem compressOp_short (hj : startJob s id 0x0300 = some j) (hn : 0 < eLen0 j.first) (hp : qSlotted j = true)
    (hroom : eLen1 j.first < qCount j * qSlot j) :
    compressOp s id = finishJob s id ⟨stShort, 1, qCount j * qSlot j⟩ := by
  simp [compressOp, hj, hn.ne', hp, hroom]

theorem decompressOp_enough (hj : startJob s id 0x0301 = some j) (hn : 16 ≤ eLen0 j.first) :
    decompressOp s id = setTasks s id (if qSlotted j then qCount j else 1) := by
  simp [decompressOp, hj, hn.not_gt, show eLen0 j.first ≠ 0 by omega]

theorem decompressOp_empty (hj : startJob s id 0x0301 = some j) (hn : eLen0 j.first = 0) : decompressOp s id = emptyTap s j := by
  simp [decompressOp, hj, hn]

theorem decompressOp_short (hj : startJob s id 0x0301 = some j) (h0 : 0 < eLen0 j.first) (hn : eLen0 j.first < 16) :
    decompressOp s id = finishJob s id ⟨stShort, 0, 16⟩ := by simp [decompressOp, hj, h0.ne', hn]

/-- A digest with a good handle, or none, and room for its digest, or a hold. -/
theorem digestOp_started {op : Nat} (hj : startJob s id op = some j)
    (hh : dgCont j = true → (ctxOfHandle s j.slice (dgHandle j)).isSome = true)
    (hroom : dgHold j = false → algDigest (dgAlg j) ≤ eLen1 j.first) : digestOp s id op = setTasks s id 1 := by
  have hgood : (dgCont j && (ctxOfHandle s j.slice (dgHandle j)).isNone) = false := by
    cases hcont : dgCont j
    · rfl
    · simpa using hh hcont
  have hfits : (!dgHold j && decide (eLen1 j.first < algDigest (dgAlg j))) = false := by
    cases hhold : dgHold j
    · simpa using hroom hhold
    · rfl
  simp only [digestOp, hj, hgood, hfits, Bool.false_eq_true, if_false]

theorem digestOp_badHandle {op : Nat} (hj : startJob s id op = some j) (hcont : dgCont j = true)
    (hh : ctxOfHandle s j.slice (dgHandle j) = none) :
    digestOp s id op = finishJob s id ⟨stBadHeader, 0, dgHandle j⟩ := by simp [digestOp, hj, hcont, hh, badHandle]

/-- A digest without room ends, and with it the handle that it continues. -/
theorem digestOp_short {op : Nat} (hj : startJob s id op = some j)
    (hh : dgCont j = true → (ctxOfHandle s j.slice (dgHandle j)).isSome = true) (hhold : dgHold j = false)
    (hroom : eLen1 j.first < algDigest (dgAlg j)) :
    digestOp s id op = finishJob (endHandle s j) id ⟨stShort, 1, algDigest (dgAlg j)⟩ := by
  have hgood : (dgCont j && (ctxOfHandle s j.slice (dgHandle j)).isNone) = false := by
    cases hcont : dgCont j
    · rfl
    · simpa using hh hcont
  simp [digestOp, hj, hgood, hhold, hroom]

theorem endHandle_new (hcont : dgCont j = false) : endHandle s j = s := by simp [endHandle, hcont]

theorem endHandle_free {n : Nat} {c : TollCtx} (hcont : dgCont j = true) (hh : ctxOfHandle s j.slice (dgHandle j) = some (n, c))
    (hc : c.job = none) : endHandle s j = s.setCtx n none := by simp [endHandle, hcont, hh, hc]

theorem contextSaveOp_room {x : Nat × TollCtx} (hj : startJob s id 0x0402 = some j)
    (hx : ctxOfHandle s j.slice (eParam0 j.first % 65536) = some x)
    (hroom : (if x.2.keyed.isSome then 424 else 416) ≤ eLen1 j.first) : contextSaveOp s id = setTasks s id 1 := by
  simp only [contextSaveOp, hj, hx]
  exact if_neg hroom.not_gt

theorem contextSaveOp_badHandle (hj : startJob s id 0x0402 = some j)
    (hx : ctxOfHandle s j.slice (eParam0 j.first % 65536) = none) :
    contextSaveOp s id = finishJob s id ⟨stBadHeader, 0, eParam0 j.first % 65536⟩ := by
  simp [contextSaveOp, hj, hx, badHandle]

theorem contextRestoreOp_started (hj : startJob s id 0x0403 = some j) : contextRestoreOp s id = setTasks s id 1 := by
  simp [contextRestoreOp, hj]

theorem lookupOp_room (hj : startJob s id 0x0110 = some j) (hn : eParam0 j.first ≠ 0)
    (hroom : lookupLen (eParam0 j.first) (fetchCols j.entries).length ≤ eLen1 j.first) : lookupOp s id = setTasks s id 1 := by
  simp [lookupOp, hj, hn, hroom.not_gt]

theorem lookupOp_empty (hj : startJob s id 0x0110 = some j) (hn : eParam0 j.first = 0) :
    lookupOp s id = finishJob s id ⟨0, 0, j.epoch⟩ := by simp [lookupOp, hj, hn, okJob]

end Tasked

/-- Settles O16. -/
theorem taskedOpcodesStart : Obligations.TaskedOpcodesStart := by
  intro s id j hc
  have answer {c : Instr} {u : State} {n : Nat} (hx : exec c s = done u) (hu : u = setTasks s id n) :
      exec c s = .next (setTasks s id n) := next_of_calm hx hu (calm_setTasks _ _ hc)
  refine ⟨fun hj => answer rfl (sluiceOp_started hj), fun hj => answer rfl (sluiceOp_started hj),
    fun hj => answer rfl (sluiceOp_started hj), fun hj => answer rfl (contextRestoreOp_started hj),
    fun hj hn hp => answer rfl (compressOp_packed hj hn hp), fun hj hn hp hr => answer rfl (compressOp_slotted hj hn hp hr),
    fun hj hn => answer rfl (decompressOp_enough hj hn), fun hj hh hr => answer rfl (digestOp_started hj hh hr),
    fun hj hh hr => answer rfl (digestOp_started hj hh hr), fun x hj hx hr => answer rfl (contextSaveOp_room hj hx hr),
    fun hj hn hr => answer rfl (lookupOp_room hj hn hr)⟩

/-- Settles O17. -/
theorem shortOperandsEndTheJob : Obligations.ShortOperandsEndTheJob := by
  intro s id j hc
  have answer {c : Instr} {u : State} {o : Outc} (hx : exec c s = done u) (hu : u = finishJob s id o) :
      exec c s = .next (finishJob s id o) := next_of_calm hx hu (calm_finishJob _ _ hc)
  refine ⟨fun hj hn => next_settled rfl (compressOp_empty hj hn), fun hj hn => next_settled rfl (decompressOp_empty hj hn),
    fun hj h0 hn => answer rfl (decompressOp_short hj h0 hn), fun hj hn hp hr => answer rfl (compressOp_short hj hn hp hr),
    fun hj hcont hh => answer rfl (digestOp_badHandle hj hcont hh), fun hj hnew hhold hr => answer rfl ?new,
    fun n x hj hcont hh hfree hhold hr => next_settled rfl ?continued,
    fun hj hx => answer rfl (contextSaveOp_badHandle hj hx), fun hj hn => answer rfl (lookupOp_empty hj hn)⟩
  case new => exact (digestOp_short hj (by simp [hnew]) hhold hr).trans (by rw [endHandle_new hnew])
  case continued => exact (digestOp_short hj (by simp [hh]) hhold hr).trans (by rw [endHandle_free hcont hh hfree])

end Sys2Proof.Proofs
end

section
/-! Proofs: the low-water epoch, BEGIN and COMMIT (09 R306, R309, R327, R346). -/

open Sys2Proof Sys2Proof.Machine

namespace Sys2Proof.Proofs

/-- The least of a list and a bound is at or below each of them. -/
theorem foldl_min_le (l : List Nat) (a : Nat) : l.foldl min a ≤ a ∧ ∀ x ∈ l, l.foldl min a ≤ x := by
  induction l generalizing a with
  | nil => simp
  | cons b l ih =>
    obtain ⟨hbound, hmem⟩ := ih (min a b)
    refine ⟨hbound.trans (min_le_left _ _), List.forall_mem_cons.mpr ⟨hbound.trans (min_le_right _ _), hmem⟩⟩

/-- The epochs that hold the low-water epoch down: open snapshots, pinned read epochs, transactions. -/
def heldEpochs (s : State) : List Nat :=
  s.mpd.snaps.map Prod.snd ++ ((s.fan.jobs.filter pins).map (·.epoch)).filter (fun e => decide (s.reg .mpdLowWater 0 ≤ e)) ++
    s.mpd.txns.map (·.st)

theorem updateLow_eq (s : State) : updateLow s =
    s.setReg .mpdLowWater 0 (max (s.reg .mpdLowWater 0) ((heldEpochs s).foldl min (s.reg .mpdEpoch 0))) := rfl

/-- What MPD_LOW_WATER holds after its update. -/
theorem updateLow_lowWater {s : State} (hc : s.canon) : (updateLow s).reg .mpdLowWater 0 =
    max (s.reg .mpdLowWater 0) ((heldEpochs s).foldl min (s.reg .mpdEpoch 0)) := by
  have hepoch := (foldl_min_le (heldEpochs s) (s.reg .mpdEpoch 0)).1.trans_lt (s.reg_lt _ _)
  rw [updateLow_eq, State.reg_setReg hc.2.1, Nat.mod_eq_of_lt (max_lt (s.reg_lt _ _) hepoch)]

theorem updateLow_epoch {s : State} (hc : s.canon) : (updateLow s).reg .mpdEpoch 0 = s.reg .mpdEpoch 0 := by
  rw [updateLow_eq, State.reg_setReg_ne hc.2.1 _ (by decide)]

/-- Settles O20: the new value is the larger of the old one and the least held epoch. -/
theorem lowWaterNeverFalls : Obligations.LowWaterNeverFalls := by
  intro s hc
  obtain ⟨hepoch, hheld⟩ := foldl_min_le (heldEpochs s) (s.reg .mpdEpoch 0)
  rw [updateLow_lowWater hc, updateLow_epoch hc]
  refine ⟨le_max_left _ _, fun hle => max_le hle hepoch, fun p hp hle => max_le hle (hheld _ ?_)⟩
  simp only [heldEpochs, List.mem_append]
  exact .inl (.inl (List.mem_map_of_mem hp))

section Transactions
variable {s : State} {id n : Nat} {j : Job} {t : Txn}

/-- The transaction that a job is part of. -/
theorem bind_txn (hn : j.txn = some n) (ht : s.txn n = some t) : j.txn.bind s.txn = some t := by simp [hn, ht]

theorem beginOp_started (hj : startJob s id 0x0600 = some j) (htx : j.txn.bind s.txn = some t) :
    beginOp s id = finishJob s id (if t.failed then ⟨0x71, 0, j.sumHi⟩ else ⟨0, 0, j.epoch⟩) := by simp [beginOp, hj, htx]

theorem commitOp_waits (hj : startJob s id 0x0601 = some j) (htx : j.txn.bind s.txn = some t) (hm : t.members ≠ []) :
    commitOp s id = s := by simp [commitOp, hj, htx, hm]

/-- A COMMIT whose transaction's members have released, outside a replay. -/
theorem commitOp_acts (hj : startJob s id 0x0601 = some j) (htx : j.txn.bind s.txn = some t) (hm : t.members = [])
    (hr : s.flag F.mpdStatus_replay_done 0 = true) : commitOp s id =
      if t.failed then finishJob (abortTxn s t.num j.hdr.tag) id ⟨0x20, 0, 0⟩
      else (({ s with mpd := { s.mpd with ready := s.mpd.ready ++ [t.num] } } : State).setTxn t.num
        (fun t => { t with state := .ready })).setJob id (fun j => { j with started := true }) := by
  simp [commitOp, hj, htx, hm, replayHolds, hr]

/-- Read-only, a COMMIT is held by its members alone. -/
theorem commitJob_waits (hj : startJob s id 0x0601 = some j) (htx : j.txn.bind s.txn = some t) (hm : t.members ≠ []) :
    commitJob s id = s := by simp [commitJob, hj, htx, hm, commitOp_waits hj htx hm]

theorem commitJob_readOnly (hj : startJob s id 0x0601 = some j) (hn : j.txn = some n) (ht : s.txn n = some t)
    (hm : t.members = []) (hro : s.readOnly = true) : commitJob s id =
      finishJob (s.setTxn n (fun t => { t with state := .aborted })) id ⟨stOffline, 0, 0⟩ := by
  simp [commitJob, hj, ht, hm, hro, offline, hn]

theorem commitJob_writable (hj : startJob s id 0x0601 = some j) (hro : s.readOnly = false) : commitJob s id = commitOp s id := by
  simp [commitJob, hj, hro]

end Transactions

/-- Settles O21: by the transaction, its members, and whether the journal may be written. -/
theorem transactionOpcodesAct : Obligations.TransactionOpcodesAct := by
  intro s id n j t hc hn ht hnum
  have htx := bind_txn hn ht
  refine ⟨fun hj hf => ?begin, fun hj hf => ?expired, fun hj hm => ?waits, fun hj hm hro => ?readOnly,
    fun hj hm hro hr hf => ?failed, fun hj hm hro hr hf => ?ready⟩
  case begin => exact next_of_calm rfl ((beginOp_started hj htx).trans (by rw [hf]; rfl)) (calm_finishJob _ _ hc)
  case expired => exact next_of_calm rfl ((beginOp_started hj htx).trans (by rw [hf]; rfl)) (calm_finishJob _ _ hc)
  case waits => exact next_of_calm rfl (commitJob_waits hj htx hm) hc
  case readOnly => exact next_settled rfl (commitJob_readOnly hj hn ht hm hro)
  case failed =>
    exact next_settled rfl ((commitJob_writable hj hro).trans ((commitOp_acts hj htx hm hr).trans (by rw [hf, hnum]; rfl)))
  case ready =>
    refine next_of_calm rfl ((commitJob_writable hj hro).trans ((commitOp_acts hj htx hm hr).trans (by rw [hf, hnum]; rfl))) ?_
    exact calm_of_regs hc rfl rfl rfl (by simp) rfl

end Sys2Proof.Proofs
end

section
/-! Proofs: the opcodes of record volumes at their start (10 R355 to R365, R372 to R376, 09 R342, R346). -/

open Sys2Proof Sys2Proof.Machine

namespace Sys2Proof.Proofs

section VolumeJobs
variable {s : State} {id op : Nat} {j : Job} {e : VolEnt}

theorem startJob_op (hj : startJob s id op = some j) : j.hdr.op = op := by
  have hs := (startJob_some hj).2
  simp only [startable, Bool.and_eq_true, beq_iff_eq] at hs
  exact hs.1.1.1.1.1.1.1

/-- A volume job journals where its kind does and its start does not end it. -/
theorem makesRecord_eq (hv : s.vol (volOf j) = some e) : makesRecord s j = (journals s j && (volStart s j e).isNone) := by
  simp [makesRecord, hv]

/-- The start of READ, WRITE and TRIM, read-only replay and the wait for replay's end first. -/
theorem volumeJob_eq (hj : startJob s id op = some j) (hv : s.vol (volOf j) = some e) : volumeJob s id op =
    if journals s j && (volStart s j e).isNone && s.readOnly then finishJob s id ⟨stOffline, 0, 0⟩
    else if journals s j && (volStart s j e).isNone && replayHolds s then s
    else if mustFollow s j then s
    else match volStart s j e with
      | some o => finishJob s id o
      | none => setTasks s id 1 := by
  simp only [volumeJob, volumeOp, hj, hv, makesRecord_eq hv, offline] <;> rfl

theorem volumeJob_ends {o : Outc} (hj : startJob s id op = some j) (hv : s.vol (volOf j) = some e)
    (ho : volStart s j e = some o) (hf : mustFollow s j = false) : volumeJob s id op = finishJob s id o := by
  simp [volumeJob_eq hj hv, ho, hf]

/-- A job that goes on, where replay does not hold it: it waits for earlier overlapping ones. -/
theorem volumeJob_goes (hj : startJob s id op = some j) (hv : s.vol (volOf j) = some e) (ho : volStart s j e = none)
    (hr : journals s j = true → s.readOnly = false ∧ s.flag F.mpdStatus_replay_done 0 = true) :
    volumeJob s id op = if mustFollow s j then s else setTasks s id 1 := by
  rw [volumeJob_eq hj hv, ho]
  cases hjr : journals s j
  · simp
  · obtain ⟨hro, hdone⟩ := hr hjr
    simp [hro, replayHolds, hdone]

theorem volumeJob_readOnly (hj : startJob s id op = some j) (hv : s.vol (volOf j) = some e) (ho : volStart s j e = none)
    (hjr : journals s j = true) (hro : s.readOnly = true) : volumeJob s id op = finishJob s id ⟨stOffline, 0, 0⟩ := by
  simp [volumeJob_eq hj hv, ho, hjr, hro]

theorem volumeJob_replay (hj : startJob s id op = some j) (hv : s.vol (volOf j) = some e) (ho : volStart s j e = none)
    (hjr : journals s j = true) (hro : s.readOnly = false) (hdone : s.flag F.mpdStatus_replay_done 0 = false) :
    volumeJob s id op = s := by simp [volumeJob_eq hj hv, ho, hjr, hro, replayHolds, hdone]

/-- A job behind an earlier overlapping one waits, whether or not replay holds it too. -/
theorem volumeJob_follows (hj : startJob s id op = some j) (hv : s.vol (volOf j) = some e) (ho : volStart s j e = none)
    (hro : journals s j = true → s.readOnly = false) (hf : mustFollow s j = true) : volumeJob s id op = s := by
  rw [volumeJob_eq hj hv, ho]
  cases hjr : journals s j
  · simp [hf]
  · simp [hro hjr, hf]

/-- R356 before R357, by the opcode. -/
theorem volStart_eq (hop : op = 0x0500 ∨ op = 0x0501 ∨ op = 0x0503) (hj : startJob s id op = some j) : volStart s j e =
    if volLost s e = true then some ⟨stOffline, unavailable s e, lbaOf j⟩
    else if countOfJob j = 0 then some ⟨0, 0, 0⟩
    else if op ≠ 0x0503 ∧ eLen1 j.first < countOfJob j * e.bytes then some ⟨stShort, 1, countOfJob j * e.bytes⟩
    else none := by
  have hflush : op ≠ 0x0502 := by omega
  have hbuffer : (op = 0x0500 ∨ op = 0x0501) ↔ op ≠ 0x0503 := by omega
  simp only [volStart, startJob_op hj, offline, hflush, hbuffer, ne_eq, not_false_eq_true, and_true]

end VolumeJobs

/-- READ, WRITE and TRIM act as volume jobs of their opcode. -/
theorem exec_volumeJob {s : State} {id op : Nat} {i : Instr}
    (hi : (op, i) ∈ [(0x0500, Instr.read id), (0x0501, .write id), (0x0503, .trim id)]) :
    exec i s = done (volumeJob s id op) ∧ (op = 0x0500 ∨ op = 0x0501 ∨ op = 0x0503) := by
  simp only [List.mem_cons, Prod.mk.injEq, List.not_mem_nil, or_false] at hi
  rcases hi with ⟨rfl, rfl⟩ | ⟨rfl, rfl⟩ | ⟨rfl, rfl⟩ <;> exact ⟨rfl, by decide⟩

/-- Settles O22: by what ends the job at its start, and what it waits for. -/
theorem volumeJobsStart : Obligations.VolumeJobsStart := by
  intro s id op i j e hc hv hi hj
  obtain ⟨hx, hop⟩ := exec_volumeJob (s := s) hi
  refine ⟨fun ho hr hf => ?starts, fun o ho hf => ?ends, fun ho hjr hro => ?readOnly, fun ho hjr hro hd => ?replay,
    fun ho hro hf => ?follows, volStart_eq hop hj⟩
  case starts => exact next_of_calm hx ((volumeJob_goes hj hv ho hr).trans (by simp [hf])) (calm_setTasks _ _ hc)
  case ends => exact next_of_calm hx (volumeJob_ends hj hv ho hf) (calm_finishJob _ _ hc)
  case readOnly => exact next_of_calm hx (volumeJob_readOnly hj hv ho hjr hro) (calm_finishJob _ _ hc)
  case replay => exact next_of_calm hx (volumeJob_replay hj hv ho hjr hro hd) hc
  case follows => exact next_of_calm hx (volumeJob_follows hj hv ho hro hf) hc

theorem calm_foldl {α : Type} {f : State → α → State} (hf : ∀ t x, t.calm → (f t x).calm) (l : List α) {s : State}
    (hc : s.calm) : (l.foldl f s).calm := by
  induction l generalizing s with
  | nil => exact hc
  | cons x l ih => exact ih (hf s x hc)

/-- Flushes that end change the job table alone. -/
theorem calm_wakeFlushes {s : State} (hc : s.calm) : (wakeFlushes s).calm := by
  refine calm_foldl (fun t k ht => ?_) _ hc
  split
  · exact calm_finishJob _ _ ht
  · exact ht

/-- FLUSH of a volume that is available. -/
theorem flushOp_available {s : State} {id : Nat} {j : Job} {e : VolEnt} (hj : startJob s id 0x0502 = some j)
    (hv : s.vol (volOf j) = some e) (hl : volLost s e = false) : flushOp s id =
      if e.table then finishJob s id ⟨0, 0, 0⟩
      else wakeFlushes (s.setJob id (fun j => { j with started := true, progress := s.reg .mpdEpoch 0 + 1 })) := by
  have hstart : volStart s j e = none := by simp [volStart, startJob_op hj, hl]
  simp only [flushOp, hj, hv, hstart, okJob]

/-- Settles O23. -/
theorem flushSamplesTheEpoch : Obligations.FlushSamplesTheEpoch := by
  intro s id j e hc hj hv hl
  refine ⟨fun ht => ?table, fun ht => ?record⟩
  case table => exact next_of_calm rfl ((flushOp_available hj hv hl).trans (by simp [ht])) (calm_finishJob _ _ hc)
  case record =>
    exact next_of_calm rfl ((flushOp_available hj hv hl).trans (by simp [ht])) (calm_wakeFlushes (calm_setJob _ _ hc))

/-- Settles O24: VOLUME_CREATE by what stands in its way, the others by their volume's operation. -/
theorem volumeOpcodesAct : Obligations.VolumeOpcodesAct := by
  intro s id j
  refine ⟨fun hj hs hc => ?overtaken, fun hj hs hr => ?created, fun hj hs hr hc => ?refused, fun hj hr => ?deleted,
    fun e hj hr hv => ?sanitised, fun e hj hr hv => ?formatted⟩
  case overtaken => exact next_of_calm rfl (by simp [volumeCreate, hj, hs, offline]) (calm_finishJob _ _ hc)
  case created => exact next_settled rfl (by simp [volumeCreate, hj, hs, hr])
  case refused => exact next_of_calm rfl (by simp [volumeCreate, hj, hs, hr, offline]) (calm_finishJob _ _ hc)
  case deleted => exact next_settled rfl (by simp [volumeDelete, hj, hr])
  case sanitised => exact next_settled rfl (by simp [sanitiseOp, hj, hr, hv])
  case formatted => exact next_settled rfl (by simp [formatOp, hj, hr, hv])

end Sys2Proof.Proofs
end

section
/-! Proofs: invalidations, DUMP_READ, and PIPE_RUN with its followers (13 R461, 18 R570, 05 R161, R163, R658, 07 R260). -/

open Sys2Proof Sys2Proof.Machine

namespace Sys2Proof.Proofs

/-- An invalidation of some pages, of a tag, or of all. -/
theorem invalOp_purges {s : State} {id op : Nat} {j : Job} (hj : startJob s id op = some j)
    (hn : op = 0x0800 → eLen0 j.first ≠ 0) : invalOp s id op =
      (xltPurge s (invalOf j.first op)).setJob id (fun k => { k with started := true, pnr := true }) := by
  have hsome : ¬ (op = 0x0800 ∧ (invalOf j.first op).pages = 0) := fun h => hn h.1 h.2
  simp only [invalOp, hj, if_neg hsome]

theorem calm_xltPurge {s : State} (q : InvalReq) (hc : s.calm) : (xltPurge s q).calm := hc

/-- Settles O26. -/
theorem invalidationsAct : Obligations.InvalidationsAct := by
  intro s id j hc
  have answer {c : Instr} {u : State} {q : InvalReq} {f : Job → Job} (hx : exec c s = done u)
      (hu : u = (xltPurge s q).setJob id f) : exec c s = .next ((xltPurge s q).setJob id f) :=
    next_of_calm hx hu (calm_setJob _ _ (calm_xltPurge q hc))
  exact ⟨exec_tlbInvalAddr_noPages hc, fun hj hn => answer rfl (invalOp_purges hj fun _ => hn),
    fun hj => answer rfl (invalOp_purges hj fun h => absurd h (by decide)),
    fun hj => answer rfl (invalOp_purges hj fun h => absurd h (by decide))⟩

section DumpRead
variable {s : State} {id : Nat} {j : Job}

/-- The bytes of the image that a DUMP_READ can give. -/
def dumpSize (s : State) : Nat := if dumpValid s then 268500992 else 65536

/-- The copy that a DUMP_READ makes. -/
def dumpCopy (id : Nat) (j : Job) (n : Nat) : Op Unit :=
  dumpBytes (j.req .fantail) (eParam1 j.first) n >>= fun b => jobWrite id (j.req .fantail) (eAddr0 j.first) b

theorem dumpReadOp_short (hj : startJob s id 0x0706 = some j) (hn : eLen0 j.first < 65536) :
    dumpReadOp s id = finishJob s id ⟨stShort, 0, 65536⟩ := by simp [dumpReadOp, hj, hn]

theorem dumpReadOp_none (hj : startJob s id 0x0706 = some j) (hn : 65536 ≤ eLen0 j.first) (hh : dumpHeld s = false) :
    dumpReadOp s id = finishJob s id ⟨0, 0, 0⟩ := by simp [dumpReadOp, hj, hn.not_gt, hh, okJob]

theorem dumpReadOp_beyond (hj : startJob s id 0x0706 = some j) (hn : 65536 ≤ eLen0 j.first) (hh : dumpHeld s = true)
    (ho : dumpSize s ≤ eParam1 j.first) :
    dumpReadOp s id = finishJob s id ⟨0, 0, dumpSequence s % 2 ^ 32 * 2 ^ 32⟩ := by
  rw [dumpSize] at ho
  simp [dumpReadOp, hj, hn.not_gt, hh, ho, okJob]

/-- A copy that ends well: the dump is released where that is asked for and its last byte is copied. -/
theorem dumpReadOp_copies {s1 : State} {n : Nat} (hj : startJob s id 0x0706 = some j) (hn : 65536 ≤ eLen0 j.first)
    (hh : dumpHeld s = true) (ho : eParam1 j.first < dumpSize s) (hm : n = Nat.min (eLen0 j.first) (dumpSize s - eParam1 j.first))
    (hcopy : (dumpCopy id j n).exec s = (.ok (), s1)) : dumpReadOp s id =
      if bitAt (eParam0 j.first) 0 && eParam1 j.first + n == dumpSize s then
        okJob ((setDumpFlags s1 (dumpFlags s1 % 4)).setJob id (fun k => { k with pnr := true })) id
          (dumpSequence s % 2 ^ 32 * 2 ^ 32 + n)
      else okJob s1 id (dumpSequence s % 2 ^ 32 * 2 ^ 32 + n) := by
  subst hm
  unfold dumpCopy dumpSize at hcopy
  unfold dumpSize at ho ⊢
  simp only [dumpReadOp, hj, if_neg hn.not_gt, hh, if_neg ho.not_ge, Bool.not_true, Bool.false_eq_true, if_false]
  rw [show min (eLen0 j.first) _ = Nat.min (eLen0 j.first) _ from rfl, hcopy]

end DumpRead

/-- Settles O28: by the buffer, the dump and the offset. -/
theorem dumpReadAnswers : Obligations.DumpReadAnswers := by
  intro s id j hj
  refine ⟨fun hn hc => next_of_calm rfl (dumpReadOp_short hj hn) (calm_finishJob _ _ hc),
    fun hn hh hc => next_of_calm rfl (dumpReadOp_none hj hn hh) (calm_finishJob _ _ hc), ?_⟩
  rintro size hs hn hh
  change size = dumpSize s at hs
  subst hs
  refine ⟨fun ho hc => next_of_calm rfl (dumpReadOp_beyond hj hn hh ho) (calm_finishJob _ _ hc), fun n s1 ho hm hcopy => ?_⟩
  have hop := dumpReadOp_copies hj hn hh ho hm hcopy
  refine ⟨fun hr hend => next_settled rfl (hop.trans (if_pos (by simp [hr, hend]))), fun hkeep => ?_⟩
  refine next_settled rfl (hop.trans (if_neg ?_))
  rcases hkeep with hr | hend
  · simp [hr]
  · simp [hend]

section Pipeline
variable {s s1 u : State} {id : Nat} {j k : Job}

/-- A PIPE_RUN that may not start is as its loader leaves it. -/
theorem pipeRunOp_loaded (hj : s.job id = some j) (hd : loadDue s j = true) (hu : pipeLoad s j = u)
    (hw : startJob u id 0x0100 = none) : pipeRunOp s id = u := by simp [pipeRunOp, hj, hd, hu, hw]

/-- One that may starts from there. -/
theorem pipeRunOp_starts {pj : PipeJob} (hj : s.job id = some j) (hu : u = if loadDue s j then pipeLoad s j else s)
    (hk : startJob u id 0x0100 = some k) (hp : k.pipe = some pj) : pipeRunOp s id = pipeStart u k pj.prog := by
  simp only [pipeRunOp, hj, ← hu, hk, hp]

theorem pipeLoad_refused {e : Err} (hl : (loadProgram j).exec s = (.error e, s1)) :
    pipeLoad s j = fixJob (if holdsAppend s j then s1 else leaveTxn s1 j) j.id e.toOutc := by simp [pipeLoad, hl]

theorem pipeLoad_passes {key : ProgKey} {p : Prog} (hl : (loadProgram j).exec s = (.ok (key, p), s1)) : pipeLoad s j =
    (if p.appends then s1 else leaveTxn s1 j).setJob j.id (fun k => { k with pipe := some (pipeJobOf k key p) }) := by
  simp [pipeLoad, hl]

theorem pipeStart_readOnly {p : Prog} (ha : p.appends = true) (hro : s.readOnly = true) :
    pipeStart s k p = finishJob s k.id ⟨stOffline, 0, 0⟩ := by simp [pipeStart, ha, hro, offline]

/-- A program that appends needs a journal that takes records. -/
theorem pipeStart_tasks {p : Prog}
    (hgo : p.appends = false ∨ (s.readOnly = false ∧ s.flag F.mpdStatus_replay_done 0 = true)) {t : State}
    (ht : t = setTasks ((if p.appends && k.txn.isNone then ownTxn s k else s).setJob k.id
      (fun x => { x with pipe := x.pipe.map (fun y => { y with binds := bindsOf x.entries }) })) k.id (eParam0 k.first)) :
    pipeStart s k p = if eParam0 k.first = 0 then jobEnd t k.id else t := by
  subst ht
  have hwritable : (p.appends && s.readOnly) = false := by rcases hgo with ha | ⟨hro, -⟩ <;> simp [*]
  have hreplayed : (p.appends && replayHolds s) = false := by rcases hgo with ha | ⟨-, hd⟩ <;> simp [replayHolds, *]
  simp only [pipeStart, hwritable, hreplayed, Bool.false_eq_true, if_false]

theorem rowFetchOp_running {n : Nat} {r : Run} (hs : stoneOf s id 0 = some (n, r)) (hj : s.job id = some j)
    (hop : j.hdr.op = 0x0110) (hn : r.next < r.total) (hr : runStops s r = false) : rowFetchOp s id = stoneOp s id (do
      lookupOps (lookupOf j n)
      upd (fun s => s.setRun n (fun r => { r with next := r.total }))) := by
  simp [rowFetchOp, hs, hj, hop, hn.not_ge, hr]

end Pipeline

/-- Settles O29: PIPE_RUN by its loader and then by its start. -/
theorem pipelineOpcodesAct : Obligations.PipelineOpcodesAct := by
  intro s id j
  refine ⟨fun e s1 u hj hd hl hu hw => ?refused, fun key p s1 u hj hd hl hu hw => ?passes,
    fun u k pj hj hu hk hp => ⟨fun ha hro => ?readOnly, fun hgo t ht => ?starts⟩, fun hc => ?args,
    fun n r hs hj hop hn hr => ?rows⟩
  case refused => exact next_settled rfl (pipeRunOp_loaded hj hd ((pipeLoad_refused hl).trans hu.symm) hw)
  case passes => exact next_settled rfl (pipeRunOp_loaded hj hd ((pipeLoad_passes hl).trans hu.symm) hw)
  case readOnly => exact next_settled rfl ((pipeRunOp_starts hj hu hk hp).trans (pipeStart_readOnly ha hro))
  case starts => exact next_settled rfl ((pipeRunOp_starts hj hu hk hp).trans (pipeStart_tasks hgo ht))
  case args => exact next_of_calm rfl rfl (calm_setJob _ _ hc)
  case rows => exact next_settled rfl (rowFetchOp_running hs hj hop hn hr)

end Sys2Proof.Proofs
end

section
/-! Proofs: how a pipeline instruction issues, what follows it in the sequencer, and the predicates and scalar instructions
(05 R156, R173, R176, R191, R657, 06 R214 to R220). -/

open Sys2Proof Sys2Proof.Machine

namespace Sys2Proof.Proofs

/-- Every pipeline instruction's command issues its meaning under its opcode. -/
theorem exec_insn {x : (Nat → Nat → Insn → Instr) × Nat × (Ctx → Insn → Op Unit)} (hx : x ∈ insnRows) (s : State) (n k : Nat)
    (f : Insn) : exec (x.1 n k f) s = done (insnStep s n k x.2.1 x.2.2 f) := by
  have hall : ∀ x ∈ insnRows, exec (x.1 n k f) s = done (insnStep s n k x.2.1 x.2.2 f) := by
    simp only [insnRows, List.forall_mem_append, List.forall_mem_cons, List.not_mem_nil, false_imp_iff, implies_true, and_true]
    and_intros <;> rfl
  exact hall x hx

/-- A batch with a selected row, taken from the link, is acted on at once. -/
theorem arriveInsn_ok {s s1 u : State} {n k op : Nat} {c0 c : Ctx} {b : Batch} {f : Insn} {act : Ctx → Insn → Op Unit}
    (hk : c0.stage = k ∧ c0.stone = n) (hu : u = takeBatch s c0 k b)
    (hsel : ((((c0.fresh u).batch.map (·.sel)).getD []).any (· == true)) = true)
    (hc : c = { c0.fresh u with num := (stageTurn (c0.fresh u) Stage.empty).1 }) (ha : act c f (issued u c) = .ok () s1) :
    arriveInsn s n k op act f c0 b = afterInsn s1 n k op c f (stageTurn (c0.fresh u) Stage.empty).2 := by
  subst hu
  have hfresh : (c0.fresh (takeBatch s c0 k b)).stage = k ∧ (c0.fresh (takeBatch s c0 k b)).stone = n := by
    unfold Ctx.fresh
    split <;> exact hk
  have hany : ((((c0.fresh (takeBatch s c0 k b)).batch.map (·.sel)).getD []).any id) = true := by simpa using hsel
  simp only [arriveInsn, hany, if_true]
  exact issueInsn_ok hfresh hc ha

/-- Settles O30: by whether the stage holds the batch or takes it. -/
theorem instructionsIssue : Obligations.InstructionsIssue := by
  intro s n k r c f x hx
  have hexec := exec_insn hx s n k f
  refine ⟨fun hi => ⟨fun s1 ha => insn_completes hexec hi ha, fun e s1 ha => insn_fails hexec hi ha⟩, ?_⟩
  intro c0 b u hrun hmay h1 h6 hbatch hlink hctx hu hsel hc s1 ha
  refine next_settled hexec ((insnStep_arrive hrun hmay h1 h6 hbatch hlink hctx).trans ?_)
  exact arriveInsn_ok (ctxOf_place hctx) hu hsel hc ha

section Sequencer
variable (s : State) (c : Ctx) (f : Insn) (pc : Nat) (loops : List (Nat × Nat))

theorem seqNext_branch : seqNext s c 0x03 f pc loops = some (if brTaken s c f then pc + 1 + f.imm else pc + 1, loops) := rfl

/-- An instruction that is none of the sequencer's own. -/
theorem seqNext_other {op : Nat} (h1 : op ≠ 1) (h3 : op ≠ 3) (h4 : op ≠ 4) (h5 : op ≠ 5) :
    seqNext s c op f pc loops = some (pc + 1, loops) := by
  unfold seqNext
  split
  · exact absurd rfl h1
  · exact absurd rfl h3
  · exact absurd rfl h4
  · exact absurd rfl h5
  · rfl

variable {s c f}

theorem brTaken_always (hm : f.mod = 0) : brTaken s c f = true := by simp [brTaken, hm]

theorem brTaken_nonzero {v : Nat} (hm : f.mod = 1) (hv : scalarRaw s c f.ra = some v) : brTaken s c f = (v != 0) := by
  simp [brTaken, hm, hv]

theorem brTaken_zero {v : Nat} (hm : f.mod = 2) (hv : scalarRaw s c f.ra = some v) : brTaken s c f = (v == 0) := by
  simp [brTaken, hm, hv]

/-- A NULL scalar takes no conditional branch. -/
theorem brTaken_null (hm : f.mod ≠ 0) (hv : scalarRaw s c f.ra = none) : brTaken s c f = false := by
  unfold brTaken
  split <;> simp_all

end Sequencer

/-- Settles O31: by the opcode, and a branch by its condition. -/
theorem sequencerGoesOn : Obligations.SequencerGoesOn := by
  intro s c f pc start m loops
  refine ⟨rfl, fun hm => ?_, fun v hm hv h0 => ?_, fun v hm hv h0 => ?_, fun v hm hv h0 => ?_, fun v hm hv h0 => ?_,
    fun hm hv => ?_, rfl, fun hm => ?_, fun hm => ?_, fun op => seqNext_other s c f pc loops⟩
  · rw [seqNext_branch, brTaken_always hm, if_pos rfl]
  · rw [seqNext_branch, brTaken_nonzero hm hv, if_pos (by simpa using h0)]
  · rw [seqNext_branch, brTaken_nonzero hm hv, if_neg (by simp [h0])]
  · rw [seqNext_branch, brTaken_zero hm hv, if_pos (by simp [h0])]
  · rw [seqNext_branch, brTaken_zero hm hv, if_neg (by simpa using h0)]
  · rw [seqNext_branch, brTaken_null hm hv, if_neg Bool.false_ne_true]
  · simp [seqNext, hm]
  · simp [seqNext, hm.not_gt]

section Predicates
variable {c : Ctx} {f : Insn} {u : State} {a b : Src}

/-- CMP on operands that compare. -/
theorem opCmp_ok (ha : a = source u c f.ak f.ra f.imm) (hb : b = source u c f.bk f.rb f.imm)
    (hcmp : comparable a.tag.typ b.tag.typ = true) : opCmp c f u = .ok () (truthWritten u c f (cmpAt f.mod a b)) := by
  subst ha hb
  exact (bind_get _ u).trans (writeTruth_pure u c f _ _ fun row s => by simp only [hcmp, if_true]; rfl)

theorem cmpAt_null {mod row : Nat} (hn : a.raw row = none ∨ b.raw row = none) : cmpAt mod a b row = none := by
  unfold cmpAt
  split
  · simp_all
  · rfl

/-- INSET on an operand that compares with each entry of its part of the pool. -/
theorem opInset_ok {ks : List Const} (ha : a = source u c f.ak f.ra f.imm) (hks : ks = (c.pj.prog.pool.drop f.imm).take f.scale)
    (hcmp : ∀ x ∈ ks, comparable a.tag.typ x.tag.typ = true) :
    opInset c f u = .ok () (truthWritten u c f (insetAt c a ks)) := by
  subst ha hks
  have hall := List.all_eq_true.mpr hcmp
  exact (bind_get _ u).trans (writeTruth_pure u c f _ _ fun row s => by simp only [hall, if_true]; rfl)

theorem opIsnull_ok : opIsnull c f u = .ok () (truthWritten u c { f with mod := f.mod % 8 }
    (fun row => some ((colRaw u c f.ra row).isNone == (f.mod == 0)))) :=
  (bind_get _ u).trans (writeTruth_pure u c _ _ _ fun _ _ => rfl)

/-- The selection that SEL leaves: of an active row its mask bit, of another what it was. -/
def selAfter (u : State) (c : Ctx) (f : Insn) (x : Batch) : List Bool :=
  (List.range x.rows).map (fun row => if active u c f row then maskBit u c f.ra row else x.sel.getD row false)

theorem opSel_ok {x : Batch} (hx : c.batch = some x) : opSel c f u = .ok () ((setSel u c (selAfter u c f x)).countReq c.req 0x31B
    ((x.sel.take x.rows).countP id - (selAfter u c f x).countP id)) := by
  refine upd_ok _ _ _ ?_
  simp only [hx]
  rfl

end Predicates

/-- Settles O33. -/
theorem predicatesComplete : Obligations.PredicatesComplete := by
  rintro s n k r c f hi u rfl a b ha hb
  refine ⟨fun hcmp => insn_completes rfl hi (opCmp_ok ha hb hcmp), fun row => cmpAt_null,
    fun ks hks hcmp => insn_completes rfl hi (opInset_ok ha hks hcmp), insn_completes rfl hi opIsnull_ok, fun x hx => ?_⟩
  refine ⟨selAfter (issued s c) c f x, _, State.countReq_countsOnly _ _ _ _ none, by simp [selAfter], fun row hrow => ?_,
    insn_completes rfl hi (opSel_ok hx)⟩
  simp [selAfter, hrow]

/-- The number of selected rows of a batch, and 0 without one. -/
theorem selectedCount (b : Option Batch) : (b.map (fun x => ((x.sel.take x.rows).filter id).length)).getD 0 =
    ((b.map (fun x => (x.sel.take x.rows).filter id)).getD []).length := by cases b <;> rfl

section Salu
variable {p q : Nat}

/-- A pattern of 64 bits reads as itself below 2^63, and as a negative number from there. -/
theorem toSigned_64 (hp : p < 2 ^ 64) : toSigned 64 p = if p < 2 ^ 63 then (p : Int) else (p : Int) - 2 ^ 64 := by
  rw [toSigned, Nat.mod_eq_of_lt hp]
  norm_num

/-- A number from 0 to 2^64 - 1 is its own pattern. -/
theorem ofSigned_natCast {v : Nat} (hv : v < 2 ^ 64) : ofSigned 64 (v : Int) = v := by
  rw [ofSigned, Int.emod_eq_of_lt (by omega) (by exact_mod_cast hv), Int.toNat_natCast]

/-- A negative number's pattern. -/
theorem ofSigned_neg {v : Nat} (h0 : 0 < v) (hv : v ≤ 2 ^ 64) : ofSigned 64 (-(v : Int)) = 2 ^ 64 - v := by
  have hpos : (-(v : Int)) % ((2 ^ 64 : Nat) : Int) = ((2 ^ 64 - v : Nat) : Int) := by
    rw [← Int.add_emod_right, Int.emod_eq_of_lt] <;> omega
  rw [ofSigned, hpos, Int.toNat_natCast]

/-- The arithmetic shift right of a pattern that is not negative. -/
theorem shiftSigned_nonneg (hp : p < 2 ^ 63) (k : Nat) : ofSigned 64 (Int.fdiv (toSigned 64 p) (2 ^ k)) = p / 2 ^ k := by
  have hdiv : Int.fdiv (p : Int) (2 ^ k) = ((p / 2 ^ k : Nat) : Int) := by
    rw [Int.fdiv_eq_ediv_of_nonneg _ (by positivity)]
    norm_cast
  rw [toSigned_64 (by omega), if_pos hp, hdiv, ofSigned_natCast ((Nat.div_le_self _ _).trans_lt (by omega))]

/-- Of one that is: ones come in from above. -/
theorem shiftSigned_neg (hp : 2 ^ 63 ≤ p) (hlt : p < 2 ^ 64) {k : Nat} (hk : k ≤ 64) :
    ofSigned 64 (Int.fdiv (toSigned 64 p) (2 ^ k)) = p / 2 ^ k + (2 ^ 64 - 2 ^ (64 - k)) := by
  have hpow : 2 ^ (64 - k) * 2 ^ k = 2 ^ 64 := by rw [← Nat.pow_add, Nat.sub_add_cancel hk]
  have hlow : p / 2 ^ k < 2 ^ (64 - k) := by rw [Nat.div_lt_iff_lt_mul (by positivity), hpow]; exact hlt
  have htop : 2 ^ (64 - k) ≤ 2 ^ 64 := Nat.pow_le_pow_right (by omega) (by omega)
  have hdiv : Int.fdiv ((p : Int) - 2 ^ 64) (2 ^ k) = -((2 ^ (64 - k) - p / 2 ^ k : Nat) : Int) := by
    have hshift : (p : Int) - 2 ^ 64 = (p : Int) + -(2 ^ (64 - k)) * 2 ^ k := by
      have := congrArg (Nat.cast : Nat → Int) hpow
      push_cast at this
      linarith
    rw [Int.fdiv_eq_ediv_of_nonneg _ (by positivity), hshift, Int.add_mul_ediv_right _ _ (by positivity), Nat.cast_sub hlow.le]
    push_cast
    ring
  rw [toSigned_64 hlt, if_neg (by omega), hdiv]
  generalize 2 ^ (64 - k) = a at *
  generalize p / 2 ^ k = b at *
  rw [ofSigned_neg (by omega) (by omega)]
  omega

/-- The shift right: arithmetic on INT64, logical else. -/
theorem salu_shiftRight {m : Nat} (hm : 6 ≤ m) (signed : Bool) (hp : p < 2 ^ 64) : salu m signed p q =
    if signed = true ∧ 2 ^ 63 ≤ p then (if q < 64 then p / 2 ^ q + (2 ^ 64 - 2 ^ (64 - q)) else 2 ^ 64 - 1)
    else (if q < 64 then p / 2 ^ q else 0) := by
  have hsalu : salu m signed p q = if signed then ofSigned 64 (Int.fdiv (toSigned 64 p) (2 ^ (min q 64)))
      else if 64 ≤ q then 0 else p / 2 ^ q := by
    unfold salu
    split
    case h_7 => rfl
    all_goals omega
  rw [hsalu]
  cases signed with
  | false =>
    rw [if_neg Bool.false_ne_true, if_neg (fun h : false = true ∧ 2 ^ 63 ≤ p => Bool.false_ne_true h.1)]
    rcases Nat.lt_or_ge q 64 with hq | hq
    · rw [if_neg hq.not_ge, if_pos hq]
    · rw [if_pos hq, if_neg hq.not_gt]
  | true =>
    have hzero : 64 ≤ q → p / 2 ^ 64 = 0 := fun _ => Nat.div_eq_of_lt hp
    rcases Nat.lt_or_ge p (2 ^ 63) with hneg | hneg
    · rw [if_pos rfl, shiftSigned_nonneg hneg, if_neg (by omega)]
      rcases Nat.lt_or_ge q 64 with hq | hq
      · rw [min_eq_left hq.le, if_pos hq]
      · rw [min_eq_right hq, if_neg (by omega), hzero hq]
    · rw [if_pos rfl, shiftSigned_neg hneg hp (min_le_right _ _), if_pos ⟨rfl, hneg⟩]
      rcases Nat.lt_or_ge q 64 with hq | hq
      · rw [min_eq_left hq.le, if_pos hq]
      · rw [min_eq_right hq, if_neg (by omega), hzero hq, Nat.sub_self]
        rfl

end Salu

/-- A left shift by the register's width or more gives 0, by either way to ask for it. -/
theorem shiftedLeft_eq (p q : Nat) : (if 64 ≤ q then 0 else p * 2 ^ q % 2 ^ 64) = if q < 64 then p * 2 ^ q % 2 ^ 64 else 0 := by
  split_ifs <;> omega

/-- What SALU gives by its mode (R657). -/
theorem salu_eq {m p q t v : Nat} (hp : p < 2 ^ 64) (hq : q < 2 ^ 64) (hv : v = match m with
    | 0 => (p + q) % 2 ^ 64
    | 1 => (p + (2 ^ 64 - q)) % 2 ^ 64
    | 2 => (p * q) % 2 ^ 64
    | 3 => p &&& q
    | 4 => p ||| q
    | 5 => if q < 64 then (p * 2 ^ q) % 2 ^ 64 else 0
    | _ => if t = tInt64 ∧ 2 ^ 63 ≤ p then (if q < 64 then p / 2 ^ q + (2 ^ 64 - 2 ^ (64 - q)) else 2 ^ 64 - 1)
           else (if q < 64 then p / 2 ^ q else 0)) : salu m (t == tInt64) p q = v := by
  subst hv
  rcases Nat.lt_or_ge m 6 with hm | hm
  · unfold salu
    split
    case h_2 => exact congrArg (· % 2 ^ 64) (Nat.add_sub_assoc hq.le p)
    case h_6 => exact shiftedLeft_eq p q
    case h_7 => interval_cases m <;> contradiction
    all_goals rfl
  · obtain ⟨k, rfl⟩ := Nat.exists_eq_add_of_le' hm
    rw [salu_shiftRight hm _ hp]
    simp only [beq_iff_eq]

section Scalars
variable {c : Ctx} {f : Insn} {u : State} {b : Src} {x : Scalar}

theorem opSalu_null (hb : b = source u c f.bk f.rb f.imm) (hx : x = scalar u c f.ra) (hn : x.val = none ∨ b.raw 0 = none) :
    opSalu c f u = .ok () (putScalar u c f.rd x.tag none) := by
  subst hb hx
  refine upd_ok _ _ _ ?_
  dsimp only
  split
  · simp_all
  · rfl

theorem opSalu_ok {p q : Nat} (hb : b = source u c f.bk f.rb f.imm) (hx : x = scalar u c f.ra) (hp : x.val = some p)
    (hq : b.raw 0 = some q) : opSalu c f u = .ok () (putScalar u c f.rd x.tag (some (salu f.mod (x.tag.typ == tInt64) p q))) := by
  subst hb hx
  refine upd_ok _ _ _ ?_
  simp only [hp, hq]

end Scalars

/-- Settles O35: MOVS by what its source gives, SALU by its operands and its mode. -/
theorem scalarInstructions : Obligations.ScalarInstructions := by
  rintro s n k r c f hi u rfl b hb
  refine ⟨fun t ht => ?movs, fun x hx hn => insn_completes rfl hi (opSalu_null hb hx hn), fun x p q v hx hp hq hlp hlq hv => ?salu⟩
  case movs =>
    exact insn_completes rfl hi (upd_ok _ _ _ (ht.trans (by simp only [selectedCount, hb] <;> rfl)))
  case salu =>
    exact insn_completes rfl hi ((opSalu_ok hb hx hp hq).trans (by rw [salu_eq hlp hlq hv]))

end Sys2Proof.Proofs
end

section
/-! Proofs: the instructions on columns and accumulators (05 Table 5.12, 07 R223 to R239, 08 R266 to R272). Each gives every active row a
value by a row's work that at most counts; the work of a row is said once for each family. -/

open Sys2Proof Sys2Proof.Machine

namespace Sys2Proof.Proofs

/-- A row's work that gives v, and at most counts. -/
def Gives (o : Op (Option Nat)) (v : Option Nat) : Prop := ∀ s, ∃ w, o s = .ok v w ∧ CountsOnly s w

theorem gives_pure (v : Option Nat) : Gives (pure v) v := fun s => ⟨s, rfl, .refl s⟩

/-- A conversion that succeeds. -/
theorem gives_convOr (c : Ctx) (t : Tag) (row : Nat) {k : Conv} {v : Int} (m : Nat) (cut : Bool) (hk : k = .ok v) :
    Gives (convOr c t row k m cut) (some (valueRaw t.typ v)) := by
  subst hk
  exact convOr_ok c t row v m cut

/-- An instruction whose work gives every active row its value writes its column and at most counts. -/
theorem column_written {c : Ctx} {f : Insn} {t : Tag} {g : State → Nat → Op (Option Nat)} {h : Nat → Option Nat} {u : State}
    (hg : ∀ row ∈ activeRows u c f, ∀ s, Gives (g s row) (h row)) : ∃ w, CountsOnly u w ∧ mapRows c f t g u =
      .ok () (columnWritten w c f.rd t ((activeRows u c f).map (fun row => (row, h row)))) :=
  mapRows_counts c f t g h u fun row hrow s => hg row hrow s s

section Arithmetic
variable {op : Nat} {c : Ctx} {f : Insn} {u : State} {a b : Src} {row : Nat}

/-- The work of a row of ADD, SUB, MUL, DIV, REM, MIN and MAX on operand types that load check 10 admits (08 R266 to R268). -/
def arithRow (op : Nat) (c : Ctx) (f : Insn) (a b : Src) (row : Nat) : Op (Option Nat) :=
  match a.raw row, b.raw row with
  | some x, some y =>
    if (op = 0x33 ∨ op = 0x34) ∧ rawValue b.tag.typ y = 0 then c.fault 0x61 row
    else convOr c (insnTag f) row
      (arithConv op (insnTag f) f.mod (rawValue a.tag.typ x) a.tag.scale (rawValue b.tag.typ y) b.tag.scale) f.mod
      (arithConv op (insnTag f) 5 (rawValue a.tag.typ x) a.tag.scale (rawValue b.tag.typ y) b.tag.scale == .inexact)
  | _, _ => pure none

theorem opArith_eq (ha : a = source u c f.ak f.ra f.imm) (hb : b = source u c f.bk f.rb f.imm)
    (ht : arithTypes op f (some a.tag) (some b.tag) = true) :
    opArith op c f u = mapRows c f (insnTag f) (fun _ => arithRow op c f a b) u := by
  subst ha hb
  refine (bind_get _ u).trans ?_
  simp only [ht, Bool.not_true, Bool.false_eq_true, if_false]
  rfl

theorem arithRow_null (hn : a.raw row = none ∨ b.raw row = none) : arithRow op c f a b row = pure none := by
  unfold arithRow
  split
  · simp_all
  · rfl

theorem arithRow_values {x y : Nat} (hx : a.raw row = some x) (hy : b.raw row = some y)
    (h0 : (op = 0x33 ∨ op = 0x34) → rawValue b.tag.typ y ≠ 0) : arithRow op c f a b row = convOr c (insnTag f) row
      (arithConv op (insnTag f) f.mod (rawValue a.tag.typ x) a.tag.scale (rawValue b.tag.typ y) b.tag.scale) f.mod
      (arithConv op (insnTag f) 5 (rawValue a.tag.typ x) a.tag.scale (rawValue b.tag.typ y) b.tag.scale == .inexact) := by
  simp only [arithRow, hx, hy]
  exact if_neg fun h => h0 h.1 h.2

theorem arithRow_byZero {x y : Nat} (hop : op = 0x33 ∨ op = 0x34) (hx : a.raw row = some x) (hy : b.raw row = some y)
    (h0 : rawValue b.tag.typ y = 0) : arithRow op c f a b row = c.fault 0x61 row := by
  simp only [arithRow, hx, hy]
  exact if_pos ⟨hop, h0⟩

/-- What `arithGives` says that a row gives, its work gives. -/
theorem gives_arithRow {v : Option Nat} (h : arithGives op f a b row v) : Gives (arithRow op c f a b row) v := by
  rcases h with ⟨hn, rfl⟩ | ⟨x, y, w, hx, hy, h0, hw, rfl⟩
  · rw [arithRow_null hn]
    exact gives_pure none
  · rw [arithRow_values hx hy h0]
    exact gives_convOr c (insnTag f) row _ _ hw

/-- A division by 0 after rows that do not fault. -/
theorem opArith_byZero {h : Nat → Option Nat} {pre post : List Nat} {p q : Nat} (ha : a = source u c f.ak f.ra f.imm)
    (hb : b = source u c f.bk f.rb f.imm) (ht : arithTypes op f (some a.tag) (some b.tag) = true) (hop : op = 0x33 ∨ op = 0x34)
    (hrows : activeRows u c f = pre ++ row :: post) (hpre : ∀ j ∈ pre, arithGives op f a b j (h j)) (hp : a.raw row = some p)
    (hq : b.raw row = some q) (h0 : rawValue b.tag.typ q = 0) : ∃ w, CountsOnly u w ∧
      opArith op c f u = .error (.outc ⟨0x61, c.stage, c.partn * 2 ^ 32 + c.faultRow row⟩) w := by
  rw [opArith_eq ha hb ht]
  refine mapRows_err c f (insnTag f) _ h u pre post row hrows _ (fun j hj s => gives_arithRow (hpre j hj) s) fun s => ?_
  exact ⟨s, by rw [arithRow_byZero hop hp hq h0]; rfl, .refl s⟩

end Arithmetic

/-- DIVIDE_BY_ZERO's event (20 Table 20.1). -/
theorem countFault_byZero (s : State) (c : Ctx) (d r : Nat) : countFault s c (.outc ⟨0x61, d, r⟩) = s.countReq c.req 0x509 1 := rfl

/-- The command of an arithmetic instruction. -/
theorem exec_arith {x : (Nat → Nat → Insn → Instr) × Nat} (hx : x ∈ arithRows) (s : State) (n k : Nat) (f : Insn) :
    exec (x.1 n k f) s = done (insnStep s n k x.2 (opArith x.2) f) := by
  have hall : ∀ x ∈ arithRows, exec (x.1 n k f) s = done (insnStep s n k x.2 (opArith x.2) f) := by
    simp only [arithRows, List.forall_mem_cons, List.not_mem_nil, false_imp_iff, implies_true, and_true]
    and_intros <;> rfl
  exact hall x hx

/-- Settles O36: by what each active row gives, or the first that divides by 0. -/
theorem arithmeticCompletes : Obligations.ArithmeticCompletes := by
  rintro s n k r c f hi u rfl a b ha hb x hx ht h
  refine ⟨fun hg => ?gives, fun pre row post p q hop hrows hpre hp hq h0 e he => ?byZero⟩
  case gives =>
    obtain ⟨w, hw, hmap⟩ := column_written (t := insnTag f) (g := fun _ => arithRow x.2 c f a b)
      fun row hrow _ => gives_arithRow (hg row hrow)
    exact ⟨w, hw, insn_completes (exec_arith hx s n k f) hi ((opArith_eq ha hb ht).trans hmap)⟩
  case byZero =>
    obtain ⟨w, hw, herr⟩ := opArith_byZero ha hb ht hop hrows hpre hp hq h0
    have hfails := insn_fails (exec_arith hx s n k f) hi herr
    rw [countFault_byZero, ← he] at hfails
    exact ⟨w, hw, hfails⟩

section Columns
variable {c : Ctx} {f : Insn} {u : State} {a b : Src} {row : Nat} {v : Option Nat}

/-- The work of a row of NEG, ABS and CVT on a numeric operand (08 R266). -/
def unaryRow (g : Int → Int) (mode : Nat) (c : Ctx) (f : Insn) (a : Src) (row : Nat) : Op (Option Nat) :=
  match a.raw row with
  | some x => convOr c (insnTag f) row (convert (g (rawValue a.tag.typ x)) a.tag.scale (insnTag f) mode) mode
      (convert (g (rawValue a.tag.typ x)) a.tag.scale (insnTag f) 5 == .inexact)
  | none => pure none

theorem opUnary_eq (g : Int → Int) (mode : Nat) (ha : a = source u c f.ak f.ra f.imm) (hnum : isNum a.tag.typ = true) :
    opUnary g mode c f u = mapRows c f (insnTag f) (fun _ => unaryRow g mode c f a) u := by
  subst ha
  refine (bind_get _ u).trans ?_
  simp only [hnum, Bool.not_true, Bool.false_eq_true, if_false]
  rfl

theorem gives_unaryRow {g : Int → Int} {mode : Nat} (h : (a.raw row = none ∧ v = none) ∨ ∃ p w, a.raw row = some p ∧
    convert (g (rawValue a.tag.typ p)) a.tag.scale (insnTag f) mode = .ok w ∧ v = some (valueRaw f.typ w)) :
    Gives (unaryRow g mode c f a row) v := by
  rcases h with ⟨hn, rfl⟩ | ⟨p, w, hp, hw, rfl⟩
  · simp only [unaryRow, hn]
    exact gives_pure none
  · simp only [unaryRow, hp]
    exact gives_convOr c (insnTag f) row _ _ hw

theorem opMov_ok (hb : b = source u c f.bk f.rb f.imm) : opMov c f u = .ok () (columnWritten u c f.rd (insnTag f)
    ((activeRows u c f).map (fun row => (row, b.raw row)))) := by
  subst hb
  exact (bind_get _ u).trans (mapRows_pure c f _ _ _ u fun _ _ => rfl)

/-- The operand that CSEL chooses at a row. -/
def cselSource (u : State) (c : Ctx) (f : Insn) (a b : Src) (row : Nat) : Src := if maskBit u c (f.mod % 8) row then a else b

/-- The operand that COALESCE chooses at a row. -/
def coalesceSource (a b : Src) (row : Nat) : Src := if (a.raw row).isSome then a else b

theorem opCsel_eq (ha : a = source u c f.ak f.ra f.imm) (hb : b = source u c f.bk f.rb f.imm) :
    opCsel c f u = mapRows c f (insnTag f) (fun _ row => chosen c (insnTag f) (cselSource u c f a b row) row) u := by
  subst ha hb
  exact bind_get _ u

theorem opCoalesce_eq (ha : a = source u c f.ak f.ra f.imm) (hb : b = source u c f.bk f.rb f.imm) :
    opCoalesce c f u = mapRows c f (insnTag f) (fun _ row => chosen c (insnTag f) (coalesceSource a b row) row) u := by
  subst ha hb
  exact bind_get _ u

/-- A chosen operand is converted where the result is numeric, and else moves as it is (08 R269). -/
theorem gives_chosen (h : (a.raw row = none ∧ v = none) ∨ (isNum f.typ = false ∧ v = a.raw row) ∨
    ∃ p w, a.raw row = some p ∧ isNum f.typ = true ∧ isNum a.tag.typ = true ∧
      convert (rawValue a.tag.typ p) a.tag.scale (insnTag f) 0 = .ok w ∧ v = some (valueRaw f.typ w)) :
    Gives (chosen c (insnTag f) a row) v := by
  rcases h with ⟨hn, rfl⟩ | ⟨hplain, rfl⟩ | ⟨p, w, hp, hnum, hanum, hw, rfl⟩
  · simp only [chosen, hn]
    exact gives_pure none
  · have hplain : isNum (insnTag f).typ = false := hplain
    cases hv : a.raw row <;> simp only [chosen, hv, hplain, Bool.false_eq_true, if_false] <;> exact gives_pure _
  · have hnum : isNum (insnTag f).typ = true := hnum
    simp only [chosen, hp, hnum, hanum, if_true]
    exact gives_convOr c (insnTag f) row _ _ hw

theorem opPart_ok : opPart c f u = .ok () (columnWritten u c f.rd ⟨tUint32, 0⟩
    ((activeRows u c f).map (fun row => (row, (colRaw u c f.ra row).map (fun v => v / 2 ^ (64 - f.scale)))))) :=
  (bind_get _ u).trans (mapRows_pure c f _ _ _ u fun _ _ => rfl)

/-- H of a value that is no text (07 R223). -/
def plainHash (a : Src) (row : Nat) : Nat :=
  match a.raw row with
  | none => 0
  | some p => if a.tag.typ = tDec128 then fmix (fmix ((p % 2 ^ 64) ^^^ golden) ^^^ (p / 2 ^ 64)) else fmix (p ^^^ golden)

theorem hashAt_plain (ht : isText a.tag.typ = false) (s : State) : hashAt c a row s = .ok (plainHash a row) s := by
  unfold plainHash
  unfold hashAt
  cases a.raw row with
  | none => rfl
  | some p =>
    dsimp only
    split
    · rfl
    · simp only [ht, Bool.false_eq_true, if_false]
      rfl

/-- HASHK of values that are no text: the hash, or the hash combined with the one that stands (07 R224). -/
theorem opHashk_ok {h : Nat → Nat} (ha : a = source u c f.ak f.ra f.imm) (hh : ∀ row s, hashAt c a row s = .ok (h row) s) :
    opHashk c f u = .ok () (columnWritten u c f.rd ⟨tUint64, 0⟩ ((activeRows u c f).map (fun row => (row, some
      (if f.mod = 0 then h row else fmix ((((colRaw u c f.rb row).getD 0) % 2 ^ 64 + golden + h row) % 2 ^ 64)))))) := by
  subst ha
  refine (bind_get _ u).trans (mapRows_pure c f _ _ _ u fun row _ => (bind_ok (hh row u)).trans ?_)
  split <;> rfl

/-- The work of a row of DPART (05 Table 5.12). -/
def dpartRow (c : Ctx) (f : Insn) (a : Src) (row : Nat) : Op (Option Nat) :=
  match a.raw row with
  | none => pure none
  | some x => dateOr c ⟨tInt32, 0⟩ row (datePart f.mod
      (if a.tag.typ = tTimestamp then Int.fdiv (rawValue a.tag.typ x) dayMicros else rawValue a.tag.typ x))

theorem opDpart_eq (ha : a = source u c f.ak f.ra f.imm) :
    opDpart c f u = mapRows c f ⟨tInt32, 0⟩ (fun _ => dpartRow c f a) u := by
  subst ha
  exact bind_get _ u

/-- A date within the limits. -/
theorem gives_dateOr {t : Tag} {d : Int} (hd : inRange t.typ d = true) : Gives (dateOr c t row d) (some (valueRaw t.typ d)) := by
  rw [dateOr, if_pos hd]
  exact gives_pure _

theorem gives_dpartRow (h : (a.raw row = none ∧ v = none) ∨ ∃ p w, a.raw row = some p ∧
    w = datePart f.mod (if a.tag.typ = tTimestamp then Int.fdiv (rawValue a.tag.typ p) dayMicros else rawValue a.tag.typ p) ∧
    inRange tInt32 w = true ∧ v = some (valueRaw tInt32 w)) : Gives (dpartRow c f a row) v := by
  rcases h with ⟨hn, rfl⟩ | ⟨p, w, hp, rfl, hw, rfl⟩
  · simp only [dpartRow, hn]
    exact gives_pure none
  · simp only [dpartRow, hp]
    exact gives_dateOr (t := ⟨tInt32, 0⟩) hw

/-- The work of a row of DADD (05 Table 5.12). -/
def daddRow (c : Ctx) (f : Insn) (a b : Src) (row : Nat) : Op (Option Nat) :=
  match a.raw row, b.raw row with
  | some x, some y =>
    match dateAdd f.mod ((insnTag f).typ == tTimestamp) (rawValue (insnTag f).typ x) (rawValue b.tag.typ y) with
    | some d => dateOr c (insnTag f) row d
    | none => do
      let v ← freeBits (8 * plainWidth (insnTag f).typ)
      pure (some (valueRaw (insnTag f).typ (toSigned (8 * plainWidth (insnTag f).typ) v)))
  | _, _ => pure none

theorem opDadd_eq (ha : a = source u c f.ak f.ra f.imm) (hb : b = source u c f.bk f.rb f.imm) :
    opDadd c f u = mapRows c f (insnTag f) (fun _ => daddRow c f a b) u := by
  subst ha hb
  exact bind_get _ u

theorem gives_daddRow (h : ((a.raw row = none ∨ b.raw row = none) ∧ v = none) ∨ ∃ p q w, a.raw row = some p ∧
    b.raw row = some q ∧ dateAdd f.mod (f.typ == tTimestamp) (rawValue f.typ p) (rawValue b.tag.typ q) = some w ∧
    inRange f.typ w = true ∧ v = some (valueRaw f.typ w)) : Gives (daddRow c f a b row) v := by
  rcases h with ⟨hn, rfl⟩ | ⟨p, q, w, hp, hq, hd, hw, rfl⟩
  · have hnone : daddRow c f a b row = pure none := by
      unfold daddRow
      split
      · simp_all
      · rfl
    rw [hnone]
    exact gives_pure none
  · have hd : dateAdd f.mod ((insnTag f).typ == tTimestamp) (rawValue (insnTag f).typ p) (rawValue b.tag.typ q) = some w := hd
    simp only [daddRow, hp, hq, hd]
    exact gives_dateOr (t := insnTag f) hw

/-- AGG takes the active rows' values, in row order, into its accumulator. -/
theorem opAgg_ok (ha : a = source u c f.ak f.ra f.imm) : opAgg c f u = .ok () (writeAcc u c.stone c.bank f.rd
    (if f.mod = 1 ∨ f.mod = 2 then ⟨tInt64, 0⟩ else a.tag)
    ((activeRows u c f).foldl (fun acc row => accumulate f.mod acc ((a.raw row).map (rawValue a.tag.typ))) (readAcc u c f.rd))) := by
  subst ha
  rfl

theorem opAfin_null (hn : readAcc u c f.ra = none) : opAfin c f u = .ok () (putScalar u c f.rd (insnTag f) none) := by
  refine (bind_get _ u).trans ?_
  simp only [hn]
  rfl

/-- AFIN of a value that converts. -/
theorem opAfin_ok {x w : Int} (hx : readAcc u c f.ra = some x) (hnum : isNum (scalar u c f.ra).tag.typ = true)
    (hw : convert x (scalar u c f.ra).tag.scale (insnTag f) f.mod = .ok w) : ∃ u1, CountsOnly u u1 ∧
      opAfin c f u = .ok () (putScalar u1 c f.rd (insnTag f) (some (valueRaw f.typ w))) := by
  obtain ⟨u1, hconv, hcounts⟩ := gives_convOr c (insnTag f) 0 f.mod
    (convert x (scalar u c f.ra).tag.scale (insnTag f) 5 == .inexact) hw u
  refine ⟨u1, hcounts, (bind_get _ u).trans ?_⟩
  simp only [hx, hnum, Bool.not_true, Bool.false_eq_true, if_false]
  exact (bind_ok hconv).trans rfl

end Columns

/-- Settles O37: each instruction by the work of its rows. -/
theorem columnInstructions : Obligations.ColumnInstructions := by
  rintro s n k r c f hi u rfl a b ha hb rows t rfl rfl
  have writes {op : Nat} {act : Ctx → Insn → Op Unit} {i : Instr} {t : Tag} {g : Nat → Op (Option Nat)} {h : Nat → Option Nat}
      (hx : exec i s = done (insnStep s n k op act f)) (hact : act c f (issued s c) = mapRows c f t (fun _ => g) (issued s c))
      (hg : ∀ row ∈ activeRows (issued s c) c f, Gives (g row) (h row)) : ∃ w, CountsOnly (issued s c) w ∧
        exec i s = .next (settle (afterInsn (columnWritten w c f.rd t
          ((activeRows (issued s c) c f).map (fun row => (row, h row)))) n k op c f (loopsAt r k c))) := by
    obtain ⟨w, hw, hmap⟩ := column_written (t := t) (g := fun _ => g) fun row hrow _ => hg row hrow
    exact ⟨w, hw, insn_completes hx hi (hact.trans hmap)⟩
  refine ⟨?unary, insn_completes rfl hi (opMov_ok hb), ?choice, insn_completes rfl hi opPart_ok, fun ht h hh => ?hash,
    fun h hg => ?dpart, fun h hg => ?dadd, insn_completes rfl hi (opAgg_ok ha),
    fun hn => insn_completes rfl hi (opAfin_null hn), fun v w hv hnum hw => ?afin⟩
  case unary =>
    simp only [List.forall_mem_cons, List.not_mem_nil, false_imp_iff, implies_true, and_true]
    refine ⟨fun hnum h hg => ?neg, fun hnum h hg => ?abs, fun hnum h hg => ?cvt⟩
    case neg => exact writes rfl (opUnary_eq _ 0 ha hnum) fun row hrow => gives_unaryRow (hg row hrow)
    case abs => exact writes rfl (opUnary_eq _ 0 ha hnum) fun row hrow => gives_unaryRow (hg row hrow)
    case cvt => exact writes rfl (opUnary_eq id f.mod ha hnum) fun row hrow => gives_unaryRow (hg row hrow)
  case choice =>
    simp only [List.forall_mem_cons, List.not_mem_nil, false_imp_iff, implies_true, and_true]
    refine ⟨fun h hg => ?csel, fun h hg => ?coalesce⟩
    case csel => exact writes rfl (opCsel_eq ha hb) fun row hrow => gives_chosen (hg row hrow)
    case coalesce => exact writes rfl (opCoalesce_eq ha hb) fun row hrow => gives_chosen (hg row hrow)
  case hash =>
    exact insn_completes rfl hi (opHashk_ok ha fun row s => (hashAt_plain ht s).trans (congrArg (EStateM.Result.ok · s) (hh row).symm))
  case dpart => exact writes rfl (opDpart_eq ha) fun row hrow => gives_dpartRow (hg row hrow)
  case dadd => exact writes rfl (opDadd_eq ha hb) fun row hrow => gives_daddRow (hg row hrow)
  case afin =>
    obtain ⟨u1, hcounts, hfin⟩ := opAfin_ok hv hnum hw
    exact ⟨u1, hcounts, insn_completes rfl hi hfin⟩

end Sys2Proof.Proofs
end

section
/-! Proofs: the scan's, the tables' and the output's instructions (05 R174, 06 R197 to R216, 07 R229 to R244, 08 R293, R297, 09 R318), where
each row's work ends well (RowsGo). -/

open Sys2Proof Sys2Proof.Machine

namespace Sys2Proof.Proofs

section Rows
variable {α β : Type} {l : List Nat} {s t : State} {vs : List α}

/-- Work that answers f of another's answer. -/
theorem rowsGo_map {g : Nat → Op α} {g' : Nat → Op β} (f : α → β)
    (hg : ∀ row s v t, g row s = .ok v t → g' row s = .ok (f v) t) (h : RowsGo g l s vs t) : RowsGo g' l s (vs.map f) t := by
  induction l generalizing s vs with
  | nil => obtain ⟨rfl, rfl⟩ := h; exact ⟨rfl, rfl⟩
  | cons row l ih =>
    obtain ⟨v, u, ws, hrow, hrest, rfl⟩ := h
    exact ⟨f v, u, ws.map f, hg _ _ _ _ hrow, ih hrest, rfl⟩

/-- Work that answers its row beside another's answer. -/
theorem rowsGo_zip {g : Nat → Op α} {g' : Nat → Op (Nat × α)}
    (hg : ∀ row s v t, g row s = .ok v t → g' row s = .ok (row, v) t) (h : RowsGo g l s vs t) : RowsGo g' l s (l.zip vs) t := by
  induction l generalizing s vs with
  | nil => obtain ⟨rfl, rfl⟩ := h; exact ⟨rfl, rfl⟩
  | cons row l ih =>
    obtain ⟨v, u, ws, hrow, hrest, rfl⟩ := h
    exact ⟨(row, v), u, l.zip ws, hg _ _ _ _ hrow, ih hrest, rfl⟩

/-- Rows whose work leaves the state. -/
theorem rowsGo_same {g : Nat → Op α} {h : Nat → α} (hg : ∀ row ∈ l, g row s = .ok (h row) s) : RowsGo g l s (l.map h) s := by
  induction l with
  | nil => exact ⟨rfl, rfl⟩
  | cons row l ih =>
    exact ⟨h row, s, l.map h, hg row (by simp), ih fun r hr => hg r (by simp [hr]), rfl⟩

/-- Work on the rows that meet a test, in place among the others. -/
theorem mapM_filter_go {g : Nat → Op α} {p : Nat → Bool} {h : Nat → α}
    (hgo : RowsGo g (l.filter p) s ((l.filter p).map h) t) :
    (l.mapM (fun row => if p row then (do let v ← g row; pure (some v)) else pure none)) s =
      .ok (l.map (fun row => if p row then some (h row) else none)) t := by
  rw [← List.mapM'_eq_mapM]
  induction l generalizing s with
  | nil => obtain ⟨-, rfl⟩ := hgo; rfl
  | cons row l ih =>
    cases hp : p row
    · rw [List.filter_cons_of_neg (by simp [hp])] at hgo
      simp only [List.mapM', hp, Bool.false_eq_true, if_false, List.map_cons]
      exact (bind_ok rfl).trans ((bind_ok (ih hgo)).trans rfl)
    · rw [List.filter_cons_of_pos hp] at hgo
      obtain ⟨v, u, ws, hrow, hrest, hvs⟩ := hgo
      obtain ⟨rfl, rfl⟩ := List.cons.inj hvs
      simp only [List.mapM', hp, if_true, List.map_cons]
      have hsome : (g row >>= fun v => pure (some v) : Op (Option α)) s = .ok (some (h row)) u := (bind_ok hrow).trans rfl
      exact (bind_ok hsome).trans ((bind_ok (ih hrest)).trans rfl)

end Rows

section Destinations
variable {c : Ctx} {f : Insn} {u w : State}

theorem writeCol_ok (c : Ctx) (k : Nat) (t : Tag) (vs : List (Nat × Option Nat)) (u : State) :
    writeCol c k t vs u = .ok () (columnWritten u c k t vs) := rfl

/-- A column of what the rows' work answers. -/
theorem mapRows_go {t : Tag} {g : Nat → Op (Option Nat)} {vs : List (Option Nat)} (hgo : RowsGo g (activeRows u c f) u vs w) :
    mapRows c f t (fun _ => g) u = .ok () (columnWritten w c f.rd t ((activeRows u c f).zip vs)) := by
  have hrows := mapM_go (rowsGo_zip (g' := fun row => do let _ ← get; let v ← g row; pure (row, v))
    (fun row s v t h => (bind_get _ s).trans ((bind_ok h).trans rfl)) hgo)
  exact (bind_get _ u).trans ((bind_ok hrows).trans rfl)

/-- The truths that the active rows' work answers. -/
theorem writeTruth_go {g : Nat → Op (Option Bool)} {h : Nat → Option Bool}
    (hgo : RowsGo g (activeRows u c f) u ((activeRows u c f).map h) w) : writeTruth c f g u = .ok () (truthLeft u w c f h) := by
  refine (bind_get _ u).trans ((bind_ok (mapM_filter_go (p := active u c f) hgo)).trans (upd_ok _ _ _ ?_))
  have hmask : ∀ v, ((fun x => x == some v) ∘ fun row => if active u c f row = true then some (h row) else none) =
      fun row => active u c f row && h row == v := by
    intro v
    funext row
    cases hact : active u c f row <;> simp [hact]
  simp only [truthLeft, List.map_map, hmask]

end Destinations

section Scan
variable {c : Ctx} {f : Insn} {u w : State} {d : Dir}

theorem dirFor_ok (hd : (c.run u).bind (·.dir) = some d) : dirFor c u = .ok d u := by
  refine (bind_get _ u).trans ?_
  simp only [hd]
  rfl

theorem opDrowid_ok (hd : (c.run u).bind (·.dir) = some d) : opDrowid c f u = .ok () (columnWritten u c f.rd ⟨tUint64, 0⟩
    ((activeRows u c f).map (fun row => (row, some ((d.firstRow + c.firstRow + row) % 2 ^ 64))))) :=
  (bind_ok (dirFor_ok hd)).trans rfl

theorem opDcol_absent (hd : (c.run u).bind (·.dir) = some d) (hc : d.cols.getD f.imm (1, 0) = (0, 0)) : opDcol c f u =
    .ok () (columnWritten u c f.rd (insnTag f) ((activeRows u c f).map (fun row => (row, none)))) := by
  refine (bind_ok (dirFor_ok hd)).trans ((bind_get _ u).trans ?_)
  rw [if_pos hc]
  rfl

/-- A segment that the task has checked, of the instruction's type and scale. -/
theorem segFor_ok {h : SegHdr} {t : Tag} {k : Nat}
    (hs : (((c.run u).map (·.segs)).getD []).find? (fun x => x.1 == k) = some (k, h)) (htyp : h.typ = t.typ)
    (hscale : h.scale = t.scale) : segFor c d k t u = .ok h u := by
  refine (bind_get _ u).trans ?_
  simp only [hs, htyp, hscale, ne_eq, not_true_eq_false, if_false]
  rfl

/-- DCOL of a present column gives what its rows decode to. -/
theorem opDcol_ok {h : SegHdr} {vs : List (Option Nat)} (hd : (c.run u).bind (·.dir) = some d)
    (hc : d.cols.getD f.imm (1, 0) ≠ (0, 0))
    (hs : (((c.run u).map (·.segs)).getD []).find? (fun x => x.1 == f.imm) = some (f.imm, h)) (htyp : h.typ = f.typ)
    (hscale : h.scale = f.scale)
    (hdec : (if (activeRows u c f).length = c.rows then decodeRows c.dec f.imm h d.rows c.firstRow c.rows
      else (activeRows u c f).mapM (fun row => do
        let v ← decodeRows c.dec f.imm h d.rows (c.firstRow + row) 1
        pure (v.headD none))) u = .ok vs w) :
    opDcol c f u = .ok () (columnWritten w c f.rd (insnTag f) ((activeRows u c f).zip vs)) := by
  refine (bind_ok (dirFor_ok hd)).trans ((bind_get _ u).trans ?_)
  rw [if_neg hc]
  exact (bind_ok (segFor_ok hs htyp hscale)).trans ((bind_ok hdec).trans rfl)

/-- A record area that the task has checked. -/
theorem areaFor_ok {l : Layout} {n : Nat} (ha : (((c.run u).map (·.areas)).getD []).contains n = true) :
    areaFor c d n l u = .ok (d.cols.getD l.src (0, 0)).1 u := by
  refine (bind_get _ u).trans ?_
  simp only [ha, if_true]
  rfl

theorem opDrec_ok {l : Layout} {fd : LField} {vs : List (Option Nat)} (hd : (c.run u).bind (·.dir) = some d)
    (hl : c.pj.prog.layout (f.imm / 256) = some l) (hf : l.fields[f.imm % 256]? = some fd)
    (ha : (((c.run u).map (·.areas)).getD []).contains (f.imm / 256) = true)
    (hgo : RowsGo (fun row => drecRow c l fd (insnTag f) ((d.cols.getD l.src (0, 0)).1 + l.recOff (c.firstRow + row)) row)
      (activeRows u c f) u vs w) :
    opDrec c f u = .ok () (columnWritten w c f.rd (insnTag f) ((activeRows u c f).zip vs)) := by
  refine (bind_ok (dirFor_ok hd)).trans ?_
  simp only [hl, hf]
  exact (bind_ok (areaFor_ok ha)).trans (mapRows_go hgo)

end Scan

/-- Settles O38. -/
theorem scanInstructions : Obligations.ScanInstructions := by
  rintro s n k r c f hi u rfl rows d rfl hd
  refine ⟨insn_completes rfl hi (opDrowid_ok hd), fun hc => insn_completes rfl hi (opDcol_absent hd hc),
    fun h hc hs htyp hscale => ⟨fun vs w hall hdec => ?whole, fun vs w hsome hgo => ?rows⟩,
    fun l fd vs w hl hf ha hgo => insn_completes rfl hi (opDrec_ok hd hl hf ha hgo)⟩
  case whole => exact insn_completes rfl hi (opDcol_ok hd hc hs htyp hscale (by rw [if_pos hall]; exact hdec))
  case rows =>
    refine insn_completes rfl hi (opDcol_ok hd hc hs htyp hscale ?_)
    rw [if_neg hsome]
    refine mapM_go (rowsGo_map (fun v : List (Option Nat) => v.headD none) (fun row s v t hrow => ?_) hgo)
    exact (bind_ok hrow).trans rfl

section Tables
variable {c : Ctx} {f : Insn} {u w : State} {h : HtHdr}

/-- Conditions that all hold break at no offset. -/
theorem lowest_none {cs : List (Bool × Nat)} (hcs : ∀ x ∈ cs, x.1 = false) : lowest cs = none := by
  have hnil : cs.filter Prod.fst = [] := List.filter_eq_nil_iff.mpr fun x hx => by simp [hcs x hx]
  rw [lowest, hnil]
  rfl

/-- A table that the task has opened, where the instruction's own tests are met too. -/
theorem tableFor_ok {kind : Nat} {tests : HtHdr → List (Bool × Nat)} (ht : tableHeld u c f kind h)
    (htests : ∀ x ∈ tests h, x.1 = false) : tableFor c f kind tests u = .ok h u := by
  obtain ⟨hfind, hkind, hkey⟩ := ht
  have hfind' : (((u.stone c.stone).run.map (·.tables)).getD []).find? (fun t => t.1 == f.imm) = some (f.imm, h) := hfind
  have hlow : lowest (badIf (h.kind != kind) 4 :: badIf (h.keyTag != colTag u c f.ra) 12 :: tests h) = none := by
    refine lowest_none ?_
    simp only [List.forall_mem_cons, badIf, hkind, hkey, bne_self_eq_false, true_and]
    exact htests
  refine (bind_get _ u).trans ?_
  simp only [hfind', hlow]
  rfl

theorem opBuild_ok {us : List Unit} (ht : tableHeld u c f 1 h) (htag : h.vtags.headD noTag = colTag u c f.rb)
    (hgo : RowsGo (buildAt c f u h) (activeRows u c f) u us w) : opBuild c f u = .ok () w := by
  refine (bind_get _ u).trans ((bind_ok (tableFor_ok ht ?_)).trans (forM_go hgo))
  simp only [List.forall_mem_cons, badIf, htag, bne_self_eq_false, List.not_mem_nil, false_imp_iff, implies_true, and_true]

theorem buildAt_null {row : Nat} (hn : colRaw u c f.ra row = none) : buildAt c f u h row = pure () := by simp [buildAt, hn]

theorem opProbe_ok {vs : List (Option Nat × Option Nat)} (ht : tableHeld u c f 1 h)
    (hgo : RowsGo (probeAt c f u h) (activeRows u c f) u vs w) : opProbe c f u = .ok () (columnWritten
      (columnWritten w c f.rd (h.vtags.headD noTag) ((activeRows u c f).zip (vs.map (·.1)))) c (f.rd + 1) ⟨tUint64, 0⟩
      ((activeRows u c f).zip (vs.map (·.2)))) := by
  have hrows := mapM_go (rowsGo_zip (g' := fun row => do let r ← probeAt c f u h row; pure (row, r))
    (fun row s v t h => (bind_ok h).trans rfl) hgo)
  refine (bind_get _ u).trans ((bind_ok (tableFor_ok ht (by simp))).trans ((bind_ok hrows).trans ?_))
  rw [List.zip_map_right, List.zip_map_right]
  rfl

theorem opGagg_ok {us : List Unit} {i : Nat} {v : Src} (ht : tableHeld u c f 2 h) (hi : i = gaggSlot c.pj.prog c.num f.imm)
    (hslots : i < h.slots) (hfunc : h.funcs.getD i 0 = f.mod) (hv : v = source u c 0 f.rb 0)
    (htag : (f.mod = 0 ∨ 3 ≤ f.mod) → h.vtags.getD i noTag = v.tag)
    (hgo : RowsGo (fun row => gaggRow (c.bnd f.imm) h i f.mod (colRaw u c f.ra row)
      (if f.mod = 2 then none else (v.raw row).map (rawValue v.tag.typ))) (activeRows u c f) u us w) :
    opGagg c f u = .ok () w := by
  subst hi hv
  refine (bind_get _ u).trans ((bind_ok (tableFor_ok ht ?_)).trans (forM_go hgo))
  simp only [List.forall_mem_cons, badIf, hfunc, bne_self_eq_false, decide_eq_false hslots.not_ge, List.not_mem_nil,
    false_imp_iff, implies_true, and_true, true_and]
  by_cases hval : f.mod = 0 ∨ 3 ≤ f.mod
  · rw [htag hval, bne_self_eq_false, Bool.and_false]
  · simp only [not_or] at hval
    simp [hval.1, hval.2]

theorem opTappend_ok {l : Ledger} {us : List Unit}
    (hl : (((c.run u).map (·.ledgers)).getD []).find? (fun x => x.1 == f.imm) = some (f.imm, l))
    (hgo : RowsGo (tappendAt c f u l) (activeRows u c f) u us w) : opTappend c f u = .ok () w := by
  have hledger : ledgerFor c f u = .ok l u := by
    refine (bind_get _ u).trans ?_
    simp only [hl]
    rfl
  exact (bind_ok hledger).trans ((bind_get _ u).trans (forM_go hgo))

/-- The two texts that TCMP compares at a row. -/
def textPair (c : Ctx) (f : Insn) (a b : Src) (row : Nat) : Op (Option (List Byte) × Option (List Byte)) :=
  textAt c a f.ak f.imm row >>= fun p => textAt c b f.bk f.imm row >>= fun q => pure (p, q)

/-- TCMP's truth of two texts, UNKNOWN where either is NULL (06 R216). -/
def textTruth (f : Insn) (p q : Option (List Byte)) : Option Bool :=
  match p, q with
  | some x, some y => some (cmpMeets f.mod (cmpBytes (x.take (insnLong f)) (y.take (insnLong f))))
  | _, _ => none

/-- The work of a row of TCMP. -/
def tcmpRow (c : Ctx) (f : Insn) (a b : Src) (row : Nat) : Op (Option Bool) := do
  let x ← textAt c a f.ak f.imm row
  let y ← textAt c b f.bk f.imm row
  match x, y with
  | some x, some y => pure (some (cmpMeets f.mod (cmpBytes (x.take (insnLong f)) (y.take (insnLong f)))))
  | _, _ => pure none

theorem opTcmp_eq {a b : Src} (ha : a = source u c f.ak f.ra f.imm) (hb : b = source u c f.bk f.rb f.imm) :
    opTcmp c f u = writeTruth c f (tcmpRow c f a b) u := by
  subst ha hb
  exact bind_get _ u

/-- A row whose texts are read has their truth. -/
theorem tcmpRow_ok {a b : Src} {row : Nat} {s t : State} {x : Option (List Byte) × Option (List Byte)}
    (h : textPair c f a b row s = .ok x t) : tcmpRow c f a b row s = .ok (textTruth f x.1 x.2) t := by
  change (EStateM.bind (textAt c a f.ak f.imm row)
    (fun p => EStateM.bind (textAt c b f.bk f.imm row) (fun q => pure (p, q)))) s = _ at h
  cases hp : textAt c a f.ak f.imm row s with
  | error e s1 => simp [EStateM.bind, hp] at h
  | ok p s1 =>
    cases hq : textAt c b f.bk f.imm row s1 with
    | error e s2 => simp [EStateM.bind, hp, hq] at h
    | ok q s2 =>
      simp only [EStateM.bind, hp, hq] at h
      cases h
      refine (bind_ok hp).trans ((bind_ok hq).trans ?_)
      cases p <;> cases q <;> rfl

theorem opTcmp_ok {a b : Src} {x y : Nat → Option (List Byte)} (ha : a = source u c f.ak f.ra f.imm)
    (hb : b = source u c f.bk f.rb f.imm)
    (hgo : RowsGo (textPair c f a b) (activeRows u c f) u ((activeRows u c f).map (fun row => (x row, y row))) w) :
    opTcmp c f u = .ok () (truthLeft u w c f (fun row => textTruth f (x row) (y row))) := by
  have htruths := rowsGo_map (g' := tcmpRow c f a b) (fun p => textTruth f p.1 p.2) (fun _ _ _ _ => tcmpRow_ok) hgo
  rw [List.map_map] at htruths
  exact (opTcmp_eq ha hb).trans (writeTruth_go htruths)

/-- A NULL operand has no text. -/
theorem textPair_null {a b : Src} {row : Nat} {s : State} (hn : a.raw row = none ∧ b.raw row = none) :
    textPair c f a b row s = .ok (none, none) s := by
  obtain ⟨ha, hb⟩ := hn
  simp only [textPair, textAt, ha, hb]
  rfl

end Tables

/-- Settles O39. -/
theorem tableInstructions : Obligations.TableInstructions := by
  rintro s n k r c f hi u rfl rows rfl
  refine ⟨fun h ht htag => ⟨fun us w hgo => insn_completes rfl hi (opBuild_ok ht htag hgo), fun hn => ?nullKeys⟩,
    fun h vs w ht hgo => insn_completes rfl hi (opProbe_ok ht hgo),
    fun h us w i v ht hslot hlt hfunc hv htag hgo => insn_completes rfl hi (opGagg_ok ht hslot hlt hfunc hv htag hgo),
    fun l us w hl hgo => insn_completes rfl hi (opTappend_ok hl hgo), fun a b ha hb hn => ?nullTexts,
    fun a b x y w ha hb hgo => ?texts⟩
  case nullKeys =>
    exact insn_completes rfl hi (opBuild_ok ht htag (rowsGo_same (h := fun _ => ()) fun row hrow => by
      rw [buildAt_null (hn row hrow)]; rfl))
  case nullTexts =>
    exact insn_completes rfl hi (opTcmp_ok (x := fun _ => none) (y := fun _ => none) ha hb
      (rowsGo_same fun row hrow => textPair_null (hn row hrow)))
  case texts =>
    have htruth : (fun row => textTruth f (x row) (y row)) = fun row => match x row, y row with
        | some p, some q => some (cmpMeets f.mod (cmpBytes (p.take (insnLong f)) (q.take (insnLong f))))
        | _, _ => none := rfl
    exact htruth ▸ insn_completes rfl hi (opTcmp_ok ha hb hgo)

section Output
variable {c : Ctx} {f : Insn} {u v w : State}

theorem offsetOf_ok {n off : Nat} (h : (scalar u c n).val = some off) : offsetOf c n u = .ok off u := by
  refine (bind_get _ u).trans ?_
  simp only [h]
  rfl

/-- A scalar offset moved on by some bytes. -/
def advanced (u : State) (c : Ctx) (n by_ : Nat) : State :=
  setScalar u c.stone c.bank n { scalar u c n with val := (scalar u c n).val.map (fun x => (x + by_) % 2 ^ 64) }

theorem advance_ok (c : Ctx) (n by_ : Nat) (u : State) : advance c n by_ u = .ok () (advanced u c n by_) := rfl

/-- STCOL in its plain form, its rows' bytes read. -/
theorem opStcol_ok {off : Nat} {parts : List (List Byte)} (ho : (scalar u c f.rd).val = some off) (hm : f.mod = 0)
    (hgo : RowsGo (stcolBytes c f (source u c 0 f.ra 0)) (activeRows u c f) u parts w)
    (hw : if activeRows u c f = [] then v = w else (c.bnd f.imm).write off parts.flatten w = .ok () v) :
    opStcol c f u = .ok () (advanced v c f.rd parts.flatten.length) := by
  refine (bind_get _ u).trans ((bind_ok (offsetOf_ok ho)).trans ?_)
  simp only [hm, Nat.zero_ne_one, if_false]
  refine (bind_ok rfl).trans ((bind_ok (mapM_go hgo)).trans ?_)
  by_cases hrows : activeRows u c f = []
  · rw [if_pos hrows] at hw
    subst hw
    simp only [hrows, List.isEmpty_nil, Bool.not_true, Bool.false_eq_true, if_false]
    rfl
  · rw [if_neg hrows] at hw
    simp only [List.isEmpty_eq_false_iff.mpr hrows, Bool.not_false, if_true]
    exact (bind_ok hw).trans rfl

theorem opStrec_ok {l : Layout} {off : Nat} {us : List Unit} (hl : c.pj.prog.layout (f.imm / 256) = some l)
    (ho : (scalar u c f.rd).val = some off) (hgo : RowsGo (strecRow c f l) (activeRows u c f) u us w) :
    opStrec c f u = .ok () w := by
  simp only [opStrec, hl]
  exact (bind_get _ u).trans ((bind_ok (offsetOf_ok ho)).trans (forM_go hgo))

theorem opStscl_ok {off : Nat} {b : List Byte} (ho : (scalar u c f.rd).val = some off)
    (hb : b = (if c.pj.prog.code.any (fun w => insnOp w == 0x50 && (insnOf w).rd == f.ra) then
        natLE 32 (match readAcc u c f.ra with | some v => ofSigned 256 v | none => 0)
      else natLE (if (scalar u c f.ra).tag.typ = tDec128 then 16 else 8) ((scalarRaw u c f.ra).getD 0)))
    (hw : (c.bnd f.imm).write off b u = .ok () v) : opStscl c f u = .ok () (advanced v c f.rd b.length) := by
  subst hb
  exact (bind_get _ u).trans ((bind_ok (offsetOf_ok ho)).trans ((bind_ok hw).trans rfl))

/-- A payload's bits, whatever is drawn for a NULL lane. -/
theorem payloadBits_ok (x : Option Nat) (s : State) : ∃ y m, payloadBits x s = .ok y { s with free := m } := by
  cases x with
  | none => exact ⟨_, _, rfl⟩
  | some x => exact ⟨x, s.free, rfl⟩

/-- The element of a row: its key and origin, and free values where a payload is NULL. -/
theorem mergeElem_ok (c : Ctx) (key : Nat) (p0 p1 : Src) (row : Nat) (s : State) : ∃ e m,
    mergeElem c key p0 p1 row s = .ok e { s with free := m } ∧ e.key = key ∧ e.origin = c.partn * 2 ^ 32 + c.firstRow + row := by
  unfold mergeElem
  by_cases hwide : p0.tag.typ = tDec128
  · simp only [if_pos hwide]
    cases p0.raw row with
    | none => exact ⟨_, _, rfl, rfl, rfl⟩
    | some x => exact ⟨_, s.free, rfl, rfl, rfl⟩
  · simp only [if_neg hwide]
    obtain ⟨x, m, hx⟩ := payloadBits_ok (p0.raw row) s
    obtain ⟨y, m', hy⟩ := payloadBits_ok (p1.raw row) { s with free := m }
    exact ⟨_, m', (bind_ok hx).trans ((bind_ok hy).trans rfl), rfl, rfl⟩

/-- The key and origin that MERGE gives a row, where its key is not NULL (07 R244). -/
def rowElem (c : Ctx) (key : Src) (row : Nat) : Option (Nat × Nat) :=
  (key.raw row).map (fun v => (v, c.partn * 2 ^ 32 + c.firstRow + row))

/-- The elements of rows, in row order. -/
theorem mergeRows_ok (c : Ctx) (key p0 p1 : Src) (rows : List Nat) (s : State) : ∃ es m,
    (rows.mapM (mergeAt c key p0 p1)) s = .ok es { s with free := m } ∧
      (es.filterMap id).map (fun e => (e.key, e.origin)) = rows.filterMap (rowElem c key) := by
  rw [← List.mapM'_eq_mapM]
  induction rows generalizing s with
  | nil => exact ⟨[], s.free, rfl, rfl⟩
  | cons row rows ih =>
    cases hkey : key.raw row with
    | none =>
      obtain ⟨es, m, hes, helems⟩ := ih s
      have hrow : mergeAt c key p0 p1 row s = .ok none s := by simp only [mergeAt, hkey]; rfl
      exact ⟨none :: es, m, (bind_ok hrow).trans ((bind_ok hes).trans rfl), by simpa [rowElem, hkey] using helems⟩
    | some v =>
      obtain ⟨e, m, he, hk, ho⟩ := mergeElem_ok c v p0 p1 row s
      obtain ⟨es, m', hes, helems⟩ := ih { s with free := m }
      have hrow : mergeAt c key p0 p1 row s = .ok (some e) { s with free := m } := by
        simp only [mergeAt, hkey]
        exact (bind_ok he).trans rfl
      exact ⟨some e :: es, m', (bind_ok hrow).trans ((bind_ok hes).trans rfl), by simpa [rowElem, hkey, hk, ho] using helems⟩

/-- The run that MERGE adds to its task's merge context. -/
def mergeAdded (u : State) (c : Ctx) (rows : List Nat) (key p0 p1 : Src) (es : List Elem) : State :=
  u.setRun c.stone (fun r => { r with merge := r.merge.map (fun x => { x with
    runs := x.runs ++ [es], nulls := x.nulls + (rows.length - es.length), keyTag := key.tag,
    tags := (if p0.tag.typ = tDec128 then [p0.tag] else [p0.tag, p1.tag]),
    form := (if p0.tag.typ = tDec128 then 1 else 2) }) })

theorem opMerge_ok {key p0 p1 : Src} (hk : key = source u c 0 f.ra 0) (h0 : p0 = source u c 0 f.rb 0)
    (h1 : p1 = source u c 0 (f.rb + 1) 0) : ∃ es m,
      es.map (fun e => (e.key, e.origin)) = (activeRows u c f).filterMap (rowElem c key) ∧
      opMerge c f u = .ok () (mergeAdded { u with free := m } c (activeRows u c f) key p0 p1 es) := by
  subst hk h0 h1
  obtain ⟨es, m, hes, helems⟩ := mergeRows_ok c (source u c 0 f.ra 0) (source u c 0 f.rb 0) (source u c 0 (f.rb + 1) 0)
    (activeRows u c f) u
  exact ⟨es.filterMap id, m, helems, (bind_get _ u).trans ((bind_ok hes).trans rfl)⟩

end Output

/-- Settles O40. -/
theorem outputInstructions : Obligations.OutputInstructions := by
  rintro s n k r c f hi u rfl rows rfl
  refine ⟨fun off ho hm hrows => ?noRows, fun off parts w v ho hm hrows hgo hw => ?column,
    fun l off us w hl ho hgo => insn_completes rfl hi (opStrec_ok hl ho hgo),
    fun off b v ho hb hw => insn_completes rfl hi (opStscl_ok ho hb hw), fun key p0 p1 hk h0 h1 => ?merge⟩
  case noRows =>
    have hgo : RowsGo (stcolBytes c f (source (issued s c) c 0 f.ra 0)) (activeRows (issued s c) c f) (issued s c) []
      (issued s c) := by rw [hrows]; exact ⟨rfl, rfl⟩
    have hact := opStcol_ok ho hm hgo (by rw [if_pos hrows])
    simp only [advanced, ho] at hact
    exact insn_completes rfl hi hact
  case column => exact insn_completes rfl hi (opStcol_ok ho hm hgo (by rw [if_neg hrows]; exact hw))
  case merge =>
    obtain ⟨es, m, hes, hact⟩ := opMerge_ok hk h0 h1
    exact ⟨es, m, hes, insn_completes rfl hi hact⟩

end Sys2Proof.Proofs
end

section
/-! Proofs: bits of a register write that a command forces, and the host's queue, tailrace and device-wide commands (03 R76 to R110, R656,
01 R28, R32, 04 R146, 05 R183). -/

open Sys2Proof Sys2Proof.Machine

namespace Sys2Proof.Proofs

section Bits
variable (v : Nat) {n lo w k x : Nat}

/-- A field within the low bits. -/
theorem bitsAt_mod (h : lo + w ≤ n) : bitsAt (v % 2 ^ n) lo w = bitsAt v lo w := by
  obtain ⟨m, rfl⟩ := Nat.exists_eq_add_of_le h
  rw [bitsAt, bitsAt, Nat.add_assoc, Nat.pow_add, Nat.mod_mul_right_div_self, Nat.pow_add, Nat.mod_mul_right_mod]

theorem bitAt_mod (h : k < n) : bitAt (v % 2 ^ n) k = bitAt v k := by rw [bitAt_eq, bitAt_eq, bitsAt_mod v h]

/-- The low field of a number. -/
theorem mod_eq_bitsAt : v % 2 ^ w = bitsAt v 0 w := by rw [bitsAt, Nat.pow_zero, Nat.div_one]

theorem bitAt_putBits_same : bitAt (putBits v k 1 x) k = (x % 2 == 1) := by rw [bitAt_eq, bitsAt_putBits, Nat.pow_one]

theorem bitAt_putBits_other (h : k < lo ∨ lo + w ≤ k) : bitAt (putBits v lo w x) k = bitAt v k := by
  rw [bitAt_eq, bitAt_eq]
  rcases h with h | h
  · rw [bitsAt_putBits_below _ _ _ _ _ _ h]
  · rw [bitsAt_putBits_above _ _ _ _ _ _ h]

/-- A bit that a command sets. -/
theorem bitAt_set (h : k < n) : bitAt (putBits v k 1 1 % 2 ^ n) k = true := by rw [bitAt_mod _ h, bitAt_putBits_same]; rfl

/-- A bit that a command clears. -/
theorem bitAt_clear (h : k < n) : bitAt (putBits v k 1 0 % 2 ^ n) k = false := by rw [bitAt_mod _ h, bitAt_putBits_same]; rfl

/-- A value that a command writes with a bit set has it. -/
theorem bitAt_of_set {e : Nat} (he : e = putBits v k 1 1 % 2 ^ n) (h : k < n) : bitAt e k = true := he ▸ bitAt_set v h

/-- A value that a command writes with a bit cleared lacks it. -/
theorem bitAt_of_clear {e : Nat} (he : e = putBits v k 1 0 % 2 ^ n) (h : k < n) : bitAt e k = false := he ▸ bitAt_clear v h

/-- The low field below a forced bit. -/
theorem putBits_mod (h : w ≤ k) (hn : w ≤ n) : putBits v k 1 x % 2 ^ n % 2 ^ w = v % 2 ^ w := by
  rw [Nat.mod_mod_of_dvd _ (Nat.pow_dvd_pow 2 hn), mod_eq_bitsAt, bitsAt_putBits_below _ _ _ _ _ _ (by omega), ← mod_eq_bitsAt]

end Bits

section Queues
variable {u : State} {gq e : Nat}

/-- WQ_CFG written with enable 1 to a disabled queue. -/
theorem wqCfgWrite_enable (hen : u.flag F.wqCfg_enable gq = false) (he : bitAt e 31 = true) :
    wqCfgWrite u gq e = queueEnable u gq e := by simp only [wqCfgWrite, hen, he]

theorem queueEnable_busy (hi : u.flag F.wqState_idle gq = false) :
    queueEnable u gq e = u.setReg .wqCfg gq (e &&& 0x401FFFFF) := by simp [queueEnable, hi]

theorem queueEnable_depth (hi : u.flag F.wqState_idle gq = true) (hn : bitsAt e 16 5 < 4 ∨ 16 < bitsAt e 16 5) :
    queueEnable u gq e = (u.setReg .wqCfg gq (e &&& 0x401FFFFF)).setFlag F.wqState_cfg_error gq true := by
  simp [queueEnable, hi, hn]

theorem queueEnable_idle (hi : u.flag F.wqState_idle gq = true) (hlo : 4 ≤ bitsAt e 16 5) (hhi : bitsAt e 16 5 ≤ 16) :
    queueEnable u gq e = (((((((u.setReg .wqCfg gq (e &&& 0x401FFFFF)).setReg .slcWqHead gq 0).setReg .wqDoorbell gq 0).setFld
      F.wqState_fetch gq 0).setFld F.weirQstat_credit gq 0).setQueue gq
        (fun q => { q with stale := false, polled := [], timer := none })).setFlag F.wqCfg_enable gq true) := by
  have hn : ¬ (bitsAt e 16 5 < 4 ∨ 16 < bitsAt e 16 5) := by omega
  simp only [queueEnable, hi, Bool.not_true, Bool.false_eq_true, if_false, if_neg hn]

theorem wqCfgWrite_disable (hen : u.flag F.wqCfg_enable gq = true) (he : bitAt e 31 = false) : wqCfgWrite u gq e =
    timerCheck (drainChain (u.setReg .wqCfg gq ((u.reg .wqCfg gq &&& 0x401F0000) + e % 2 ^ 16)) gq) gq := by
  simp only [wqCfgWrite, hen, he, queueDisable]

/-- A doorbell that moves TAIL of a queue that takes it. -/
theorem doorbell_moves {d : Nat} (hen : u.flag F.wqCfg_enable gq = true) (hpoll : u.flag F.wqCfg_poll gq = false)
    (hhalt : u.flag F.slcStatus_halted (gq / 8) = false) (hst : u.fld F.slcCfg_state (gq / 8) ≠ 3)
    (hdepth : sub32 d (u.head gq) ≤ 2 ^ depthLog u gq) (hbeyond : sub32 (u.tailOf gq) (u.head gq) < sub32 d (u.head gq))
    (hne : d ≠ u.tailOf gq) : doorbell u gq d =
      (timerStop (hostSync (u.setReg .wqDoorbell gq d)) gq).count ⟨0x104, 1, some (gq / 8), none, none⟩ := by
  have hst' : (u.fld F.slcCfg_state (gq / 8) == 3) = false := by simpa using hst
  simp only [doorbell, hen, hpoll, hhalt, hst', Bool.not_true, Bool.or_false, Bool.false_eq_true, if_false,
    if_neg hdepth.not_gt, if_neg hbeyond.not_gt, if_neg hne]

end Queues

section Tailraces
variable {u : State} {n d e : Nat}

theorem evHeadWrite_within (hd : d < 2 ^ 32)
    (hw : sub32 d (u.reg .slcEvHead n) ≤ sub32 (u.reg .slcEvTail n) (u.reg .slcEvHead n)) :
    evHeadWrite u n d = releaseInOrder (tailDrain (u.setReg .slcEvHead n d) n) n := by
  simp only [evHeadWrite, Nat.mod_eq_of_lt hd, if_neg hw.not_gt]

theorem evHeadWrite_beyond (hd : d < 2 ^ 32)
    (hw : sub32 (u.reg .slcEvTail n) (u.reg .slcEvHead n) < sub32 d (u.reg .slcEvHead n)) :
    evHeadWrite u n d = u.setFlag F.slcStatus_ev_head_bad n true := by
  simp only [evHeadWrite, Nat.mod_eq_of_lt hd, if_pos hw]

/-- Held releases go where the ring is disabled or lossy. -/
theorem releasesHeld_eq (t : State) (n : Nat) :
    (tailOn t n = true → t.flag F.slcEvCfg_lossless n = true →
      (if tailOn t n && t.flag F.slcEvCfg_lossless n then t else releaseHeld t n) = t) ∧
    (tailOn t n = false ∨ t.flag F.slcEvCfg_lossless n = false →
      (if tailOn t n && t.flag F.slcEvCfg_lossless n then t else releaseHeld t n) = releaseHeld t n) := by
  cases tailOn t n <;> cases t.flag F.slcEvCfg_lossless n <;> simp

theorem evCfgWrite_enable (hen : u.flag F.slcEvCfg_enable n = false) (he : bitAt e 31 = true) {t : State}
    (ht : t = evEnable ((u.setFlag F.slcEvCfg_lossless n (bitAt e 30)).setFld F.slcEvCfg_depth_log2 n (bitsAt e 0 5)) n) :
    evCfgWrite u n e = if tailOn t n && t.flag F.slcEvCfg_lossless n then t else releaseHeld t n := by
  subst ht
  simp only [evCfgWrite, evCfgFields, hen, he, Bool.false_eq_true, if_false, if_true]

theorem evCfgWrite_mode (hen : u.flag F.slcEvCfg_enable n = true) (he : bitAt e 31 = true) {t : State}
    (ht : t = u.setFlag F.slcEvCfg_lossless n (bitAt e 30)) :
    evCfgWrite u n e = if tailOn t n && t.flag F.slcEvCfg_lossless n then t else releaseHeld t n := by
  subst ht
  simp only [evCfgWrite, evCfgFields, hen, he, if_true]

end Tailraces

/-- Settles O41: each write by the field that it forces and what the queue or ring is in. -/
theorem queueCommands : Obligations.QueueCommands := by
  rintro s u rfl
  refine ⟨fun gq v e ht he hen t htt => ?enable, fun gq v e ht he hen => ?disable,
    fun slice queue v d ht hq hd gq hgq hen hpoll hhalt hst _ hdepth hbeyond hne => ?doorbell, fun n v d ht hd => ?evHead,
    fun n v e ht he hen t htt => ?tailrace, fun n v e ht he hen h31 t htt => ?mode⟩
  case enable =>
    subst htt
    have hset := hostSet_wqCfg ht (putBits v 31 1 1)
    rw [← he] at hset
    have hwrite := hset.trans (wqCfgWrite_enable hen (bitAt_of_set v he (by decide)))
    exact ⟨fun hi => next_settled rfl (hwrite.trans (queueEnable_busy hi)),
      fun hi hlo hhi => next_settled rfl (hwrite.trans (queueEnable_idle hi hlo hhi)),
      fun hi hn => next_settled rfl (hwrite.trans (queueEnable_depth hi hn))⟩
  case disable =>
    have hset := hostSet_wqCfg ht (putBits v 31 1 0)
    rw [← he] at hset
    exact next_settled rfl (hset.trans (wqCfgWrite_disable hen (bitAt_of_clear v he (by decide))))
  case doorbell =>
    have hslice : gq / 8 = slice := by omega
    subst hgq hd
    have hwrite := (hostSet_wqDoorbell ht v).trans (by rw [Nat.mod_mod])
    have hmoves := doorbell_moves hen hpoll (by rwa [hslice]) (by rwa [hslice]) hdepth hbeyond hne
    rw [hslice] at hmoves
    exact next_settled rfl (hwrite.trans hmoves)
  case evHead =>
    subst hd
    have hlt := Nat.mod_lt v (Nat.two_pow_pos 32)
    exact ⟨fun hw => next_settled rfl ((hostSet_slcEvHead ht v).trans (evHeadWrite_within hlt hw)),
      fun hw => next_settled rfl ((hostSet_slcEvHead ht v).trans (evHeadWrite_beyond hlt hw))⟩
  case tailrace =>
    have hset := hostSet_slcEvCfg ht (putBits v 31 1 1)
    rw [← he] at hset
    have hwrite := hset.trans (evCfgWrite_enable hen (bitAt_of_set v he (by decide)) htt)
    exact ⟨fun hon hll => next_settled rfl (hwrite.trans ((releasesHeld_eq t n).1 hon hll)),
      fun hoff => next_settled rfl (hwrite.trans ((releasesHeld_eq t n).2 hoff))⟩
  case mode =>
    have hset := hostSet_slcEvCfg ht v
    rw [← he] at hset
    have hwrite := hset.trans (evCfgWrite_mode hen h31 htt)
    exact ⟨fun hon hll => next_settled rfl (hwrite.trans ((releasesHeld_eq t n).1 hon hll)),
      fun hoff => next_settled rfl (hwrite.trans ((releasesHeld_eq t n).2 hoff))⟩

section Profile
variable {u : State} {e : Nat}

/-- DEV_PROFILE takes a defined profile, with DEV_CFG's row of it, while it is not locked. -/
def profileTaken (u : State) (p : Nat) : State :=
  if profileLocked u || p == 3 then u else (u.setFld F.devProfile_profile 0 p).setReg .devCfg 0 (profileCfg p)

theorem profileWrite_eq (u : State) (e : Nat) : profileWrite u e =
    if bitAt e 31 then (profileTaken u (e % 4)).setFlag F.devProfile_lock 0 true else profileTaken u (e % 4) := rfl

theorem profileTaken_locked {p : Nat} (hl : profileLocked u = true) : profileTaken u p = u := by simp [profileTaken, hl]

theorem profileTaken_reserved : profileTaken u 3 = u := by simp [profileTaken]

theorem profileTaken_defined {p : Nat} (hl : profileLocked u = false) (hp : p < 3) :
    profileTaken u p = (u.setFld F.devProfile_profile 0 p).setReg .devCfg 0 (profileCfg p) := by
  have hne : (p == 3) = false := by simpa using hp.ne
  simp [profileTaken, hl, hne]

end Profile

theorem traceCfgWrite_enable {u : State} {e : Nat} (hen : u.flag F.fanTraceCfg_enable 0 = false) (he : bitAt e 31 = true)
    (hlo : 4 ≤ bitsAt e 16 5) (hhi : bitsAt e 16 5 ≤ 16) : traceCfgWrite u e = ((u.setReg .fanTraceCfg 0
      (putBits (putBits (e &&& 0x7F1F1FFE) 16 5 (bitsAt e 16 5)) 31 1 0)).setFlag F.fanTraceCfg_enable 0 true).setReg .fanTraceTail 0 0 := by
  have hn : ¬ (bitsAt e 16 5 < 4 ∨ 16 < bitsAt e 16 5) := by omega
  simp only [traceCfgWrite, hen, he, decide_eq_false hn, Bool.false_and, boolNat, Bool.not_true, Bool.or_false,
    Bool.false_eq_true, if_false]

/-- Settles O42: the profile writes by the lock and the profile that they name. -/
theorem deviceCommands : Obligations.DeviceCommands := by
  rintro s u rfl
  have write (v : Nat) (ht : HostTakes s .devProfile 0) : hostSet s .devProfile 0 v = if bitAt v 31 then
      (profileTaken (hostIn s 4) (v % 4)).setFlag F.devProfile_lock 0 true else profileTaken (hostIn s 4) (v % 4) := by
    rw [hostSet_devProfile ht, profileWrite_eq, bitAt_mod v (by decide), Nat.mod_mod_of_dvd v (by decide)]
  have lock (v : Nat) (ht : HostTakes s .devProfile 0) : hostSet s .devProfile 0 (putBits v 31 1 1) =
      (profileTaken (hostIn s 4) (v % 4)).setFlag F.devProfile_lock 0 true := by
    have hlow : putBits v 31 1 1 % 4 = v % 4 := by
      simpa using putBits_mod v (w := 2) (k := 31) (n := 2) (x := 1) (by decide) (le_refl _)
    rw [write _ ht, bitAt_putBits_same, hlow]
    rfl
  have plain (v : Nat) (ht : HostTakes s .devProfile 0) (h31 : bitAt v 31 = false) :
      hostSet s .devProfile 0 v = profileTaken (hostIn s 4) (v % 4) := by rw [write v ht, h31]; rfl
  refine ⟨fun v ht hl h31 => ⟨fun hp => ?written, fun hp => ?reserved⟩, fun v ht hl => ⟨fun hp => ?locking, fun hp => ?lockOnly⟩,
    fun v ht hl => ⟨?lockedLock, fun h31 => ?lockedWrite⟩, fun v e ht he hen hlo hhi => ?trace, fun v ht => ?flush⟩
  case written => exact next_settled rfl ((plain v ht h31).trans (profileTaken_defined hl hp))
  case reserved => exact next_settled rfl ((plain v ht h31).trans (by rw [hp, profileTaken_reserved]))
  case locking => exact next_settled rfl ((lock v ht).trans
    (congrArg (fun t : State => t.setFlag F.devProfile_lock 0 true) (profileTaken_defined hl hp)))
  case lockOnly => exact next_settled rfl ((lock v ht).trans (by rw [hp, profileTaken_reserved]))
  case lockedLock => exact next_settled rfl ((lock v ht).trans (by rw [profileTaken_locked hl]))
  case lockedWrite => exact next_settled rfl ((plain v ht h31).trans (profileTaken_locked hl))
  case trace =>
    have hset := hostSet_fanTraceCfg ht (putBits v 31 1 1)
    rw [← he] at hset
    exact next_settled rfl (hset.trans (traceCfgWrite_enable hen (bitAt_of_set v he (by decide)) hlo hhi))
  case flush =>
    refine next_settled rfl ((hostSet_stnCheckCtl ht (putBits v 31 1 1)).trans ?_)
    rw [checkCtlWrite, bitAt_set v (by decide)]
    rfl

end Sys2Proof.Proofs
end

section
/-! Proofs: the host's ledger, table and port commands (09 R315, R342, R343, 10 R379, R387). -/

open Sys2Proof Sys2Proof.Machine

namespace Sys2Proof.Proofs

section Ledger
variable {w : State} {c n e vol slice : Nat}

theorem checkpoint_within (hlo : w.reg .mpdCkpt 0 ≤ c) (hhi : c ≤ w.reg .mpdEpoch 0) (hj : mayJoin w = true) :
    checkpoint w c = truncate (joinNow (w.setReg .mpdCkpt 0 c) { JNew.bare kCkpt with addr := c }).2 := by
  have hn : ¬ (c < w.reg .mpdCkpt 0 ∨ w.reg .mpdEpoch 0 < c ∨ (!mayJoin w) = true) := by rw [hj]; simp; omega
  rw [checkpoint, if_neg hn]

theorem checkpoint_outside (h : c < w.reg .mpdCkpt 0 ∨ w.reg .mpdEpoch 0 < c) : checkpoint w c = w := by
  rw [checkpoint, if_pos (h.imp_right Or.inl)]

theorem replayStart_first (hb : w.flag F.mpdStatus_replay_busy 0 = false) (hd : w.flag F.mpdStatus_replay_done 0 = false)
    (he : bitAt e 31 = true) : replayStart w e = w.setFlag F.mpdStatus_replay_busy 0 true := by simp [replayStart, he, hb, hd]

/-- A table's entry as a registration writes it, the projections of the table removed. -/
def tableWritten (w : State) (n e : Nat) : State :=
  ({ w with vols := { w.vols with projs := w.vols.projs.filter (fun x => x.2.table != n) } } : State).setReg .mpdTableCfg n (e / 64 * 64)

/-- A registration that names a projection that is not right. -/
def projRefused (t : State) (n vol : Nat) : State := (t.setFlag F.mpdTableCfg_valid n false).setFlag F.volState_proj_error vol true

theorem tableCfgWrite_table (hu : tableUsed w n = false) (hp : bitAt e 62 = false) : tableCfgWrite w n e = tableWritten w n e := by
  simp [tableCfgWrite, tableWritten, hu, hp]

theorem tableCfgWrite_owner (hu : tableUsed w n = false) (hv : bitAt e 63 = true) (hp : bitAt e 62 = true)
    (ho : (w.vol (bitsAt e 48 8)).map (·.owner) ≠ some (bitsAt e 56 6)) :
    tableCfgWrite w n e = projRefused (tableWritten w n e) n (bitsAt e 48 8) := by
  simp only [tableCfgWrite, tableWritten, projRefused, hu, hv, hp, Bool.false_and, Bool.false_eq_true, if_false, Bool.and_true,
    if_true, if_pos ho]

theorem tableCfgWrite_read (hu : tableUsed w n = false) (hv : bitAt e 63 = true) (hp : bitAt e 62 = true)
    (ho : (w.vol (bitsAt e 48 8)).map (·.owner) = some (bitsAt e 56 6)) {x : Option Proj} {t2 : State}
    (hr : (readProj w n (bitsAt e 56 6) (bitsAt e 48 8) (bitsAt e 6 42 * 64)).exec (tableWritten w n e) = (.ok x, t2)) :
    tableCfgWrite w n e = match x with
      | some p => registerProj t2 n (bitsAt e 48 8) p
      | none => projRefused t2 n (bitsAt e 48 8) := by
  have ho' : ¬ ((w.vol (bitsAt e 48 8)).map (·.owner) ≠ some (bitsAt e 56 6)) := not_not.mpr ho
  unfold tableWritten at hr
  simp only [tableCfgWrite, projRefused, hu, hv, hp, Bool.false_and, Bool.false_eq_true, if_false, Bool.and_true, if_true, if_neg ho', hr]
  cases x <;> rfl

end Ledger

section Ports
variable {u : State} {p e : Nat}

/-- A port's control word with its timeout stored. -/
def timeoutStored (u : State) (p e : Nat) : State := if e % 2 ^ 16 = 0 then u else u.setFld F.volPortCtl_timeout_ms p e

theorem portCtlWrite_attach (ha : bitAt e 31 = true) (hd : bitAt e 30 = false) :
    portCtlWrite u p e = portAttach (drivePort (timeoutStored u p e) p false) p := by
  simp only [portCtlWrite, timeoutStored, ha, hd, Bool.false_eq_true, if_false, if_true]

theorem portCtlWrite_detach (hd : bitAt e 30 = true) : portCtlWrite u p e = drivePort
    (((portDown (timeoutStored u p e) p).setFld F.volPortStatus_speed p 0).setFld F.volPortStatus_width p 0) p true := by
  simp only [portCtlWrite, timeoutStored, hd, if_true]

variable {t : State} {state reason speed width : Nat}

/-- The state that a port is set to reads so. -/
theorem portUp_setPort (hc : t.canon) (hs : state < 2 ^ 4) : portUp (setPort t p state reason speed width) p = (state == 2) := by
  obtain ⟨-, hc, -, -⟩ := hc
  have h1 := State.canon_setFld hc F.volPortStatus_state p state
  have h2 := State.canon_setFld h1 F.volPortStatus_reason p reason
  have h3 := State.canon_setFld h2 F.volPortStatus_speed p speed
  rw [portUp, setPort, State.fld_setFld_fld h3 F.volPortStatus_width F.volPortStatus_state _ _ rfl (by decide) (by decide),
    State.fld_setFld_fld h2 F.volPortStatus_speed F.volPortStatus_state _ _ rfl (by decide) (by decide),
    State.fld_setFld_fld h1 F.volPortStatus_reason F.volPortStatus_state _ _ rfl (by decide) (by decide),
    State.fld_setFld hc _ _ _ (by decide),
    Nat.mod_eq_of_lt (by exact hs)]

/-- A drive that does not come ONLINE. -/
theorem portAttach_down (hc : t.canon) (hq : qualifyPort t p = setPort t p state reason speed width) (hs : state < 2) :
    portAttach t p = setPort t p state reason speed width := by
  have hdown : portUp (setPort t p state reason speed width) p = false := by
    rw [portUp_setPort hc (by omega)]; exact beq_false_of_ne (by omega)
  simp [portAttach, hq, hdown]

/-- A drive that comes ONLINE. -/
theorem portAttach_up (hc : t.canon) {t1 : State} {f : Drive → Drive} (hq : qualifyPort t p = t1)
    (ht1 : t1 = (setPort t p 2 reason speed width).setDrive p f) :
    portAttach t p = if portUp t p then tableCopy t1 p else t1.vols.table.foldl (portReturns p) (tableCopy t1 p) := by
  have hup : portUp t1 p = true := by
    rw [ht1, portUp, State.setDrive_fld]
    exact portUp_setPort (state := 2) hc (by decide)
  simp [portAttach, hq, hup]

end Ports

/-- Settles O43: each write by the bits that it forces; a port's qualification by the state that it sets. -/
theorem ledgerCommands : Obligations.LedgerCommands := by
  rintro s u w rfl rfl
  refine ⟨fun v c ht hc => ⟨fun hlo hhi hj => ?ckpt, fun ho => ?ckptOut⟩, fun v ht hb hd => ?replay, fun n v e ht he hu t htt => ?table,
    fun p v e t ht he htt => ?attach, fun p v e t ht he htt => ?detach, fun t p c hc hcap => ?qualify⟩
  case ckpt =>
    have hset := hostSet_mpdCkpt ht v
    rw [← hc] at hset
    exact next_settled rfl (hset.trans (checkpoint_within hlo hhi hj))
  case ckptOut =>
    have hset := hostSet_mpdCkpt ht v
    rw [← hc] at hset
    exact next_settled rfl (hset.trans (checkpoint_outside ho))
  case replay =>
    exact next_settled rfl ((hostSet_mpdReplay ht (putBits v 31 1 1)).trans (replayStart_first hb hd (bitAt_set v (by decide))))
  case table =>
    have hset := hostSet_mpdTableCfg ht (putBits v 63 1 1)
    rw [← he] at hset
    have hv : bitAt e 63 = true := bitAt_of_set v he (by decide)
    subst htt
    refine ⟨fun hp => next_settled rfl (hset.trans (tableCfgWrite_table hu hp)),
      fun hp vol slice hvol hslice => ⟨fun ho => ?_, fun x t2 ho hr => ?_⟩⟩ <;> subst hvol hslice
    · exact next_settled rfl (hset.trans (tableCfgWrite_owner hu hv hp ho))
    · exact next_settled rfl ((hset.trans (tableCfgWrite_read hu hv hp ho hr)).trans (by cases x <;> rfl))
  case attach =>
    have hset := hostSet_volPortCtl ht (putBits (putBits v 31 1 1) 30 1 0)
    rw [← he] at hset
    have ha : bitAt e 31 = true := by
      rw [he, bitAt_mod _ (by decide), bitAt_putBits_other _ (by decide), bitAt_putBits_same]; rfl
    exact next_settled rfl ((hset.trans (portCtlWrite_attach ha (bitAt_of_clear _ he (by decide)))).trans (by rw [htt]; rfl))
  case detach =>
    have hset := hostSet_volPortCtl ht (putBits v 30 1 1)
    rw [← he] at hset
    exact next_settled rfl ((hset.trans (portCtlWrite_detach (bitAt_of_set v he (by decide)))).trans (by rw [htt]; rfl))
  case qualify =>
    subst hcap
    refine ⟨fun hf => ?_, fun hf hr => ?_, fun hf hr h6 => ?_, fun hf hr t1 ht1 => ?_⟩
    · exact portAttach_down hc (by simp [qualifyPort, hf]) (by decide)
    · exact portAttach_down hc (by simp [qualifyPort, hf, hr]) (by decide)
    · exact portAttach_down hc (by simp [qualifyPort, hf, hr, h6]) (by decide)
    · exact portAttach_up hc ((by simp [qualifyPort, hf, hr] : qualifyPort t p = _).trans ht1.symm) ht1

end Sys2Proof.Proofs
end

section
/-! Proofs: the host's translation, Granary and DRAM commands (13 R460, R464, 14 R473, R477, R478, R482, R483, 15 R500). -/

open Sys2Proof Sys2Proof.Machine

namespace Sys2Proof.Proofs

section Invalidation
variable {u u0 t : State} {e : Nat}

theorem xltInvalWrite_busy (hgo : bitAt e 31 = true) (hb : u.flag F.xltInval_busy 0 = true)
    (hu0 : u0 = if bitAt e 30 then (hostSync u).setFlag F.xltInval_error 0 false else hostSync u) :
    xltInvalWrite u e = u0.setFlag F.xltInval_error 0 true := by
  simp only [xltInvalWrite, hgo, hb, Bool.and_true, if_true, hu0]

/-- A start of an invalidation while none is in progress, its fields written. -/
theorem xltInvalWrite_start (hgo : bitAt e 31 = true) (hb : u.flag F.xltInval_busy 0 = false)
    (hu0 : u0 = if bitAt e 30 then (hostSync u).setFlag F.xltInval_error 0 false else hostSync u)
    (ht : t = u0.setReg .xltInval 0 (u0.reg .xltInval 0 &&& 0x60000000 ||| e &&& 0x1E3F0000)) (hop : (invalRegReq t e).op < 3) :
    xltInvalWrite u e = if (lowest (invalProblem t (invalRegReq t e))).isSome = true then t.setFlag F.xltInval_error 0 true
      else if (invalRegReq t e).op = 0 ∧ (invalRegReq t e).pages = 0 then t
      else (xltPurge t (invalRegReq t e)).setFlag F.xltInval_busy 0 true := by
  have h3 : ¬ (invalRegReq t e).op = 3 := by omega
  rw [hu0] at ht
  simp only [xltInvalWrite, hgo, hb, Bool.and_false, Bool.false_eq_true, if_false, if_true, Bool.not_true, ← ht, h3, false_or]

/-- The two forced fields of an invalidation's start. -/
theorem invalGo (v : Nat) {k e : Nat} (hk : k < 3) (he : e = putBits (putBits v 31 1 1) 27 2 k % 2 ^ 32) :
    bitAt e 31 = true ∧ ∀ t, (invalRegReq t e).op < 3 := by
  refine ⟨?_, fun t => ?_⟩
  · rw [he, bitAt_mod _ (by decide), bitAt_putBits_other _ (by decide), bitAt_putBits_same]; rfl
  · show bitsAt e 27 2 < 3
    rw [he, bitsAt_mod _ (by decide), bitsAt_putBits]
    exact (Nat.mod_le _ _).trans_lt hk

/-- The three invalidation commands, by the op that they write. -/
theorem invalOp_acts {s : State} {c : Instr} {v k : Nat} (hk : k < 3)
    (hx : exec c s = done (hostSet s .xltInval 0 (putBits (putBits v 31 1 1) 27 2 k))) (hu : u = hostIn s 4)
    (hts : HostTakes s .xltInval 0) (he : e = putBits (putBits v 31 1 1) 27 2 k % 2 ^ 32)
    (hu0 : u0 = if bitAt e 30 then (hostSync u).setFlag F.xltInval_error 0 false else hostSync u) :
    (u.flag F.xltInval_busy 0 = true → exec c s = .next (settle (u0.setFlag F.xltInval_error 0 true))) ∧
    (∀ t q, u.flag F.xltInval_busy 0 = false → t = u0.setReg .xltInval 0 (u0.reg .xltInval 0 &&& 0x60000000 ||| e &&& 0x1E3F0000) →
      q = invalRegReq t e → (lowest (invalProblem t q) = none → ¬(k = 0 ∧ q.pages = 0) →
        exec c s = .next (settle ((xltPurge t q).setFlag F.xltInval_busy 0 true))) ∧
      (∀ o, lowest (invalProblem t q) = some o → exec c s = .next (settle (t.setFlag F.xltInval_error 0 true)))) := by
  have hset := hostSet_xltInval hts (putBits (putBits v 31 1 1) 27 2 k)
  rw [← he, ← hu] at hset
  obtain ⟨hgo, hop⟩ := invalGo v hk he
  refine ⟨fun hb => next_settled hx (hset.trans (xltInvalWrite_busy hgo hb hu0)), fun t q hb ht hq => ?_⟩
  have hwrite := hset.trans (xltInvalWrite_start hgo hb hu0 ht (hop t))
  have hopk : q.op = k := by
    rw [hq]
    show bitsAt e 27 2 = k
    rw [he, bitsAt_mod _ (by decide), bitsAt_putBits, Nat.mod_eq_of_lt (by omega)]
  rw [← hq] at hwrite
  refine ⟨fun hok hne => next_settled hx ?_, fun o ho => next_settled hx ?_⟩
  · rw [hwrite, hok, hopk, if_neg hne]; rfl
  · rw [hwrite, ho]; rfl

end Invalidation

section Granary
variable {t u : State} {e : Nat}

/-- A disabling of the Granary while it is ENABLED reads its state and its dirty lines as they stand. -/
theorem granDisable_enabled (hc : t.canon) (hst : t.fld F.grnStatus_state 0 = granEnabled) :
    granDisable t = if t.fld F.grnStatus_dirty_lines 0 = 0 then
        (granDropAll ((t.setFlag F.grnCtl_enable 0 false).setFld F.grnStatus_state 0 granDraining)).setFld F.grnStatus_state 0 granDisabled
      else (t.setFlag F.grnCtl_enable 0 false).setFld F.grnStatus_state 0 granDraining := by
  obtain ⟨-, hc, -, -⟩ := hc
  have h1 : twf regReset (t.setFlag F.grnCtl_enable 0 false).regs = true := State.canon_setFld hc _ _ _
  have hdrain : ((t.setFlag F.grnCtl_enable 0 false).setFld F.grnStatus_state 0 granDraining).fld F.grnStatus_state 0 = granDraining :=
    (State.fld_setFld h1 _ _ _ (by decide)).trans (by decide)
  have hdirty : ((t.setFlag F.grnCtl_enable 0 false).setFld F.grnStatus_state 0 granDraining).fld F.grnStatus_dirty_lines 0 =
      t.fld F.grnStatus_dirty_lines 0 :=
    (State.fld_setFld_fld h1 F.grnStatus_state F.grnStatus_dirty_lines 0 _ rfl (by decide) (by decide)).trans
      (State.fld_setFld_reg hc F.grnCtl_enable F.grnStatus_dirty_lines 0 0 _ (by decide))
  simp only [granDisable, hst, ne_eq, not_true_eq_false, if_false, granDrained, hdrain, hdirty, true_and]

/-- A write of GRN_CTL by the bit that is written to enable. -/
theorem grnCtlWrite_eq (ht : t = if bitAt e 30 then hostSync u else u) :
    grnCtlWrite u e = if bitAt e 31 then granEnable t else granDisable t := by rw [grnCtlWrite, ← ht]

/-- The host's write and its sync point leave the registers canonical. -/
theorem grnSynced_canon {s : State} (hc : s.canon) (hu : u = hostIn s 4) (ht : t = if bitAt e 30 then hostSync u else u) : t.canon := by
  have hu' : u.canon := hu ▸ (hostIn_evolves (.refl s)).canon hc
  rw [ht]
  split
  · exact (hostSync_evolves (.refl u)).canon hu'
  · exact hu'

end Granary

section Maintenance
variable {u u0 t : State} {e base len k : Nat}

theorem maintWrite_go (hgo : bitAt e 31 = true) (hu0 : u0 = if bitAt e 30 then u.setFlag F.grnMaintCtl_error 0 false else u) :
    maintWrite u e = maintGo u0 (bitsAt e 0 2) := by simp only [maintWrite, hgo, if_true, ← hu0]

theorem maintGo_refused (hb : base = u0.fld F.grnMaintBase_base 0) (hl : len = u0.fld F.grnMaintLen_len 0)
    (h : u0.flag F.grnMaintBusy_busy 0 = true ∨ u0.fld F.grnStatus_state 0 = granDraining ∨ maintRangeOk u0 base len = false) :
    maintGo u0 k = (u0.setFld F.grnMaintCtl_op 0 k).setFlag F.grnMaintCtl_error 0 true := by
  subst hb hl
  simp only [maintGo]
  rw [if_pos]
  simpa only [Bool.or_eq_true, beq_iff_eq, Bool.not_eq_true', or_assoc] using h

theorem maintGo_taken (hb : base = u0.fld F.grnMaintBase_base 0) (hl : len = u0.fld F.grnMaintLen_len 0)
    (ht : t = u0.setFld F.grnMaintCtl_op 0 k) (hbusy : u0.flag F.grnMaintBusy_busy 0 = false)
    (hst : u0.fld F.grnStatus_state 0 ≠ granDraining) (hok : maintRangeOk u0 base len = true) :
    maintGo u0 k = if len = 0 ∨ (u0.fld F.grnStatus_state 0 = granDisabled ∧ k ≠ 3) then t.addWrap F.grnMaintBusy_completed 0 1
      else ({ t with gran := { t.gran with maint := some ⟨k, base, len⟩ } } : State).setFlag F.grnMaintBusy_busy 0 true := by
  subst hb hl ht
  simp only [maintGo]
  rw [if_neg]
  simp [hbusy, hst, hok]

/-- The four maintenance commands, by the op that they write. -/
theorem maintOp_acts {s : State} {c : Instr} {v : Nat} (hk : k < 4)
    (hx : exec c s = done (hostSet s .grnMaintCtl 0 (putBits (putBits v 31 1 1) 0 2 k))) (hu : u = hostIn s 4)
    (hts : HostTakes s .grnMaintCtl 0) (he : e = putBits (putBits v 31 1 1) 0 2 k % 2 ^ 32)
    (hu0 : u0 = if bitAt e 30 then u.setFlag F.grnMaintCtl_error 0 false else u)
    (hb : base = u0.fld F.grnMaintBase_base 0) (hl : len = u0.fld F.grnMaintLen_len 0) (ht : t = u0.setFld F.grnMaintCtl_op 0 k) :
    (u0.flag F.grnMaintBusy_busy 0 = true ∨ u0.fld F.grnStatus_state 0 = granDraining ∨ maintRangeOk u0 base len = false →
      exec c s = .next (settle (t.setFlag F.grnMaintCtl_error 0 true))) ∧
    (u0.flag F.grnMaintBusy_busy 0 = false → u0.fld F.grnStatus_state 0 ≠ granDraining → maintRangeOk u0 base len = true →
      (len = 0 ∨ (u0.fld F.grnStatus_state 0 = granDisabled ∧ k ≠ 3) →
        exec c s = .next (settle (t.addWrap F.grnMaintBusy_completed 0 1))) ∧
      (¬(len = 0 ∨ (u0.fld F.grnStatus_state 0 = granDisabled ∧ k ≠ 3)) → exec c s = .next (settle
        (({ t with gran := { t.gran with maint := some ⟨k, base, len⟩ } } : State).setFlag F.grnMaintBusy_busy 0 true)))) := by
  have hset := hostSet_grnMaintCtl hts (putBits (putBits v 31 1 1) 0 2 k)
  rw [← he, ← hu] at hset
  have hgo : bitAt e 31 = true := by
    rw [he, bitAt_mod _ (by decide), bitAt_putBits_other _ (by decide), bitAt_putBits_same]; rfl
  have hop : bitsAt e 0 2 = k := by rw [he, bitsAt_mod _ (by decide), bitsAt_putBits, Nat.mod_eq_of_lt (by omega)]
  have hwrite := hset.trans (maintWrite_go hgo hu0)
  rw [hop] at hwrite
  refine ⟨fun h => next_settled hx ((hwrite.trans (maintGo_refused hb hl h)).trans (by rw [ht])), fun hbusy hst hok => ?_⟩
  have htaken := hwrite.trans (maintGo_taken hb hl ht hbusy hst hok)
  exact ⟨fun h => next_settled hx (htaken.trans (if_pos h)), fun h => next_settled hx (htaken.trans (if_neg h))⟩

end Maintenance

section Refresh
variable {u t : State} {e : Nat}

theorem dmcPwrWrite_set (he : bitAt e 31 = true) (ht : t = if bitAt e 30 then u.setFlag F.dmcPwr_error 0 false else u) :
    dmcPwrWrite u e = srRequest t := by simp only [dmcPwrWrite, he, if_true, ← ht]

theorem dmcPwrWrite_clear (he : bitAt e 31 = false) (ht : t = if bitAt e 30 then u.setFlag F.dmcPwr_error 0 false else u) :
    dmcPwrWrite u e = srRelease t := by simp only [dmcPwrWrite, he, Bool.false_eq_true, if_false, ← ht]

end Refresh

/-- Settles O44: each write by the bits that it forces, the three invalidations and the four maintenance operations each by one lemma over the op. -/
theorem memoryCommands : Obligations.MemoryCommands := by
  intro s u hc hu
  refine ⟨?inval, fun v e ht he t htt => ?sync, fun v e ht he t htt => ?enable, fun v e ht he t htt hst => ?disable, ?maint,
    fun v e ht he t htt => ?srSet, fun v e ht he t htt => ?srClear⟩
  case inval =>
    rw [List.forall_mem_cons, List.forall_mem_cons, List.forall_mem_singleton]
    exact ⟨fun v e ht he u0 hu0 => invalOp_acts (by decide) rfl hu ht he hu0, fun v e ht he u0 hu0 => invalOp_acts (by decide) rfl hu ht he hu0,
      fun v e ht he u0 hu0 => invalOp_acts (by decide) rfl hu ht he hu0⟩
  case sync =>
    have hset := hostSet_grnCtl ht (putBits v 30 1 1)
    rw [← he, ← hu] at hset
    have h30 : bitAt e 30 = true := bitAt_of_set v he (by decide)
    have hwrite := hset.trans (grnCtlWrite_eq (htt.trans (by rw [h30]; rfl)))
    exact ⟨fun h => next_settled rfl (hwrite.trans (by rw [h]; rfl)), fun h => next_settled rfl (hwrite.trans (by rw [h]; rfl))⟩
  case enable =>
    have hset := hostSet_grnCtl ht (putBits v 31 1 1)
    rw [← he, ← hu] at hset
    exact next_settled rfl (hset.trans ((grnCtlWrite_eq htt).trans (by rw [bitAt_of_set v he (by decide)]; rfl)))
  case disable =>
    have hset := hostSet_grnCtl ht (putBits v 31 1 0)
    rw [← he, ← hu] at hset
    have hwrite := hset.trans (grnCtlWrite_eq htt)
    rw [bitAt_of_clear v he (by decide), if_neg Bool.false_ne_true, granDisable_enabled (grnSynced_canon hc hu htt) hst] at hwrite
    exact ⟨fun h => next_settled rfl (hwrite.trans (if_neg h)), fun h => next_settled rfl (hwrite.trans (if_pos h))⟩
  case maint =>
    rw [List.forall_mem_cons, List.forall_mem_cons, List.forall_mem_cons, List.forall_mem_singleton]
    exact ⟨fun v e ht he u0 hu0 base len t hb hl htt => maintOp_acts (by decide) rfl hu ht he hu0 hb hl htt,
      fun v e ht he u0 hu0 base len t hb hl htt => maintOp_acts (by decide) rfl hu ht he hu0 hb hl htt,
      fun v e ht he u0 hu0 base len t hb hl htt => maintOp_acts (by decide) rfl hu ht he hu0 hb hl htt,
      fun v e ht he u0 hu0 base len t hb hl htt => maintOp_acts (by decide) rfl hu ht he hu0 hb hl htt⟩
  case srSet =>
    have hset := hostSet_dmcPwr ht (putBits v 31 1 1)
    rw [← he, ← hu] at hset
    have hwrite := hset.trans (dmcPwrWrite_set (bitAt_of_set v he (by decide)) htt)
    exact ⟨fun h => next_settled rfl (hwrite.trans (if_pos h)), fun h => next_settled rfl (hwrite.trans (if_neg (not_not.mpr h)))⟩
  case srClear =>
    have hset := hostSet_dmcPwr ht (putBits v 31 1 0)
    rw [← he, ← hu] at hset
    exact next_settled rfl (hset.trans (dmcPwrWrite_clear (bitAt_of_clear v he (by decide)) htt))

end Sys2Proof.Proofs
end

section
/-! Proofs: what an occurrence does to each counter (20 R595, R605). -/

open Sys2Proof Sys2Proof.Machine

namespace Sys2Proof.Proofs

section Counters
variable {s t : State} {c : Nat} {o : Occ}

/-- Whether an occurrence is accepted depends on no register that counting writes. -/
theorem sckAccepts_congr (hc : c < 65536) (h : ∀ q k, countFree q = true → k < 65536 → t.reg q k = s.reg q k) :
    sckAccepts t c o = sckAccepts s c o := by
  have hin : ∀ i, i < 65536 → sckInRange t i = sckInRange s i := fun i hi => by
    have hbase : t.fld F.sckAddrBase_addr i = s.fld F.sckAddrBase_addr i := by rw [State.fld, h _ _ rfl hi, State.fld]
    have hlimit : t.fld F.sckAddrLimit_addr i = s.fld F.sckAddrLimit_addr i := by rw [State.fld, h _ _ rfl hi, State.fld]
    funext d
    rw [sckInRange, hbase, hlimit, sckInRange]
  have haddr : ∀ f, sckAddr t f o = sckAddr s f o := fun f => by
    simp only [sckAddr, hin 0 (by decide), hin 1 (by decide)]
  simp only [sckAccepts, State.fld, haddr, h .sckEvt c rfl hc, h .sckFilt c rfl hc, h F.sckCtl_class_en.reg 0 rfl (by decide)]

/-- A counter that accepts an occurrence is enabled, so its event register is listed. -/
theorem sckEvt_listed (hc : c < 65536) (ha : sckAccepts s c o = true) : c ∈ (s.regInsts .sckEvt).map Prod.fst := by
  refine regInsts_mem hc ?_ fun h0 => ?_
  · have hne : regKey .sckEvt c ≠ regKey .slcCfg 0 := regKey_ne hc (by decide) (by decide)
    have hdiv : regKey .sckEvt c / 65536 = Reg.sckEvt.ctorIdx := by unfold regKey; omega
    rw [regReset, if_neg hne, hdiv]
    rfl
  · simp [sckAccepts, h0, bitAt] at ha

theorem count_frozen (hf : s.flag F.sckCtl_freeze 0 = true) : s.count o = s := by rw [State.count, if_pos hf]

/-- Counting while the counters are not frozen: a counter's own field and its overflow bit. -/
theorem count_fields (hw : twf regReset s.regs = true) (hc : c < 128) (hf : s.flag F.sckCtl_freeze 0 = false) :
    (s.count o).fld F.sckCnt_count c =
      (if c ∈ (s.regInsts .sckEvt).map Prod.fst ∧ sckAccepts s c o = true then (s.fld F.sckCnt_count c + o.n) % 2 ^ 48
        else s.fld F.sckCnt_count c) ∧
    (s.flag (sckOvf c) 0 = true → (s.count o).flag (sckOvf c) 0 = true) ∧
    (c ∈ (s.regInsts .sckEvt).map Prod.fst → sckAccepts s c o = true → 2 ^ 48 ≤ s.fld F.sckCnt_count c + o.n →
      (s.count o).flag (sckOvf c) 0 = true) := by
  have hlt : ∀ x ∈ (s.regInsts .sckEvt).map Prod.fst, x < 65536 := fun x hx => by
    simp only [State.regInsts, List.mem_map] at hx
    obtain ⟨_, ⟨y, -, rfl⟩, rfl⟩ := hx
    exact Nat.mod_lt _ (by decide)
  rw [State.count, hf, if_neg Bool.false_ne_true]
  exact foldl_count_at (fun t x => sckAccepts t x o) hlt hc (regInsts_nodup hw _) (sckAccepts_congr (by omega)) hw

end Counters

/-- Settles O60: the counters that the fold visits, each once; one that accepts is among them. -/
theorem countersCount : Obligations.CountersCount := by
  rintro s o c ⟨-, hw, -, -⟩ hc
  refine ⟨count_frozen, fun hf ha => ?accepted, fun hf ha => ?refused, fun hov => ?stays, s.count_countsOnly o,
    fun q k hq hk => (State.count_reg hw o hq hk).2⟩
  case accepted =>
    obtain ⟨hcount, -, hwrap⟩ := count_fields (o := o) hw hc hf
    have hmem := sckEvt_listed (by omega) ha
    rw [if_pos ⟨hmem, ha⟩] at hcount
    exact ⟨hcount, hwrap hmem ha⟩
  case refused =>
    obtain ⟨hcount, -, -⟩ := count_fields (o := o) hw hc hf
    rwa [if_neg fun h => Bool.false_ne_true (ha.symm.trans h.2)] at hcount
  case stays =>
    cases hf : s.flag F.sckCtl_freeze 0 with
    | true => simpa only [count_frozen hf] using hov
    | false => exact (count_fields hw hc hf).2.1 hov

end Sys2Proof.Proofs
end

section
/-! Proofs: the host's channel commands and register marks (16 R510, R527, R529, 12 R429, R435). -/

open Sys2Proof Sys2Proof.Machine

namespace Sys2Proof.Proofs

section Channels
variable {s t t1 t2 u : State} {c e : Nat}

theorem sluCtlWrite_eq
    (h1 : t1 = if bitAt e 30 then u.setFlag F.sluChStatus_shadow_armed c false else if bitAt e 31 then armChannel u c else u)
    (h2 : t2 = if bitAt e 29 then stopChannel t1 c else t1) : sluCtlWrite u c e = if bitAt e 28 then resumeChannel t2 c else t2 := by
  rw [h2, h1, sluCtlWrite]

/-- A control write with one of its bits set. -/
theorem channelWrite_acts {i : Instr} {v b : Nat} (hb : b < 32) (hx : exec i s = done (hostSet s .sluChCtl c (putBits v b 1 1)))
    (hts : HostTakes s .sluChCtl c) (hu : u = hostIn s 4) (he : e = putBits v b 1 1 % 2 ^ 32)
    (h1 : t1 = if bitAt e 30 then u.setFlag F.sluChStatus_shadow_armed c false else if bitAt e 31 then armChannel u c else u)
    (h2 : t2 = if bitAt e 29 then stopChannel t1 c else t1) :
    bitAt e b = true ∧ exec i s = .next (settle (if bitAt e 28 then resumeChannel t2 c else t2)) := by
  have hset := hostSet_sluChCtl hts (putBits v b 1 1)
  rw [← he, ← hu] at hset
  exact ⟨bitAt_of_set v he hb, next_settled hx (hset.trans (sluCtlWrite_eq h1 h2))⟩

/-- A channel that no manager holds answers every control with error. -/
theorem channel_unmanaged (hm : t.flag F.sluChCfg_manager c = false) : armChannel t c = t.setFlag F.sluChStatus_error c true ∧
    stopChannel t c = t.setFlag F.sluChStatus_error c true ∧ resumeChannel t c = t.setFlag F.sluChStatus_error c true := by
  simp only [armChannel, stopChannel, resumeChannel, isManager, chanError, hm, Bool.not_false, Bool.true_or, if_true, and_self]

section Managed
variable (hm : t.flag F.sluChCfg_manager c = true)
include hm

theorem armChannel_refused (h : descBad t 0 (shadowDesc t c) = true ∨ 16777216 < t.fld F.sluShdLen_length c) :
    armChannel t c = t.setFlag F.sluChStatus_error c true := by
  rw [armChannel, if_pos]
  · rfl
  · simpa [isManager, hm] using h

theorem armChannel_taken (hd : descBad t 0 (shadowDesc t c) = false) (hl : t.fld F.sluShdLen_length c ≤ 16777216) :
    armChannel t c = if t.fld F.sluChStatus_state c = 0 then startShadow t c else t.setFlag F.sluChStatus_shadow_armed c true := by
  rw [armChannel, if_neg]
  · rfl
  · simpa [isManager, hm, hd] using hl

theorem stopChannel_idle (hst : t.fld F.sluChStatus_state c = 0) : stopChannel t c = t.setFld F.sluChStatus_state c 5 := by
  simp [stopChannel, isManager, chanState, hm, hst]

theorem stopChannel_active (hst : t.fld F.sluChStatus_state c = 1 ∨ t.fld F.sluChStatus_state c = 3) :
    stopChannel t c = t.setFld F.sluChStatus_state c 4 := by
  rcases hst with hst | hst <;> simp [stopChannel, isManager, chanState, hm, hst]

theorem resumeChannel_stopped (hst : t.fld F.sluChStatus_state c = 5 ∨ t.fld F.sluChStatus_state c = 6) :
    resumeChannel t c = if t.flag F.sluChStatus_shadow_armed c then startShadow t c
      else (t.setFld F.sluChStatus_state c 0).setFld F.sluChStatus_source c 0 := by
  rcases hst with hst | hst <;> simp [resumeChannel, isManager, chanState, hm, hst]

end Managed

/-- An armed shadow starts or stays armed by whether its tap's context is free. -/
theorem startShadow_ready (hr : shadowReady t c = true) : startShadow t c = swapShadow t c := by rw [startShadow, if_pos hr]

theorem startShadow_waits (hr : shadowReady t c = false) :
    startShadow t c = (t.setFlag F.sluChStatus_shadow_armed c true).setFld F.sluChStatus_state c 0 := by
  rw [startShadow, hr]; rfl

end Channels

section Marks
variable {u : State} {n v : Nat} {x : TollCtx} {j : Job}

/-- A register mark of 1 to 8 valid bytes for a context whose job is in the table. -/
theorem registerMark_eq (hlo : 1 ≤ v) (hhi : v ≤ 8) (hx : u.ctx n = some x) (hj : x.job.bind (fun y => u.job y.1) = some j) :
    registerMark u n v = if 2 ≤ j.hdr.op % 256 || j.hdr.op / 256 != 4 || dgHold j || (packetMark j).isSome || x.mark.isSome then
        u.setFlag F.tolCtxState_mark_ignored n true
      else if 8 * u.fld F.tolLastWord_last_word n + v < x.pos then u.setFlag F.tolCtxState_mark_late n true
      else u.setCtx n (some { x with mark := some (8 * u.fld F.tolLastWord_last_word n + v) }) := by
  have hmod : v % 16 = v := Nat.mod_eq_of_lt (by omega)
  simp only [registerMark, hmod, if_neg (by omega : ¬ (v = 0 ∨ 8 < v)), hx, hj]

theorem registerMark_ignored (hlo : 1 ≤ v) (hhi : v ≤ 8) (hx : u.ctx n = some x) (hj : x.job.bind (fun y => u.job y.1) = some j)
    (h : (j.hdr.op ≠ 0x0400 ∧ j.hdr.op ≠ 0x0401) ∨ dgHold j = true ∨ (packetMark j).isSome = true ∨ x.mark.isSome = true) :
    registerMark u n v = u.setFlag F.tolCtxState_mark_ignored n true := by
  rw [registerMark_eq hlo hhi hx hj, if_pos]
  simp only [Bool.or_eq_true, decide_eq_true_eq, bne_iff_ne, ne_eq, or_assoc]
  rcases h with h | h
  · have : 2 ≤ j.hdr.op % 256 ∨ j.hdr.op / 256 ≠ 4 := by omega
    exact this.imp_right Or.inl
  · exact .inr (.inr h)

theorem registerMark_taken (hlo : 1 ≤ v) (hhi : v ≤ 8) (hx : u.ctx n = some x) (hj : x.job.bind (fun y => u.job y.1) = some j)
    (hop : j.hdr.op = 0x0400 ∨ j.hdr.op = 0x0401) (hh : dgHold j = false) (hp : packetMark j = none) (hm : x.mark = none) :
    registerMark u n v = if 8 * u.fld F.tolLastWord_last_word n + v < x.pos then u.setFlag F.tolCtxState_mark_late n true
      else u.setCtx n (some { x with mark := some (8 * u.fld F.tolLastWord_last_word n + v) }) := by
  rw [registerMark_eq hlo hhi hx hj, if_neg]
  rcases hop with hop | hop <;> simp [hop, hh, hp, hm]

end Marks

/-- Settles O45: a control write acts in the order of its bits; each control by the channel's state, and a mark by its context. -/
theorem channelCommands : Obligations.ChannelCommands := by
  intro s u hu
  refine ⟨?write, fun t c hm => channel_unmanaged hm, fun t c hm => ⟨armChannel_refused hm, fun hd hl => ?arm, stopChannel_idle hm,
    stopChannel_active hm, fun hst => ?resume⟩, fun n v x j ht hlo hhi hx hj => ?mark⟩
  case write =>
    simp only [List.forall_mem_cons, List.not_mem_nil, false_imp_iff, implies_true, and_true]
    exact ⟨fun c v e t1 t2 ht he h1 h2 => channelWrite_acts (by decide) rfl ht hu he h1 h2,
      fun c v e t1 t2 ht he h1 h2 => channelWrite_acts (by decide) rfl ht hu he h1 h2,
      fun c v e t1 t2 ht he h1 h2 => channelWrite_acts (by decide) rfl ht hu he h1 h2,
      fun c v e t1 t2 ht he h1 h2 => channelWrite_acts (by decide) rfl ht hu he h1 h2⟩
  case arm =>
    have harm := armChannel_taken hm hd hl
    exact ⟨fun h0 hr => harm.trans ((if_pos h0).trans (startShadow_ready hr)), fun h0 hr => harm.trans ((if_pos h0).trans (startShadow_waits hr)),
      fun h0 => harm.trans (if_neg h0)⟩
  case resume =>
    have hres := resumeChannel_stopped hm hst
    exact ⟨fun ha hr => hres.trans ((if_pos ha).trans (startShadow_ready hr)), fun ha hr => hres.trans ((if_pos ha).trans (startShadow_waits hr)),
      fun ha => hres.trans (by rw [ha]; rfl)⟩
  case mark =>
    have hset := hostSet_tolValidBytes ht v
    rw [Nat.mod_eq_of_lt (by omega), ← hu] at hset
    refine ⟨fun h => next_settled rfl (hset.trans (registerMark_ignored hlo hhi hx hj h)), fun hop hh hp hm m hmv => ?_⟩
    have hwrite := hset.trans (registerMark_taken hlo hhi hx hj hop hh hp hm)
    rw [← hmv] at hwrite
    exact ⟨fun h => next_settled rfl (hwrite.trans (if_pos h)), fun h => next_settled rfl (hwrite.trans (if_neg h.not_gt))⟩

end Sys2Proof.Proofs
end

section
/-! Proofs: the host's OTP, key, restore, boot and counter commands (19 R576, R580, R591 to R593, 18 R562, R568, 20 R603 to R611). -/

open Sys2Proof Sys2Proof.Machine

namespace Sys2Proof.Proofs

section Otp
variable {u : State} {e g : Nat}

theorem otpCtlWrite_ignored (h31 : bitAt e 31 = true) (h : bitsAt e 0 8 ≠ 0xA5 ∨ u.flag F.otpStatus_busy 0 = true) : otpCtlWrite u e = u := by
  simp only [otpCtlWrite, h31, Bool.not_true, Bool.false_eq_true, if_false, if_pos h]

theorem otpCtlWrite_starts (h31 : bitAt e 31 = true) (hk : bitsAt e 0 8 = 0xA5) (hb : u.flag F.otpStatus_busy 0 = false) :
    otpCtlWrite u e = otpStart u (bitsAt e 8 6) := by
  simp [otpCtlWrite, h31, hk, hb]

theorem otpStart_programs {n : Nat} (hlist : otpListed g = true)
    (hlock : ((otpValid u g).isSome && bitAt (otpWord u g ((otpValid u g).getD 0)) 63) = false) (hnext : otpNext u g = some n) :
    otpStart u g = { (u.setFld F.otpProgCtl_group 0 g).setFlag F.otpStatus_busy 0 true with
      otpOp := some ⟨g, n, otpMake g n (u.fld F.otpProgValue_lock 0) (u.fld F.otpProgValue_value 0)⟩ } := by
  simp only [otpStart, hlist, hlock, hnext, Bool.not_true, Bool.false_eq_true, if_false]

end Otp

section Keys
variable {s u t : State} {e k n usage len : Nat}

/-- Why R580 refuses a key operation. -/
def keyOpBad (t : State) (op n usage len : Nat) : Bool :=
  t.flag F.brkStatus_keys_erased 0 || (if op = 3 then (t.slot n).usage != 2 else slotServes t n) || (decide (op < 2) && !usageOk usage len)

/-- What an accepted key operation makes of the slot. -/
def keyOpMade (t : State) (op n usage len : Nat) : State := match op with
  | 0 => keyStart (randomBytes t len).2 n (if usage = 2 then ⟨2, (t.slot n).owner, (t.slot n).grant, (randomBytes t len).1⟩
      else ⟨usage, 0, false, (randomBytes t len).1⟩)
  | 1 => keyStart t n (if usage = 2 then ⟨2, (t.slot n).owner, (t.slot n).grant, (keyData t).take len⟩
      else ⟨usage, 0, false, (keyData t).take len⟩)
  | 2 => keyStart t n KeySlot.empty
  | _ => keyStart t n { t.slot n with owner := t.fld F.brkKeyCfg_owner n, grant := t.flag F.brkKeyCfg_grant_en n } false

/-- The four key operations, by whether R580 refuses them. -/
def keyOpEffect (t : State) (op n usage len : Nat) : State :=
  if keyOpBad t op n usage len then keyRefused t else keyOpMade t op n usage len

theorem slot_fill (x : KeySlot) (usage : Nat) (b : List Byte) :
    x.fill usage b = if usage = 2 then ⟨2, x.owner, x.grant, b⟩ else ⟨usage, 0, false, b⟩ := rfl

section Operations
variable (hn : n = t.fld F.brkKeySel_slot 0) (hu : usage = t.fld F.brkKeyCfg_usage n) (hl : len = t.fld F.brkKeyCfg_length n)
include hn hu hl

theorem keyGenerate_eq : keyGenerate t = keyOpEffect t 0 n usage len := by
  subst hl hu hn
  simp only [keyGenerate, keyOpEffect, keyOpBad, keyOpMade, slot_fill]
  simp [Bool.or_comm, Bool.or_assoc]

theorem keyImport_eq : keyImport t = keyOpEffect t 1 n usage len := by
  subst hl hu hn
  simp only [keyImport, keyOpEffect, keyOpBad, keyOpMade, slot_fill]
  simp [Bool.or_comm, Bool.or_assoc]

theorem keyClear_eq : keyClear t = keyOpEffect t 2 n usage len := by
  subst hl hu hn
  simp [keyClear, keyOpEffect, keyOpBad, keyOpMade, Bool.or_comm]

theorem keyGrant_eq : keyGrant t = keyOpEffect t 3 n usage len := by
  subst hl hu hn
  simp [keyGrant, keyOpEffect, keyOpBad, keyOpMade, or_comm]

end Operations

/-- The operation that a go write of the key control starts. -/
def keyOpRun (t : State) : Nat → State
  | 0 => keyGenerate t
  | 1 => keyImport t
  | 2 => keyClear t
  | 3 => keyGrant t
  | _ => keyRefused t

/-- A go write of the key control while no operation is in progress. -/
theorem keyCtlWrite_go (hgo : bitAt e 31 = true) (hop : bitsAt e 24 3 = k) (hb : u.flag F.brkKeyCtl_busy 0 = false)
    (ht : t = (if bitAt e 30 then u.setFlag F.brkKeyCtl_error 0 false else u).setFld F.brkKeyCtl_op 0 k) :
    keyCtlWrite u e = keyOpRun t k := by
  subst hop
  rw [keyCtlWrite, hgo, hb, ← ht]
  rfl

/-- The four key commands, by the op that they write. -/
theorem keyOp_acts {c : Instr} {v : Nat} (hk : k < 4) (hx : exec c s = done (hostSet s .brkKeyCtl 0 (putBits (putBits v 31 1 1) 24 3 k)))
    (hu : u = hostIn s 4) (hts : HostTakes s .brkKeyCtl 0) (he : e = putBits (putBits v 31 1 1) 24 3 k % 2 ^ 32)
    (hb : u.flag F.brkKeyCtl_busy 0 = false)
    (ht : t = (if bitAt e 30 then u.setFlag F.brkKeyCtl_error 0 false else u).setFld F.brkKeyCtl_op 0 k)
    (hn : n = t.fld F.brkKeySel_slot 0) (hus : usage = t.fld F.brkKeyCfg_usage n) (hl : len = t.fld F.brkKeyCfg_length n)
    {bad : Bool} (hbad : bad = keyOpBad t k n usage len) :
    (bad = true → exec c s = .next (settle (zeroKeyData (t.setFlag F.brkKeyCtl_error 0 true)))) ∧
    (bad = false → exec c s = .next (settle (keyOpMade t k n usage len))) := by
  have hset := hostSet_brkKeyCtl hts (putBits (putBits v 31 1 1) 24 3 k)
  rw [← he, ← hu] at hset
  have hgo : bitAt e 31 = true := by
    rw [he, bitAt_mod _ (by decide), bitAt_putBits_other _ (by decide), bitAt_putBits_same]; rfl
  have hop : bitsAt e 24 3 = k := by rw [he, bitsAt_mod _ (by decide), bitsAt_putBits, Nat.mod_eq_of_lt (by omega)]
  have hrun : keyOpRun t k = keyOpEffect t k n usage len := by
    interval_cases k
    · exact keyGenerate_eq hn hus hl
    · exact keyImport_eq hn hus hl
    · exact keyClear_eq hn hus hl
    · exact keyGrant_eq hn hus hl
  have hwrite := (hset.trans (keyCtlWrite_go hgo hop hb ht)).trans hrun
  rw [keyOpEffect, ← hbad] at hwrite
  exact ⟨fun h => next_settled hx (hwrite.trans (if_pos h)), fun h => next_settled hx (hwrite.trans (by rw [h]; rfl))⟩

end Keys

section Restore
variable {s u t t1 : State} {e : Nat}

theorem restoreCtlWrite_eq (hb : u.flag F.brkRestoreCtl_busy 0 = false)
    (ht : t = if bitAt e 28 then u.setFlag F.brkRestoreCtl_error 0 false else u) (ht1 : t1 = if bitAt e 31 then restoreChallenge t else t) :
    restoreCtlWrite u e = if bitAt e 30 then restoreVerify t1 else t1 := by
  simp only [restoreCtlWrite, hb, Bool.false_eq_true, if_false, ← ht, ← ht1]

/-- The challenge and the verification, by the bit that they write. -/
theorem restoreWrite_acts {c : Instr} {v b : Nat} (hb : b < 32) (hx : exec c s = done (hostSet s .brkRestoreCtl 0 (putBits v b 1 1)))
    (hu : u = hostIn s 4) (hts : HostTakes s .brkRestoreCtl 0) (he : e = putBits v b 1 1 % 2 ^ 32)
    (hbusy : u.flag F.brkRestoreCtl_busy 0 = false)
    (ht : t = if bitAt e 28 then u.setFlag F.brkRestoreCtl_error 0 false else u) (ht1 : t1 = if bitAt e 31 then restoreChallenge t else t) :
    bitAt e b = true ∧ exec c s = .next (settle (if bitAt e 30 then restoreVerify t1 else t1)) := by
  have hset := hostSet_brkRestoreCtl hts (putBits v b 1 1)
  rw [← he, ← hu] at hset
  exact ⟨bitAt_of_set v he hb, next_settled hx (hset.trans (restoreCtlWrite_eq hbusy ht ht1))⟩

end Restore

/-- Settles O46: each write by the bits that it forces, the four key operations and the two restore commands each by one lemma. -/
theorem securityCommands : Obligations.SecurityCommands := by
  intro s u w hu hw
  refine ⟨fun v e g ht he hg => ?otp, ?keys, ?restore, fun t h => ?refused, fun t h => ?challenge, fun v k ht hk => ?data, fun v ht => ?clear,
    fun v ht hon hpf => ?trigger⟩
  case otp =>
    have hset := hostSet_otpProgCtl ht (putBits v 31 1 1)
    rw [← he, ← hu] at hset
    have h31 : bitAt e 31 = true := bitAt_of_set v he (by decide)
    refine ⟨fun h => next_settled rfl (hset.trans (otpCtlWrite_ignored h31 h)), fun n hk hb hlist hlock hnext => ?_⟩
    refine next_settled rfl ((hset.trans (otpCtlWrite_starts h31 hk hb)).trans ?_)
    rw [← hg]
    exact otpStart_programs hlist hlock hnext
  case keys =>
    rw [List.forall_mem_cons, List.forall_mem_cons, List.forall_mem_cons, List.forall_mem_singleton]
    exact ⟨fun v e t n usage len ht he hb htt hn hus hl bad hbad =>
        keyOp_acts (c := .generateKey v) (k := 0) (by decide) rfl hu ht he hb htt hn hus hl hbad,
      fun v e t n usage len ht he hb htt hn hus hl bad hbad =>
        keyOp_acts (c := .importKey v) (k := 1) (by decide) rfl hu ht he hb htt hn hus hl hbad,
      fun v e t n usage len ht he hb htt hn hus hl bad hbad =>
        keyOp_acts (c := .clearKey v) (k := 2) (by decide) rfl hu ht he hb htt hn hus hl hbad,
      fun v e t n usage len ht he hb htt hn hus hl bad hbad =>
        keyOp_acts (c := .grantKey v) (k := 3) (by decide) rfl hu ht he hb htt hn hus hl hbad⟩
  case restore =>
    rw [List.forall_mem_cons, List.forall_mem_singleton]
    exact ⟨fun v e t t1 ht he hb htt ht1 => restoreWrite_acts (by decide) rfl hu ht he hb htt ht1,
      fun v e t t1 ht he hb htt ht1 => restoreWrite_acts (by decide) rfl hu ht he hb htt ht1⟩
  case refused => rw [restoreChallenge, h]; rfl
  case challenge => rw [restoreChallenge, h]; rfl
  case data =>
    have hset := hostSet_brkRestoreData ht v
    rw [← hw, restoreData, ← hk] at hset
    exact ⟨fun h => next_settled rfl (hset.trans (if_neg h.not_ge)), fun h => next_settled rfl (hset.trans (if_pos h))⟩
  case clear => exact next_settled rfl ((hostSet_bootClear ht v).trans (by rw [← hu, clearSteps]))
  case trigger =>
    have hset := hostSet_bootDump ht (putBits v 63 1 1)
    rw [← hw, bootDumpWrite, bitAt_set v (by decide), if_pos rfl, fatalError, hon, hpf] at hset
    exact next_settled rfl hset

section Counters
variable {u : State} {e c v : Nat}

theorem sckCtlWrite_eq : sckCtlWrite u e = (if bitAt e 30 then ((u.resetRegs (· == .sckCnt)).setReg .sckOvf0 0 0).setReg .sckOvf1 0 0 else u).setReg
    .sckCtl 0 (e &&& 0xA000FFFF) := rfl

/-- A write of the counters' control with a bit forced. -/
theorem sckCtl_acts {s : State} {i : Instr} {k b : Nat} (hk : k < 32) (hx : exec i s = done (hostSet s .sckCtl 0 (putBits v k 1 b)))
    (hb : b < 2) (hu : u = hostIn s 4) (hts : HostTakes s .sckCtl 0) (he : e = putBits v k 1 b % 2 ^ 32) :
    bitAt e k = (b == 1) ∧
    (bitAt e 30 = true → exec i s = .next (settle ((((u.resetRegs (· == .sckCnt)).setReg .sckOvf0 0 0).setReg .sckOvf1 0 0).setReg
      .sckCtl 0 (e &&& 0xA000FFFF)))) ∧
    (bitAt e 30 = false → exec i s = .next (settle (u.setReg .sckCtl 0 (e &&& 0xA000FFFF)))) := by
  have hset := hostSet_sckCtl hts (putBits v k 1 b)
  rw [← he, ← hu, sckCtlWrite_eq] at hset
  refine ⟨?_, fun h => next_settled hx (by rw [hset, h, if_pos rfl]), fun h => next_settled hx (by rw [hset, h, if_neg Bool.false_ne_true])⟩
  rw [he, bitAt_mod _ hk, bitAt_putBits_same, Nat.mod_eq_of_lt hb]

theorem bwCfgWrite_window {m : Nat} (hm : bitsAt e 0 20 = m) (hlo : 1 ≤ m) (hhi : m ≤ 1000000) {t : State}
    (ht : t = (u.setFld F.sckBwCfg_window_us 0 m).resetRegs (· == .sckBwPeak)) :
    bwCfgWrite u e = { t with bw := { t.bw with bytes := [], start := (u.cycle + 1599) / 1600, seq := 0 } } := by
  subst hm ht
  simp only [bwCfgWrite, if_neg (by omega : ¬ (bitsAt e 0 20 = 0 ∨ 1000000 < bitsAt e 0 20)), zeroPeaks]

theorem bwCfgWrite_ignored {m : Nat} (hm : bitsAt e 0 20 = m) (h : m = 0 ∨ 1000000 < m) : bwCfgWrite u e = u := by
  subst hm
  simp only [bwCfgWrite, if_pos h]

end Counters

/-- Settles O47: each write of the counters' registers. -/
theorem counterCommands : Obligations.CounterCommands := by
  intro s u w hu hw
  refine ⟨?ctl, fun c v ht => ?cnt, fun v m ht hm => ?window, fun v ht => ?peak⟩
  case ctl =>
    rw [List.forall_mem_cons, List.forall_mem_cons, List.forall_mem_singleton]
    exact ⟨fun v e ht he => sckCtl_acts (by decide) rfl (by decide) hu ht he, fun v e ht he => sckCtl_acts (by decide) rfl (by decide) hu ht he,
      fun v e ht he => sckCtl_acts (by decide) rfl (by decide) hu ht he⟩
  case cnt => exact next_settled rfl ((hostSet_sckCnt ht v).trans (by rw [← hw, sckCntWrite]))
  case window =>
    have hset := hostSet_sckBwCfg ht v
    rw [← hu] at hset
    have hbits : bitsAt (v % 2 ^ 32) 0 20 = m := by rw [bitsAt_mod _ (by decide), ← mod_eq_bitsAt, hm]
    exact ⟨fun hlo hhi t htt => next_settled rfl (hset.trans (bwCfgWrite_window hbits hlo hhi htt)),
      fun h => next_settled rfl (hset.trans (bwCfgWrite_ignored hbits h))⟩
  case peak =>
    have hset := hostSet_sckBwCtl ht (putBits v 31 1 1)
    rw [← hu, bwCtlWrite, bitAt_set v (by decide), if_pos rfl] at hset
    exact next_settled rfl hset

end Sys2Proof.Proofs
end

section
/-! Proofs: the host's plain accesses (00 R14, R15, 17 R538, 18 R561, 21 R615, R623) and the Weir's events (02 R69, R72, 03 R87 to R97,
04 R117, R118). -/

open Sys2Proof Sys2Proof.Machine

namespace Sys2Proof.Proofs

section Accesses
variable {s t : State}

theorem natLE_length : ∀ n v, (natLE n v).length = n
  | 0, _ => rfl
  | n + 1, v => congrArg (· + 1) (natLE_length n (v / 256))

/-- An unmasked vector sends its held message unless the function is masked. -/
theorem msixUnmask_eq (v : Nat)
    (ht : t = s.setVector v { s.vector v with masked := false, pending := (s.vector v).pending && s.msix.funcMask }) :
    msixUnmask s v = if (s.vector v).pending && !s.msix.funcMask then msixSend t v else t := by rw [ht, msixUnmask]

theorem hostUnmask_served {v : Nat} (hs : served s false 0xF00000 = true) (hv : v < 2048) : hostUnmask s v = msixUnmask (hostIn s 4) v := by
  simp only [hostUnmask, hs, Bool.not_true, Bool.false_or, decide_eq_true_eq, if_neg hv.not_ge]

section Bar4
variable {a : BarAccess} {b : List Byte} (hon : s.boot.on = true) (h : a.off + barBytes a ≤ 2 ^ s.bar4)
include hon h

/-- An access within the BAR of a device that is on is made. -/
theorem bar4_made : (!s.boot.on || decide (2 ^ s.bar4 < a.off + barBytes a)) = false := by
  rw [hon, decide_eq_false h.not_gt]; rfl

theorem bar4Access_write (hw : a.write = some b) (hr : s.flag F.bootStatus_ready 0 = true) : bar4Access s a = bar4Write s a.off b := by
  simp [bar4Access, bar4_made hon h, hw, hr]

theorem bar4Access_read (hw : a.write = none) (hr : s.flag F.bootStatus_ready 0 = true) (hb : bar4Read s a.off a.size = (b, t)) :
    bar4Access s a = { hostOut t a.size with answers := { t.answers with host := b } } := by
  simp [bar4Access, bar4_made hon h, hw, hr, hb, answerHost]

theorem bar4Access_early (hw : a.write = none) (hr : s.flag F.bootStatus_ready 0 = false) :
    bar4Access s a = { hostOut s a.size with answers := { s.answers with host := zeros a.size } } := by
  simp [bar4Access, bar4_made hon h, hw, hr, answerHost]

end Bar4

theorem bar4Resize_size {n : Nat} (hon : s.boot.on = true) (hlo : 30 ≤ n) (hhi : n ≤ 41) : bar4Resize s n = { s with bar4 := n } := by
  simp only [bar4Resize, hon, hlo, hhi, and_self, decide_true, Bool.and_self, if_true]

theorem hostReadReg_answers {a : RegRead} (hon : s.boot.on = true) {b : List Byte} (hb : busRead false a.bar2 s a.off a.size = (b, t)) :
    hostReadReg s a = { hostOut t a.size with answers := { t.answers with host := b } } := by
  simp only [hostReadReg, hon, Bool.not_true, Bool.false_eq_true, if_false, hb]

/-- A served, aligned write outside the vector table. -/
theorem busWrite_slot {bar2 : Bool} {off : Nat} {b : List Byte} (hsize : b.length = 4 ∨ b.length = 8) (hal : off % b.length = 0)
    (hs : served s bar2 off = true) (hout : bar2 = true ∨ off < 0xF00000 ∨ 0xF08000 ≤ off) :
    busWrite false bar2 s off b = slotWrite bar2 s off b := by
  have hfit : (!(b.length == 4 || b.length == 8) || off % b.length != 0 || !served s bar2 off) = false := by
    rcases hsize with h | h <;> simp [h] at hal <;> simp [h, hal, hs]
  have htable : (!bar2 && decide (0xF00000 ≤ off ∧ off < 0xF08000)) = false := by
    rcases hout with rfl | h
    · rfl
    · rw [Bool.and_eq_false_iff, decide_eq_false_iff_not]; omega
  simp only [busWrite, hfit, htable, Bool.false_eq_true, if_false]

theorem hostWriteReg_slot {a : RegWrite} (hon : s.boot.on = true) (hsize : a.size = 4 ∨ a.size = 8) (hal : a.off % a.size = 0)
    (hs : served (hostIn s a.size) a.bar2 a.off = true) (hout : a.bar2 = true ∨ a.off < 0xF00000 ∨ 0xF08000 ≤ a.off) :
    hostWriteReg s a = slotWrite a.bar2 (hostIn s a.size) a.off (natLE a.size a.value) := by
  have hl := natLE_length a.size a.value
  rw [hostWriteReg, hon]
  exact busWrite_slot (by rw [hl]; exact hsize) (by rw [hl]; exact hal) hs hout

end Accesses

/-- Settles O48: each access by the device's state and the access's place. -/
theorem hostAccesses : Obligations.HostAccesses := by
  intro s hon
  refine ⟨fun v u hs hv hu t ht => ?unmask, fun a ha => ⟨fun b hw hr => next_settled rfl (bar4Access_write hon ha hw hr),
    fun b t hw hr hb => next_settled rfl (bar4Access_read hon ha hw hr hb), fun hw hr => next_settled rfl (bar4Access_early hon ha hw hr)⟩,
    fun n hlo hhi => next_settled rfl (bar4Resize_size hon hlo hhi), fun a b t hb => next_settled rfl (hostReadReg_answers hon hb),
    fun a hsize hal hs hout => next_settled rfl (hostWriteReg_slot hon hsize hal hs hout)⟩
  case unmask =>
    have heq := hostUnmask_served hs hv
    rw [← hu, msixUnmask_eq v ht] at heq
    refine ⟨fun hp hm => next_settled rfl (heq.trans (by rw [hp, hm]; rfl)), fun h => next_settled rfl (heq.trans (if_neg ?_))⟩
    rcases h with h | h <;> simp [h]

section Weir
variable {s s1 t : State} {gq : Nat}

/-- What a poll makes of the slot at TAIL. -/
theorem poll_reads (hen : s.flag F.wqCfg_enable gq = true) (hp : s.flag F.wqCfg_poll gq = true) (hrun : sliceStopped s (gq / 8) = false)
    (hst : (s.queue gq).stale = false ∨ s.fld F.wqCfg_poll_interval gq ≠ 0) {b : List Byte}
    (hr : (readMem { ringReq gq with agent := .weir } (slotAddr s gq (s.tailOf gq)) 8).exec s = (.ok b, s1)) :
    poll s gq = if bitsAt (leNat b) 23 1 = phaseOf (s.tailOf gq) (depthLog s gq) then
        (timerStop ((hostSync (s1.setReg .wqDoorbell gq ((s.tailOf gq + 1) % 2 ^ 32))).setQueue gq (fun q =>
          { q with stale := false, polled := q.polled ++ [(s.tailOf gq, b)] })) gq).count ⟨0x107, 1, some (gq / 8), none, none⟩
      else timerCheck ((s1.setQueue gq (fun q => { q with stale := true })).count ⟨0x106, 1, some (gq / 8), none, none⟩) gq := by
  have hstale : ((s.queue gq).stale && s.fld F.wqCfg_poll_interval gq == 0) = false := by
    rcases hst with h | h <;> simp [h]
  simp only [poll, hen, hp, hrun, hstale, hr, Bool.not_true, Bool.or_self, Bool.false_eq_true, if_false]

/-- A pass that runs visits the queues left of it. -/
theorem weirPass_visits (hh : s.halted = false) (hhold : s.flag F.weirCtl_hold 0 = false)
    (hroom : s.fld F.fanStatus_jobs 0 + (s.issued.filter (fun r => eFirst r.data)).length < 8192)
    (hany : (knownQueues s).any (eligibleButCredit s) = true) {any : Bool}
    (hv : (passRest s).1.foldl visit (passStop s none, (passRest s).2) = (t, any)) :
    weirPass s = if any || t.fan.passAt.isSome then t else roundEnd t := by
  have hfull : tableFull s = false := decide_eq_false hroom.not_ge
  have hruns : passRuns s = true := by simp only [passRuns, hh, hhold, hfull, hany, Bool.not_false, Bool.and_self]
  simp only [weirPass, hruns, Bool.not_true, Bool.false_eq_true, if_false, hv]

section Entry
variable {rd : RingRead} {rest : List RingRead} {x : EntryCtx} (his : s.issued = rd :: rest)
  (ht : t = queueFlags { s with issued := rest } rd.gq) (hgen : rd.gen = s.fld F.slcGen_generation (rd.gq / 8))
  (hst : s.fld F.slcCfg_state (rd.gq / 8) ≠ 3) (hrun : sliceStopped s (rd.gq / 8) = false)
include his ht hgen hst hrun

theorem fetchEntry_fault {code : Nat} (hf : rd.fault = some code) :
    fetchEntry s = haltSlice t (rd.gq / 8) (rd.gq % 8) rd.index 1 code 0 := by
  simp [fetchEntry, entryFetch, his, ← ht, ← hgen, hst, hrun, hf]

theorem fetchEntry_malformed (hf : rd.fault = none) (hx : x = entryCtx t rd) {reason : Reason}
    (hr : entryReason operandForm t x = some reason) : fetchEntry s = malformed t x reason := by
  subst hx
  simp [fetchEntry, entryFetch, his, ← ht, ← hgen, hst, hrun, hf, hr]

theorem fetchEntry_follows (hf : rd.fault = none) (hx : x = entryCtx t rd) (hr : entryReason operandForm t x = none)
    (h1 : eFirst x.e = false) {c : Chain} (hc : x.chain = some c) :
    fetchEntry s = timerCheck (drainChain (firstFetched (follow t x c) x) rd.gq) rd.gq := by
  subst hx
  simp [fetchEntry, entryFetch, his, ← ht, ← hgen, hst, hrun, hf, hr, h1, hc]

theorem fetchEntry_hands (hf : rd.fault = none) (hx : x = entryCtx t rd) (hr : entryReason operandForm t x = none)
    (h1 : eFirst x.e = true ∨ x.chain = none) :
    fetchEntry s = timerCheck (drainChain (firstFetched (handover t x notBeforeOf) x) rd.gq) rd.gq := by
  subst hx
  cases he : eFirst (entryCtx t rd).e with
  | true => simp [fetchEntry, entryFetch, his, ← ht, ← hgen, hst, hrun, hf, hr, he]
  | false =>
    have hc : (entryCtx t rd).chain = none := h1.resolve_left (by simp [he])
    simp [fetchEntry, entryFetch, his, ← ht, ← hgen, hst, hrun, hf, hr, he, hc]

end Entry

/-- The timer of an open chain, first on its list, at the time that it is due. -/
theorem chainTimeout_at {t0 : Nat} (htm : (s.queue gq).timer = some t0) (hfirst : s.fan.timers.head?.any (· != gq) = false)
    (ht : t = clockTo s ((s.cycle / 1600 + (t0 + s.fld F.wqChainTimeout_ticks 0 - s.reg .fanTick 0)) * 1600)) :
    chainTimeout s gq = if timerDue t gq then chainFail t gq else timerStop t gq := by
  simp only [chainTimeout, htm, hfirst, Bool.false_eq_true, if_false, ← ht]

theorem chainFail_open {c : Chain} (hc : (t.queue gq).chain = some c) :
    chainFail t gq = (failJob (closeChain t gq) c.job ⟨0x90, 0, c.count⟩).count ⟨0x109, 1, some (gq / 8), none, none⟩ := by
  simp only [chainFail, hc]

end Weir

/-- Settles O49: each event by what the Weir finds. -/
theorem fetchEvents : Obligations.FetchEvents := by
  intro s
  refine ⟨fun gq i b s1 hen hp hrun hst hi hr => ?poll, fun hh hhold hroom hany qs a0 t any hqs hv => ?pass,
    fun rd rest t his ht hgen hst hrun => ?entry, fun gq t0 t htm hfirst ht => ?timer⟩
  case poll =>
    subst hi
    have hpoll := poll_reads hen hp hrun hst hr
    constructor
    · intro h
      rw [if_pos h] at hpoll
      exact next_settled rfl hpoll
    · intro h
      rw [if_neg h] at hpoll
      exact next_settled rfl hpoll
  case pass =>
    have hrest : passRest s = (qs, a0) := hqs.symm
    exact next_settled rfl (weirPass_visits hh hhold hroom hany (by rw [hrest]; exact hv))
  case entry =>
    exact ⟨fun code hf => next_settled rfl (fetchEntry_fault his ht hgen hst hrun hf), fun x hf hx =>
      ⟨fun reason hr => next_settled rfl (fetchEntry_malformed his ht hgen hst hrun hf hx hr),
       fun c hr h1 hc => next_settled rfl (fetchEntry_follows his ht hgen hst hrun hf hx hr h1 hc),
       fun hr h1 => next_settled rfl (fetchEntry_hands his ht hgen hst hrun hf hx hr h1)⟩⟩
  case timer =>
    have heq := chainTimeout_at htm hfirst ht
    exact ⟨fun c hd hc => next_settled rfl ((heq.trans (if_pos hd)).trans (chainFail_open hc)),
      fun hd => next_settled rfl (heq.trans (by rw [hd]; rfl))⟩

end Sys2Proof.Proofs
end

section
/-! Proofs: tasks are created, readied, dispatched and stolen (04 R125, R127, R130, R133 to R135, R142, R143, 05 R162). -/

open Sys2Proof Sys2Proof.Machine

namespace Sys2Proof.Proofs

section Creation
variable {s s1 : State} {j : Job}

/-- A task of no producers is created waiting. -/
theorem createTask_free (hn : nextCreate s = some j) (hroom : s.fld F.fanStatus_tasks 0 < 32768) (hp : producersOf j j.created = []) {t : Task}
    (ht : t = { job := j.id, part := j.created, engine := engineOf j.hdr.op, state := .waiting, producers := [], counter := none, seq := 0,
                home := 0, interactive := jobInteractive s j, prio := j.hdr.prio, stop := false }) :
    createTask s producersOf = fanCounts (({ s with fan := { s.fan with tasks := s.fan.tasks ++ [t] } }.setJob j.id (fun j =>
      { j with created := j.created + 1 })).count ⟨0x200, 1, some j.slice, none, none⟩) := by
  subst ht
  simp [createTask, hn, hp, hroom.not_ge]

theorem taskCreate_plain (hn : nextCreate s = some j) (hpipe : j.pipe = none) : taskCreate s = createTask s producersOf := by
  simp [taskCreate, hn, hpipe]

/-- A pipeline job's next task is created once its partition's entry is read. -/
theorem taskCreate_pipe {pj : PipeJob} (hn : nextCreate s = some j) (hpipe : j.pipe = some pj) (hroom : s.fld F.fanStatus_tasks 0 < 32768)
    {p : Except Err Part} (hr : (readPart j pj j.created).exec s = (p, s1)) : taskCreate s = match p with
      | .error e => failJob s1 j.id e.toOutc
      | .ok p => createTask (s1.setJob j.id (fun j => { j with pipe := j.pipe.map (fun pj => { pj with
          parts := pj.parts.take j.created ++ [p] }) })) producersOf := by
  simp only [taskCreate, hn, hpipe, if_neg hroom.not_ge, hr]
  cases p <;> rfl

end Creation

section Ready
variable {s s2 s4 : State} {job part home : Nat} {j : Job} {t : Task}

/-- A task that waits for nothing, of a running slice and of a job that reads no projection, becomes ready at its home mill. -/
theorem taskReady_becomes (hj : s.job job = some j) (ht : s.task job part = some t) (hst : t.state = .waiting) (hp : t.producers = [])
    (hstop : t.stop = false) (hps : projStops s j = false) (hph : projHeld s j = false) (hrun : s.fld F.slcCfg_state j.slice = 1)
    (hpipe : j.pipe = none) (hm : homeMill s j (taskInput j part) = (home, s2)) : taskReady s job part = becomeReady s2 j t job part home := by
  have hreread : (rereadRows s j job part).exec s = (.ok (), s) := by simp only [rereadRows, hpipe]; rfl
  simp [taskReady, hj, ht, hst, hp, hstop, hps, hph, hrun, hreread, hm]

/-- The state in which a ready task stands before it joins a list. -/
def readied (s : State) (j : Job) (job part home : Nat) : State :=
  (fanCounts (s.setTask job part (fun t => { t with
    home := home, seq := s.cycle, interactive := jobInteractive s j, prio := j.hdr.prio, counter := none,
    tapWait := (tapAsk j part).isSome, state := .affinity (s.cycle + s.fld F.fanAffinity_window 0) }))).count
      ⟨0x201, 1, some j.slice, none, none⟩

theorem becomeReady_list (hf : j.hdr.flow = none) :
    becomeReady s j t job part home = enterList (readied s j job part home) job part (t.counter.getD 0) := by
  have hlast : lastStone s j = none := by rw [lastStone, hf]; rfl
  simp only [becomeReady, hlast, readied]

theorem becomeReady_window {f : Nat} (hf : j.hdr.flow = some f) (he : t.engine = .stone) (hv : s.flag F.fanFlowCfg_last_valid f = true)
    (hw : 0 < s.fld F.fanAffinity_window 0) : becomeReady s j t job part home = readied s j job part home := by
  simp [becomeReady, lastStone, hf, hv, he, hw, readied]

end Ready

section Dispatch
variable {s : State} {j : Job} {t : Task} {stone unit job part : Nat}

theorem delayOut_leaves {id d tick : Nat} (hj : s.job id = some j) (hd : j.delay = some (d, tick))
    (hfirst : ∀ k ∈ s.fan.jobs, delayBefore k j = false) :
    delayOut s id = leaveDelay (clockTo s ((s.cycle / 1600 + (tick - s.reg .fanTick 0)) * 1600)) id := by
  have hany : s.fan.jobs.any (fun k => delayBefore k j) = false := List.any_eq_false.mpr fun k hk => by simp [hfirst k hk]
  simp only [delayOut, hj, hd, hany, Bool.false_eq_true, if_false]

theorem dispatchStone_takes (hi : stoneIdle s stone = true) (hc : stoneClaimed s stone = false) (hh : s.halted = false)
    (ht : topTask (readyList s .stone (stone / 8)) = some t) (hj : s.job t.job = some j) :
    dispatchStone s stone = startIdle (dispatched s stone j t 4 (stone / 8) 0x203) stone j t := by
  simp [dispatchStone, hi, hc, hh, ht, hj]

theorem dispatchEngine_quern (hu : unit < 16) (hi : s.quern unit = none) (hh : s.halted = false)
    (ht : topTask ((readyList s .quern unit).filter (engineGrantable s .quern)) = some t) (htap : t.tapWait = false) (hj : s.job t.job = some j) :
    dispatchEngine s .quern unit = quernDispatch (s.setTask t.job t.part (fun t => { t with state := .placed unit })) j t.part unit := by
  simp [dispatchEngine, hu, hi, hh, ht, htap, hj]

theorem dispatchAffinity_takes {cyc f : Nat} (hj : s.job job = some j) (ht : s.task job part = some t) (hst : t.state = .affinity cyc)
    (hc : s.cycle ≤ cyc) (hstop : t.stop = false) (hf : j.hdr.flow = some f) (hs : stone = s.fld F.fanFlowCfg_last_stone f)
    (hv : s.flag F.fanFlowCfg_last_valid f = true) (hi : stoneIdle s stone = true) (hh : s.halted = false) :
    dispatchAffinity s job part = startIdle (dispatched s stone j t 3 t.home 0x202) stone j t := by
  subst hs
  simp [dispatchAffinity, hj, ht, hst, hf, hv, hi, hh, hstop, hc.not_gt]

theorem affinityEnd_eq {cyc : Nat} {s1 : State} (ht : s.task job part = some t) (hst : t.state = .affinity cyc)
    (h1 : s1 = dispatchAffinity (clockTo s cyc) job part) :
    (∀ u c, s1.task job part = some u → u.state = .affinity c → affinityEnd s job part = enterList s1 job part 0) ∧
    ((∀ u c, s1.task job part = some u → u.state ≠ .affinity c) → affinityEnd s job part = s1) := by
  subst h1
  simp only [affinityEnd, ht, hst]
  constructor
  · rintro ⟨ujob, upart, uengine, ustate, _⟩ c hu hc
    dsimp only at hc
    subst hc
    simp only [hu]
  · intro hno
    split
    · next hu => exact absurd rfl (hno _ _ hu)
    · rfl

theorem steal_takes {n m : Nat} (hn : stealThreshold s = some n) (hi : stoneIdle s stone = true) (hc : stoneClaimed s stone = false)
    (hh : s.halted = false) (he : readyList s .stone (stone / 8) = [])
    (hm : (millOrder (stone / 8)).find? (fun m => decide (n < (readyList s .stone m).length)) = some m)
    (ht : tailTask (readyList s .stone m) = some t) (hj : s.job t.job = some j) :
    steal s stone = startIdle (dispatched s stone j t 5 m 0x204) stone j t := by
  simp [steal, hn, hi, hc, hh, he, hm, ht, hj]

end Dispatch

/-- Settles O50: each event by the task that it takes. -/
theorem dispatchEvents : Obligations.DispatchEvents := by
  intro s
  refine ⟨fun j hn hpipe hroom hp t ht => ?create, fun j pj p s1 hn hpipe hroom hr => ?createPipe,
    fun job part j t home s2 hj ht hst hp hstop hps hph hrun hpipe hm s4 h4 => ?ready,
    fun id j d tick hj hd hfirst => next_settled rfl (delayOut_leaves hj hd hfirst),
    fun stone t j hi hc hh ht hj => next_settled rfl (dispatchStone_takes hi hc hh ht hj),
    fun unit t j hu hi hh ht htap hj => next_settled rfl (dispatchEngine_quern hu hi hh ht htap hj),
    fun job part j t cyc f stone hj ht hst hc hstop hf hs hv hi hh =>
      next_settled rfl (dispatchAffinity_takes hj ht hst hc hstop hf hs hv hi hh),
    fun job part t cyc ht hst s1 h1 => ?window,
    fun stone n m t j hn hi hc hh he hm ht hj => next_settled rfl (steal_takes hn hi hc hh he hm ht hj)⟩
  case create => exact next_settled rfl ((taskCreate_plain hn hpipe).trans (createTask_free hn hroom hp ht))
  case createPipe => exact next_settled rfl ((taskCreate_pipe hn hpipe hroom hr).trans (by cases p <;> rfl))
  case ready =>
    have hbecomes := taskReady_becomes hj ht hst hp hstop hps hph hrun hpipe hm
    have h4' : s4 = readied s2 j job part home := h4
    rw [h4']
    exact ⟨fun hf => next_settled rfl (hbecomes.trans (becomeReady_list hf)),
      fun f hf he hv hw => next_settled rfl (hbecomes.trans (becomeReady_window hf he hv hw))⟩
  case window =>
    obtain ⟨hin, hout⟩ := affinityEnd_eq ht hst h1
    exact ⟨fun u c hu hc => next_settled rfl (hin u c hu hc), fun hno => next_settled rfl (hout hno)⟩

end Sys2Proof.Proofs
end

section
/-! Proofs: batches, stages, pre-emption and merge units (05 R156, R185, R186, R189 to R191, R193, 07 R247 to R254, 17 R547). -/

open Sys2Proof Sys2Proof.Machine

namespace Sys2Proof.Proofs

section Admission
variable {s t : State} {n f : Nat} {r : Run} {c : Ctx}

theorem stoneOp_ok {job : Nat} {o : Op Unit} (h : o s = .ok () t) : stoneOp s job o = t := by simp only [stoneOp, h]

theorem stoneOp_error {job : Nat} {o : Op Unit} {e : Err} (h : o s = .error e t) : stoneOp s job o = stoneError t job e := by
  simp only [stoneOp, h]

/-- DECODE admits a batch where it may step, a frame is free and its stage is empty. -/
theorem batchAdmit_admits (hr : (s.stone n).run = some r) (hc : ctxOf s n r 1 1 0 = some c) (hf : r.freeFrame = some f)
    (hm : mayStep s n r = true) (hl : r.next < r.total) (hb : (r.stage 1).batch = none) :
    batchAdmit s n = stoneOp s r.job (admitOps c f r.next) := by
  simp [batchAdmit, hr, hc, hf, hm, hl.not_ge, hb]

end Admission

section Stages
variable {s t : State} {n k : Nat} {r : Run} {c : Ctx} {b : Batch} {x : StoneCheck}

section Turn
variable (hr : (s.stone n).run = some r) (hc : ctxOf s n r k 1 0 = some c) (hm : mayStep s n r = true) (h1 : 1 ≤ k) (h6 : k ≤ 6)
include hr hc hm h1 h6

theorem stageStep_passes (hb : (r.stage k).batch = some b) (hst : (r.stage k).stepped = true) : stageStep s n k x = passBatch s n k := by
  have h0 : k ≠ 0 := by omega
  simp [stageStep, hr, hc, mayIssue, hm, h0, h6.not_gt, hb, hst]

/-- A stage whose step has not ended goes on with the check of the arrays that it reads. -/
theorem stageStep_checked (hb : (r.stage k).batch = some b ∨ (r.stage k).link = some b) (hst : (r.stage k).stepped = false) :
    stageStep s n k x = stageChecked s n k x r c := by
  have h0 : k ≠ 0 := by omega
  rcases hb with hb | hb <;> simp [stageStep, hr, hc, mayIssue, hm, h0, h6.not_gt, hb, hst]

theorem stageStep_runs (hb : (r.stage k).batch = some b) (hst : (r.stage k).stepped = false) (ho : bodyOps c (r.stage k) s = .ok () t) :
    stageStep s n k .clean = passOn t n c.stage := by
  rw [stageStep_checked hr hc hm h1 h6 (.inl hb) hst]
  simp [stageChecked, checkClass, stageRuns, hb, hm, stepBody, ho]

theorem stageStep_takes (hb : (r.stage k).batch = none) (hl : (r.stage k).link = some b) (hst : (r.stage k).stepped = false)
    (ho : bodyOps c Stage.empty (takeBatch s c k b) = .ok () t) : stageStep s n k .clean = passOn t n c.stage := by
  rw [stageStep_checked hr hc hm h1 h6 (.inr hl) hst]
  simp [stageChecked, checkClass, stageRuns, hb, hl, stepBody, ho]

theorem stageStep_fault (hb : (r.stage k).batch = some b) (hst : (r.stage k).stepped = false) {cls : Nat} (hx : checkClass x = some cls)
    {c1 : Ctx} (hc1 : c1 = { c with num := (stageTurn c (r.stage k)).1 }) :
    stageStep s n k x = stepFault (recordStnFault s c1 (.device cls)) c1 (.device cls) := by
  rw [stageStep_checked hr hc hm h1 h6 (.inl hb) hst, hc1]
  simp only [stageChecked, hx]

end Turn

end Stages

section Preemption
variable {s : State} {n mill : Nat} {r : Run} {j : Job} {t : Task}

theorem preempt_assigns (hmill : mill < 16) (ht : topTask (readyList s .stone mill) = some t) (hj : s.job t.job = some j)
    (hi : t.interactive = true) (hb : (millStones mill).any (stoneIdle s) = false)
    (hn : lowestStone s ((millStones mill).filter (preemptable s j)) = some n) :
    preempt s mill = dispatched (s.setStone n (fun st => { st with wanted := some (t.job, t.part) })) n j t 0xB mill 0x206 := by
  simp only [preempt, ht, hj, hi, hb, hmill.not_ge, hn, Bool.not_true, Bool.or_self, decide_false, Bool.false_eq_true, if_false]

theorem park_starts (hr : (s.stone n).run = some r) (hw : (s.stone n).wanted.isSome = true) (hs : runStops s r = false)
    (hp : (s.stone n).parked = none) (hb : atBoundary s r = true) (ht : wantedTask s n = some (j, t)) :
    park s n = beginRun (s.setStone n (fun st => { st with wanted := none, parked := some r, run := none })) n j t (64 - preemptP s)
      (preemptP s) 1 := by
  have hw' : (s.stone n).wanted.isNone = false := by rw [Option.isNone_eq_false_iff]; exact hw
  simp only [park, hr, hw', hs, hp, hb, ht, Option.isSome_none, Bool.not_true, Bool.or_self, Bool.false_eq_true, if_false]

theorem taskStop_frees (hr : (s.stone n).run = some r) (hp : (s.stone n).parked = none) (hs : runStops s r = true) (hb : atBoundary s r = true) :
    taskStop s n =
      freeStone (fanCounts (dropTasks (s.setStone n (fun st => { st with run := none })) (fun t => t.job == r.job && t.part == r.part))) n := by
  simp only [taskStop, hr, hp, hs, hb, Bool.and_self, if_true]

end Preemption

section Merge
variable {s t : State} {job part mode n : Nat} {r : Run} {m : MergeCtx} {c : Ctx} {work : Ctx → MergeCtx → Op Unit}
  (hn : stoneOf s job part = some (n, r)) (hm : r.merge = some m) (hc : ctxOf s n r 6 0 0 = some c) (hmode : m.desc.mode = mode)
  (he : m.ended = false) (hd : r.drained = true) (hs : mayStep s n r = true)
include hn hm hc hmode he hd hs

/-- A merge unit's work on a task that has drained, then its mark that it has ended. -/
theorem mergeWork_runs : mergeWork s job part mode work = stoneOp s job (counting c (work c m) >>= fun _ =>
    upd (fun s => s.setRun n (fun r => { r with merge := r.merge.map (fun m => { m with ended := true }) }))) := by
  simp [mergeWork, hn, hm, hc, hmode, he, hd, hs]

theorem mergeWork_ok (hw : work c m s = .ok () t) : mergeWork s job part mode work =
    t.setRun n (fun r => { r with merge := r.merge.map (fun m => { m with ended := true }) }) := by
  have hcount : counting c (work c m) s = .ok () t := by simp only [counting, hw]
  rw [mergeWork_runs hn hm hc hmode he hd hs]
  exact stoneOp_ok ((bind_ok hcount).trans (upd_ok _ _ _ rfl))

theorem mergeWork_error {e : Err} (hw : work c m s = .error e t) : mergeWork s job part mode work = stoneError (countFault t c e) job e := by
  have hcount : counting c (work c m) s = .error e (countFault t c e) := by simp only [counting, hw]
  rw [mergeWork_runs hn hm hc hmode he hd hs]
  exact stoneOp_error (bind_err hcount)

/-- A merge unit's command, by how its work ends. -/
theorem merge_acts {i : Instr} (hx : exec i s = done (mergeWork s job part mode work)) :
    (work c m s = .ok () t → exec i s = .next (settle (t.setRun n (fun r => { r with
      merge := r.merge.map (fun m => { m with ended := true }) })))) ∧
    (∀ e, work c m s = .error e t → exec i s = .next (settle (stoneError (countFault t c e) job e))) :=
  ⟨fun hw => next_settled hx (mergeWork_ok hn hm hc hmode he hd hs hw), fun _ hw => next_settled hx (mergeWork_error hn hm hc hmode he hd hs hw)⟩

end Merge

/-- Settles O51: each event by what the stone holds. -/
theorem stageEvents : Obligations.StageEvents := by
  intro s
  refine ⟨fun n r c f hr hc hf hm hl hb => ?admission, fun n k r c hr hc hm h1 h6 => ?stage,
    fun mill t j n hmill ht hj hi hb hn => next_settled rfl (preempt_assigns hmill ht hj hi hb hn),
    fun n r j t hr hw hs hp hb ht => next_settled rfl (park_starts hr hw hs hp hb ht),
    fun n r hr hp hs hb => next_settled rfl (taskStop_frees hr hp hs hb), ?merge,
    fun h => next_settled rfl (if_pos h), fun h => next_settled rfl (if_neg h)⟩
  case admission =>
    have hadmit := batchAdmit_admits hr hc hf hm hl hb
    exact ⟨fun t ho => next_settled rfl (hadmit.trans (stoneOp_ok ho)), fun e t ho => next_settled rfl (hadmit.trans (stoneOp_error ho))⟩
  case stage =>
    refine ⟨fun b x hb hst => next_settled rfl (stageStep_passes hr hc hm h1 h6 hb hst),
      fun b t hb hst ho => next_settled rfl (stageStep_runs hr hc hm h1 h6 hb hst ho),
      fun b t hb hl hst ho => next_settled rfl (stageStep_takes hr hc hm h1 h6 hb hl hst ho), fun b c1 hb hst hc1 => ?_⟩
    rw [List.forall_mem_cons, List.forall_mem_cons, List.forall_mem_singleton]
    exact ⟨next_settled rfl (stageStep_fault (x := .hopper) hr hc hm h1 h6 hb hst rfl hc1),
      next_settled rfl (stageStep_fault (x := .registerBank) hr hc hm h1 h6 hb hst rfl hc1),
      next_settled rfl (stageStep_fault (x := .programCache) hr hc hm h1 h6 hb hst rfl hc1)⟩
  case merge =>
    rw [List.forall_mem_cons, List.forall_mem_cons, List.forall_mem_singleton]
    exact ⟨fun job part n r m c t hn hm hc hmode he hd hs => merge_acts (mode := 1) hn hm hc hmode he hd hs rfl,
      fun job part n r m c t hn hm hc hmode he hd hs => merge_acts (mode := 2) hn hm hc hmode he hd hs rfl,
      fun job part n r m c t hn hm hc hmode he hd hs => merge_acts (mode := 3) hn hm hc hmode he hd hs rfl⟩

end Sys2Proof.Proofs
end

section
/-! Proofs: tasks complete, jobs release, blocks are staged and absorbed, and completions for host reads arrive (01 R25, 02 R38, R41, 03 R88 to R92,
04 R127, R138, 05 R184, R191, 11 R411, 12 R413 to R423, 16 R517, R530). -/

open Sys2Proof Sys2Proof.Machine

namespace Sys2Proof.Proofs

section Exec
variable {α : Type} {o : Op α} {s t : State}

theorem exec_ok {a : α} (h : o s = .ok a t) : o.exec s = (.ok a, t) := by rw [Op.exec, h]

theorem exec_error {e : Err} (h : o s = .error e t) : o.exec s = (.error e, t) := by rw [Op.exec, h]

end Exec

section Counting

theorem countsOnly_fan {s t : State} (h : CountsOnly s t) : t.fan = s.fan := by
  unfold CountsOnly at h
  rw [h]

theorem countsOnly_mpd {s t : State} (h : CountsOnly s t) : t.mpd = s.mpd := by
  unfold CountsOnly at h
  rw [h]

theorem count_fan (s : State) (o : Occ) : (s.count o).fan = s.fan := countsOnly_fan (s.count_countsOnly o)

theorem count_mpd (s : State) (o : Occ) : (s.count o).mpd = s.mpd := countsOnly_mpd (s.count_countsOnly o)

theorem count_job (s : State) (o : Occ) (id : Nat) : (s.count o).job id = s.job id := by rw [State.job, count_fan, State.job]

theorem count_txn (s : State) (o : Occ) (n : Nat) : (s.count o).txn n = s.txn n := by rw [State.txn, count_mpd, State.txn]

end Counting

section Stones
variable {s s1 : State} {id part n u : Nat} {j : Job} {t : Task} {r : Run} {c : Ctx}

theorem taskComplete_stone (hj : s.job id = some j) (ht : s.task id part = some t) (hst : t.state = .placed u) (he : t.engine = .stone) :
    taskComplete s id part = completeStone s id part := by simp only [taskComplete, hj, ht, hst, he]

theorem completeStone_ends (hj : s.job id = some j) (hn : stoneOf s id part = some (n, r)) (hm : mayStep s n r = true) (hd : r.drained = true)
    (hg : r.merged = true) (hc : ctxOf s n r 1 2 0 = some c) (hr : (runAll c 2).exec s = (.ok (), s1)) :
    completeStone s id part = endTask (freeStone s1 n) id part := by
  simp only [completeStone, hn, hj, hm, hd, hg, hc, hr, Bool.not_true, Bool.or_self, Bool.false_eq_true, if_false]

end Stones

section Engines
variable {s s1 : State} {id part u : Nat} {j : Job} {t : Task}

/-- A running task of an engine completes with its engine. -/
theorem taskComplete_engine (hj : s.job id = some j) (ht : s.task id part = some t) (hst : t.state = .placed u) (hstop : t.stop = false)
    (ho : j.outc = none) : (t.engine = .quern → taskComplete s id part = completeQuern s j part) ∧
    (t.engine = .sluice → taskComplete s id part = completeSluice s j part) ∧
    (t.engine = .toll → taskComplete s id part = completeToll s j part) ∧
    (t.engine = .storage → taskComplete s id part = completeStorage s j part) := by
  refine ⟨fun he => ?_, fun he => ?_, fun he => ?_, fun he => ?_⟩ <;>
    simp only [taskComplete, hj, ht, hst, he, hstop, ho, Option.isSome_none, Bool.or_self, Bool.false_eq_true, if_false]

theorem completeQuern_ends {q : Nat} {x : Quern} (hq : quernOf s j.id part = some (q, x)) (he : x.ended = true) (hd : tapDone s x.ctx = true)
    (hr : (recordTap (j.req .toll) (some j.id) j.hdr.tag x.ctx).exec s = (.ok (), s1)) :
    completeQuern s j part = endTask (freeQuern s1 q) j.id part := by
  simp only [completeQuern, hq, he, hd, hr, Bool.not_true, Bool.or_self, Bool.false_eq_true, if_false]

/-- No context, no tap record. -/
theorem recordTap_none (r : Req) (job : Option Nat) (tag : Nat) : (recordTap r job tag none).exec s = (.ok (), s) := rfl

theorem completeSluice_free (hc : engineChan s j.id part = none) : completeSluice s j part = endTask s j.id part := by
  simp only [completeSluice, hc]

theorem completeSluice_ends {c : Nat} (hc : engineChan s j.id part = some c) (hds : (s.slu c).descs = [])
    (hd : tapDone s (s.slu c).ctx = true) (hr : (recordTap (j.req .toll) (some j.id) j.hdr.tag (s.slu c).ctx).exec s = (.ok (), s1)) :
    completeSluice s j part = endTask (chanRelease s1 c) j.id part := by
  simp only [completeSluice, hc, hds, hd, hr, List.isEmpty_nil, Bool.not_true, Bool.or_self, Bool.false_eq_true, if_false]

theorem completeToll_ends {o : Outc} {s2 : State} (hf : chanFlows s j.id part = true) (hw : tollWork s j part = some (o, s1))
    (h2 : s2 = freeEngineChan s1 j.id part) (ho : o.status < 2) : completeToll s j part =
      endTask (s2.setJob j.id (fun k => { k with sumHi := o.status, sumLo := o.result, pnr := decide (0x0402 ≤ j.hdr.op) })) j.id part := by
  subst h2
  simp only [completeToll, hf, hw, Bool.not_true, Bool.false_eq_true, if_false, if_neg ho.not_ge]

theorem completeStorage_ends {x : Option Nat} (hv : volDrained s j.id = true) (hf : chanFlows s j.id part = true) (hx : x = tapCtx s j.id part)
    (hd : tapDone s x = true) (hr : (recordTap (j.req .toll) (some j.id) j.hdr.tag x).exec s = (.ok (), s1)) :
    completeStorage s j part = endTask (freeEngine s1 j.id part) j.id part := by
  subst hx
  simp only [completeStorage, hv, hf, hd, hr, Bool.not_true, Bool.or_self, Bool.false_eq_true, if_false]

end Engines

section Release
variable {s : State} {id : Nat} {j : Job}

theorem flowRelease_releases {part : Nat} {t : Task} (hj : s.job id = some j) (ht : s.task id part = some t) (hst : t.state = .complete)
    (hf : flowTurn s j part = true) : flowRelease s id part =
      jobEnd (releaseTask (s.trace { (j.traceOf s 7) with part := part, counter := 0, mill := t.home }) id part) id := by
  simp only [flowRelease, hj, ht, hst, hf, beq_self_eq_true, Bool.and_self, if_true]

/-- A release that is not held back by its transaction's members. -/
theorem jobRelease_eq {o : Outc} (hj : s.job id = some j) (ho : j.outc = some o) (hw : commitWaits s j = false) :
    jobRelease s id = if ((tryRelease s id).job id).isSome then tryRelease s id else afterRelease (tryRelease s id) j o := by
  simp only [jobRelease, hj, ho, hw, Bool.false_eq_true, if_false]

theorem flushReadDone_job (hj : s.job id = some j) (hf : j.flushing = true) :
    flushReadDone s (.job id) = jobRelease (s.setJob id (fun j => { j with flushing := false, flushed := true })) id := by
  simp only [flushReadDone, hj, hf, if_true]

theorem flushReadDone_channel {c : Nat} {d : Desc} {ds : List Desc} (hd : (s.slu c).descs = d :: ds) (hf : (s.slu c).flushing = true) :
    flushReadDone s (.channel c) = descDone (s.setSlu c (fun x => { x with flushing := false, unflushed := false })) c d := by
  simp only [flushReadDone, chanFlushDone, hd, hf, if_true]

end Release

section HostReads
variable {s u : State} {id : Nat} {j : Job}

/-- An error completion of a job's read is counted, then meets the job. -/
theorem hostCompletion_job (hj : s.job id = some j) (hu : u = s.count ⟨0x906, 1, some j.slice, none, none⟩) :
    hostCompletion s (.job id) true = accessFault u id 6 := by
  simp only [hostCompletion, hj, hu, Option.isNone_some, Bool.false_eq_true, if_false, Option.map_some]

theorem accessFault_plain {cls : Nat} (hj : s.job id = some j) (ht : j.txn = none) :
    accessFault s id cls = failJob (stoneReadFault s id (.device cls)) id ⟨0xF0, cls, 0⟩ := by
  have hown : (s.job id).bind (fun j => j.txn.bind s.txn) = none := by rw [hj]; simp only [Option.bind_some, ht, Option.bind_none]
  simp only [accessFault, hown, Err.toOutc]

theorem accessFault_commit {cls : Nat} {t : Txn} (hj : s.job id = some j) (ht : j.txn.bind s.txn = some t) (hown : t.job = some id)
    (hst : t.state = .ready) (hr : s.mpd.ready.contains t.num = true) :
    accessFault s id cls = finishJob (claimsUndone s t.num) id ⟨0xF0, cls, 0⟩ := by
  have htxn : (s.job id).bind (fun j => j.txn.bind s.txn) = some t := by rw [hj]; exact ht
  simp only [accessFault, htxn, hown, hst, hr, and_self, if_true, Err.toOutc]

theorem hostCompletion_clean (s : State) (x : HostRead) : hostCompletion s x false = s := by cases x <;> rfl

theorem hostCompletion_line {l : Nat} (hh : isHost (l * 64) = true) (he : s.gran.hostErr.contains l = false) :
    hostCompletion s (.line l) true = { s with gran := { s.gran with hostErr := s.gran.hostErr ++ [l] } } := by
  simp only [hostCompletion, hh, he, Bool.not_false, Bool.and_self, if_true]

end HostReads

section Querns
variable {s s0 s1 s2 : State} {q : Nat} {x y : Quern} {j : Job} {t : Task} {blk : Staged} {rest : List Staged}

/-- A Quern with a staged block writes the oldest, the next block staged beside it. -/
theorem blockStaged_works (hq : s.quern q = some x) (hj : s.job x.job = some j) (ht : s.task x.job x.part = some t) (hstop : t.stop = false)
    (he : x.ended = false) (hf : chanFlows s x.job x.part = true) (h0 : s0 = fillStaging s q) (hy : s0.quern q = some y) (hb : y.bufs = blk :: rest) :
    (∀ s1, (stagedWork j q y blk rest).exec s0 = (.ok (), s1) → blockStaged s q = s1) ∧
    (∀ e s1, (stagedWork j q y blk rest).exec s0 = (.error e, s1) → blockStaged s q = dropTask (freeQuern
      (failJob (if j.hdr.op = 0x0301 && isBlockErr e.toOutc then quernError s1 q j e.toOutc else s1) x.job e.toOutc) q) x.job x.part) := by
  subst h0
  constructor
  · intro s1 hw
    simp only [blockStaged, hq, hj, ht, hstop, he, hf, hy, hb, hw, Bool.not_true, Bool.or_self, Bool.false_eq_true, if_false, Option.getD_some]
  · intro e s1 hw
    simp only [blockStaged, hq, hj, ht, hstop, he, hf, hy, hb, hw, Bool.not_true, Bool.or_self, Bool.false_eq_true, if_false, Option.getD_some]

/-- A staged block without a fault. -/
theorem stagedWork_ok (hf : blk.fault = none) (hw : writeStaged j q y blk s0 = .ok () s1)
    (h2 : s2 = stageTap (addTotals (s1.setQuern q (some { y with
      block := y.block + 1, dst := y.dst + blk.out.length, bufs := rest, ended := rest.isEmpty })) j.id blk.out.length) y.ctx blk.tapped) :
    (stagedWork j q y blk rest).exec s0 = (.ok (), if rest.isEmpty then closeTap s2 y.ctx else s2) := by
  subst h2
  refine exec_ok ?_
  rw [stagedWork, hf]
  exact (bind_ok hw).trans (upd_ok _ _ _ rfl)

/-- A staged block that met an error. -/
theorem stagedWork_fault {o : Outc} (hf : blk.fault = some (o.status, o.detail, o.result)) :
    (stagedWork j q y blk rest).exec s0 = (.error (.outc o), s0) := by
  refine exec_error ?_
  rw [stagedWork, hf]
  rfl

theorem fillStaging_fills {b : Staged} (hq : s.quern q = some x) (hj : s.job x.job = some j) (hl : x.bufs.length < 2) (hm : moreBlocks j x = true)
    (hb : (if j.hdr.op = 0x0301 then unblock j q x else codeBlock j q x).exec s = (.ok b, s1)) :
    fillStaging s q = s1.setQuern q (some { x with next := x.next + 1, src := x.src + b.used, bufs := x.bufs ++ [b] }) := by
  simp only [fillStaging, hq, hj, hm, hb, decide_eq_false hl.not_ge, Bool.not_true, Bool.or_self, Bool.false_eq_true, if_false]

end Querns

section Cores
variable {s s0 s1 : State} {n : Nat} {c : TollCtx} (hn : nextCtx s = some n) (hc : s.ctx n = some c)
  (h0 : s0 = { s with units := { s.units with lastCtx := n } })
include hn hc h0

theorem blockAbsorb_tap (ht : c.tap.isSome = true) : blockAbsorb s = ctxTurn s0 n c := by
  have hnone : (c.job.bind (fun x => s.job x.1)).filter (fun _ => c.tap.isNone) = none := by
    rw [Option.filter_eq_none_iff]
    intro _ _ h
    rw [Option.isNone_iff_eq_none] at h
    rw [h] at ht
    exact absurd ht Bool.false_ne_true
  simp only [blockAbsorb, hn, hc, hnone, ← h0]

/-- A core's turn on a digest's context stages its block first. -/
theorem blockAbsorb_job {y : Nat × Nat} {j : Job} (ht : c.tap = none) (hy : c.job = some y) (hj : s.job y.1 = some j) :
    (∀ c1 s1, (stageBlock j n c).exec s0 = (.ok c1, s1) → blockAbsorb s = ctxTurn s1 n c1) ∧
    (∀ e s1, (stageBlock j n c).exec s0 = (.error e, s1) → blockAbsorb s = failJob (s1.setCtx n none) j.id e.toOutc) := by
  have hsome : (c.job.bind (fun x => s.job x.1)).filter (fun _ => c.tap.isNone) = some j := by
    simp [hy, hj, ht]
  constructor
  · intro c1 s1 hr
    simp only [blockAbsorb, hn, hc, hsome, ← h0, hr]
  · intro e s1 hr
    simp only [blockAbsorb, hn, hc, hsome, ← h0, hr]

end Cores

/-- Settles O52: each event by the engine, the job or the block that it meets. -/
theorem completionEvents : Obligations.CompletionEvents := by
  intro s
  refine ⟨fun id part j t u hj ht hst he n r c s1 hn hm hd hg hc hr => ?stone, fun id part j t u hj ht hst hstop ho => ?engines,
    fun id part j t hj ht hst hf => next_settled rfl (flowRelease_releases hj ht hst hf), fun id j o hj ho hw => ?release,
    fun id j hj hf => next_settled rfl (flushReadDone_job hj hf), fun c d ds hd hf => next_settled rfl (flushReadDone_channel hd hf),
    fun x => ?clean, fun id j u hj hu => ?read, fun l hh he => next_settled rfl (hostCompletion_line hh he),
    fun q x j t s0 y blk rest hq hj ht hstop he hf h0 hy hb => ?staged,
    fun q x j b s1 hq hj hl hm hb => fillStaging_fills hq hj hl hm hb, fun core n c s0 hcore hn hc h0 => ?absorb⟩
  case stone => exact next_settled rfl ((taskComplete_stone hj ht hst he).trans (completeStone_ends hj hn hm hd hg hc hr))
  case engines =>
    obtain ⟨hquern, hsluice, htoll, hstorage⟩ := taskComplete_engine hj ht hst hstop ho
    refine ⟨fun q x s1 he hid hq hend hd hr => ?_, fun q x he hid hq hend hx => ?_, fun he hid hc => ?_, fun c s1 he hid hc hds hd hr => ?_,
      fun o s1 s2 he hf hw h2 hid hlt => ?_, fun x s1 he hid hv hf hx hd hr => ?_⟩ <;> subst hid
    · exact next_settled rfl ((hquern he).trans (completeQuern_ends hq hend hd hr))
    · exact next_settled rfl ((hquern he).trans (completeQuern_ends hq hend (by rw [hx]; rfl) (by rw [hx]; exact recordTap_none _ _ _)))
    · exact next_settled rfl ((hsluice he).trans (completeSluice_free hc))
    · exact next_settled rfl ((hsluice he).trans (completeSluice_ends hc hds hd hr))
    · exact next_settled rfl ((htoll he).trans (completeToll_ends hf hw h2 hlt))
    · exact next_settled rfl ((hstorage he).trans (completeStorage_ends hv hf hx hd hr))
  case release =>
    have hrel := jobRelease_eq hj ho hw
    exact ⟨fun k hk => next_settled rfl (hrel.trans (if_pos (by rw [hk, Option.isSome_some]))),
      fun hk => next_settled rfl (hrel.trans (if_neg (by rw [hk, Option.isSome_none]; exact Bool.false_ne_true)))⟩
  case clean => exact next_settled rfl (hostCompletion_clean s x)
  case read =>
    have hcomp := hostCompletion_job hj hu
    have hju : u.job id = some j := by rw [hu, count_job, hj]
    refine ⟨fun ht => next_settled rfl (hcomp.trans (accessFault_plain hju ht)), fun t ht hown hst hr => ?_⟩
    have htu : j.txn.bind u.txn = some t := by rw [hu, funext (count_txn s _)]; exact ht
    exact next_settled rfl (hcomp.trans (accessFault_commit hju htu hown hst (by rw [hu, count_mpd]; exact hr)))
  case staged =>
    obtain ⟨hok, herr⟩ := blockStaged_works hq hj ht hstop he hf h0 hy hb
    refine ⟨fun s1 s2 hfault hw h2 => next_settled rfl (hok _ (stagedWork_ok hfault hw h2)), fun o s2 hfault h2 => ?_⟩
    have hfails := herr _ _ (stagedWork_fault hfault)
    simp only [Err.toOutc] at hfails
    subst h2
    exact next_settled rfl hfails
  case absorb =>
    have hcores : (if core < 8 then blockAbsorb s else s) = blockAbsorb s := if_pos hcore
    refine ⟨fun ht => next_settled rfl (hcores.trans (blockAbsorb_tap hn hc h0 ht)), fun y j ht hy hj => ?_⟩
    obtain ⟨hok, herr⟩ := blockAbsorb_job hn hc h0 ht hy hj
    exact ⟨fun c1 s1 hr => next_settled rfl (hcores.trans (hok c1 s1 hr)), fun e s1 hr => next_settled rfl (hcores.trans (herr e s1 hr))⟩

end Sys2Proof.Proofs
end

section
/-! Proofs: the storage ports and the volumes' copies (10 R359, R367, R378, R385, R387). -/

open Sys2Proof Sys2Proof.Machine

namespace Sys2Proof.Proofs

section Writeback
variable {s s1 : State} {v g : Nat} {e : VolEnt} {seqs ports : List Nat} {img : Option (List Byte)}

/-- No command writes a drive LBA over that write-back would issue. -/
theorem lbaBusy_none (h : ∀ c ∈ s.vols.cmds, c.vol = v → c.g = g → c.use ≠ .rewrite ∧ ∀ q, c.use ≠ .writeback q) : lbaBusy s v g = false := by
  rw [lbaBusy, List.any_eq_false]
  intro c hc hb
  simp only [Bool.and_eq_true, beq_iff_eq, Bool.or_eq_true] at hb
  obtain ⟨⟨hv, hg⟩, hu⟩ := hb
  obtain ⟨hrew, hwb⟩ := h c hc hv hg
  rcases hu with hu | hu
  · cases huse : c.use <;> simp_all [isWriteback]
  · exact hrew hu

/-- The command that lands an image, or drops the LBA, on a port. -/
def landCmd (e : VolEnt) (v g : Nat) (seqs : List Nat) (p : Nat) : Option (List Byte) → DCmd
  | some b => cmdOf e p v g 1 b (.writeback seqs)
  | none => cmdOf e p v g 2 [] (.writeback seqs)

theorem writeback_issues (hv : s.vol v = some e) (ht : e.table = false) (hr : s.readOnly = false)
    (ho : ∀ o, s.volOp v = some o → o.op = 3 ∨ o.phase ≠ 1)
    (hseqs : seqs = (((e.sectorsAt g).map (dirtyAt s v)).filter (· != 0)).eraseDups) (hne : seqs ≠ []) (hb : lbaBusy s v g = false)
    (hports : ports = (e.portsOf g).filter (portUp s)) (hpne : ports ≠ []) (hi : landImage s v g e = (img, s1)) :
    writeback s v g = ports.foldl (fun t p => issueCmd t (landCmd e v g seqs p img)) s1 := by
  have hs : seqs.isEmpty = false := by simpa using hne
  have hp : ports.isEmpty = false := by simpa using hpne
  subst hseqs hports
  cases hop : s.volOp v with
  | none =>
    simp only [writeback, hv, ht, hr, hs, hp, hb, hop, Bool.or_self, Bool.false_eq_true, if_false, hi]
    cases img <;> rfl
  | some o =>
    have hfrozen : (o.op != 3 && o.phase == 1) = false := by rcases ho o hop with h | h <;> simp [h]
    simp only [writeback, hv, ht, hr, hs, hp, hb, hop, hfrozen, Bool.or_self, Bool.false_eq_true, if_false, hi]
    cases img <;> rfl

end Writeback

section Completion
variable {s s0 s1 s2 : State} {port id n : Nat} {c : DCmd} {sl : Option Nat} (h0 : s0 = startTransfers s)
  (hc : queuedCmd s0 port id = some c) (hf : cmdFlows s0 c = true) (h1 : s1 = dropCmd s0 id) (hn : n = if c.op ≤ 1 then 4096 * c.n else 0)
  (hsl : sl = cmdSlice s0 c)
  (h2 : s2 = (((s1.count ⟨0xA00 + port, 1, sl, none, none⟩).count ⟨0xA08 + port, n, sl, none, none⟩).count
    ⟨0xA12, cmdImages c, none, none, none⟩).bwAdd (14 + port) n)
include h0 hc hf h1 hn hsl h2

/-- A command of a job that stands ends with OK: its transfer, and what follows it. -/
theorem driveComplete_ok (hst : cmdStale s1 c = false) : driveComplete s port id .ok = cmdDone (transfer s2 c) c := by
  have hcmd : (queuedCmd s0 port id).filter (cmdFlows s0) = some c := by rw [hc, Option.filter_some, hf]; rfl
  subst h2 hsl hn h1 h0
  simp only [driveComplete, hcmd, hst, Bool.false_eq_true, if_false]

theorem driveComplete_unrecovered (hst : cmdStale s1 c = false) {job mask : Nat} {failed : Option Nat} (hu : c.use = .read job mask failed) :
    driveComplete s port id .mediaError = readFailed s2 c job mask failed := by
  have hcmd : (queuedCmd s0 port id).filter (cmdFlows s0) = some c := by rw [hc, Option.filter_some, hf]; rfl
  subst h2 hsl hn h1 h0
  simp only [driveComplete, hcmd, hst, Bool.false_eq_true, if_false, hu]

/-- Another error is retried, or takes the port OFFLINE. -/
theorem driveComplete_error (hst : cmdStale s1 c = false) {r : DriveResult}
    (hr : r = .otherError ∨ (r = .mediaError ∧ ∀ job mask failed, c.use ≠ .read job mask failed)) : driveComplete s port id r =
      if c.tries < 3 then issueCmd s2 { c with tries := c.tries + 1 }
      else portDown { s2 with vols := { s2.vols with cmds := s2.vols.cmds ++ [c] } } port := by
  have hcmd : (queuedCmd s0 port id).filter (cmdFlows s0) = some c := by rw [hc, Option.filter_some, hf]; rfl
  subst h2 hsl hn h1 h0
  simp only [driveComplete, hcmd, hst, Bool.false_eq_true, if_false]
  rcases hr with rfl | ⟨rfl, hu⟩
  · rfl
  · split
    · next h => cases h
    · next h => exact absurd h (hu _ _ _)
    · rfl

/-- A command of a generation that is gone. -/
theorem driveComplete_late {slice gen : Nat} (hu : c.use = .late slice gen) (r : DriveResult) :
    driveComplete s port id r = lateDiscard (if r = .ok ∧ c.op ≠ 0 then transfer s2 c else s2) slice := by
  have hcmd : (queuedCmd s0 port id).filter (cmdFlows s0) = some c := by rw [hc, Option.filter_some, hf]; rfl
  have hst : cmdStale s1 c = true := by simp only [cmdStale, hu]
  subst h2 hsl hn h1 h0
  simp only [driveComplete, hcmd, hst, if_true, hu, cmdDone]

end Completion

section Copies
variable {s s1 : State} {v : Nat} {o : VolOp}

theorem rebuildDone_ends (hv : s.volOp v = some o) (hop : o.op = 3) (hr : o.resumed = false) (hn : o.units ≤ o.next) :
    rebuildDone s v = (opDone s v o).devEvent 0x0A04 (o.port * 256 + v) := by
  simp only [rebuildDone, hv, hop, hr, decide_eq_false hn.not_gt, bne_self_eq_false, Bool.or_self, Bool.false_eq_true, if_false]

theorem volumeOpDone_ends (hv : s.volOp v = some o) (hr : o.resumed = true) (hop : o.op ≠ 4) (hp : o.phase = 1) (hn : o.units ≤ o.next)
    (hc : ∀ c ∈ s.vols.cmds, c.vol = v → c.use ≠ .op) : volumeOpDone s v = (opDone s v o).devEvent 0x0A01 (o.op * 256 + v) := by
  have hcmds : s.vols.cmds.any (fun c => c.vol == v && c.use == .op) = false := by
    rw [List.any_eq_false]
    intro c hmem h
    simp only [Bool.and_eq_true, beq_iff_eq] at h
    exact hc c hmem h.1 h.2
  have hop' : (o.op == 4) = false := beq_false_of_ne hop
  simp only [volumeOpDone, hv, hr, hop', hp, decide_eq_false hn.not_gt, hcmds, bne_self_eq_false, Bool.not_true, Bool.or_self,
    Bool.false_eq_true, if_false]

/-- No port that waits is there: no rebuild follows. -/
theorem opDone_last (h1 : s1 = recordProgress (s.setVolOp v none) v) (hm : ∀ p ∈ o.more, portUp s1 p = false) : opDone s v o = s1 := by
  have hnone : o.more.find? (portUp s1) = none := List.find?_eq_none.mpr fun p hp => by simp [hm p hp]
  subst h1
  simp only [opDone, hnone]
  split
  · next h => cases h
  · rfl

theorem opDone_next (h1 : s1 = recordProgress (s.setVolOp v none) v) {e : VolEnt} {p : Nat} (he : s1.vol v = some e)
    (hp : o.more.find? (portUp s1) = some p) : opDone s v o = startRebuild s1 v e p (o.more.filter (· != p)) := by
  subst h1
  simp only [opDone, he, hp]

end Copies

/-- Settles O54: each event by the command, the port or the operation that it meets. -/
theorem driveEvents : Obligations.DriveEvents := by
  intro s
  refine ⟨fun v g e seqs ports img s1 hv ht hr ho hseqs hne hb hports hpne hi =>
      next_settled rfl ((writeback_issues hv ht hr ho hseqs hne (lbaBusy_none hb) hports hpne hi).trans (by cases img <;> rfl)),
    fun port id c s0 s1 s2 h0 hc hf h1 n sl hn hsl h2 => ⟨fun hst => next_settled rfl (driveComplete_ok h0 hc hf h1 hn hsl h2 hst),
      fun job mask failed hst hu => next_settled rfl (driveComplete_unrecovered h0 hc hf h1 hn hsl h2 hst hu),
      fun r hst hr => next_settled rfl (driveComplete_error h0 hc hf h1 hn hsl h2 hst hr),
      fun slice gen r hu => next_settled rfl (driveComplete_late h0 hc hf h1 hn hsl h2 hu r)⟩,
    fun port id c hc t ht => ?timeout, fun v o s1 hv h1 i code arg hi => ?copies⟩
  case timeout =>
    have htime (ok : Bool) : commandTimeout s port id ok = if ok then driveComplete t port id .ok else portDown t port := by
      simp only [commandTimeout, hc, ht]
    exact ⟨next_settled rfl (htime false), congrArg done (htime true)⟩
  case copies =>
    have hend : ∀ {t}, opDone s v o = t → exec i s = .next (settle (t.devEvent code arg)) := fun {t} htt => by
      rcases hi with ⟨rfl, rfl, rfl, hop, hr, hn⟩ | ⟨rfl, rfl, rfl, hr, hop, hp, hn, hcmds⟩
      · exact next_settled rfl ((rebuildDone_ends hv hop hr hn).trans (by rw [htt]))
      · exact next_settled rfl ((volumeOpDone_ends hv hr hop hp hn hcmds).trans (by rw [htt]))
    exact ⟨fun hm => hend (opDone_last h1 hm), fun e p he hp => hend (opDone_next h1 he hp)⟩

end Sys2Proof.Proofs
end

section
/-! Proofs: the commit unit, the journal, projection application and replay (09 R301, R303, R304, R308, R309, R320 to R323, R342, R345, 10 R369,
R381, R382). -/

open Sys2Proof Sys2Proof.Machine

namespace Sys2Proof.Proofs

section Joining
variable {s s1 s2 : State} {n : JNew} {r : JRec}

/-- The first record that need not wait, and waits behind no other of its transaction, is the one that joins. -/
theorem joinFirst_some {b : List JNew} (hn : joinBlocked s n = false) : ∀ {a : List JNew} {held : List Nat},
    (∀ x ∈ a, joinBlocked s x = true ∧ x.txn ≠ n.txn) → n.txn ∉ held → joinFirst s held (a ++ n :: b) = some n
  | [], held, _, hh => by simp [joinFirst, hn, hh]
  | x :: a, held, ha, hh => by
    obtain ⟨hx, hne⟩ := ha x (List.mem_cons_self ..)
    have hrest := joinFirst_some (b := b) hn (fun y hy => ha y (List.mem_cons_of_mem _ hy)) (by simp [hh, Ne.symm hne] : n.txn ∉ x.txn :: held)
    simpa [joinFirst, hx] using hrest

/-- No record joins where every one waits. -/
theorem joinFirst_none : ∀ {l : List JNew} {held : List Nat}, (∀ x ∈ l, joinBlocked s x = true) → joinFirst s held l = none
  | [], _, _ => rfl
  | x :: l, held, h => by
    have hrest := joinFirst_none (held := x.txn :: held) (fun y hy => h y (List.mem_cons_of_mem x hy))
    simpa [joinFirst, h x (List.mem_cons_self ..)] using hrest

theorem recordJoin_plain (hm : mayJoin s = true) (hf : joinFirst s [] s.mpd.joinQ = some n)
    (hj : joinNow { s with mpd := { s.mpd with joinQ := s.mpd.joinQ.erase n } } n = (r, s1)) (h2 : s2 = waitFlags s1) (hn : n.job = none) :
    recordJoin s = s2 := by
  simp only [recordJoin, hm, hf, hj, hn, h2, Bool.not_true, Bool.false_eq_true, if_false]

/-- A record of a job has joined: the job is past its point of no return, and a volume's may have its outcome. -/
theorem recordJoin_job (hm : mayJoin s = true) (hf : joinFirst s [] s.mpd.joinQ = some n)
    (hj : joinNow { s with mpd := { s.mpd with joinQ := s.mpd.joinQ.erase n } } n = (r, s1)) (h2 : s2 = waitFlags s1) {id : Nat}
    (hn : n.job = some id) {s3 : State} (h3 : s3 = s2.setJob id (fun j => { j with
      pnr := true, progress := j.progress + 1, sumHi := if n.commit then max j.sumHi r.epoch else j.sumHi })) :
    recordJoin s = if (s3.job id).any (fun j => j.hdr.op / 256 == 5) then volumeEnd s3 id else s3 := by
  simp only [recordJoin, hm, hf, hj, hn, h2, h3, joinedFor, Bool.not_true, Bool.false_eq_true, if_false]

theorem recordJoin_waits (hm : mayJoin s = true) (hw : ∀ x ∈ s.mpd.joinQ, joinBlocked s x = true) : recordJoin s = waitFlags s := by
  simp only [recordJoin, hm, joinFirst_none hw, Bool.not_true, Bool.false_eq_true, if_false]

end Joining

section Commits
variable {s s0 s1 s2 : State} {n job : Nat} {rest : List Nat} {t : Txn} (hr : s.mpd.ready = n :: rest) (ht : s.txn n = some t)
  (hm : mayJoin s = true) (hq : s.mpd.joinQ.any (fun r => r.txn == n) = false) (h0 : s0 = { s with mpd := { s.mpd with ready := rest } })
  (hjob : job = t.job.getD 0)
include hr ht hm hq h0 hjob

/-- A transaction whose claims are all made gains its COMMIT record and its epoch. -/
theorem commitClaims_made {r : JRec} (hc : (claimAll t (claimsOf s n)).exec s0 = (.ok .made, s1))
    (hj : joinNow s1 { JNew.bare kCommit with
      txn := n, slice := t.slice, queue := t.gq % 8, tag := ((s1.job job).map (·.hdr.tag)).getD 0,
      aux := (s1.mpd.recs.filter (fun r => r.inTxn n && !r.dead)).length } = (r, s2)) {s3 : State}
    (h3 : s3 = (commitMade s2 n r.epoch).setJob job (fun j => { j with pnr := true })) : commitClaims s =
      outcomeAt (s3.count ⟨0xB05, 1, some t.slice, none, none⟩) job ⟨0, 0, commitResult s3 job r.epoch⟩ r.epoch := by
  subst h0 hjob h3
  simp only [commitClaims, hr, ht, hm, hq, hc, hj, Bool.not_true, Bool.or_self, Bool.false_eq_true, if_false]

/-- A transaction that loses a claim is void. -/
theorem commitClaims_lost {e : Nat} (hc : (claimAll t (claimsOf s n)).exec s0 = (.ok (.lost e), s1)) :
    commitClaims s = outcomeAt ((claimsUndone s1 n).count ⟨0xB07, 1, some t.slice, none, none⟩) job ⟨0x70, 0, e⟩ e := by
  subst h0 hjob
  simp only [commitClaims, hr, ht, hm, hq, hc, Bool.not_true, Bool.or_self, Bool.false_eq_true, if_false]

end Commits

section Groups
variable {s s1 s2 : State} {g : Group}

theorem groupClose_closes (hg : s.mpd.grp = some g) (hp : s.flag F.mpdStatus_pwr_fail 0 = false) :
    groupClose s = closeGroup (clockTo s (g.opened + g.closeUs * 1600)) true := by
  have hm : mayJoin s = true := by rw [mayJoin, hg, hp]; rfl
  simp only [groupClose, hg, hm, Bool.not_true, Bool.false_eq_true, if_false]

theorem sealDurable_marks {r : JRec} (hg : s.mpd.closed.find? (fun g => !g.durable) = some g) (hr : g.sealRec = some r) :
    sealDurable s = { s with mpd := { s.mpd with closed := s.mpd.closed.map (fun (x : Group) =>
      if x.epoch = g.epoch then { x with durable := true } else x) } } := by
  simp only [sealDurable, hg, hr]

section Publishing
variable {rest : List Group} (hc : s.mpd.closed = g :: rest) (hd : g.durable = true) (hp : s.flag F.mpdStatus_pwr_fail 0 = false)
  (h1 : s1 = g.commits.foldl (fun s n => replaceStamps s g.epoch n) s)
include hc hd hp h1

theorem epochPublish_stands (ho : g.commits.any (stampsOwed s1) = true) : epochPublish s = s1 := by
  subst h1
  simp only [epochPublish, hc, hd, hp, ho, Bool.not_true, Bool.or_self, Bool.false_eq_true, if_false, if_true]

theorem epochPublish_moves (ho : g.commits.any (stampsOwed s1) = false)
    (h2 : s2 = (({ s1 with mpd := { s1.mpd with closed := rest } } : State).setReg .mpdEpoch 0 g.epoch).count ⟨0xB04, 1, none, none, none⟩) :
    epochPublish s = truncate (updateLow (wakeFlushes (wakeOutcomes (raiseApplied
      ((s2.mpd.recs.filter (fun r => r.fate == some g.epoch)).foldl markDirty s2))))) := by
  subst h1 h2
  simp only [epochPublish, hc, hd, hp, ho, Bool.not_true, Bool.or_self, Bool.false_eq_true, if_false]

end Publishing

end Groups

section Projections
variable {s s1 : State} {v k : Nat} {p : Proj} {e : VolEnt} {r : JRec}

theorem projectionApply_runs (hd : s.flag F.mpdStatus_replay_done 0 = true) (hh : s.halted = false) :
    projectionApply s v = reclaimNow (applyNext s v) v := by
  simp only [projectionApply, hd, hh, Bool.not_false, Bool.and_self, if_true]

section Owed
variable (hp : s.vols.projs.find? (fun x => x.1 == v) = some (k, p)) (he : s.vol v = some e)
  (hr : firstByEpoch (s.mpd.recs.filter (applyOwed s v)) = some r) (hk : keyLost s e = false)
include hp he hr hk

theorem applyNext_applied (ha : (applyJournal p e (volKey s e) r (r.fate.getD 0)).exec s = (.ok true, s1)) :
    applyNext s v = raiseApplied (((markApplied s1 r.seq).setFlag F.volState_proj_full v false).count ⟨0xB08, 1, none, none, none⟩) := by
  simp only [applyNext, hp, he, hr, hk, ha, Bool.false_eq_true, if_false]

theorem applyNext_full (ha : (applyJournal p e (volKey s e) r (r.fate.getD 0)).exec s = (.ok false, s1)) :
    applyNext s v = if s.flag F.volState_proj_full v then s1 else (s1.setFlag F.volState_proj_full v true).devEvent 0x0A03 v := by
  simp only [applyNext, hp, he, hr, hk, ha, Bool.false_eq_true, if_false]

end Owed

/-- The records that replay applies: those of a committed epoch above the checkpoint. -/
def replayed (s : State) : List JRec :=
  s.mpd.recs.filter (fun r => !r.dead && (r.kind == kRow || r.kind == kRowDelete || ((r.kind == kSector || r.kind == kTrim) && recCounts s r)) &&
    (match r.fate with
      | some e => decide (s.reg .mpdCkpt 0 < e ∧ e ≤ s.reg .mpdEpoch 0)
      | none => false))

theorem replayDone_replays (hb : s.flag F.mpdStatus_replay_busy 0 = true) : replayDone s =
    (((raiseApplied (replayAll [] (byEpoch (replayed s)) s)).setFlag F.mpdStatus_replay_busy 0 false).setFlag
      F.mpdStatus_replay_done 0 true).devEvent 0x0904 0 := by
  rw [replayDone, hb]
  rfl

end Projections

/-- Settles O53: each event by the record, the group or the projection that is next. -/
theorem journalEvents : Obligations.JournalEvents := by
  intro s
  refine ⟨fun a n b r s1 s2 hq hm ha hn hj h2 => ?join, fun hm hw => next_settled rfl (recordJoin_waits hm hw),
    fun n rest t s0 job hr ht hm hq h0 hjob => ⟨fun s1 r s2 hc hj s3 h3 => next_settled rfl (commitClaims_made hr ht hm hq h0 hjob hc hj h3),
      fun s1 e hc => next_settled rfl (commitClaims_lost hr ht hm hq h0 hjob hc)⟩,
    fun g hg hp => next_settled rfl (groupClose_closes hg hp), fun g r hg hr => next_settled rfl (sealDurable_marks hg hr),
    fun g rest s1 s2 hc hd hp h1 => ⟨fun ho => next_settled rfl (epochPublish_stands hc hd hp h1 ho),
      fun ho h2 => next_settled rfl (epochPublish_moves hc hd hp h1 ho h2)⟩,
    fun v k p e r hd hh hp he hr hk => ?apply, fun rs hb hrs => ?replay⟩
  case join =>
    have hf : joinFirst s [] s.mpd.joinQ = some n := by rw [hq]; exact joinFirst_some hn ha (List.not_mem_nil)
    refine ⟨fun hno => next_settled rfl (recordJoin_plain hm hf hj h2 hno), fun id s3 hid h3 => ?_⟩
    have hjoins := recordJoin_job hm hf hj h2 hid h3
    exact ⟨fun hv => next_settled rfl (hjoins.trans (if_neg (by rw [hv]; exact Bool.false_ne_true))), fun hv => next_settled rfl (hjoins.trans (if_pos hv))⟩
  case apply =>
    have hruns := projectionApply_runs (v := v) hd hh
    exact ⟨fun s1 ha => next_settled rfl (hruns.trans (by rw [applyNext_applied hp he hr hk ha])),
      fun s1 ha => next_settled rfl (hruns.trans (by rw [applyNext_full hp he hr hk ha]))⟩
  case replay =>
    have hall : rs = replayed s := hrs
    exact next_settled rfl ((replayDone_replays hb).trans (by rw [hall]))

end Sys2Proof.Proofs
end

section
/-! Proofs: Sluice channels, movers and request lines (16 R517, R519, R520, R522 to R525, R530). -/

open Sys2Proof Sys2Proof.Machine

namespace Sys2Proof.Proofs

section Descriptors
variable {s t : State} {c : Nat} {d : Desc} {ds : List Desc} {x : Chan}

/-- A channel of no job, or of a job whose slice is not being reset, keeps its writes. -/
theorem chanCut_false (hj : (s.slu c).job = none ∨ (∃ y j, (s.slu c).job = some y ∧ s.job y.1 = some j ∧ s.fld F.slcCfg_state j.slice ≠ 3)) :
    chanCut s c = false := by
  rcases hj with h | ⟨y, j, hy, hj, hst⟩
  · rw [chanCut, h, Option.any_none]
  · rw [chanCut, hy, Option.any_some, hj, Option.any_some]
    exact beq_false_of_ne hst

/-- A running channel with a mover, or with no byte left, moves the rest of its descriptor. -/
theorem descriptorComplete_moves (hx : x = s.slu c) (hd : x.descs = d :: ds) (hf : x.flushing = false) (hm : x.moved = false)
    (hst : s.fld F.sluChStatus_state c = 1 ∨ s.fld F.sluChStatus_state c = 4) (hl : d.len ≤ x.wrote ∨ x.mover.isSome = true)
    (hj : x.job = none ∨ (∃ y j, x.job = some y ∧ s.job y.1 = some j ∧ s.fld F.slcCfg_state j.slice ≠ 3)) :
    (∀ t, (moveDesc registerIo c d).exec s = (.ok (), t) → descriptorComplete registerIo s c = descBarrier t c d) ∧
    (∀ e t, (moveDesc registerIo c d).exec s = (.error e, t) → descriptorComplete registerIo s c = chanStops t c e) := by
  subst hx
  have hcut := chanCut_false hj
  have hstate : (chanState s c == 1 || chanState s c == 4) = true := by rw [chanState]; rcases hst with h | h <;> rw [h] <;> rfl
  have hleft : (leftOf s c d != 0 && (s.slu c).mover.isNone) = false := by
    rcases hl with h | h
    · have h0 : leftOf s c d = 0 := Nat.sub_eq_zero_of_le h
      rw [h0]; rfl
    · rw [← Option.not_isSome, h, Bool.not_true, Bool.and_false]
  constructor
  · intro t ht
    simp only [descriptorComplete, hd, hf, hm, hstate, hleft, hcut, ht, Bool.not_true, Bool.or_self, Bool.false_eq_true, if_false]
  · intro e t ht
    simp only [descriptorComplete, hd, hf, hm, hstate, hleft, hcut, ht, Bool.not_true, Bool.or_self, Bool.false_eq_true, if_false]

theorem descBarrier_flushes (hb : d.barrier = true) (hu : (t.slu c).unflushed = true) : descBarrier t c d =
    ((hostRequest (t.setSlu c (fun x => { x with flushing := true, moved := true, mover := none })) (some (chanReq t c).slice)).countReq
      (chanReq t c) 0x905 1).countReq (chanReq t c) 0xE04 1 := by
  simp only [descBarrier, hb, hu, Bool.and_self, if_true]

theorem descBarrier_done (h : d.barrier = false ∨ (t.slu c).unflushed = false) : descBarrier t c d = descDone t c d := by
  have hnone : (d.barrier && (t.slu c).unflushed) = false := Bool.and_eq_false_iff.mpr h
  simp only [descBarrier, hnone, Bool.false_eq_true, if_false]

end Descriptors

section Movers
variable {s s1 : State} {m c : Nat}

theorem moverGrant_eq (hm : m < 4) (h1 : s1 = sampleLines (startTransfers (startArmed (endBurst registerIo s m)))) :
    moverGrant registerIo s m = grantNext s1 m := by rw [moverGrant, if_neg hm.not_ge, h1]

theorem grantNext_free (hn : nextGrant s1 m = some c) (ho : moverOwner s1 m = none ∨ moverOwner s1 m = some c) :
    grantNext s1 m = giveMover s1 c m := by
  rcases ho with ho | ho <;> simp only [grantNext, hn, ho, if_true]

theorem grantNext_taken (hn : nextGrant s1 m = some c) {o : Nat} (ho : moverOwner s1 m = some o) (hne : o ≠ c) :
    grantNext s1 m = giveMover (loseMover s1 o 3) c m := by simp only [grantNext, hn, ho, if_neg hne]

theorem grantNext_none (hn : nextGrant s1 m = none) : grantNext s1 m = s1 := by simp only [grantNext, hn]

/-- A HIGH or URGENT channel, no mover free, takes a lower one's after the beats that it has written. -/
theorem moverPreempt_takes {n o : Nat} (hall : ∀ k, k < 4 → (moverOwner s k).isSome = true) (hb : beatReady s c = true)
    (hno : (s.slu c).mover = none) (hl : 2 ≤ chanLevel s c) (hv : preemptVictim s c = some (o, m)) (h1 : s1 = moveBeats registerIo s o n) :
    moverPreempt registerIo s c n = if (s1.slu o).mover = some m then (giveMover (loseMover s1 o 3) c m).countReq (chanReq s c) 0xE02 1
      else giveMover s1 c m := by
  have hfree : (List.range 4).any (fun m => (moverOwner s m).isNone) = false := by
    rw [List.any_eq_false]
    intro k hk
    rw [← Option.not_isSome, hall k (List.mem_range.mp hk)]
    exact Bool.false_ne_true
  simp only [moverPreempt, hfree, hb, hno, decide_eq_false hl.not_gt, hv, h1, Option.isSome_none, Bool.not_true, Bool.or_self,
    Bool.false_eq_true, if_false]

end Movers

/-- Settles O55: each event by the channel or the line. -/
theorem channelEvents : Obligations.ChannelEvents := by
  intro s
  refine ⟨fun c d ds x hx hd hf hm hst hl hj => ?descriptor, fun m s1 hm h1 => ?grant, fun c n o m s1 hall hb hno hl hv h1 => ?preempt,
    fun l t ht => ?rise, fun l => next_settled rfl rfl⟩
  case descriptor =>
    obtain ⟨hok, herr⟩ := descriptorComplete_moves hx hd hf hm hst hl hj
    refine ⟨fun t ht => ⟨fun hb hu => next_settled rfl ((hok t ht).trans (descBarrier_flushes hb hu)),
      fun h => next_settled rfl ((hok t ht).trans (descBarrier_done h))⟩, fun e t ht => next_settled rfl ((herr e t ht).trans ?_)⟩
    rw [chanStops]
    cases (t.slu c).job with
    | none => rfl
    | some y => rfl
  case grant =>
    have hgrant := moverGrant_eq hm h1
    exact ⟨fun c hn => ⟨fun ho => next_settled rfl (hgrant.trans (grantNext_free hn ho)),
      fun o ho hne => next_settled rfl (hgrant.trans (grantNext_taken hn ho hne))⟩, fun hn => next_settled rfl (hgrant.trans (grantNext_none hn))⟩
  case preempt =>
    have htakes := moverPreempt_takes hall hb hno hl hv h1
    exact ⟨fun h => next_settled rfl (htakes.trans (if_pos h)), fun h => next_settled rfl (htakes.trans (if_neg h))⟩
  case rise => subst ht; exact next_settled rfl rfl

end Sys2Proof.Proofs
end

section
/-! Proofs: Granary, DRAM and translation events (13 R451, R462, 14 R475, R476, R479, R482, R485, 15 R492 to R507). -/

open Sys2Proof Sys2Proof.Machine

namespace Sys2Proof.Proofs

section Lines
variable {s : State} {a : LineAccess} (hd : (isLocal s a.dpa || isHost a.dpa) = true) (hs : a.slice < 64)
include hd hs

/-- An access that no held line's check concerns. -/
theorem lineFill_clean (h : granFind s a.dpa = none ∨ a.check = .clean) : lineFill s a = lineStart s a := by
  rcases h with h | h
  · simp [lineFill, hd, hs.not_ge, h]
  · cases hg : granFind s a.dpa <;> simp [lineFill, hd, hs.not_ge, h, hg]

theorem lineFill_corrected {w : Nat × GLine} (hg : granFind s a.dpa = some w) (hc : a.check = .corrected) :
    lineFill s a = lineStart ((s.addSat F.grnErrCnt_corrected 0 1).count ⟨0x60B, 1, none, none, none⟩) a := by
  simp [lineFill, hd, hs.not_ge, hg, hc]

theorem lineFill_refetched {k : Nat} {l : GLine} (hg : granFind s a.dpa = some (k, l)) (hc : a.check = .uncorrectable) (hl : l.dirty = false) :
    lineFill s a = lineStart (granError (s.setWay k none) l.line false) a := by simp [lineFill, hd, hs.not_ge, hg, hc, hl]

theorem lineFill_lost {k v : Nat} {l : GLine} {t : State} (hg : granFind s a.dpa = some (k, l)) (hc : a.check = .uncorrectable)
    (hl : l.dirty = true) (hv : (s.setWay k none).drawFree = (v, t)) :
    lineFill s a = failAccess (granDrained (granError (dramWrite t noSlice l.line (natLE 64 v) true) l.line true)) a.job 4 := by
  simp [lineFill, hd, hs.not_ge, hg, hc, hl, hv]

end Lines

section Reads
variable {s t : State} {a : DramAccess}

theorem dramFetch_queued {who : Occ} {dpa : Nat} (hq : lineQueued s (dpa / 64) = true) : dramFetch s who dpa = s := if_pos hq

/-- A read whose line waits, unpoisoned, in the write queue. -/
theorem dramReadEvent_queued (hd : isLocal s a.dpa = true) (hm : a.merge = none) (hq : lineQueued s (a.dpa / 64) = true)
    (hp : poisoned s (a.dpa / 64) = false) : dramReadEvent s a = s := by
  simp [dramReadEvent, hd, hm, hq, hp, dramFetch_queued]

section Fetched
variable (hd : isLocal s a.dpa = true) (hm : a.merge = none) (ht : t = dramFetch s (readOcc s a) a.dpa)
  (hq : lineQueued s (a.dpa / 64) = false ∨ poisoned s (a.dpa / 64) = true)
include hd hm ht hq

theorem dramReadEvent_clean (he : eccBad a.burst a.dpa = none) (hp : poisoned s (a.dpa / 64) = false) :
    dramReadEvent s a = if eccCorrected a.burst a.dpa ∧ a.speculative = false then correctedDemand t a.dpa else t := by
  have hq' := hq.resolve_right (by simp [hp])
  subst ht
  simp [dramReadEvent, hd, hm, hq', hp, he]

omit hq in
theorem dramReadEvent_poisoned (he : eccBad a.burst a.dpa = none) (hs : a.speculative = false) (hp : poisoned s (a.dpa / 64) = true) :
    dramReadEvent s a = failAccess ((dmcRecord t a.dpa 2 0 0).devEvent 0x0F02 0) a.job 5 := by
  subst ht
  simp [dramReadEvent, hd, hm, hp, he, hs, boolNat]

theorem dramReadEvent_bad {kind mask : Nat} (he : eccBad a.burst a.dpa = some (kind, mask)) (hs : a.speculative = false) :
    dramReadEvent s a = failAccess (dramUncorrectable t a.dpa kind 0 mask (burstData t a.burst a.dpa)) a.job 5 := by
  have hserved : (lineQueued s (a.dpa / 64) && !poisoned s (a.dpa / 64)) = false := by rcases hq with h | h <;> simp [h]
  subst ht
  simp [dramReadEvent, hd, hm, hserved, he, hs, boolNat]

end Fetched

section Merged
variable {b bytes : List Byte} (hd : isLocal s a.dpa = true) (hm : a.merge = some b) (hb : bytes = b.take (64 - a.dpa % 64))
include hd hm hb

/-- A partial write whose read returns clean, or that reads nothing. -/
theorem dramReadEvent_merges (h : lineQueued s (a.dpa / 64) = true ∨ bytes.length = 64 ∨
    (eccBad a.burst a.dpa = none ∧ eccCorrected a.burst a.dpa = false)) : dramReadEvent s a = dramMerge s (readOcc s a) a.dpa bytes := by
  cases hwhole : (lineQueued s (a.dpa / 64) || bytes.length == 64) with
  | true => simp only [dramReadEvent, hd, hm, ← hb, hwhole, Bool.not_true, Bool.false_eq_true, if_false, if_true]
  | false =>
    simp only [Bool.or_eq_false_iff, beq_eq_false_iff_ne, ne_eq] at hwhole
    obtain ⟨he, hc⟩ := (h.resolve_left (by simp [hwhole.1])).resolve_left hwhole.2
    have hpart : (lineQueued s (a.dpa / 64) || bytes.length == 64) = false := by simp [hwhole]
    simp only [dramReadEvent, hd, hm, ← hb, hpart, he, hc, Bool.not_true, Bool.false_eq_true, if_false]

theorem dramReadEvent_mergesCorrected (hq : lineQueued s (a.dpa / 64) = false) (hl : bytes.length ≠ 64) (he : eccBad a.burst a.dpa = none)
    (hc : eccCorrected a.burst a.dpa = true) : dramReadEvent s a = correctedDemand (dramMerge s (readOcc s a) a.dpa bytes) a.dpa := by
  have hpart : (lineQueued s (a.dpa / 64) || bytes.length == 64) = false := by simp [hq, hl]
  simp only [dramReadEvent, hd, hm, ← hb, hpart, he, hc, Bool.not_true, Bool.false_eq_true, if_false, if_true]

end Merged

end Reads

section Channels
variable {s : State} {c : Nat}

theorem chanReady_true (hc : c < 12) (hi : s.flag F.dmcStatus_init_done 0 = true) : chanReady s c = true := by
  rw [chanReady, hi, decide_eq_true hc]; rfl

theorem refresh_closes {temp : Int} {s1 s2 : State} {hot : Bool} (hr : chanReady s c = true) (hs : (s.chan c).selfRefresh = false)
    (h1 : s1 = (s.setFld F.dmcChStatus_dimm_temp c (ofSigned 8 temp)).setFld F.dmcChStatus_owed c 0)
    (hh : hot = (List.range 12).any (fun k => decide (85 < dimmTemp s1 k)))
    (h2 : s2 = (List.range 12).foldl (fun t k => t.setFlag F.dmcChStatus_fast_refresh k hot) s1) : refresh s c temp =
      (s2.setChan c (fun d => { d with rows := [] })).count ⟨0x71A, s2.fld F.dmcChStatus_ranks c, none, none, none⟩ := by
  subst h2 hh h1
  simp only [refresh, hr, hs, Bool.not_true, Bool.or_self, Bool.false_eq_true, if_false]

theorem zqCalibrate_runs (hr : chanReady s c = true) (hs : (s.chan c).selfRefresh = false) :
    zqCalibrate s c = s.setChan c (fun d => { d with zqDone := d.zqDone + 1 }) := by
  simp only [zqCalibrate, hr, hs, Bool.not_true, Bool.or_self, Bool.false_eq_true, if_false]

theorem srReentry_sleeps (hr : chanReady s c = true) (hq : s.flag F.dmcPwr_sr_req 0 = true) (hs : (s.chan c).selfRefresh = false) :
    srReentry s c = chanSleep s c := by
  simp only [srReentry, hr, hq, hs, Bool.not_false, Bool.and_self, if_true]

theorem tempPoll_eq {temp : Int} {d : DelaySet} {b : Nat} (hd : delaySet s 1 = some d)
    (hb : b = bandNext d.low d.high temp (s.fld F.dmcStatus_band 0)) (hi : s.flag F.dmcStatus_init_done 0 = true) :
    tempPoll s temp = if b = s.fld F.dmcStatus_band 0 then s else bandSwitch s b := by
  subst hb
  simp only [tempPoll, hd, hi, Bool.not_true, Bool.false_or, beq_iff_eq]

/-- The patrol's next line, where the device reads it. -/
theorem patrolRead_reads {check : Burst} {pos : Nat} {s1 s2 : State} (hpos : pos = s.reg .dmcScrubPos 0)
    (he : s.flag F.dmcScrub_enable 0 = true) (hi : s.flag F.dmcStatus_init_done 0 = true)
    (hs : (s.chan (dramChannel pos)).selfRefresh = false) (hl : isLocal s pos = true)
    (h1 : s1 = dramFetch ((scrubIssue s).count ⟨0x71F, 1, none, none, some pos⟩) noSlice pos)
    (h2 : s2 = s1.setReg .dmcScrubPos 0 (if pos + 64 < s.capacity then pos + 64 else 0)) (hp : poisoned s1 (pos / 64) = false)
    (hq : lineQueued s1 (pos / 64) = false) :
    (∀ kind mask, eccBad check pos = some (kind, mask) →
      patrolRead s check = dramUncorrectable s2 pos kind 2 mask (burstData s2 check pos)) ∧
    (eccBad check pos = none → patrolRead s check = if eccCorrected check pos then
      ({ s2 with dram := { s2.dram with scrubHeld := some (pos / 64, dramLine s2 (pos / 64)) } } : State).count
        ⟨0x71E, 1, none, none, some pos⟩ else s2) := by
  subst h2 h1 hpos
  constructor
  · intro kind mask hb
    simp only [patrolRead, he, hi, hs, hl, hp, hq, hb, Bool.not_true, Bool.or_self, Bool.false_eq_true, if_false]
  · intro hb
    simp only [patrolRead, he, hi, hs, hl, hp, hq, hb, Bool.not_true, Bool.or_self, Bool.false_eq_true, if_false]

end Channels

section Granary
variable {s t : State}

theorem granDrained_clean (hst : t.fld F.grnStatus_state 0 = granDraining) (hd : t.fld F.grnStatus_dirty_lines 0 = 0) :
    granDrained t = (granDropAll t).setFld F.grnStatus_state 0 granDisabled := if_pos ⟨hst, hd⟩

theorem granDrained_stays (h : t.fld F.grnStatus_state 0 ≠ granDraining ∨ t.fld F.grnStatus_dirty_lines 0 ≠ 0) : granDrained t = t :=
  if_neg fun hboth => h.elim (absurd hboth.1) (absurd hboth.2)

theorem drainComplete_cleans (hst : s.fld F.grnStatus_state 0 = granDraining) :
    drainComplete s = granDrained ((heldWays s).foldl (fun t x => granClean t x.1 x.2) s) := if_neg (not_not.mpr hst)

theorem maintComplete_ends {m : Maint} (hm : s.gran.maint = some m)
    (ht : t = if m.op = 3 then (rangeLines m.base m.len).foldl (zeroLine m.base m.len) s else (heldWays s).foldl (maintLine m.op m.base m.len) s) :
    maintComplete s = granDrained ((({ t with gran := { t.gran with maint := none } } : State).setFlag
      F.grnMaintBusy_busy 0 false).addWrap F.grnMaintBusy_completed 0 1) := by
  subst ht
  simp only [maintComplete, hm]

theorem invalComplete_job {id : Nat} {j : Job} (hj : s.job id = some j) (hop : j.hdr.op / 256 = 8) (hst : j.started = true)
    (ho : j.outc = none) : invalComplete s (some id) = finishJob s id ⟨0, 0, 0⟩ := by
  simp only [invalComplete, hj, hop, hst, ho, and_self, if_true, okJob]

end Granary

/-- Settles O56: each event by what the line, the channel or the Granary holds. -/
theorem memoryEvents : Obligations.MemoryEvents := by
  intro s
  refine ⟨fun a hd hs => ?lines, fun a hd hm hq hp => next_settled rfl (dramReadEvent_queued hd hm hq hp), fun a t hd hm ht hq => ?reads,
    fun a b bytes hd hm hb => ?merges, fun c => ⟨fun h => next_settled rfl (if_pos h), fun h => next_settled rfl (if_neg h.not_ge)⟩,
    fun c b => next_settled rfl rfl,
    fun c temp s1 hot s2 hc hi hs h1 hh h2 => next_settled rfl (refresh_closes (chanReady_true hc hi) hs h1 hh h2),
    fun c hc hi hs => next_settled rfl (zqCalibrate_runs (chanReady_true hc hi) hs), fun temp d b hd hb hi => ?band,
    fun check pos s1 s2 hpos he hi hs hl h1 h2 hp hq => ?patrol,
    fun c hc hi hq hs => next_settled rfl (srReentry_sleeps (chanReady_true hc hi) hq hs),
    fun hst => next_settled rfl (drainComplete_cleans hst), fun t hst hd => granDrained_clean hst hd, fun t h => granDrained_stays h,
    fun m t hm ht => next_settled rfl (maintComplete_ends hm ht), next_settled rfl rfl,
    fun id j hj hop hst ho => next_settled rfl (invalComplete_job hj hop hst ho), fun b => next_settled rfl rfl⟩
  case lines =>
    exact ⟨fun h => next_settled rfl (lineFill_clean hd hs h), fun w hg hc => next_settled rfl (lineFill_corrected hd hs hg hc),
      fun k l hg hc hl => next_settled rfl (lineFill_refetched hd hs hg hc hl),
      fun k l v t hg hc hl hv => next_settled rfl (lineFill_lost hd hs hg hc hl hv)⟩
  case reads =>
    refine ⟨fun he hc hp => ?_, fun he hc hp => ?_, fun he hs hp => next_settled rfl (dramReadEvent_poisoned hd hm ht he hs hp),
      fun kind mask he hs => next_settled rfl (dramReadEvent_bad hd hm ht hq he hs)⟩
    · exact next_settled rfl ((dramReadEvent_clean hd hm ht hq he hp).trans (if_neg (by simp [hc])))
    · refine next_settled rfl ((dramReadEvent_clean hd hm ht hq he hp).trans ?_)
      cases hs : a.speculative <;> simp [hc]
  case merges =>
    exact ⟨fun h => next_settled rfl (dramReadEvent_merges hd hm hb h),
      fun hq hl he hc => next_settled rfl (dramReadEvent_mergesCorrected hd hm hb hq hl he hc)⟩
  case band =>
    have hpoll := tempPoll_eq hd hb hi
    exact ⟨fun h => next_settled rfl (hpoll.trans (if_neg h)), fun h => next_settled rfl (hpoll.trans (if_pos h))⟩
  case patrol =>
    obtain ⟨hbad, hgood⟩ := patrolRead_reads (check := check) hpos he hi hs hl h1 h2 hp hq
    refine next_settled rfl ?_
    cases hecc : eccBad check pos with
    | none => exact hgood hecc
    | some x => exact hbad x.1 x.2 hecc

end Sys2Proof.Proofs
end

section
/-! Proofs: resets, OTP, keys, counters and buckets (17 R541, R548, R549, 19 R576, R581, R593, 20 R608, R610, R611), the System Management Bus (18 R562,
R565), and power, resets and pins (03 R113, 09 R336, 18 R553 to R568, 19 R586, R587, 22 R634 to R652). -/

open Sys2Proof Sys2Proof.Machine

namespace Sys2Proof.Proofs

section Units
variable {s t : State}

/-- A slice reset that waits for nothing more ends. -/
theorem resetDrained_ends {n : Nat} {r : SliceReset} {s1 s4 s5 s6 : State} (hr : s.resets.find? (fun r => r.slice == n) = some r)
    (hh : s.halted = false) (hd : resetDone s n = true)
    (h1 : s1 = if r.report then (sliceQueues n).foldl (fun t q => reportQueue t q r.oldGen) s else s)
    (h4 : s4 = resetSliceRegs (clearFlows (purgePrograms (xltPurge (truncate (dropSliceJobs s1 n))
      { op := 1, stage1 := true, stage2 := true, slice := n, addr := 0, pages := 0 }) n) n) n)
    (h5 : s5 = if r.destroy then (((s4.resetReg .slcCfg n).resetReg .slcPasid n).resetReg .slcBwCfg n).setLimit n (0, 0)
      else bucketFill (s4.setFld F.slcCfg_state n 1) n)
    (h6 : s6 = (s5.addWrap F.slcGen_resets n 1).count ⟨0xF01, 1, some n, none, none⟩) :
    resetDrained s n = finishJob { s6 with resets := s6.resets.filter (fun x => x.slice != n) } r.job
      ⟨0, 0, s6.fld F.slcGen_generation n + r.count % 2 ^ 32 * 2 ^ 16⟩ := by
  subst h6 h5 h4 h1
  simp only [resetDrained, hr, hh, hd, Bool.not_true, Bool.or_self, Bool.false_eq_true, if_false, okJob]

theorem otpProgrammed_ends {lost : Nat} {o : OtpOp} (ho : s.otpOp = some o) (ht : t = (otpSettle s o lost).setFlag F.otpStatus_busy 0 false) :
    otpProgrammed s lost = otpResult t o.group o.gen (if otpPasses o.group o.gen (otpWord t o.group o.gen) then 1 else 2) := by
  subst ht
  simp only [otpProgrammed, ho]

theorem keyOpDone_ends {n : Nat} {k : KeySlot} {new : Bool} {s0 : State} (ho : s.keyOp = some (n, k, new))
    (h0 : s0 = (writeKeyRec s n k).setSlot n k) : keyOpDone s =
      zeroKeyData (({ (if new then keyReplaced s0 n else s0) with keyOp := none } : State).setFlag F.brkKeyCtl_busy 0 false) := by
  subst h0
  simp only [keyOpDone, ho]

section Restoring
variable (hb : s.flag F.brkRestoreCtl_busy 0 = true) (ht : t = s.setFlag F.brkRestoreCtl_busy 0 false)
include hb ht

theorem keysRestored_restores {good bad : Nat} {u : State} (hok : restoreOk s = true) (hu : unwrapAll t = (good, bad, u)) : keysRestored s =
    ((keyHeader (consumeChallenge u) false (eraseCount s) ((restoreCount s + 1) % 2 ^ 32)).setFlag F.brkStatus_keys_erased 0 false).devEvent
      0x1303 (good + bad * 2 ^ 8) := by
  subst ht
  simp only [keysRestored, hb, hok, hu, Bool.not_true, Bool.false_eq_true, if_false, if_true]

theorem keysRestored_fails {k : Nat} (hok : restoreOk s = false) (hk : k = s.fld F.brkStatus_restore_failures 0 + 1) : keysRestored s =
    ((consumeChallenge (t.setFlag F.brkRestoreCtl_error 0 true)).setFld F.brkStatus_restore_failures 0 k).setFlag
      F.brkStatus_restore_locked 0 (decide (8 ≤ k)) := by
  subst hk ht
  simp only [keysRestored, hb, hok, Bool.not_true, Bool.false_eq_true, if_false]

end Restoring

theorem windowEnd_ends {stop : Nat} {s1 s2 s3 : State} (hstop : stop = s.bw.start + s.fld F.sckBwCfg_window_us 0)
    (h1 : s1 = clockTo s (1600 * stop)) (h2 : s2 = if s1.bw.clearPeak then s1.resetRegs (· == .sckBwPeak) else s1)
    (h3 : s3 = (List.range 22).foldl windowPort s2) : windowEnd s = { s3 with bw := { s3.bw with
      bytes := [], start := stop, clearPeak := false, seq := (s3.bw.seq + 1) % 2 ^ 24 } } := by
  simp only [windowEnd, zeroPeaks, ← hstop, ← h1, ← h2, ← h3]

end Units

/-- Settles O57: each event by what the unit has in progress. -/
theorem unitEvents : Obligations.UnitEvents := by
  intro s
  refine ⟨fun n r s1 s4 s5 s6 hr hh hd h1 h4 h5 h6 => next_settled rfl (resetDrained_ends hr hh hd h1 h4 h5 h6),
    fun lost o t ho ht => next_settled rfl (otpProgrammed_ends ho ht), fun n k new s0 ho h0 => next_settled rfl (keyOpDone_ends ho h0),
    fun t hb ht => ⟨fun good bad u hok hu => next_settled rfl (keysRestored_restores hb ht hok hu),
      fun k hok hk => next_settled rfl (keysRestored_fails hb ht hok hk)⟩,
    fun c hc => next_settled rfl (if_pos hc), fun stop s1 s2 s3 hstop h1 h2 h3 => next_settled rfl (windowEnd_ends hstop h1 h2 h3),
    next_settled rfl rfl⟩

section Smbus
variable {s : State} {q : SmbusReq}

/-- A fatal class raised in a device that is on and has not lost power halts it and owes a dump. -/
theorem fatalError_halts (hon : s.boot.on = true) (hp : s.flag F.mpdStatus_pwr_fail 0 = false) (cls : Nat) :
    fatalError s cls = stopTasks { s with halted := true, fatal := some cls } (fun _ => true) := by
  simp only [fatalError, hon, hp, Bool.not_true, Bool.or_self, Bool.false_eq_true, if_false]

section Answered
variable (ha : smbusAnswers s q = true)
include ha

theorem smbusDumpTrigger_halts (hd : q.data = [0xD5]) (hon : s.boot.on = true) (hp : s.flag F.mpdStatus_pwr_fail 0 = false) :
    smbusDumpTrigger s q = stopTasks { s with halted := true, fatal := some 0x107 } (fun _ => true) := by
  rw [smbusDumpTrigger, ha, hd]
  exact fatalError_halts hon hp 0x107

theorem smbusClearBoot_clears {a b c d : Byte} (hd : q.data = [a.toNat, b.toNat, c.toNat, d.toNat]) :
    smbusClearBoot s q = clearSteps s (leNat [a, b, c, d]) := by
  simp [smbusClearBoot, ha, hd]

theorem smbusStep_answers {k : Nat} (hd : q.data = [k]) (hlo : 1 ≤ k) (hhi : k ≤ 31) :
    smbusStep s q = { s with answers := { s.answers with smbus := stepRecBytes s k } } := by
  simp only [smbusStep, ha, hd, hlo, hhi, and_self, if_true, Bool.not_true, Bool.false_eq_true, if_false, smbusReply]

end Answered

theorem smbusDumpTrigger_ignored (hd : q.data ≠ [0xD5]) : smbusDumpTrigger s q = s := by simp [smbusDumpTrigger, hd]

/-- A request that the port does not answer. -/
theorem smbus_unanswered (ha : smbusAnswers s q = false) : smbusStatus s q = s ∧ smbusTemp s q = s ∧ smbusDumpTrigger s q = s ∧
    smbusClearBoot s q = s ∧ smbusStep s q = s := by
  simp [smbusStatus, smbusTemp, smbusDumpTrigger, smbusClearBoot, smbusStep, ha]

end Smbus

/-- Settles O58: each command by whether the port answers it. -/
theorem smbusCommands : Obligations.SmbusCommands := by
  intro s q
  refine ⟨fun ha => ⟨next_settled rfl (if_pos ha), next_settled rfl (if_pos ha),
    fun hd hon hp => next_settled rfl (smbusDumpTrigger_halts ha hd hon hp), fun hd => next_settled rfl (smbusDumpTrigger_ignored hd),
    fun a b c d hd => next_settled rfl (smbusClearBoot_clears ha hd), fun k hd hlo hhi => next_settled rfl (smbusStep_answers ha hd hlo hhi)⟩,
    fun ha => ?unanswered⟩
  case unanswered =>
    obtain ⟨hstatus, htemp, htrigger, hclear, hstep⟩ := smbus_unanswered ha
    simp only [List.forall_mem_cons, List.not_mem_nil, false_imp_iff, implies_true, and_true]
    exact ⟨next_settled rfl hstatus, next_settled rfl htemp, next_settled rfl htrigger, next_settled rfl hclear, next_settled rfl hstep⟩

section Power
variable {s t s1 : State}

theorem powerOn_boots {board : Board} {s2 : State} (hon : s.boot.on = false) (hpin : board.testEn = false)
    (h1 : s1 = powerOff { s with boot := { s.boot with board := board } }) (h2 : s2 = fitDrives s1 board) :
    powerOn s board = startBoot { s2 with boot := { s2.boot with on := true, perst := board.perstN } } true := by
  subst h2 h1
  simp only [powerOn, bringUp, hon, hpin, Bool.false_eq_true, if_false]

theorem powerOn_held {board : Board} (hon : s.boot.on = false) (hpin : board.testEn = true) :
    powerOn s board = powerOff { s with boot := { s.boot with board := board } } := by
  simp only [powerOn, bringUp, hon, hpin, Bool.false_eq_true, if_false, if_true]

theorem pwrFailPin_seals (hon : s.boot.on = true) (hp : s.flag F.mpdStatus_pwr_fail 0 = false)
    (ht : t = sealAll (s.setFlag F.mpdStatus_pwr_fail 0 true)) :
    pwrFailPin s = { t with halted := true, boot := { t.boot with running := [] } } := by
  subst ht
  simp only [pwrFailPin, powerFail, hon, hp, Bool.not_true, Bool.false_eq_true, if_false]

theorem warmReset_reboots (hon : s.boot.on = true) (cause : Nat) : warmReset s cause = reboot s cause 0 (cause == resetFlr) := if_pos hon

theorem stepTimeout_fails {k : Nat} {failed : List (Nat × Nat × Nat)} (hr : s.boot.running.contains k = true) (hw : bootWaits s = false)
    (hs : runSteps workDump (s.boot.running.filter (· != k)) s = (s1, failed)) :
    stepTimeout workDump s k = failSteps s1 (failed ++ [(k, outTimeout, 0)]) := by
  simp only [stepTimeout, hr, hw, hs, Bool.not_true, Bool.or_self, Bool.false_eq_true, if_false]

theorem brakeTrip_responds {sensors live : Nat} {s0 : State} {halt : Bool} (hon : s.boot.on = true) (ha : s.boot.armed = true)
    (h0 : s0 = sensorsLive s live) (hb : brakeApply s0 (sensors % 32 &&& (31 - s.fld F.brkStatus_tripped 0)) = (halt, s1)) :
    brakeTrip s sensors live = if halt then (if s.flag F.bootStatus_ready 0 then deviceHalt s1 0x106 else brakeBoot s1) else s1 := by
  subst h0
  cases halt <;> simp [brakeTrip, hon, ha, hb]

theorem thermTrip_asserts {temp : Int} (hon : s.boot.on = true) (ht : 130 ≤ temp) :
    thermTrip s temp = { s with boot := { s.boot with therm := true } } := by
  simp only [thermTrip, hon, ht, decide_true, Bool.and_self, if_true]

theorem thermTrip_below {temp : Int} (ht : temp < 130) : thermTrip s temp = s := by simp [thermTrip, ht]

end Power

/-- Settles O59: each command by whether the device is on. -/
theorem powerCommands : Obligations.PowerCommands := by
  intro s
  refine ⟨fun board s1 s2 hon hpin h1 h2 => next_settled rfl (powerOn_boots hon hpin h1 h2),
    fun board hon hpin => next_settled rfl (powerOn_held hon hpin), next_settled rfl rfl,
    fun hon hp t ht => next_settled rfl (pwrFailPin_seals hon hp ht), fun hon => ?resets,
    fun k s1 failed hr hw hs => next_settled rfl (stepTimeout_fails hr hw hs), fun hon hp => ?fatal,
    fun sensors live s0 halt s1 hon ha h0 hb => next_settled rfl (brakeTrip_responds hon ha h0 hb),
    fun temp hon ht => next_settled rfl (thermTrip_asserts hon ht), fun temp ht => next_settled rfl (thermTrip_below ht),
    fun hon => next_settled rfl (if_pos hon)⟩
  case resets =>
    exact ⟨next_settled rfl (warmReset_reboots hon resetPerst), next_settled rfl (warmReset_reboots hon resetHot),
      next_settled rfl (warmReset_reboots hon resetFlr)⟩
  case fatal =>
    exact ⟨next_settled rfl (fatalError_halts hon hp 0x105),
      fun cls hlo hhi => next_settled rfl ((if_pos ⟨hlo, hhi⟩).trans (fatalError_halts hon hp cls))⟩

end Sys2Proof.Proofs
end
